-- ==== Sys2Proof/Word.lean ====
section
/-! DEFINITION. The word types of the device and their plainest arithmetic. -/

namespace Sys2Proof

/-- A register (R6). -/
abbrev Word := BitVec 32

/-- A byte of memory. -/
abbrev Byte := BitVec 8

/-- A site, tile, region, sequencer or waveform engine: the column of the stack (00_scope, Names). -/
abbrev SiteIx := Fin 16

/-- A lane, transmit or receive; lane `l` belongs to site `l / 16`. -/
abbrev LaneIx := Fin 256

/-- A vault; vault `v` belongs to site `v / 16`. -/
abbrev VaultIx := Fin 256

end Sys2Proof
end

