-- ==== Sys2Proof/Syntax.lean ====
section
/-! DEFINITION. The commands of the device: one constructor of Instr for each row of the opcode table, and the types of
their operands. -/

namespace Sys2Proof

/-- What a SEC-DED check reported. -/
inductive Ecc where
  | ok
  | single
  | double
  deriving DecidableEq, Repr

/-- A requester ID (R364). -/
abbrev Requester := BitVec 5

/-- A frame as it arrives at a PRX lane: its header, its scrambled body, and the round trip in UI from the first bit of the
frame it answers to its own first bit (R177, R190). -/
structure PrxFrame where
  hdr : BitVec 2
  body : BitVec 158
  rtt : Nat
  deriving DecidableEq, Repr

/-- A stretch of the raw bits that PRX lane `lane` receives in PRBS mode, in order of arrival (R196). -/
structure PrbsBits where
  lane : Fin 256
  bits : List Bool
  deriving DecidableEq, Repr

/-- The end of an analysed block: bc from the block's start to its header write, and the cause of an abort taken in that same bc, 0 to 3 for
the rows of R243 in order (R250, R261). -/
structure RpaEnd where
  elapsed : BitVec 64
  abort : Option (Fin 4)
  deriving DecidableEq, Repr

/-- An error that a context read finds in 64-bit part `word` of the context word of a cell (R164). -/
structure CtxUpset where
  plane : Bool
  x : BitVec 6
  y : BitVec 6
  word : BitVec 2
  double : Bool
  deriving DecidableEq, Repr

/-- Z-bus enables that a cell's decoder shows beyond those of its context word: the fault the monitor of R154 is for. -/
structure StrayDrive where
  plane : Bool
  x : BitVec 6
  y : BitVec 6
  zbe : BitVec 4
  deriving DecidableEq, Repr

/-- An upset of a cell register: item 0x00 to 0x0F for w0 to w15, 0x10 for o0, 0x11 for o1 (R141), and the bits that flip. -/
structure RegFlip where
  plane : Bool
  x : BitVec 6
  y : BitVec 6
  item : BitVec 5
  mask : Word
  deriving DecidableEq, Repr

/-- What the memories of a waveform engine report while one instruction executes: the check of the fetched word, those of the
words it reads from X and Y with the bits an uncorrectable error flips, and the wc it lost to other parties at a port (R333,
R334). -/
structure WfeObs where
  p : Ecc
  x : Ecc
  y : Ecc
  flipX : Word
  flipY : Word
  stall : Nat
  /-- the checks of words 1 to 3 of a descriptor (R333, R350) -/
  desc : List (Ecc × Word) := []
  /-- the checks that are not ok among the words that a transfer to DRAM reads, by their place in it (R333, R349) -/
  moved : List (Nat × Ecc × Word) := []
  deriving DecidableEq, Repr

/-- A commit register (R361): its block, and its window. -/
inductive CommitReg where
  | seq (k : Fin 16)
  | lnk (w : Fin 512)
  | cap (k : Fin 16)
  | rpa (k : Fin 16)
  | vlt
  | cfg
  | wfe (k : Fin 16)
  | pmu
  | noc
  | spd
  deriving DecidableEq, Repr

/-- What decides a write of a command register beside the value written: whether a trigger of a higher kind came in the same hc
(R35), which vaults drop queued requests (R288, R289), the last cycle that a host stop lets issue (R100), and which W1C bits are set
again in the same bc (R366). -/
structure WriteAux where
  lost : Bool
  dropped : BitVec 256
  last : BitVec 48
  race : Word := 0
  deriving DecidableEq, Repr

/-- What the checks of the scratchpad words of one access report: how many words had a single-bit error, whether one had a double-bit error,
and the wrong bits that such errors leave in the bytes (R374). -/
structure SpdObs where
  singles : Nat := 0
  double : Bool := false
  flip : List Byte := []
  deriving DecidableEq, Repr

/-- What the scratchpad reports to a DMA engine for one descriptor: for the descriptor's words and for the data's (R374). -/
structure DmaObs where
  ring : SpdObs := {}
  data : SpdObs := {}
  deriving DecidableEq, Repr

/-- An AMO of the hart (R381, R382). -/
inductive AmoOp where
  | swap
  | add
  | xor
  | and
  | or
  | min
  | max
  | minu
  | maxu
  deriving DecidableEq, Repr

/-- How a requester uses a scratchpad access; the atomics are the hart's (R382). -/
inductive SpdUse where
  | plain
  | lr
  | sc
  | amo (op : AmoOp)
  deriving DecidableEq, Repr

/-- How a TLP of the host arrives: good, poisoned, or with a wrong ECRC (R356). -/
inductive Tlp where
  | good
  | poisoned
  | badEcrc
  deriving DecidableEq, Repr

/-- What the host writes in configuration space beside MSI-X: the BARs, the size of BAR4 as 2^size · 64 GiB, and the power state D3hot
(R356 to R358). -/
structure PciConf where
  bar0 : BitVec 64 := 0
  bar2 : BitVec 64 := 0
  bar4 : BitVec 64 := 0
  size : Fin 6 := 5
  d3hot : Bool := false
  deriving DecidableEq, Repr

/-- A slot of a Glint request: from the falling edge of the slot or sync before it to its own, and how long the probe holds the line low, in
ns (R399). -/
structure GlintSlot where
  gap : Nat
  low : Nat
  deriving DecidableEq, Repr

/-- A request on the Glint wire: its CRC and the slots that carry it (R399, R400). -/
structure GlintFrame where
  crc : BitVec 8
  slots : List GlintSlot
  deriving DecidableEq, Repr

/-- How the hart or another requester accesses the scratchpad; `user` for the hart's user code (R382, R388). -/
structure SpdHow where
  use : SpdUse := .plain
  user : Bool := false
  deriving DecidableEq, Repr

/-- How a burn of fuses goes on: more entries follow, it is done, or VIN has fallen (R284). -/
inductive FuseEnd where
  | more
  | done
  | vinFell
  deriving DecidableEq, Repr

/-- The MSI-X enable and the function mask (R366). -/
structure MsixCtl where
  enable : Bool
  funcMask : Bool
  deriving DecidableEq, Repr

/-- How a flash command ends: the page that failed to program, and what the checks of the scratchpad words reported (R374, R383). -/
structure FwEnd where
  fail : Option Nat := none
  spd : SpdObs := {}
  deriving DecidableEq, Repr

/-- Where the monitor has halted the program, and how many instructions after the hart's last access (R16, R396). -/
structure HaltPoint where
  pc : Word
  instrs : Nat := 0
  deriving DecidableEq, Repr

/-- The data of an SMBus command, and its packet error code where it has one (R488). -/
structure SmbData where
  value : Word
  pec : Option (BitVec 8) := none
  deriving DecidableEq, Repr

/-- The two measurements of a calibration run, in taps from the production value (R471). -/
structure CalTaps where
  t1 : BitVec 8
  t2 : BitVec 8
  deriving DecidableEq, Repr

/-- What a packet asks for: a read of the host, a service request of the row of an address with attribute 1 reserve or 2 release (R377), a
write, or anything else. -/
inductive NocAsk where
  | read
  | write
  | service (a : BitVec 41) (attr : BitVec 2)
  | other
  deriving DecidableEq, Repr

/-- The commands, in the order of the opcode table. -/
inductive Instr where
  | vec (k : SiteIx) (w : BitVec 64) (ecc : Ecc)
  | rpt (k : SiteIx) (w : BitVec 64) (ecc : Ecc)
  | loop (k : SiteIx) (w : BitVec 64) (ecc : Ecc)
  | endl (k : SiteIx) (w : BitVec 64) (ecc : Ecc)
  | jmp (k : SiteIx) (w : BitVec 64) (ecc : Ecc)
  | jcc (k : SiteIx) (w : BitVec 64) (ecc : Ecc)
  | call (k : SiteIx) (w : BitVec 64) (ecc : Ecc)
  | ret (k : SiteIx) (w : BitVec 64) (ecc : Ecc)
  | matchLoop (k : SiteIx) (w : BitVec 64) (ecc : Ecc)
  | matchDecision (k : SiteIx)
  | seqHalt (k : SiteIx) (w : BitVec 64) (ecc : Ecc)
  | seqPark (k : SiteIx) (w : BitVec 64) (ecc : Ecc)
  | sync (k : SiteIx) (w : BitVec 64) (ecc : Ecc)
  | syncRelease (mask : BitVec 16) (id : BitVec 4)
  | setf (k : SiteIx) (w : BitVec 64) (ecc : Ecc)
  | waitf (k : SiteIx) (w : BitVec 64) (ecc : Ecc)
  | waitfComplete (k : SiteIx)
  | waitTimeout (k : SiteIx)
  | ldlc (k : SiteIx) (w : BitVec 64) (ecc : Ecc)
  | seqLdx (k : SiteIx) (w : BitVec 64) (ecc : Ecc)
  | addx (k : SiteIx) (w : BitVec 64) (ecc : Ecc)
  | sww (k : SiteIx) (w : BitVec 64) (ecc : Ecc)
  | calwin (k : SiteIx) (w : BitVec 64) (ecc : Ecc)
  | bistwin (k : SiteIx) (w : BitVec 64) (ecc : Ecc)
  | bistwinRestore (k : SiteIx)
  | expose (k : SiteIx) (w : BitVec 64) (ecc : Ecc)
  | capctlSelectBlock (k : SiteIx) (w : BitVec 64) (ecc : Ecc)
  | capctlSetMode (k : SiteIx) (w : BitVec 64) (ecc : Ecc)
  | seqFlush (k : SiteIx) (w : BitVec 64) (ecc : Ecc)
  | seqIrqInstr (k : SiteIx) (w : BitVec 64) (ecc : Ecc)
  | ovl (k : SiteIx) (w : BitVec 64) (ecc : Ecc)
  | overlayLoadDone (k : SiteIx)
  | lockstepMismatch (k : SiteIx) (cycle : BitVec 48)
  | drainEnd (k : SiteIx)
  | seqArm (req : Requester) (k : SiteIx) (hflag : Bool)
  | armComplete (k : SiteIx)
  | seqStart (req : Requester) (k : SiteIx) (hflag lost : Bool)
  | seqStop (req : Requester) (k : SiteIx) (hflag : Bool) (last : BitVec 48)
  | seqDisarm (req : Requester) (k : SiteIx) (hflag : Bool)
  | seqGstart (req : Requester) (mask : BitVec 16) (lost : Bool)
  | seqGstop (req : Requester) (mask : BitVec 16)
  | seqXflagsSet (req : Requester) (flags : BitVec 16)
  | seqXflagsClr (req : Requester) (flags : BitVec 16)
  | svSeekHost (req : Requester) (k : SiteIx) (value : Word)
  | svRowArrive (k : SiteIx) (row : Nat)
  | ptxVectorFrame (l : LaneIx) (f : Nat)
  | ptxIdleFrame (l : LaneIx) (f : Nat)
  | ptxParkFrame (l : LaneIx) (f : Nat)
  | ptxMarkerFrame (l : LaneIx) (f : Nat)
  | prxDataFrame (l : LaneIx) (f : Nat) (fr : PrxFrame) (expBad : BitVec 8) (dis : BitVec 32)
  | prxIdleFrame (l : LaneIx) (f : Nat) (fr : PrxFrame)
  | prxParkedFrame (l : LaneIx) (f : Nat) (fr : PrxFrame)
  | prxMarkerFrame (l : LaneIx) (f : Nat) (fr : PrxFrame)
  | los (l : LaneIx)
  | cdrLock (l : LaneIx)
  | cdrLossOfLock (l : LaneIx)
  | frameLock (l : LaneIx)
  | echoMissing (l : LaneIx)
  | lnkMeasureGo (req : Requester) (mask : BitVec 16)
  | prbsSync (r : PrbsBits)
  | prbsSyncLost (l : LaneIx) (bits : List Bool)
  | injectFlipBit (req : Requester) (w : Fin 512) (rate : BitVec 4)
  | injectFlipRepeat (req : Requester) (w : Fin 512) (rate : BitVec 4)
  | injectCorruptCrc (req : Requester) (w : Fin 512) (rate : BitVec 4)
  | injectCancel (req : Requester) (w : Fin 512) (rate : BitVec 4)
  | capInjectCmp (req : Requester) (k : SiteIx)
  | lineClose (k : SiteIx)
  | failmapMerge (k : SiteIx)
  | counterUpdate (k : SiteIx)
  | counterLineLoad (k : SiteIx)
  | capFlush (req : Requester) (k : SiteIx)
  | capFlushDone (k : SiteIx)
  | capClearAreas (req : Requester) (k : SiteIx)
  | clearAreasDone (k : SiteIx)
  | capClearRegs (req : Requester) (k : SiteIx)
  | rpaStart (req : Requester) (k : SiteIx)
  | rpaRebuild (req : Requester) (k : SiteIx)
  | rpaAbort (req : Requester) (k : SiteIx)
  | rpaBlockDone (k : SiteIx) (e : RpaEnd)
  | refresh (v : VaultIx) (bank : Fin 128)
  | scrubRow (v : VaultIx)
  | scrubLapAlarm (v : VaultIx)
  | rowActivate (v : VaultIx) (r : BitVec 22) (src : BitVec 3)
  | rowWriteBack (v : VaultIx)
  | serviceBufferIdleWriteBack (v : VaultIx)
  | refreshRateRestore (m : Fin 16)
  | vaultFail (v : VaultIx)
  | selfRefreshExit (v : VaultIx)
  | dramTrainingDone (v : VaultIx) (outcome : BitVec 3) (faulty : List (Bool × BitVec 7 × BitVec 15))
  | rawRead (req : Requester) (v : VaultIx)
  | rawWrite (req : Requester) (v : VaultIx)
  | srepRow (req : Requester) (v : VaultIx)
  | srepCol (req : Requester) (v : VaultIx)
  | srepFree (req : Requester) (v : VaultIx)
  | mntDone (v : VaultIx)
  | vltFuseBurn (req : Requester) (v : VaultIx)
  | vltFuseDone (verified : BitVec 256) (e : FuseEnd)
  | contextRead (k : SiteIx) (u : Nat) (ups : List CtxUpset) (strays : List StrayDrive) (flips : List RegFlip)
  | zbusReloadDone (k : SiteIx) (block : BitVec 8) (bus : BitVec 2) (poison : Bool)
  | cellNop (k : SiteIx) (plane : Bool) (x y : BitVec 6) (i : BitVec 48)
  | cellAdd (k : SiteIx) (plane : Bool) (x y : BitVec 6) (ins : BitVec 48) (err : Word)
  | cellAdc (k : SiteIx) (plane : Bool) (x y : BitVec 6) (ins : BitVec 48) (err : Word)
  | cellSub (k : SiteIx) (plane : Bool) (x y : BitVec 6) (ins : BitVec 48) (err : Word)
  | cellSbc (k : SiteIx) (plane : Bool) (x y : BitVec 6) (ins : BitVec 48) (err : Word)
  | cellAnd (k : SiteIx) (plane : Bool) (x y : BitVec 6) (ins : BitVec 48) (err : Word)
  | cellOr (k : SiteIx) (plane : Bool) (x y : BitVec 6) (ins : BitVec 48) (err : Word)
  | cellXor (k : SiteIx) (plane : Bool) (x y : BitVec 6) (ins : BitVec 48) (err : Word)
  | cellAndn (k : SiteIx) (plane : Bool) (x y : BitVec 6) (ins : BitVec 48) (err : Word)
  | cellOrn (k : SiteIx) (plane : Bool) (x y : BitVec 6) (ins : BitVec 48) (err : Word)
  | cellXnor (k : SiteIx) (plane : Bool) (x y : BitVec 6) (ins : BitVec 48) (err : Word)
  | cellNot (k : SiteIx) (plane : Bool) (x y : BitVec 6) (ins : BitVec 48) (err : Word)
  | cellMov (k : SiteIx) (plane : Bool) (x y : BitVec 6) (ins : BitVec 48) (err : Word)
  | cellShl (k : SiteIx) (plane : Bool) (x y : BitVec 6) (ins : BitVec 48) (err : Word)
  | cellShr (k : SiteIx) (plane : Bool) (x y : BitVec 6) (ins : BitVec 48) (err : Word)
  | cellSar (k : SiteIx) (plane : Bool) (x y : BitVec 6) (ins : BitVec 48) (err : Word)
  | cellRol (k : SiteIx) (plane : Bool) (x y : BitVec 6) (ins : BitVec 48) (err : Word)
  | cellRor (k : SiteIx) (plane : Bool) (x y : BitVec 6) (ins : BitVec 48) (err : Word)
  | cellCmpEq (k : SiteIx) (plane : Bool) (x y : BitVec 6) (ins : BitVec 48) (err : Word)
  | cellCmpNe (k : SiteIx) (plane : Bool) (x y : BitVec 6) (ins : BitVec 48) (err : Word)
  | cellCmpLtu (k : SiteIx) (plane : Bool) (x y : BitVec 6) (ins : BitVec 48) (err : Word)
  | cellCmpGeu (k : SiteIx) (plane : Bool) (x y : BitVec 6) (ins : BitVec 48) (err : Word)
  | cellCmpLt (k : SiteIx) (plane : Bool) (x y : BitVec 6) (ins : BitVec 48) (err : Word)
  | cellCmpGe (k : SiteIx) (plane : Bool) (x y : BitVec 6) (ins : BitVec 48) (err : Word)
  | cellCmpLeu (k : SiteIx) (plane : Bool) (x y : BitVec 6) (ins : BitVec 48) (err : Word)
  | cellCmpGtu (k : SiteIx) (plane : Bool) (x y : BitVec 6) (ins : BitVec 48) (err : Word)
  | cellSel (k : SiteIx) (plane : Bool) (x y : BitVec 6) (ins : BitVec 48) (err : Word)
  | cellMinu (k : SiteIx) (plane : Bool) (x y : BitVec 6) (ins : BitVec 48) (err : Word)
  | cellMaxu (k : SiteIx) (plane : Bool) (x y : BitVec 6) (ins : BitVec 48) (err : Word)
  | cellMin (k : SiteIx) (plane : Bool) (x y : BitVec 6) (ins : BitVec 48) (err : Word)
  | cellMax (k : SiteIx) (plane : Bool) (x y : BitVec 6) (ins : BitVec 48) (err : Word)
  | cellPopc (k : SiteIx) (plane : Bool) (x y : BitVec 6) (ins : BitVec 48) (err : Word)
  | cellBrev (k : SiteIx) (plane : Bool) (x y : BitVec 6) (ins : BitVec 48) (err : Word)
  | cellLfsr (k : SiteIx) (plane : Bool) (x y : BitVec 6) (ins : BitVec 48) (err : Word)
  | cellB2g (k : SiteIx) (plane : Bool) (x y : BitVec 6) (ins : BitVec 48) (err : Word)
  | cellG2b (k : SiteIx) (plane : Bool) (x y : BitVec 6) (ins : BitVec 48) (err : Word)
  | cellGinc (k : SiteIx) (plane : Bool) (x y : BitVec 6) (ins : BitVec 48) (err : Word)
  | cellGdec (k : SiteIx) (plane : Bool) (x y : BitVec 6) (ins : BitVec 48) (err : Word)
  | cellMulu (k : SiteIx) (plane : Bool) (x y : BitVec 6) (ins : BitVec 48) (err : Word)
  | cellMuls (k : SiteIx) (plane : Bool) (x y : BitVec 6) (ins : BitVec 48) (err : Word)
  | cellMulhu (k : SiteIx) (plane : Bool) (x y : BitVec 6) (ins : BitVec 48) (err : Word)
  | cellMulhs (k : SiteIx) (plane : Bool) (x y : BitVec 6) (ins : BitVec 48) (err : Word)
  | cellCntUp (k : SiteIx) (plane : Bool) (x y : BitVec 6) (ins : BitVec 48) (err : Word)
  | cellCntDown (k : SiteIx) (plane : Bool) (x y : BitVec 6) (ins : BitVec 48) (err : Word)
  | cellXpar (k : SiteIx) (plane : Bool) (x y : BitVec 6) (ins : BitVec 48) (err : Word)
  | cellPext (k : SiteIx) (plane : Bool) (x y : BitVec 6) (ins : BitVec 48) (err : Word)
  | cellPdep (k : SiteIx) (plane : Bool) (x y : BitVec 6) (ins : BitVec 48) (err : Word)
  | cellBfx (k : SiteIx) (plane : Bool) (x y : BitVec 6) (ins : BitVec 48) (err : Word)
  | cellBfi (k : SiteIx) (plane : Bool) (x y : BitVec 6) (ins : BitVec 48) (err : Word)
  | cellPsym (k : SiteIx) (plane : Bool) (x y : BitVec 6) (ins : BitVec 48) (err : Word)
  | cellPbit (k : SiteIx) (plane : Bool) (x y : BitVec 6) (ins : BitVec 48) (err : Word)
  | cellPbitz (k : SiteIx) (plane : Bool) (x y : BitVec 6) (ins : BitVec 48) (err : Word)
  | srWordShift (k : SiteIx) (plane : Bool) (x y : BitVec 6) (i : BitVec 48)
  | srBitShift (k : SiteIx) (plane : Bool) (x y : BitVec 6) (i : BitVec 48)
  | wireClockEdge (k : SiteIx) (plane : Bool) (x y : BitVec 6)
  | residueInject (req : Requester) (k : SiteIx) (plane : Bool) (col : BitVec 7) (row : BitVec 6)
  | rwReadRequest (v : VaultIx)
  | rwWriteRequest (v : VaultIx)
  | rwReadLand (v : VaultIx)
  | icpWrite (k : SiteIx)
  | icpIsolate (k : SiteIx)
  | icpRelease (k : SiteIx)
  | icpUse (k : SiteIx)
  | icpUnuse (k : SiteIx)
  | icpCommandDone (k : SiteIx)
  | sinkWrite (off : BitVec 28) (data : List Byte)
  | imageHeader
  | imageSection
  | frameRecord
  | bodyCheck
  | signatureVerified
  | startUpRelease
  | partialFrameWrite
  | cfgAbort (req : Requester)
  | cfgSinkReset (req : Requester)
  | cfgRelease (req : Requester) (mask : BitVec 16)
  | stagingLeaseTimeout
  | configScrub (errs : List (BitVec 6 × Bool))
  | frameReload (f : Fin 524288) (poisoned : Bool)
  | restoreLapDone (poisoned : Option (Fin 524288))
  | enterStandby (req : Requester) (lost : Bool) (dropped : BitVec 256)
  | exitStandby (req : Requester) (lost : Bool)
  | boostOn (req : Requester) (lost : Bool)
  | boostOff (req : Requester) (lost : Bool)
  | safeEnter (req : Requester)
  | safeAck (req : Requester) (lost : Bool)
  | unload (req : Requester) (lost : Bool)
  | modeTransitionDone
  | safeCauseCleared (code : BitVec 3)
  | warmResetCmd (req : Requester) (dropped : BitVec 256)
  | fullResetCmd (req : Requester) (dropped : BitVec 256)
  | rstdbgReset (width : Nat) (dropped : BitVec 256)
  | perstNAssert (dropped : BitVec 256)
  | perstNDeassert
  | functionReset (down : Bool)
  | aonUp (strap : BitVec 2)
  | refclkJudgement (count : Nat)
  | pllLock
  | ratioConfirmation (count : Nat) (ppm : BitVec 16)
  | brownoutRelease
  | railSequencingDone
  | fwAuthenticated
  | profileApplied
  | brownoutWarning
  | brownoutReset
  | overvoltageWarning
  | railOutOfWindow (r : Fin 23) (high : Bool)
  | inputCurrentLimit
  | ilimSafe
  | vioGood (strap : BitVec 2)
  | vioNotGood
  | telemetrySample (vin iin : BitVec 16) (railV railI : List Nat)
  | budgetUpdate
  | sitePowerWindow (k : SiteIx) (avg : Nat)
  | refclkLoss (dropped : BitVec 256)
  | pllUnlock (dropped : BitVec 256)
  | clockRestart
  | fclkChange (req : Requester) (sel : BitVec 2)
  | fmeasGo (req : Requester) (meas ref : BitVec 3) (n : BitVec 8)
  | fmeasDone (result : Word)
  | sensorSample (l : Fin 20) (readings : List (BitVec 12 × Bool))
  | sensorOutOfService (l : Fin 20) (i : Fin 16)
  | sensorReturn (l : Fin 20) (i : Fin 16)
  | thermalModelUpdate (rows cells : List Nat)
  | layerSuspect (l : Fin 20)
  | modelLow (l : Fin 20)
  | thmSuspectClr (req : Requester) (mask : BitVec 20)
  | suspectCleared (l : Fin 20)
  | bar4Read (off : BitVec 41) (n : BitVec 13) (attr : BitVec 2) (badEcrc : Bool)
  | bar4Write (off : BitVec 41) (bs : List Byte) (attr : BitVec 2) (tlp : Tlp)
  | spdAccess (req : Requester) (a : BitVec 29) (wr : Option (List Byte)) (n : BitVec 13) (how : SpdHow) (o : SpdObs)
  | keyWrite (req : Requester) (v : Word)
  | registerWrite (req : Requester) (a : BitVec 26) (v : Word) (narrow : Bool) (x : WriteAux)
  | loRead (req : Requester) (a : BitVec 26) (narrow : Bool)
  | loWrite (req : Requester) (a : BitVec 26) (v : Word) (narrow : Bool)
  | hiWrite (req : Requester) (a : BitVec 26) (v : Word) (narrow : Bool)
  | readClear (req : Requester) (a : BitVec 26) (narrow : Bool)
  | queuePop (req : Requester) (a : BitVec 26) (narrow : Bool)
  | peek (req : Requester) (a : BitVec 26) (narrow : Bool)
  | commitGo (req : Requester) (c : CommitReg) (go : BitVec 8)
  | commitApply (c : CommitReg)
  | dmaGo (req : Requester) (e : Fin 2)
  | dmaStop (req : Requester) (e : Fin 2)
  | dmaAbort (req : Requester) (e : Fin 2)
  | dmaReset (req : Requester) (e : Fin 2)
  | dmaHeadWrite (req : Requester) (e : Fin 2) (head : BitVec 16)
  | dmaDescriptorDone (e : Fin 2) (desc hostData : List Byte) (hostErr : Bool) (moved : Nat) (o : DmaObs)
  | dmaTimeout (e : Fin 2) (desc hostData : List Byte) (moved : Nat)
  | irqEoi (req : Requester) (v : BitVec 6)
  | msixEnable (ctl : MsixCtl) (mask : BitVec 64) (conf : Option PciConf)
  | nocPacket (req : Requester) (fails : Fin 3) (malformed : Bool) (ask : NocAsk) (bytes latency : Nat)
  | nocIsolate (req i : Requester)
  | nocRelease (req i : Requester)
  | nocStatSnap (req : Requester)
  | spdLockRead (req : Requester) (n : Fin 16)
  | spdLockRelease (req : Requester) (n : Fin 16)
  | lockLeaseTimeout (n : Fin 16)
  | bufferReservationTimeout (v : VaultIx)
  | coreStart
  | regRead (a0 : Word)
  | regWrite (a0 a1 : Word) (x : WriteAux)
  | mboxSend (a0 : Word)
  | mboxRecv (a0 : Word)
  | flashUser (a0 a1 a2 : Word) (fail : Option Nat)
  | readTsc
  | mboxInFull (req : Requester)
  | mboxOutClear (req : Requester)
  | fwUpdate (req : Requester)
  | profileWrite (req : Requester)
  | keyUpdate (req : Requester)
  | userWrite (req : Requester)
  | logRead (req : Requester)
  | recover (req : Requester)
  | userRestart (req : Requester)
  | signEnforce (req : Requester)
  | fwcmdDone (e : FwEnd)
  | cwdtService (req : Requester)
  | coreWatchdogExpiry
  | swdtServiceIrq
  | swdtService (req : Requester) (v : BitVec 16)
  | safetyWatchdogExpiry
  | dbgHalt (req : Requester) (mask : Bool)
  | monitorEntry (h : HaltPoint) (gprs : List Word) (csrs : List (BitVec 12 × Word))
  | dbgForce (req : Requester) (mask : Bool)
  | dbgResume (req : Requester) (mask : Bool)
  | dbgStep (req : Requester) (mask : Bool)
  | maskSwdt (req : Requester)
  | unmaskSwdt (req : Requester)
  | glintSync (p : GlintSlot)
  | glintRead32 (a : BitVec 48) (f : GlintFrame) (e : Ecc) (flip : Word)
  | glintWrite32 (a : BitVec 48) (v : Word) (f : GlintFrame) (x : WriteAux)
  | glintReadNext (f : GlintFrame) (e : Ecc) (flip : Word)
  | glintWriteNext (v : Word) (f : GlintFrame) (x : WriteAux)
  | glintStatus (op : BitVec 8) (f : GlintFrame)
  | glintFrameEnd
  | exposureSnap (req : Requester) (mask : BitVec 16)
  | exposureEdge (k : SiteIx) (e : Nat)
  | developDone (k : SiteIx)
  | smbSetAddr (d : SmbData)
  | smbRead
  | smbWrite (d : SmbData)
  | smbRead64
  | smbStatus
  | smbAlertResponse
  | wfeNop (k : SiteIx) (w : Word) (o : WfeObs)
  | cmac (k : SiteIx) (w : Word) (o : WfeObs)
  | cmul (k : SiteIx) (w : Word) (o : WfeObs)
  | ftm (k : SiteIx) (w : Word) (o : WfeObs)
  | clra (k : SiteIx) (w : Word) (o : WfeObs)
  | sta (k : SiteIx) (w : Word) (o : WfeObs)
  | wfeLdx (k : SiteIx) (w : Word) (o : WfeObs)
  | stx (k : SiteIx) (w : Word) (o : WfeObs)
  | ldy (k : SiteIx) (w : Word) (o : WfeObs)
  | wfeAdd (k : SiteIx) (w : Word) (o : WfeObs)
  | wfeSub (k : SiteIx) (w : Word) (o : WfeObs)
  | wfeAnd (k : SiteIx) (w : Word) (o : WfeObs)
  | wfeOr (k : SiteIx) (w : Word) (o : WfeObs)
  | wfeXor (k : SiteIx) (w : Word) (o : WfeObs)
  | cadd (k : SiteIx) (w : Word) (o : WfeObs)
  | csub (k : SiteIx) (w : Word) (o : WfeObs)
  | wfeShl (k : SiteIx) (w : Word) (o : WfeObs)
  | wfeShr (k : SiteIx) (w : Word) (o : WfeObs)
  | wfeSar (k : SiteIx) (w : Word) (o : WfeObs)
  | hist (k : SiteIx) (w : Word) (o : WfeObs)
  | ldi (k : SiteIx) (w : Word) (o : WfeObs)
  | setp (k : SiteIx) (w : Word) (o : WfeObs)
  | wfeJmp (k : SiteIx) (w : Word) (o : WfeObs)
  | jz (k : SiteIx) (w : Word) (o : WfeObs)
  | jb (k : SiteIx) (w : Word) (o : WfeObs)
  | rep (k : SiteIx) (w : Word) (o : WfeObs)
  | waits (k : SiteIx) (w : Word) (o : WfeObs)
  | waitsComplete (k : SiteIx)
  | xfer (k : SiteIx) (w : Word) (o : WfeObs)
  | transferDone (k : SiteIx) (o : WfeObs)
  | waitx (k : SiteIx) (w : Word) (o : WfeObs)
  | waitxComplete (k : SiteIx)
  | wfeIrqInstr (k : SiteIx) (w : Word) (o : WfeObs)
  | wfeHaltInstr (k : SiteIx) (w : Word) (o : WfeObs)
  | wfeStart (req : Requester) (k : SiteIx)
  | wfeHaltCmd (req : Requester) (k : SiteIx)
  | wfeClrFault (req : Requester) (k : SiteIx)
  | wfeMemAccess (req : Requester) (k : SiteIx) (wr : Option Word) (e : Ecc) (flip : Word)
  | streamGo (req : Requester) (k : SiteIx)
  | streamStop (req : Requester) (k : SiteIx)
  | streamWord (k : SiteIx)
  | sliceStart (k : SiteIx)
  | selftestSliceDone (k : SiteIx) (sig : Word)
  | selftestDebtWarn (k : SiteIx)
  | selftestDebt (k : SiteIx)
  | spareRepair (k : SiteIx) (plane : Bool)
  | repairCmd (req : Requester) (k : SiteIx) (plane : Bool)
  | spareRepairDone (k : SiteIx) (pass : Bool)
  | fuseCmd (req : Requester) (k : SiteIx) (plane : Bool)
  | fuseBurnDone (ok : Bool)
  | safCalCmd (req : Requester) (i : BitVec 10)
  | calibrationStart (i : Fin 529) (start : Nat)
  | calibrationRunDone (i : Fin 529) (t : CalTaps) (slacks : List (List (BitVec 8)))
  | marginMeasure (m : Fin 34) (slack : List (BitVec 8))
  | ageingRecord (elapsed : Nat)
  | ageingSummary
  | glbIntegClr (req : Requester) (mask : BitVec 16)
  | losDeasserted (l : LaneIx)
  | missingAnswerFrame (l : LaneIx) (f : Nat)
  | inputCurrentLimitReleased
  | overvoltageWarningCleared
  | railWindowTimeout (r : Fin 23)
  | pllLockTimeout
  | vinBelow1v8
  | fclkChangeDone
  deriving DecidableEq, Repr

end Sys2Proof
end

