-- ==== Sys2Proof/Config.lean ====
section
/-! DEFINITION. What an implementation fixes and what the spec leaves open: free values without a body (no proof can
see them), applied to the operands they depend on or to the counter State.free. -/

namespace Sys2Proof.Config

/-- A byte the spec calls undefined (R287: user data of a vault that failed). Log entry 5. -/
opaque freeByte : Nat → Byte
/-- A word the spec calls undefined or does not state. Log entry 5. -/
opaque freeWord : Nat → Word
/-- The symbol sent at a lane position (four times the lane, plus the position) that the lane map gives no channel, in a
cycle: the spec names none. Log entry 5. -/
opaque unmappedSym : Nat → Nat → BitVec 4
/-- What the factory left in the embedded flash: production data, keys, firmware (R383). Log entry 5. -/
opaque factoryFlash : Nat → Byte
/-- Whether an ECDSA P-384 signature (r and s, big-endian) of a message verifies under a public key (x and y). The spec names
the standard's function and does not define it. Log entry 5. -/
opaque signatureValid : (key message signature : List Byte) → Bool
/-- A bit the spec leaves open. Log entry 5. -/
opaque freeBit : Nat → Bool

/-- The anchor weight a(i) of a layer (R437), from the production data. Log entry 5. -/
opaque thermA : Nat → Rat
/-- The thermal resistance r(i, j) in K/W (R437), from the production data. Log entry 5. -/
opaque thermR : Nat → Nat → Rat
/-- 1 − exp(−0.5 ms / τ(i)) of a layer (R437). Log entry 5. -/
opaque thermGain : Nat → Rat
/-- How much of the allowed step a refinement of k(i) takes (R438 gives only its limit). Log entry 5. -/
opaque thermStep : Nat → Rat
/-- A firmware image: its version, and the message and the signature by which it is authenticated; none where its format is bad (R387, R389).
The spec gives no layout of it. Log entry 5. -/
opaque firmwareImage : (image : List Byte) → Option (BitVec 16 × List Byte × List Byte)
/-- The anti-rollback counter of the production data (R387). Log entry 5. -/
opaque antiRollback : (production : List Byte) → Nat
/-- The patch table of the production data (R386): the firmware version it names, its units, and its signed message and signature; none where
its format is bad. Log entry 5. -/
opaque patchTable : (production : List Byte) → Option (BitVec 16 × List (Word × List Byte) × List Byte × List Byte)
/-- A key-table update record (R385): an entry to add or the ID of a key to revoke, and its signed message and signature; none where its
format is bad. Log entry 5. -/
opaque keyRecord : (record : List Byte) → Option ((List Byte ⊕ Nat) × List Byte × List Byte)
/-- The golden slice and lap signatures of the production data (R460, R461). Log entry 5. -/
opaque goldenSlice : List Byte → Word
opaque goldenLap : Nat → List Byte → Word
/-- Which spare channels or which comparator an accepted calibration run selects (R19, R468), numbered by Aon.spares. Log entry 5. -/
opaque redundant : Nat → BitVec 32
/-- A byte of a core address that the spec gives no content: the boot ROM (R382). Log entry 5. -/
opaque romByte : Nat → Byte

end Sys2Proof.Config
end

