-- ==== Sys2Proof/Machine/RegMap.lean ====
section
/-! DEFINITION. The register map of BAR0 (R360 and each chapter's register tables): for every register family its
base, strides, the masks of its access types (R9), its reset value, the distance of its active copy (R12) and the
bits whose write is protected (R16). The address constants `Reg.*` name every register for the other files. -/

namespace Sys2Proof.Machine

/-- The reset value of a family, as a function of the index of the register in it. -/
inductive RegInit where
  /-- the same value for every register of the family -/
  | all (v : Word)
  /-- `a + b * i` for index `i` (PMU_CLASS_W, R442) -/
  | lin (a b : Nat)
  /-- SPD_REGION: region 0 of requesters 0, 3 and 4 covers the whole scratchpad with read and write (R375) -/
  | spd
  /-- register 0 of a lo/hi pair `a`, register 1 `b` -/
  | pair (a b : Word)
  deriving DecidableEq, Repr

/-- One family of registers. `n1` registers or groups `s1` bytes apart, each of `n2` registers `s2` bytes apart.
`rw`, `w1c`, `w1s`, `rc` are the bits of each access type of R9 (every other bit is RO, WO or unused, and a plain
write leaves it alone). For the wide base registers the second word of a pair implements `rwHi`. `act` is the
distance to the active copy of a committed register (0: none). `prot` holds the bits protected under R16. -/
structure RegFam where
  base : Nat
  n1 : Nat
  s1 : Nat
  n2 : Nat
  s2 : Nat
  rw : Word
  rwHi : Word
  w1c : Word
  w1s : Word
  rc : Word
  init : RegInit
  act : Nat
  prot : Word
  deriving DecidableEq, Repr

/-- The indices of address `a` in the family at base `b`, if it is one of its registers. -/
def RegFam.indexAt (f : RegFam) (b a : Nat) : Option (Nat × Nat) :=
  if a < b then none
  else
    let o := a - b
    let i := o / f.s1
    let j := o % f.s1 / f.s2
    if i < f.n1 ∧ j < f.n2 ∧ o % f.s1 % f.s2 = 0 then some (i, j) else none

/-- What the map says of one address. -/
structure RegInfo where
  rw : Word
  w1c : Word
  w1s : Word
  rc : Word
  reset : Word
  prot : Word
  /-- the address is an active copy: software reads it and cannot write it (R12) -/
  active : Bool
  /-- the distance from a shadow register to its active copy, 0 where it has none -/
  act : Nat
  deriving DecidableEq, Repr

def RegInit.value (r : RegInit) (i j : Nat) : Word :=
  match r with
  | .all v => v
  | .lin a b => BitVec.ofNat 32 (a + b * i)
  | .spd => if j = 0 ∧ (i = 0 ∨ i = 3 ∨ i = 4) then 0xEFFFC000 else 0
  | .pair a b => if j = 0 then a else b

def RegFam.info (f : RegFam) (i j : Nat) (active : Bool) : RegInfo :=
  { rw := if active then 0 else if j = 1 then f.rwHi else f.rw
    w1c := f.w1c, w1s := f.w1s, rc := f.rc
    reset := f.init.value i j
    prot := if active then 0 else f.prot
    active := active
    act := if active then 0 else f.act }

/-- The first family of the list that holds address `a`, as a shadow (or plain) register or as an active copy. -/
def lookupReg : List RegFam → Nat → Option RegInfo
  | [], _ => none
  | f :: fs, a =>
    match f.indexAt f.base a with
    | some (i, j) => some (f.info i j false)
    | none =>
      if f.act = 0 then lookupReg fs a
      else match f.indexAt (f.base + f.act) a with
        | some (i, j) => some (f.info i j true)
        | none => lookupReg fs a

/-- The registers of block GLB (R360). -/
def regsGlb : List RegFam := [
  -- glbId (R363)
  ⟨0x0, 1, 0x4, 1, 0x4, 0, 0, 0, 0, 0, .all 0x50582048, 0, 0⟩,
  -- glbVariant (R363)
  ⟨0x4, 1, 0x4, 1, 0x4, 0, 0, 0, 0, 0, .all 0, 0, 0⟩,
  -- glbUidLo (R363)
  ⟨0x8, 1, 0x4, 1, 0x4, 0, 0, 0, 0, 0, .all 0, 0, 0⟩,
  -- glbUidHi (R363)
  ⟨0xC, 1, 0x4, 1, 0x4, 0, 0, 0, 0, 0, .all 0, 0, 0⟩,
  -- glbKey (R362)
  ⟨0x10, 1, 0x4, 1, 0x4, 0, 0, 0, 0, 0, .all 0, 0, 0⟩,
  -- glbKeyErr (R362)
  ⟨0x14, 1, 0x4, 1, 0x4, 0, 0, 0, 0, 0, .all 0, 0, 0⟩,
  -- glbKeyCnt (R362)
  ⟨0x18, 1, 0x4, 1, 0x4, 0, 0, 0, 0, 0xFFFF, .all 0, 0, 0⟩,
  -- glbBar4Win (R359)
  ⟨0x1C, 1, 0x4, 1, 0x4, 0x1F, 0x1F, 0, 0, 0, .all 0, 0, 0⟩,
  -- glbIrqPendLo (R366)
  ⟨0x20, 1, 0x4, 1, 0x4, 0, 0, 0, 0, 0, .all 0, 0, 0⟩,
  -- glbIrqPendHi (R366)
  ⟨0x24, 1, 0x4, 1, 0x4, 0, 0, 0, 0, 0, .all 0, 0, 0⟩,
  -- glbIrqEoi (R366)
  ⟨0x28, 1, 0x4, 1, 0x4, 0, 0, 0, 0, 0, .all 0, 0, 0⟩,
  -- glbMode (R56)
  ⟨0x100, 1, 0x4, 1, 0x4, 0, 0, 0, 0, 0, .all 0x8, 0, 0⟩,
  -- glbModeCmd (R57)
  ⟨0x104, 1, 0x4, 1, 0x4, 0, 0, 0, 0, 0, .all 0, 0, 0⟩,
  -- glbResetCause (R58)
  ⟨0x108, 1, 0x4, 1, 0x4, 0, 0, 0xFF, 0, 0, .all 0x1, 0, 0⟩,
  -- glbResetCtl (R59)
  ⟨0x10C, 1, 0x4, 1, 0x4, 0, 0, 0, 0, 0, .all 0, 0, 0xFFFFFFFF⟩,
  -- glbEpoch (R60)
  ⟨0x110, 1, 0x4, 1, 0x4, 0, 0, 0, 0, 0, .all 0, 0, 0⟩,
  -- glbSiteState (R61)
  ⟨0x114, 1, 0x4, 1, 0x4, 0, 0, 0, 0, 0, .all 0, 0, 0⟩,
  -- glbStartup (R62)
  ⟨0x118, 1, 0x4, 1, 0x4, 0, 0, 0, 0, 0, .all 0, 0, 0⟩,
  -- glbDmaCtl (R369)
  ⟨0x1000, 2, 0x40, 1, 0x4, 0, 0, 0, 0, 0, .all 0, 0, 0⟩,
  -- glbDmaStat (R369)
  ⟨0x1004, 2, 0x40, 1, 0x4, 0, 0, 0, 0, 0, .all 0, 0, 0⟩,
  -- glbDmaRingLo (R369)
  ⟨0x1008, 2, 0x40, 1, 0x4, 0xFFFFFFE0, 0xFFFFFFE0, 0, 0, 0, .all 0, 0, 0⟩,
  -- glbDmaRingHi (R369)
  ⟨0x100C, 2, 0x40, 1, 0x4, 0xFFFFFFFF, 0xFFFFFFFF, 0, 0, 0, .all 0, 0, 0⟩,
  -- glbDmaSize (R369)
  ⟨0x1010, 2, 0x40, 1, 0x4, 0x1F, 0x1F, 0, 0, 0, .all 0, 0, 0⟩,
  -- glbDmaHead (R369)
  ⟨0x1014, 2, 0x40, 1, 0x4, 0xFFFF, 0xFFFF, 0, 0, 0, .all 0, 0, 0⟩,
  -- glbDmaTail (R369)
  ⟨0x1018, 2, 0x40, 1, 0x4, 0, 0, 0, 0, 0, .all 0, 0, 0⟩,
  -- glbDmaTmo (R369)
  ⟨0x101C, 2, 0x40, 1, 0x4, 0xFFFF, 0xFFFF, 0, 0, 0, .all 0x3E8, 0, 0⟩,
  -- glbIntegLo (R453)
  ⟨0x2000, 16, 0x8, 1, 0x4, 0, 0, 0xFFFFFFFF, 0, 0, .all 0, 0, 0⟩,
  -- glbIntegHi (R453)
  ⟨0x2004, 16, 0x8, 1, 0x4, 0, 0, 0xF, 0, 0, .all 0, 0, 0⟩,
  -- glbIntegCnt (R455)
  ⟨0x2080, 16, 0x4, 1, 0x4, 0, 0, 0, 0, 0, .all 0, 0, 0⟩,
  -- glbIntegClr (R455)
  ⟨0x20C0, 1, 0x4, 1, 0x4, 0, 0, 0, 0, 0, .all 0, 0, 0⟩,
  -- glbIntegLog (R455)
  ⟨0x4000, 16, 0x200, 128, 0x4, 0, 0, 0, 0, 0, .all 0, 0, 0⟩]

/-- The registers of block PMU (R360). -/
def regsPmu : List RegFam := [
  -- pmuStat (R442)
  ⟨0x100000, 1, 0x4, 1, 0x4, 0, 0, 0, 0, 0, .all 0x1E0000, 0, 0⟩,
  -- pmuEvt (R443)
  ⟨0x100004, 1, 0x4, 1, 0x4, 0, 0, 0x3F, 0, 0, .all 0, 0, 0⟩,
  -- pmuIrqEn (R442)
  ⟨0x100008, 1, 0x4, 1, 0x4, 0x3F, 0x3F, 0, 0, 0, .all 0, 0, 0⟩,
  -- pmuAlertEn (R442)
  ⟨0x10000C, 1, 0x4, 1, 0x4, 0x3F, 0x3F, 0, 0, 0, .all 0x7, 0, 0⟩,
  -- pmuCommit (R13)
  ⟨0x100010, 1, 0x4, 1, 0x4, 0, 0, 0, 0, 0, .all 0, 0, 0⟩,
  -- pmuCap (R442)
  ⟨0x100014, 1, 0x4, 1, 0x4, 0xFFF, 0xFFF, 0, 0, 0, .all 0x820, 0x200, 0⟩,
  -- pmuBase (R442)
  ⟨0x100018, 1, 0x4, 1, 0x4, 0xFFF, 0xFFF, 0, 0, 0, .all 0x1E0, 0x200, 0⟩,
  -- pmuBoostW (R442)
  ⟨0x10001C, 1, 0x4, 1, 0x4, 0xFFF, 0xFFF, 0, 0, 0, .all 0x140, 0x200, 0⟩,
  -- pmuClassW (R442)
  ⟨0x100040, 16, 0x4, 1, 0x4, 0xFF, 0xFF, 0, 0, 0, .lin 8 8, 0x200, 0⟩,
  -- pmuSite (R442)
  ⟨0x100080, 16, 0x4, 1, 0x4, 0, 0, 0, 0, 0, .all 0, 0, 0⟩,
  -- pmuVin (R442)
  ⟨0x100100, 1, 0x4, 1, 0x4, 0, 0, 0, 0, 0, .all 0, 0, 0⟩,
  -- pmuIin (R442)
  ⟨0x100104, 1, 0x4, 1, 0x4, 0, 0, 0, 0, 0, .all 0, 0, 0⟩,
  -- pmuPin (R442)
  ⟨0x100108, 1, 0x4, 1, 0x4, 0, 0, 0, 0, 0, .all 0, 0, 0⟩,
  -- pmuRailV (R442)
  ⟨0x100140, 23, 0x8, 1, 0x4, 0, 0, 0, 0, 0, .all 0, 0, 0⟩,
  -- pmuRailI (R442)
  ⟨0x100144, 23, 0x8, 1, 0x4, 0, 0, 0, 0, 0, .all 0, 0, 0⟩,
  -- pmuResetRec (R442)
  ⟨0x100300, 1, 0x4, 1, 0x4, 0, 0, 0, 0, 0, .all 0, 0, 0⟩]

/-- The registers of block CLK (R360). -/
def regsClk : List RegFam := [
  -- clkStat (R445)
  ⟨0x180000, 1, 0x4, 1, 0x4, 0, 0, 0, 0, 0, .all 0x40, 0, 0⟩,
  -- clkFsel (R446)
  ⟨0x180004, 1, 0x4, 1, 0x4, 0x3, 0x3, 0, 0, 0, .all 0, 0, 0xFFFFFFFF⟩,
  -- clkGateRun (R432)
  ⟨0x180008, 1, 0x4, 1, 0x4, 0xFFFF0000, 0xFFFF0000, 0, 0, 0, .all 0xFFFF003F, 0, 0⟩,
  -- clkGateSleep (R432)
  ⟨0x18000C, 1, 0x4, 1, 0x4, 0xFFFF0000, 0xFFFF0000, 0, 0, 0, .all 0xFFFF003F, 0, 0⟩,
  -- clkGateDeep (R432)
  ⟨0x180010, 1, 0x4, 1, 0x4, 0, 0, 0, 0, 0, .all 0x14, 0, 0⟩,
  -- clkFmeasCtl (R447)
  ⟨0x180020, 1, 0x4, 1, 0x4, 0x0770FF00, 0x0770FF00, 0, 0, 0, .all 0x800, 0, 0⟩,
  -- clkFmeasRes (R445)
  ⟨0x180024, 1, 0x4, 1, 0x4, 0, 0, 0, 0, 0, .all 0, 0, 0⟩,
  -- clkRefPpm (R445)
  ⟨0x180028, 1, 0x4, 1, 0x4, 0, 0, 0, 0, 0, .all 0, 0, 0⟩]

/-- The registers of block THM (R360). -/
def regsThm : List RegFam := [
  -- thmSuspect (R448)
  ⟨0x200000, 1, 0x4, 1, 0x4, 0, 0, 0, 0, 0, .all 0, 0, 0⟩,
  -- thmSuspectClr (R448)
  ⟨0x200004, 1, 0x4, 1, 0x4, 0, 0, 0, 0, 0, .all 0, 0, 0⟩,
  -- thmLevel (R448)
  ⟨0x200008, 1, 0x4, 1, 0x4, 0, 0, 0, 0, 0, .all 0, 0, 0⟩,
  -- thmCapred (R448)
  ⟨0x20000C, 1, 0x4, 1, 0x4, 0, 0, 0, 0, 0, .all 0, 0, 0⟩,
  -- thmEvt (R450)
  ⟨0x200010, 1, 0x4, 1, 0x4, 0, 0, 0x3F, 0, 0, .all 0, 0, 0⟩,
  -- thmIrqEn (R448)
  ⟨0x200014, 1, 0x4, 1, 0x4, 0x3F, 0x3F, 0, 0, 0, .all 0, 0, 0⟩,
  -- thmAlertEn (R448)
  ⟨0x200018, 1, 0x4, 1, 0x4, 0x3F, 0x3F, 0, 0, 0, .all 0x7, 0, 0⟩,
  -- thmLayer (R449)
  ⟨0x200100, 20, 0x4, 1, 0x4, 0, 0, 0, 0, 0, .all 0x10000000, 0, 0⟩,
  -- thmModel (R448)
  ⟨0x200180, 20, 0x4, 1, 0x4, 0, 0, 0, 0, 0, .all 0, 0, 0⟩,
  -- thmK (R438)
  ⟨0x200200, 20, 0x4, 1, 0x4, 0, 0, 0, 0, 0, .all 0x4000, 0, 0⟩,
  -- thmSensor (R448)
  ⟨0x200400, 20, 0x40, 16, 0x4, 0, 0, 0, 0, 0, .all 0x1000, 0, 0⟩]

/-- The registers of block SAF (R360). -/
def regsSaf : List RegFam := [
  -- safEvtLog (R456)
  ⟨0x280000, 1, 0x4, 1, 0x4, 0, 0, 0, 0, 0, .all 0, 0, 0⟩,
  -- safEvtCnt (R456)
  ⟨0x280004, 1, 0x4, 1, 0x4, 0, 0, 0, 0, 0xFFFF, .all 0, 0, 0⟩,
  -- safBistCfg (R478)
  ⟨0x280010, 1, 0x4, 1, 0x4, 0x00FFFF01, 0x00FFFF01, 0, 0, 0, .all 0x1, 0, 0⟩,
  -- safBistStat (R478)
  ⟨0x280014, 1, 0x4, 1, 0x4, 0, 0, 0, 0, 0, .all 0, 0, 0⟩,
  -- safBistInfo (R478)
  ⟨0x280018, 1, 0x4, 1, 0x4, 0, 0, 0, 0, 0, .all 0x190EB3DE, 0, 0⟩,
  -- safBistTrans (R478)
  ⟨0x28001C, 1, 0x4, 1, 0x4, 0, 0, 0, 0, 0xFFFFFFFF, .all 0, 0, 0⟩,
  -- safRepairCfg (R478)
  ⟨0x280020, 1, 0x4, 1, 0x4, 0x1, 0x1, 0, 0, 0, .all 0x1, 0, 0⟩,
  -- safRepairCmd (R479)
  ⟨0x280024, 1, 0x4, 1, 0x4, 0x1F, 0x1F, 0, 0, 0, .all 0, 0, 0x200⟩,
  -- safFaultAccept (R478)
  ⟨0x280028, 1, 0x4, 1, 0x4, 0xFFFF, 0xFFFF, 0, 0, 0, .all 0, 0, 0xFFFFFFFF⟩,
  -- safFault (R478)
  ⟨0x280040, 16, 0x4, 1, 0x4, 0, 0, 0, 0, 0, .all 0x7F7F, 0, 0⟩,
  -- safBistDebt (R478)
  ⟨0x280080, 16, 0x4, 1, 0x4, 0, 0, 0, 0, 0, .all 0, 0, 0⟩,
  -- safCalCfg (R478)
  ⟨0x280100, 1, 0x4, 1, 0x4, 0x1F, 0x1F, 0, 0, 0, .all 0x8, 0, 0⟩,
  -- safCalCmd (R478)
  ⟨0x280104, 1, 0x4, 1, 0x4, 0, 0, 0, 0, 0, .all 0, 0, 0⟩,
  -- safCalOverdue (R478)
  ⟨0x280108, 1, 0x4, 1, 0x4, 0, 0, 0, 0, 0, .all 0, 0, 0⟩,
  -- safMargin (R476)
  ⟨0x280200, 16, 0x4, 1, 0x4, 0, 0, 0, 0, 0, .all 0, 0, 0⟩,
  -- safLmargin (R478)
  ⟨0x280240, 18, 0x4, 1, 0x4, 0, 0, 0, 0, 0, .all 0, 0, 0⟩,
  -- safMarginStat (R478)
  ⟨0x2802C0, 1, 0x4, 1, 0x4, 0, 0, 0, 0, 0, .all 0, 0, 0⟩,
  -- safCalCount (R478)
  ⟨0x284000, 529, 0x10, 1, 0x4, 0, 0, 0, 0, 0, .all 0, 0, 0⟩,
  -- safCalTscLo (R478)
  ⟨0x284004, 529, 0x10, 1, 0x4, 0, 0, 0, 0, 0, .all 0, 0, 0⟩,
  -- safCalTscHi (R478)
  ⟨0x284008, 529, 0x10, 1, 0x4, 0, 0, 0, 0, 0, .all 0, 0, 0⟩,
  -- safCalStat (R480)
  ⟨0x28400C, 529, 0x10, 1, 0x4, 0, 0, 0, 0, 0, .all 0, 0, 0⟩]

/-- The registers of block NOC (R360). -/
def regsNoc : List RegFam := [
  -- nocSlot (R373)
  ⟨0x300004, 63, 0x4, 1, 0x4, 0xBF3F3F1F, 0xBF3F3F1F, 0, 0, 0, .all 0, 0x200, 0⟩,
  -- nocCommit (R13)
  ⟨0x300100, 1, 0x4, 1, 0x4, 0, 0, 0, 0, 0, .all 0, 0, 0xFFFFFFFF⟩,
  -- nocCtl (R373)
  ⟨0x300104, 1, 0x4, 1, 0x4, 0x1, 0x1, 0, 0, 0, .all 0, 0x200, 0⟩,
  -- nocEvt (R373)
  ⟨0x300400, 1, 0x4, 1, 0x4, 0, 0, 0x1F, 0, 0, .all 0, 0, 0⟩,
  -- nocCrcCnt (R373)
  ⟨0x300404, 1, 0x4, 1, 0x4, 0, 0, 0, 0, 0xFFFFFFFF, .all 0, 0, 0⟩,
  -- nocIsoStat (R373)
  ⟨0x300408, 1, 0x4, 1, 0x4, 0, 0, 0, 0, 0, .all 0, 0, 0⟩,
  -- nocIsoCmd (R373)
  ⟨0x30040C, 1, 0x4, 1, 0x4, 0, 0, 0, 0, 0, .all 0, 0, 0xFFFFFFFF⟩,
  -- nocStatCtl (R373)
  ⟨0x300410, 1, 0x4, 1, 0x4, 0, 0, 0, 0, 0, .all 0, 0, 0⟩,
  -- nocStat (R373)
  ⟨0x301000, 32, 0x40, 16, 0x4, 0, 0, 0, 0, 0, .all 0, 0, 0⟩]

/-- The registers of block SPD (R360). -/
def regsSpd : List RegFam := [
  -- spdRegion (R376)
  ⟨0x380000, 32, 0x20, 8, 0x4, 0xEFFFFFFF, 0xEFFFFFFF, 0, 0, 0, .spd, 0x1000, 0⟩,
  -- spdCommit (R13)
  ⟨0x380800, 1, 0x4, 1, 0x4, 0, 0, 0, 0, 0, .all 0, 0, 0xFFFFFFFF⟩,
  -- spdEvt (R376)
  ⟨0x380804, 1, 0x4, 1, 0x4, 0, 0, 0x7, 0, 0, .all 0, 0, 0⟩,
  -- spdErrLog (R376)
  ⟨0x380808, 1, 0x4, 1, 0x4, 0, 0, 0, 0, 0, .all 0, 0, 0⟩,
  -- spdEcc (R376)
  ⟨0x38080C, 1, 0x4, 1, 0x4, 0, 0, 0, 0, 0xFFFF, .all 0, 0, 0⟩,
  -- spdLockTmo (R376)
  ⟨0x380880, 1, 0x4, 1, 0x4, 0xFFFF, 0xFFFF, 0, 0, 0, .all 0x3E8, 0, 0⟩,
  -- spdLock (R379)
  ⟨0x380900, 16, 0x4, 1, 0x4, 0, 0, 0, 0, 0, .all 0, 0, 0⟩]

/-- The registers of block CPU (R360). -/
def regsCpu : List RegFam := [
  -- cpuStatus (R410)
  ⟨0x400000, 1, 0x4, 1, 0x4, 0, 0, 0, 0, 0, .all 0, 0, 0⟩,
  -- cpuDbgCtl (R411)
  ⟨0x400004, 1, 0x4, 1, 0x4, 0x10, 0x10, 0, 0, 0, .all 0, 0, 0xFFFFFFFF⟩,
  -- cpuDbgStat (R412)
  ⟨0x400008, 1, 0x4, 1, 0x4, 0, 0, 0, 0, 0, .all 0, 0, 0⟩,
  -- cpuDbgPc (R409)
  ⟨0x40000C, 1, 0x4, 1, 0x4, 0xFFFFFFFF, 0xFFFFFFFF, 0, 0, 0, .all 0, 0, 0⟩,
  -- cpuCwdtCfg (R413)
  ⟨0x400010, 1, 0x4, 1, 0x4, 0x1FFFF, 0x1FFFF, 0, 0, 0, .all 0x12710, 0, 0⟩,
  -- cpuCwdtSvc (R409)
  ⟨0x400014, 1, 0x4, 1, 0x4, 0, 0, 0, 0, 0, .all 0, 0, 0⟩,
  -- cpuSwdtCfg (R413)
  ⟨0x400018, 1, 0x4, 1, 0x4, 0x3FF, 0x3FF, 0, 0, 0, .all 0xA, 0, 0xFFFFFFFF⟩,
  -- cpuSwdtChal (R409)
  ⟨0x40001C, 1, 0x4, 1, 0x4, 0, 0, 0, 0, 0, .all 0, 0, 0⟩,
  -- cpuSwdtSvc (R409)
  ⟨0x400020, 1, 0x4, 1, 0x4, 0, 0, 0, 0, 0, .all 0, 0, 0⟩,
  -- cpuDwin (R409)
  ⟨0x400024, 1, 0x4, 1, 0x4, 0x3FF, 0x3FF, 0, 0, 0, .all 0, 0, 0⟩,
  -- cpuUsites (R409)
  ⟨0x400028, 1, 0x4, 1, 0x4, 0xFFFF, 0xFFFF, 0, 0, 0, .all 0, 0, 0xFFFFFFFF⟩,
  -- cpuMboxStat (R409)
  ⟨0x40002C, 1, 0x4, 1, 0x4, 0, 0, 0x2, 0x1, 0, .all 0, 0, 0⟩,
  -- cpuMboxIn (R409)
  ⟨0x400030, 8, 0x4, 1, 0x4, 0xFFFFFFFF, 0xFFFFFFFF, 0, 0, 0, .all 0, 0, 0⟩,
  -- cpuMboxOut (R409)
  ⟨0x400050, 8, 0x4, 1, 0x4, 0, 0, 0, 0, 0, .all 0, 0, 0⟩,
  -- cpuFwcmd (R414)
  ⟨0x400080, 1, 0x4, 1, 0x4, 0, 0, 0, 0, 0, .all 0, 0, 0xFFFFFFFF⟩,
  -- cpuFwarg (R409)
  ⟨0x400084, 3, 0x4, 1, 0x4, 0xFFFFFFFF, 0xFFFFFFFF, 0, 0, 0, .all 0, 0, 0⟩,
  -- cpuDbgCsrAddr (R409)
  ⟨0x400090, 1, 0x4, 1, 0x4, 0xFFF, 0xFFF, 0, 0, 0, .all 0, 0, 0⟩,
  -- cpuDbgCsrData (R409)
  ⟨0x400094, 1, 0x4, 1, 0x4, 0xFFFFFFFF, 0xFFFFFFFF, 0, 0, 0, .all 0, 0, 0⟩,
  -- cpuDbgGpr (R409)
  ⟨0x400104, 31, 0x4, 1, 0x4, 0xFFFFFFFF, 0xFFFFFFFF, 0, 0, 0, .all 0, 0, 0⟩,
  -- cpuPatch (R409)
  ⟨0x400200, 16, 0x4, 1, 0x4, 0, 0, 0, 0, 0, .all 0, 0, 0⟩]

/-- The registers of block LNK (R360). -/
def regsLnk : List RegFam := [
  -- lnkCfg (R199)
  ⟨0x800000, 512, 0x400, 1, 0x4, 0xFDF, 0xFDF, 0, 0, 0, .all 0x40, 0x200, 0⟩,
  -- lnkCommit (R13)
  ⟨0x800004, 512, 0x400, 1, 0x4, 0, 0, 0, 0, 0, .all 0, 0, 0⟩,
  -- lnkStat (R201)
  ⟨0x800008, 512, 0x400, 1, 0x4, 0, 0, 0, 0, 0, .all 0, 0, 0⟩,
  -- lnkEvt (R202)
  ⟨0x80000C, 512, 0x400, 1, 0x4, 0, 0, 0xFFF, 0, 0, .all 0, 0, 0⟩,
  -- lnkCrcCnt (R198)
  ⟨0x840010, 256, 0x400, 1, 0x4, 0, 0, 0, 0, 0xFFFFFFFF, .all 0, 0, 0⟩,
  -- lnkRtt (R203)
  ⟨0x840014, 256, 0x400, 1, 0x4, 0, 0, 0, 0, 0, .all 0, 0, 0⟩,
  -- lnkPrbsErr (R198)
  ⟨0x840018, 256, 0x400, 1, 0x4, 0, 0, 0, 0, 0xFFFFFFFF, .all 0, 0, 0⟩,
  -- lnkInject (R204)
  ⟨0x80001C, 512, 0x400, 1, 0x4, 0x3F000000, 0x3F000000, 0, 0, 0, .all 0, 0, 0⟩,
  -- lnkEqtab (R198)
  ⟨0x880000, 32, 0x10, 4, 0x4, 0xFFFFFFFF, 0xFFFFFFFF, 0, 0, 0, .all 0, 0, 0xFFFFFFFF⟩,
  -- lnkSkew (R198)
  ⟨0x880400, 1, 0x4, 1, 0x4, 0, 0, 0, 0, 0, .all 0, 0, 0⟩,
  -- lnkMeasure (R205)
  ⟨0x880404, 1, 0x4, 1, 0x4, 0, 0, 0, 0, 0, .all 0, 0, 0⟩]

/-- The registers of block SEQ (R360). -/
def regsSeq : List RegFam := [
  -- seqCtl (R105)
  ⟨0xC00000, 16, 0x10000, 1, 0x4, 0x100, 0x100, 0, 0, 0, .all 0, 0, 0⟩,
  -- seqStatus (R106)
  ⟨0xC00004, 16, 0x10000, 1, 0x4, 0, 0, 0, 0, 0, .all 0x8, 0, 0⟩,
  -- seqCfg (R107)
  ⟨0xC00008, 16, 0x10000, 1, 0x4, 0x7FFFFF07, 0x7FFFFF07, 0, 0, 0, .all 0, 0x200, 0⟩,
  -- seqHorizon (R108)
  ⟨0xC0000C, 16, 0x10000, 1, 0x4, 0, 0, 0, 0, 0, .all 0, 0, 0⟩,
  -- seqCommit (R13)
  ⟨0xC00010, 16, 0x10000, 1, 0x4, 0, 0, 0, 0, 0, .all 0, 0, 0⟩,
  -- seqPc (R104)
  ⟨0xC00014, 16, 0x10000, 1, 0x4, 0, 0, 0, 0, 0, .all 0, 0, 0⟩,
  -- seqCycleLo (R104)
  ⟨0xC00018, 16, 0x10000, 1, 0x4, 0, 0, 0, 0, 0, .all 0, 0, 0⟩,
  -- seqCycleHi (R104)
  ⟨0xC0001C, 16, 0x10000, 1, 0x4, 0, 0, 0, 0, 0, .all 0, 0, 0⟩,
  -- seqStopCycLo (R104)
  ⟨0xC00020, 16, 0x10000, 1, 0x4, 0, 0, 0, 0, 0, .all 0, 0, 0⟩,
  -- seqStopCycHi (R104)
  ⟨0xC00024, 16, 0x10000, 1, 0x4, 0, 0, 0, 0, 0, .all 0, 0, 0⟩,
  -- seqFault (R104)
  ⟨0xC00028, 16, 0x10000, 1, 0x4, 0, 0, 0, 0, 0, .all 0, 0, 0⟩,
  -- seqIrq (R104)
  ⟨0xC0002C, 16, 0x10000, 1, 0x4, 0, 0, 0, 0, 0, .all 0, 0, 0⟩,
  -- seqProgRow (R104)
  ⟨0xC00030, 16, 0x10000, 1, 0x4, 0x3FFFFFFF, 0x3FFFFFFF, 0, 0, 0, .all 0, 0, 0⟩,
  -- seqProgLen (R104)
  ⟨0xC00034, 16, 0x10000, 1, 0x4, 0xFF, 0xFF, 0, 0, 0, .all 0, 0, 0⟩,
  -- seqSvbaseRow (R104)
  ⟨0xC00038, 16, 0x10000, 1, 0x4, 0x3FFFFFFF, 0x3FFFFFFF, 0, 0, 0, .all 0, 0, 0⟩,
  -- seqImemEcc (R104)
  ⟨0xC0003C, 16, 0x10000, 1, 0x4, 0, 0, 0, 0, 0xFFFF, .all 0, 0, 0⟩,
  -- seqSvmask (R104)
  ⟨0xC00040, 16, 0x10000, 2, 0x4, 0xFFFFFFFF, 0xFFFFFFFF, 0, 0, 0, .all 0, 0x200, 0⟩,
  -- seqCmask (R104)
  ⟨0xC00048, 16, 0x10000, 2, 0x4, 0xFFFFFFFF, 0xFFFFFFFF, 0, 0, 0, .all 0, 0x200, 0⟩,
  -- seqTopoMask (R104)
  ⟨0xC00050, 16, 0x10000, 2, 0x4, 0xFFFFFFFF, 0xFFFFFFFF, 0, 0, 0, .all 0, 0x200, 0⟩,
  -- seqTopoRsel (R104)
  ⟨0xC00058, 16, 0x10000, 1, 0x4, 0xFFFFFFFF, 0xFFFFFFFF, 0, 0, 0, .all 0, 0x200, 0⟩,
  -- seqTopoCsel (R104)
  ⟨0xC0005C, 16, 0x10000, 1, 0x4, 0xFFFFFFFF, 0xFFFFFFFF, 0, 0, 0, .all 0, 0x200, 0⟩,
  -- seqLc (R63)
  ⟨0xC00100, 16, 0x10000, 8, 0x4, 0xFFFFFFFF, 0xFFFFFFFF, 0, 0, 0, .all 0, 0, 0⟩,
  -- seqX (R63)
  ⟨0xC00120, 16, 0x10000, 16, 0x4, 0xFFFFFFFF, 0xFFFFFFFF, 0, 0, 0, .all 0, 0, 0⟩,
  -- seqSw (R63)
  ⟨0xC00160, 16, 0x10000, 2, 0x4, 0xFFFFFFFF, 0xFFFFFFFF, 0, 0, 0, .all 0, 0, 0⟩,
  -- seqSp (R63)
  ⟨0xC00168, 16, 0x10000, 1, 0x4, 0x1F, 0x1F, 0, 0, 0, .all 0, 0, 0⟩,
  -- seqStack (R63)
  ⟨0xC00180, 16, 0x10000, 16, 0x4, 0x7FFF, 0x7FFF, 0, 0, 0, .all 0, 0, 0⟩,
  -- seqGstart (R109)
  ⟨0xC0F000, 1, 0x4, 1, 0x4, 0, 0, 0, 0, 0, .all 0, 0, 0⟩,
  -- seqGstop (R104)
  ⟨0xC0F004, 1, 0x4, 1, 0x4, 0, 0, 0, 0, 0, .all 0, 0, 0⟩,
  -- seqXflags (R104)
  ⟨0xC0F008, 1, 0x4, 1, 0x4, 0, 0, 0, 0xFFFF, 0, .all 0, 0, 0⟩,
  -- seqXflagsClr (R104)
  ⟨0xC0F00C, 1, 0x4, 1, 0x4, 0, 0, 0xFFFF, 0, 0, .all 0, 0, 0⟩]

/-- The registers of block CFG (R360). -/
def regsCfg : List RegFam := [
  -- cfgCtl (R325)
  ⟨0x1000000, 1, 0x4, 1, 0x4, 0, 0, 0, 0, 0, .all 0, 0, 0⟩,
  -- cfgStatus (R326)
  ⟨0x1000004, 1, 0x4, 1, 0x4, 0, 0, 0, 0, 0, .all 0, 0, 0⟩,
  -- cfgCfg (R327)
  ⟨0x1000008, 1, 0x4, 1, 0x4, 0x3, 0x3, 0, 0, 0, .all 0, 0x200, 0⟩,
  -- cfgCommit (R13)
  ⟨0x100000C, 1, 0x4, 1, 0x4, 0, 0, 0, 0, 0, .all 0, 0, 0⟩,
  -- cfgStageBase (R324)
  ⟨0x1000010, 1, 0x4, 1, 0x4, 0x03FFF000, 0x03FFF000, 0, 0, 0, .all 0, 0x200, 0⟩,
  -- cfgStageLen (R324)
  ⟨0x1000014, 1, 0x4, 1, 0x4, 0x07FFF000, 0x07FFF000, 0, 0, 0, .all 0x2000000, 0x200, 0⟩,
  -- cfgProgress (R324)
  ⟨0x1000018, 1, 0x4, 1, 0x4, 0, 0, 0, 0, 0, .all 0, 0, 0⟩,
  -- cfgBadIndex (R324)
  ⟨0x100001C, 1, 0x4, 1, 0x4, 0, 0, 0, 0, 0, .all 0, 0, 0⟩,
  -- cfgBadAddr (R324)
  ⟨0x1000020, 1, 0x4, 1, 0x4, 0, 0, 0, 0, 0, .all 0, 0, 0⟩,
  -- cfgSig (R324)
  ⟨0x1000024, 1, 0x4, 1, 0x4, 0, 0, 0, 0, 0, .all 0, 0, 0⟩,
  -- cfgBuildLo (R324)
  ⟨0x1000028, 1, 0x4, 1, 0x4, 0, 0, 0, 0, 0, .all 0, 0, 0⟩,
  -- cfgBuildHi (R324)
  ⟨0x100002C, 1, 0x4, 1, 0x4, 0, 0, 0, 0, 0, .all 0, 0, 0⟩,
  -- cfgSinkDrop (R324)
  ⟨0x1000030, 1, 0x4, 1, 0x4, 0, 0, 0, 0, 0xFFFFFFFF, .all 0, 0, 0⟩,
  -- cfgRegion (R328)
  ⟨0x1000040, 16, 0x4, 1, 0x4, 0, 0, 0, 0, 0, .all 0, 0, 0⟩,
  -- cfgInuseLo (R324)
  ⟨0x1000080, 16, 0x8, 1, 0x4, 0, 0, 0, 0, 0, .all 0, 0, 0⟩,
  -- cfgInuseHi (R324)
  ⟨0x1000084, 16, 0x8, 1, 0x4, 0, 0, 0, 0, 0, .all 0, 0, 0⟩,
  -- cfgIcpGrant (R329)
  ⟨0x1000100, 16, 0x4, 1, 0x4, 0x8FFFFFFF, 0x8FFFFFFF, 0, 0, 0, .all 0, 0x200, 0⟩,
  -- cfgIcpStat (R324)
  ⟨0x1000140, 1, 0x4, 1, 0x4, 0, 0, 0xFFFF, 0, 0, .all 0, 0, 0⟩,
  -- cfgRelease (R324)
  ⟨0x1000144, 1, 0x4, 1, 0x4, 0, 0, 0, 0, 0, .all 0, 0, 0xFFFFFFFF⟩,
  -- cfgScrub (R324)
  ⟨0x1000148, 1, 0x4, 1, 0x4, 0, 0, 0, 0, 0, .all 0, 0, 0⟩,
  -- cfgScrubLap (R324)
  ⟨0x100014C, 1, 0x4, 1, 0x4, 0, 0, 0, 0, 0, .all 0, 0, 0⟩,
  -- cfgUpsetSgl (R324)
  ⟨0x1000150, 1, 0x4, 1, 0x4, 0, 0, 0, 0, 0xFFFFFFFF, .all 0, 0, 0⟩,
  -- cfgUpsetDbl (R324)
  ⟨0x1000154, 1, 0x4, 1, 0x4, 0, 0, 0, 0, 0xFFFFFFFF, .all 0, 0, 0⟩,
  -- cfgUpsetLog (R330)
  ⟨0x1000158, 1, 0x4, 1, 0x4, 0, 0, 0, 0, 0, .all 0, 0, 0⟩]

/-- The registers of block CAP (R360). -/
def regsCap : List RegFam := [
  -- capCtl (R233)
  ⟨0x1400000, 16, 0x10000, 1, 0x4, 0, 0, 0, 0, 0, .all 0, 0, 0x10⟩,
  -- capStatus (R234)
  ⟨0x1400004, 16, 0x10000, 1, 0x4, 0, 0, 0, 0, 0, .all 0, 0, 0⟩,
  -- capCfg (R235)
  ⟨0x1400008, 16, 0x10000, 1, 0x4, 0x7, 0x7, 0, 0, 0, .all 0x2, 0x200, 0⟩,
  -- capCommit (R13)
  ⟨0x140000C, 16, 0x10000, 1, 0x4, 0, 0, 0, 0, 0, .all 0, 0, 0⟩,
  -- capGeom (R236)
  ⟨0x1400010, 16, 0x10000, 1, 0x4, 0x0FFFFFFF, 0x0FFFFFFF, 0, 0, 0, .all 0, 0x200, 0⟩,
  -- capNblk (R232)
  ⟨0x1400014, 16, 0x10000, 1, 0x4, 0xFF, 0xFF, 0, 0, 0, .all 0, 0x200, 0⟩,
  -- capMapBase (R232)
  ⟨0x1400018, 16, 0x10000, 2, 0x4, 0xFFFFFFFF, 0x1FF, 0, 0, 0, .all 0, 0x200, 0⟩,
  -- capCtrBase (R232)
  ⟨0x1400020, 16, 0x10000, 2, 0x4, 0xFFFFFFFF, 0x1FF, 0, 0, 0, .all 0, 0x200, 0⟩,
  -- capSpare (R232)
  ⟨0x1400028, 16, 0x10000, 1, 0x4, 0x3F3F, 0x3F3F, 0, 0, 0, .all 0, 0x200, 0⟩,
  -- capLogBase (R232)
  ⟨0x1400030, 16, 0x10000, 2, 0x4, 0xFFFFFFFF, 0x1FF, 0, 0, 0, .all 0, 0x200, 0⟩,
  -- capLogLen (R232)
  ⟨0x1400038, 16, 0x10000, 1, 0x4, 0x1FFFFF, 0x1FFFFF, 0, 0, 0, .all 0, 0x200, 0⟩,
  -- capCmpmask (R232)
  ⟨0x1400040, 16, 0x10000, 2, 0x4, 0xFFFFFFFF, 0xFFFFFFFF, 0, 0, 0, .all 0xFFFFFFFF, 0x200, 0⟩,
  -- capChmap (R237)
  ⟨0x1400080, 16, 0x10000, 32, 0x4, 0x8F3F8F3F, 0x8F3F8F3F, 0, 0, 0, .all 0, 0x200, 0⟩,
  -- capFcycLo (R232)
  ⟨0x1400100, 16, 0x10000, 1, 0x4, 0, 0, 0, 0, 0, .all 0, 0, 0⟩,
  -- capFcycHi (R232)
  ⟨0x1400104, 16, 0x10000, 1, 0x4, 0, 0, 0, 0, 0, .all 0, 0, 0⟩,
  -- capUnvcycLo (R232)
  ⟨0x1400108, 16, 0x10000, 1, 0x4, 0, 0, 0, 0, 0, .all 0, 0, 0⟩,
  -- capUnvcycHi (R232)
  ⟨0x140010C, 16, 0x10000, 1, 0x4, 0, 0, 0, 0, 0, .all 0, 0, 0⟩,
  -- capFoccLo (R232)
  ⟨0x1400110, 16, 0x10000, 1, 0x4, 0, 0, 0, 0, 0, .all 0, 0, 0⟩,
  -- capFoccHi (R232)
  ⟨0x1400114, 16, 0x10000, 1, 0x4, 0, 0, 0, 0, 0, .all 0, 0, 0⟩,
  -- capFirstLo (R232)
  ⟨0x1400118, 16, 0x10000, 1, 0x4, 0, 0, 0, 0, 0, .all 0, 0, 0⟩,
  -- capFirstHi (R232)
  ⟨0x140011C, 16, 0x10000, 1, 0x4, 0, 0, 0, 0, 0, .all 0, 0, 0⟩,
  -- capLogPtr (R232)
  ⟨0x1400120, 16, 0x10000, 1, 0x4, 0, 0, 0, 0, 0, .all 0, 0, 0⟩,
  -- capOor (R232)
  ⟨0x1400124, 16, 0x10000, 1, 0x4, 0, 0, 0, 0, 0, .all 0, 0, 0⟩,
  -- capFallbackLo (R232)
  ⟨0x1400128, 16, 0x10000, 1, 0x4, 0, 0, 0, 0, 0, .all 0, 0, 0⟩,
  -- capFallbackHi (R232)
  ⟨0x140012C, 16, 0x10000, 1, 0x4, 0, 0, 0, 0, 0, .all 0, 0, 0⟩,
  -- capIrqStat (R238)
  ⟨0x1400130, 16, 0x10000, 1, 0x4, 0, 0, 0x1FF, 0, 0, .all 0, 0, 0⟩,
  -- capIrqEn (R232)
  ⟨0x1400134, 16, 0x10000, 1, 0x4, 0x1FF, 0x1FF, 0, 0, 0, .all 0, 0, 0⟩]

/-- The registers of block RPA (R360). -/
def regsRpa : List RegFam := [
  -- rpaCtl (R257)
  ⟨0x1800000, 16, 0x10000, 1, 0x4, 0, 0, 0, 0, 0, .all 0, 0, 0⟩,
  -- rpaStatus (R258)
  ⟨0x1800004, 16, 0x10000, 1, 0x4, 0, 0, 0, 0, 0, .all 0, 0, 0⟩,
  -- rpaCfg (R259)
  ⟨0x1800008, 16, 0x10000, 1, 0x4, 0x7F, 0x7F, 0, 0, 0, .all 0x10, 0x200, 0⟩,
  -- rpaCommit (R13)
  ⟨0x180000C, 16, 0x10000, 1, 0x4, 0, 0, 0, 0, 0, .all 0, 0, 0⟩,
  -- rpaSolBase (R256)
  ⟨0x1800010, 16, 0x10000, 2, 0x4, 0xFFFFFFFF, 0x1FF, 0, 0, 0, .all 0, 0x200, 0⟩,
  -- rpaNodeLimit (R256)
  ⟨0x1800018, 16, 0x10000, 1, 0x4, 0xFFFFFFFF, 0xFFFFFFFF, 0, 0, 0, .all 0x10000, 0x200, 0⟩,
  -- rpaRange (R256)
  ⟨0x180001C, 16, 0x10000, 1, 0x4, 0xFFFF, 0xFFFF, 0, 0, 0, .all 0, 0x200, 0⟩,
  -- rpaIrqStat (R260)
  ⟨0x1800020, 16, 0x10000, 1, 0x4, 0, 0, 0xF, 0, 0, .all 0, 0, 0⟩,
  -- rpaIrqEn (R256)
  ⟨0x1800024, 16, 0x10000, 1, 0x4, 0xF, 0xF, 0, 0, 0, .all 0, 0, 0⟩]

/-- The registers of block VLT (R360). -/
def regsVlt : List RegFam := [
  -- vltStat (R291)
  ⟨0x2000000, 256, 0x1000, 1, 0x4, 0, 0, 0, 0, 0, .all 0, 0, 0⟩,
  -- vltEvt (R292)
  ⟨0x2000004, 256, 0x1000, 1, 0x4, 0, 0, 0x3FF, 0, 0, .all 0, 0, 0⟩,
  -- vltCeCnt (R290)
  ⟨0x2000008, 256, 0x1000, 1, 0x4, 0, 0, 0, 0, 0xFFFFFFFF, .all 0, 0, 0⟩,
  -- vltPoisonCnt (R290)
  ⟨0x200000C, 256, 0x1000, 1, 0x4, 0, 0, 0, 0, 0xFFFF, .all 0, 0, 0⟩,
  -- vltPoisonLog (R293)
  ⟨0x2000010, 256, 0x1000, 1, 0x4, 0, 0, 0, 0, 0, .all 0, 0, 0⟩,
  -- vltScrub (R290)
  ⟨0x2000014, 256, 0x1000, 1, 0x4, 0, 0, 0, 0, 0, .all 0, 0, 0⟩,
  -- vltLap (R290)
  ⟨0x2000018, 256, 0x1000, 1, 0x4, 0, 0, 0, 0, 0, .all 0, 0, 0⟩,
  -- vltMntCmd (R294)
  ⟨0x2000020, 256, 0x1000, 1, 0x4, 0, 0, 0, 0, 0, .all 0, 0, 0⟩,
  -- vltMntAddr (R290)
  ⟨0x2000024, 256, 0x1000, 1, 0x4, 0x7FFFFFFF, 0x7FFFFFFF, 0, 0, 0, .all 0, 0, 0⟩,
  -- vltMntDataLo (R290)
  ⟨0x2000028, 256, 0x1000, 1, 0x4, 0xFFFFFFFF, 0xFFFFFFFF, 0, 0, 0, .all 0, 0, 0⟩,
  -- vltMntDataHi (R290)
  ⟨0x200002C, 256, 0x1000, 1, 0x4, 0xFFFFFFFF, 0xFFFFFFFF, 0, 0, 0, .all 0, 0, 0⟩,
  -- vltSrep (R282)
  ⟨0x2000800, 256, 0x1000, 256, 0x4, 0, 0, 0, 0, 0, .all 0, 0, 0⟩,
  -- vltCfg (R296)
  ⟨0x2100000, 1, 0x4, 1, 0x4, 0xFFFF0003, 0xFFFF0003, 0, 0, 0, .all 0x003C0003, 0, 0⟩,
  -- vltMap (R297)
  ⟨0x2100004, 1, 0x4, 1, 0x4, 0x1F, 0x1F, 0, 0, 0, .all 0, 0x200, 0⟩,
  -- vltTileen (R295)
  ⟨0x2100008, 1, 0x4, 1, 0x4, 0xFFFF, 0xFFFF, 0, 0, 0, .all 0xFFFF, 0x200, 0⟩,
  -- vltCommit (R13)
  ⟨0x210000C, 1, 0x4, 1, 0x4, 0, 0, 0, 0, 0, .all 0, 0, 0⟩,
  -- vltLapDev (R295)
  ⟨0x2100010, 1, 0x4, 1, 0x4, 0, 0, 0, 0, 0, .all 0, 0, 0⟩,
  -- vltRefresh (R295)
  ⟨0x2100014, 1, 0x4, 1, 0x4, 0, 0, 0, 0, 0, .all 0, 0, 0⟩,
  -- vltFuseCmd (R298)
  ⟨0x2100018, 1, 0x4, 1, 0x4, 0xFF, 0xFF, 0, 0, 0, .all 0, 0, 0xFFFFFFFF⟩,
  -- vltFailed (R295)
  ⟨0x2100020, 8, 0x4, 1, 0x4, 0, 0, 0, 0, 0, .all 0, 0, 0⟩]

/-- The registers of block WFE (R360). -/
def regsWfe : List RegFam := [
  -- wfeCtl (R352)
  ⟨0x2800000, 16, 0x10000, 1, 0x4, 0, 0, 0, 0, 0, .all 0, 0, 0⟩,
  -- wfeStatus (R353)
  ⟨0x2800004, 16, 0x10000, 1, 0x4, 0, 0, 0, 0, 0, .all 0, 0, 0⟩,
  -- wfePc (R335)
  ⟨0x2800008, 16, 0x10000, 1, 0x4, 0, 0, 0, 0, 0, .all 0, 0, 0⟩,
  -- wfeStart (R351)
  ⟨0x280000C, 16, 0x10000, 1, 0x4, 0x3FFF, 0x3FFF, 0, 0, 0, .all 0, 0, 0⟩,
  -- wfeMemAddr (R351)
  ⟨0x2800010, 16, 0x10000, 1, 0x4, 0xE0007FFF, 0xE0007FFF, 0, 0, 0, .all 0, 0, 0⟩,
  -- wfeMemData (R351)
  ⟨0x2800014, 16, 0x10000, 1, 0x4, 0, 0, 0, 0, 0, .all 0, 0, 0⟩,
  -- wfeStrCfg (R354)
  ⟨0x2800018, 16, 0x10000, 1, 0x4, 0x3301FFFF, 0x3301FFFF, 0, 0, 0, .all 0, 0x200, 0⟩,
  -- wfeStrRing (R351)
  ⟨0x280001C, 16, 0x10000, 1, 0x4, 0xFFFF7FFF, 0xFFFF7FFF, 0, 0, 0, .all 0, 0x200, 0⟩,
  -- wfeStrCtl (R354)
  ⟨0x2800020, 16, 0x10000, 1, 0x4, 0, 0, 0, 0, 0, .all 0, 0, 0⟩,
  -- wfeCommit (R13)
  ⟨0x2800024, 16, 0x10000, 1, 0x4, 0, 0, 0, 0, 0, .all 0, 0, 0⟩,
  -- wfeStrTrigLo (R351)
  ⟨0x2800028, 16, 0x10000, 1, 0x4, 0xFFFFFFFF, 0xFFFFFFFF, 0, 0, 0, .all 0, 0, 0⟩,
  -- wfeStrTrigHi (R351)
  ⟨0x280002C, 16, 0x10000, 1, 0x4, 0xFFFF, 0xFFFF, 0, 0, 0, .all 0, 0, 0⟩,
  -- wfeStrLen (R351)
  ⟨0x2800030, 16, 0x10000, 1, 0x4, 0xFFFFFFFF, 0xFFFFFFFF, 0, 0, 0, .all 0, 0, 0⟩,
  -- wfeStrCnt (R351)
  ⟨0x2800034, 16, 0x10000, 1, 0x4, 0, 0, 0, 0, 0, .all 0, 0, 0⟩,
  -- wfeStrDrop (R351)
  ⟨0x2800038, 16, 0x10000, 1, 0x4, 0, 0, 0, 0, 0xFFFFFFFF, .all 0, 0, 0⟩,
  -- wfeStrGap (R351)
  ⟨0x280003C, 16, 0x10000, 1, 0x4, 0, 0, 0, 0, 0xFFFFFFFF, .all 0, 0, 0⟩,
  -- wfeStall (R351)
  ⟨0x2800040, 16, 0x10000, 1, 0x4, 0, 0, 0, 0, 0xFFFFFFFF, .all 0, 0, 0⟩,
  -- wfeEcc (R351)
  ⟨0x2800044, 16, 0x10000, 1, 0x4, 0, 0, 0, 0, 0xFFFF, .all 0, 0, 0⟩,
  -- wfeIrq (R351)
  ⟨0x2800048, 16, 0x10000, 1, 0x4, 0, 0, 0, 0, 0, .all 0, 0, 0⟩]

/-- The registers of block FAB (R360). -/
def regsFab : List RegFam := [
  -- fabCellStat (R140)
  ⟨0x3008000, 1, 0x4, 1, 0x4, 0, 0, 0xFFFFFFFF, 0, 0, .all 0, 0, 0⟩,
  -- fabResLog (R141)
  ⟨0x3008004, 1, 0x4, 1, 0x4, 0, 0, 0, 0, 0, .all 0, 0, 0⟩,
  -- fabResInject (R142)
  ⟨0x3008008, 1, 0x4, 1, 0x4, 0x007FFFE0, 0x007FFFE0, 0, 0, 0, .all 0, 0, 0xFFFFFFFF⟩,
  -- fabResCount (R139)
  ⟨0x3008040, 16, 0x4, 1, 0x4, 0, 0, 0, 0, 0xFFFF, .all 0, 0, 0⟩,
  -- fabWclkCells (R139)
  ⟨0x3008080, 16, 0x4, 1, 0x4, 0, 0, 0, 0, 0, .all 0, 0, 0⟩,
  -- fabZbusStat (R167)
  ⟨0x3008100, 1, 0x4, 1, 0x4, 0, 0, 0xFFFF, 0, 0, .all 0, 0, 0⟩,
  -- fabZbusLog (R168)
  ⟨0x3008104, 1, 0x4, 1, 0x4, 0, 0, 0, 0, 0, .all 0, 0, 0⟩,
  -- fabRwStat (R169)
  ⟨0x3008108, 1, 0x4, 1, 0x4, 0, 0, 0xFFFFFFFF, 0, 0, .all 0, 0, 0⟩,
  -- fabPenStat (R170)
  ⟨0x300810C, 1, 0x4, 1, 0x4, 0, 0, 0xFFFF0000, 0, 0, .all 0xFFFF, 0, 0⟩,
  -- fabColmap (R171)
  ⟨0x3008140, 16, 0x4, 1, 0x4, 0, 0, 0, 0, 0, .all 0, 0, 0⟩,
  -- fabExpCtl (R415)
  ⟨0x3009000, 1, 0x4, 1, 0x4, 0, 0, 0, 0, 0, .all 0, 0, 0⟩,
  -- fabExpStat (R416)
  ⟨0x3009004, 1, 0x4, 1, 0x4, 0, 0, 0xFFFF, 0, 0, .all 0, 0, 0⟩,
  -- fabDevBase (R415)
  ⟨0x3009040, 16, 0x8, 2, 0x4, 0xFFFFFFFF, 0x1FF, 0, 0, 0, .all 0, 0, 0⟩,
  -- fabExpMiss (R415)
  ⟨0x30090C0, 16, 0x4, 1, 0x4, 0, 0, 0, 0, 0xFFFF, .all 0, 0, 0⟩,
  -- fabLoupeSel (R417)
  ⟨0x300A000, 8, 0x4, 1, 0x4, 0xFFFFFFFF, 0xFFFFFFFF, 0, 0, 0, .all 0, 0, 0⟩]

/-- The families of the block that holds BAR0 address `a`. -/
def blockRegs (a : Nat) : List RegFam :=
  if a < 0x100000 then regsGlb
  else if a < 0x180000 then regsPmu
  else if a < 0x200000 then regsClk
  else if a < 0x280000 then regsThm
  else if a < 0x300000 then regsSaf
  else if a < 0x380000 then regsNoc
  else if a < 0x400000 then regsSpd
  else if a < 0x800000 then regsCpu
  else if a < 0xC00000 then regsLnk
  else if a < 0x1000000 then regsSeq
  else if a < 0x1400000 then regsCfg
  else if a < 0x1800000 then regsCap
  else if a < 0x2000000 then regsRpa
  else if a < 0x2800000 then regsVlt
  else if a < 0x3000000 then regsWfe
  else if a < 0x4000000 then regsFab else []

/-- What the register map says of address `a`; `none` for an offset that no table lists (R359: it reads 0 and
ignores writes). -/
def regInfo (a : Nat) : Option RegInfo := lookupReg (blockRegs a) a

/-- The value of address `a` after a power-on reset. -/
def regReset (a : Nat) : Word :=
  match regInfo a with
  | some r => r.reset
  | none => 0

end Sys2Proof.Machine

namespace Sys2Proof.Machine.Reg

abbrev glbId : Nat := 0x0
abbrev glbVariant : Nat := 0x4
abbrev glbUidLo : Nat := 0x8
abbrev glbUidHi : Nat := 0xC
abbrev glbKey : Nat := 0x10
abbrev glbKeyErr : Nat := 0x14
abbrev glbKeyCnt : Nat := 0x18
abbrev glbBar4Win : Nat := 0x1C
abbrev glbIrqPendLo : Nat := 0x20
abbrev glbIrqPendHi : Nat := 0x24
abbrev glbIrqEoi : Nat := 0x28
abbrev glbMode : Nat := 0x100
abbrev glbModeCmd : Nat := 0x104
abbrev glbResetCause : Nat := 0x108
abbrev glbResetCtl : Nat := 0x10C
abbrev glbEpoch : Nat := 0x110
abbrev glbSiteState : Nat := 0x114
abbrev glbStartup : Nat := 0x118
abbrev glbDmaCtl (i : Nat) : Nat := 0x1000 + 0x40 * i
abbrev glbDmaStat (i : Nat) : Nat := 0x1004 + 0x40 * i
abbrev glbDmaRingLo (i : Nat) : Nat := 0x1008 + 0x40 * i
abbrev glbDmaRingHi (i : Nat) : Nat := 0x100C + 0x40 * i
abbrev glbDmaSize (i : Nat) : Nat := 0x1010 + 0x40 * i
abbrev glbDmaHead (i : Nat) : Nat := 0x1014 + 0x40 * i
abbrev glbDmaTail (i : Nat) : Nat := 0x1018 + 0x40 * i
abbrev glbDmaTmo (i : Nat) : Nat := 0x101C + 0x40 * i
abbrev glbIntegLo (i : Nat) : Nat := 0x2000 + 0x8 * i
abbrev glbIntegHi (i : Nat) : Nat := 0x2004 + 0x8 * i
abbrev glbIntegCnt (i : Nat) : Nat := 0x2080 + 0x4 * i
abbrev glbIntegClr : Nat := 0x20C0
abbrev glbIntegLog (i : Nat) (j : Nat) : Nat := 0x4000 + 0x200 * i + 0x4 * j
abbrev pmuStat : Nat := 0x100000
abbrev pmuEvt : Nat := 0x100004
abbrev pmuIrqEn : Nat := 0x100008
abbrev pmuAlertEn : Nat := 0x10000C
abbrev pmuCommit : Nat := 0x100010
abbrev pmuCap : Nat := 0x100014
abbrev pmuBase : Nat := 0x100018
abbrev pmuBoostW : Nat := 0x10001C
abbrev pmuClassW (i : Nat) : Nat := 0x100040 + 0x4 * i
abbrev pmuSite (i : Nat) : Nat := 0x100080 + 0x4 * i
abbrev pmuVin : Nat := 0x100100
abbrev pmuIin : Nat := 0x100104
abbrev pmuPin : Nat := 0x100108
abbrev pmuRailV (i : Nat) : Nat := 0x100140 + 0x8 * i
abbrev pmuRailI (i : Nat) : Nat := 0x100144 + 0x8 * i
abbrev pmuResetRec : Nat := 0x100300
abbrev clkStat : Nat := 0x180000
abbrev clkFsel : Nat := 0x180004
abbrev clkGateRun : Nat := 0x180008
abbrev clkGateSleep : Nat := 0x18000C
abbrev clkGateDeep : Nat := 0x180010
abbrev clkFmeasCtl : Nat := 0x180020
abbrev clkFmeasRes : Nat := 0x180024
abbrev clkRefPpm : Nat := 0x180028
abbrev thmSuspect : Nat := 0x200000
abbrev thmSuspectClr : Nat := 0x200004
abbrev thmLevel : Nat := 0x200008
abbrev thmCapred : Nat := 0x20000C
abbrev thmEvt : Nat := 0x200010
abbrev thmIrqEn : Nat := 0x200014
abbrev thmAlertEn : Nat := 0x200018
abbrev thmLayer (i : Nat) : Nat := 0x200100 + 0x4 * i
abbrev thmModel (i : Nat) : Nat := 0x200180 + 0x4 * i
abbrev thmK (i : Nat) : Nat := 0x200200 + 0x4 * i
abbrev thmSensor (i : Nat) (j : Nat) : Nat := 0x200400 + 0x40 * i + 0x4 * j
abbrev safEvtLog : Nat := 0x280000
abbrev safEvtCnt : Nat := 0x280004
abbrev safBistCfg : Nat := 0x280010
abbrev safBistStat : Nat := 0x280014
abbrev safBistInfo : Nat := 0x280018
abbrev safBistTrans : Nat := 0x28001C
abbrev safRepairCfg : Nat := 0x280020
abbrev safRepairCmd : Nat := 0x280024
abbrev safFaultAccept : Nat := 0x280028
abbrev safFault (i : Nat) : Nat := 0x280040 + 0x4 * i
abbrev safBistDebt (i : Nat) : Nat := 0x280080 + 0x4 * i
abbrev safCalCfg : Nat := 0x280100
abbrev safCalCmd : Nat := 0x280104
abbrev safCalOverdue : Nat := 0x280108
abbrev safMargin (i : Nat) : Nat := 0x280200 + 0x4 * i
abbrev safLmargin (i : Nat) : Nat := 0x280240 + 0x4 * i
abbrev safMarginStat : Nat := 0x2802C0
abbrev safCalCount (i : Nat) : Nat := 0x284000 + 0x10 * i
abbrev safCalTscLo (i : Nat) : Nat := 0x284004 + 0x10 * i
abbrev safCalTscHi (i : Nat) : Nat := 0x284008 + 0x10 * i
abbrev safCalStat (i : Nat) : Nat := 0x28400C + 0x10 * i
abbrev nocSlot (i : Nat) : Nat := 0x300004 + 0x4 * i
abbrev nocCommit : Nat := 0x300100
abbrev nocCtl : Nat := 0x300104
abbrev nocEvt : Nat := 0x300400
abbrev nocCrcCnt : Nat := 0x300404
abbrev nocIsoStat : Nat := 0x300408
abbrev nocIsoCmd : Nat := 0x30040C
abbrev nocStatCtl : Nat := 0x300410
abbrev nocStat (i : Nat) (j : Nat) : Nat := 0x301000 + 0x40 * i + 0x4 * j
abbrev spdRegion (i : Nat) (j : Nat) : Nat := 0x380000 + 0x20 * i + 0x4 * j
abbrev spdCommit : Nat := 0x380800
abbrev spdEvt : Nat := 0x380804
abbrev spdErrLog : Nat := 0x380808
abbrev spdEcc : Nat := 0x38080C
abbrev spdLockTmo : Nat := 0x380880
abbrev spdLock (i : Nat) : Nat := 0x380900 + 0x4 * i
abbrev cpuStatus : Nat := 0x400000
abbrev cpuDbgCtl : Nat := 0x400004
abbrev cpuDbgStat : Nat := 0x400008
abbrev cpuDbgPc : Nat := 0x40000C
abbrev cpuCwdtCfg : Nat := 0x400010
abbrev cpuCwdtSvc : Nat := 0x400014
abbrev cpuSwdtCfg : Nat := 0x400018
abbrev cpuSwdtChal : Nat := 0x40001C
abbrev cpuSwdtSvc : Nat := 0x400020
abbrev cpuDwin : Nat := 0x400024
abbrev cpuUsites : Nat := 0x400028
abbrev cpuMboxStat : Nat := 0x40002C
abbrev cpuMboxIn (i : Nat) : Nat := 0x400030 + 0x4 * i
abbrev cpuMboxOut (i : Nat) : Nat := 0x400050 + 0x4 * i
abbrev cpuFwcmd : Nat := 0x400080
abbrev cpuFwarg (i : Nat) : Nat := 0x400084 + 0x4 * i
abbrev cpuDbgCsrAddr : Nat := 0x400090
abbrev cpuDbgCsrData : Nat := 0x400094
abbrev cpuDbgGpr (i : Nat) : Nat := 0x400104 + 0x4 * i
abbrev cpuPatch (i : Nat) : Nat := 0x400200 + 0x4 * i
abbrev lnkCfg (i : Nat) : Nat := 0x800000 + 0x400 * i
abbrev lnkCommit (i : Nat) : Nat := 0x800004 + 0x400 * i
abbrev lnkStat (i : Nat) : Nat := 0x800008 + 0x400 * i
abbrev lnkEvt (i : Nat) : Nat := 0x80000C + 0x400 * i
abbrev lnkCrcCnt (i : Nat) : Nat := 0x840010 + 0x400 * i
abbrev lnkRtt (i : Nat) : Nat := 0x840014 + 0x400 * i
abbrev lnkPrbsErr (i : Nat) : Nat := 0x840018 + 0x400 * i
abbrev lnkInject (i : Nat) : Nat := 0x80001C + 0x400 * i
abbrev lnkEqtab (i : Nat) (j : Nat) : Nat := 0x880000 + 0x10 * i + 0x4 * j
abbrev lnkSkew : Nat := 0x880400
abbrev lnkMeasure : Nat := 0x880404
abbrev seqCtl (i : Nat) : Nat := 0xC00000 + 0x10000 * i
abbrev seqStatus (i : Nat) : Nat := 0xC00004 + 0x10000 * i
abbrev seqCfg (i : Nat) : Nat := 0xC00008 + 0x10000 * i
abbrev seqHorizon (i : Nat) : Nat := 0xC0000C + 0x10000 * i
abbrev seqCommit (i : Nat) : Nat := 0xC00010 + 0x10000 * i
abbrev seqPc (i : Nat) : Nat := 0xC00014 + 0x10000 * i
abbrev seqCycleLo (i : Nat) : Nat := 0xC00018 + 0x10000 * i
abbrev seqCycleHi (i : Nat) : Nat := 0xC0001C + 0x10000 * i
abbrev seqStopCycLo (i : Nat) : Nat := 0xC00020 + 0x10000 * i
abbrev seqStopCycHi (i : Nat) : Nat := 0xC00024 + 0x10000 * i
abbrev seqFault (i : Nat) : Nat := 0xC00028 + 0x10000 * i
abbrev seqIrq (i : Nat) : Nat := 0xC0002C + 0x10000 * i
abbrev seqProgRow (i : Nat) : Nat := 0xC00030 + 0x10000 * i
abbrev seqProgLen (i : Nat) : Nat := 0xC00034 + 0x10000 * i
abbrev seqSvbaseRow (i : Nat) : Nat := 0xC00038 + 0x10000 * i
abbrev seqImemEcc (i : Nat) : Nat := 0xC0003C + 0x10000 * i
abbrev seqSvmask (i : Nat) (j : Nat) : Nat := 0xC00040 + 0x10000 * i + 0x4 * j
abbrev seqCmask (i : Nat) (j : Nat) : Nat := 0xC00048 + 0x10000 * i + 0x4 * j
abbrev seqTopoMask (i : Nat) (j : Nat) : Nat := 0xC00050 + 0x10000 * i + 0x4 * j
abbrev seqTopoRsel (i : Nat) : Nat := 0xC00058 + 0x10000 * i
abbrev seqTopoCsel (i : Nat) : Nat := 0xC0005C + 0x10000 * i
abbrev seqLc (i : Nat) (j : Nat) : Nat := 0xC00100 + 0x10000 * i + 0x4 * j
abbrev seqX (i : Nat) (j : Nat) : Nat := 0xC00120 + 0x10000 * i + 0x4 * j
abbrev seqSw (i : Nat) (j : Nat) : Nat := 0xC00160 + 0x10000 * i + 0x4 * j
abbrev seqSp (i : Nat) : Nat := 0xC00168 + 0x10000 * i
abbrev seqStack (i : Nat) (j : Nat) : Nat := 0xC00180 + 0x10000 * i + 0x4 * j
abbrev seqGstart : Nat := 0xC0F000
abbrev seqGstop : Nat := 0xC0F004
abbrev seqXflags : Nat := 0xC0F008
abbrev seqXflagsClr : Nat := 0xC0F00C
abbrev cfgCtl : Nat := 0x1000000
abbrev cfgStatus : Nat := 0x1000004
abbrev cfgCfg : Nat := 0x1000008
abbrev cfgCommit : Nat := 0x100000C
abbrev cfgStageBase : Nat := 0x1000010
abbrev cfgStageLen : Nat := 0x1000014
abbrev cfgProgress : Nat := 0x1000018
abbrev cfgBadIndex : Nat := 0x100001C
abbrev cfgBadAddr : Nat := 0x1000020
abbrev cfgSig : Nat := 0x1000024
abbrev cfgBuildLo : Nat := 0x1000028
abbrev cfgBuildHi : Nat := 0x100002C
abbrev cfgSinkDrop : Nat := 0x1000030
abbrev cfgRegion (i : Nat) : Nat := 0x1000040 + 0x4 * i
abbrev cfgInuseLo (i : Nat) : Nat := 0x1000080 + 0x8 * i
abbrev cfgInuseHi (i : Nat) : Nat := 0x1000084 + 0x8 * i
abbrev cfgIcpGrant (i : Nat) : Nat := 0x1000100 + 0x4 * i
abbrev cfgIcpStat : Nat := 0x1000140
abbrev cfgRelease : Nat := 0x1000144
abbrev cfgScrub : Nat := 0x1000148
abbrev cfgScrubLap : Nat := 0x100014C
abbrev cfgUpsetSgl : Nat := 0x1000150
abbrev cfgUpsetDbl : Nat := 0x1000154
abbrev cfgUpsetLog : Nat := 0x1000158
abbrev capCtl (i : Nat) : Nat := 0x1400000 + 0x10000 * i
abbrev capStatus (i : Nat) : Nat := 0x1400004 + 0x10000 * i
abbrev capCfg (i : Nat) : Nat := 0x1400008 + 0x10000 * i
abbrev capCommit (i : Nat) : Nat := 0x140000C + 0x10000 * i
abbrev capGeom (i : Nat) : Nat := 0x1400010 + 0x10000 * i
abbrev capNblk (i : Nat) : Nat := 0x1400014 + 0x10000 * i
abbrev capMapBase (i : Nat) (j : Nat) : Nat := 0x1400018 + 0x10000 * i + 0x4 * j
abbrev capCtrBase (i : Nat) (j : Nat) : Nat := 0x1400020 + 0x10000 * i + 0x4 * j
abbrev capSpare (i : Nat) : Nat := 0x1400028 + 0x10000 * i
abbrev capLogBase (i : Nat) (j : Nat) : Nat := 0x1400030 + 0x10000 * i + 0x4 * j
abbrev capLogLen (i : Nat) : Nat := 0x1400038 + 0x10000 * i
abbrev capCmpmask (i : Nat) (j : Nat) : Nat := 0x1400040 + 0x10000 * i + 0x4 * j
abbrev capChmap (i : Nat) (j : Nat) : Nat := 0x1400080 + 0x10000 * i + 0x4 * j
abbrev capFcycLo (i : Nat) : Nat := 0x1400100 + 0x10000 * i
abbrev capFcycHi (i : Nat) : Nat := 0x1400104 + 0x10000 * i
abbrev capUnvcycLo (i : Nat) : Nat := 0x1400108 + 0x10000 * i
abbrev capUnvcycHi (i : Nat) : Nat := 0x140010C + 0x10000 * i
abbrev capFoccLo (i : Nat) : Nat := 0x1400110 + 0x10000 * i
abbrev capFoccHi (i : Nat) : Nat := 0x1400114 + 0x10000 * i
abbrev capFirstLo (i : Nat) : Nat := 0x1400118 + 0x10000 * i
abbrev capFirstHi (i : Nat) : Nat := 0x140011C + 0x10000 * i
abbrev capLogPtr (i : Nat) : Nat := 0x1400120 + 0x10000 * i
abbrev capOor (i : Nat) : Nat := 0x1400124 + 0x10000 * i
abbrev capFallbackLo (i : Nat) : Nat := 0x1400128 + 0x10000 * i
abbrev capFallbackHi (i : Nat) : Nat := 0x140012C + 0x10000 * i
abbrev capIrqStat (i : Nat) : Nat := 0x1400130 + 0x10000 * i
abbrev capIrqEn (i : Nat) : Nat := 0x1400134 + 0x10000 * i
abbrev rpaCtl (i : Nat) : Nat := 0x1800000 + 0x10000 * i
abbrev rpaStatus (i : Nat) : Nat := 0x1800004 + 0x10000 * i
abbrev rpaCfg (i : Nat) : Nat := 0x1800008 + 0x10000 * i
abbrev rpaCommit (i : Nat) : Nat := 0x180000C + 0x10000 * i
abbrev rpaSolBase (i : Nat) (j : Nat) : Nat := 0x1800010 + 0x10000 * i + 0x4 * j
abbrev rpaNodeLimit (i : Nat) : Nat := 0x1800018 + 0x10000 * i
abbrev rpaRange (i : Nat) : Nat := 0x180001C + 0x10000 * i
abbrev rpaIrqStat (i : Nat) : Nat := 0x1800020 + 0x10000 * i
abbrev rpaIrqEn (i : Nat) : Nat := 0x1800024 + 0x10000 * i
abbrev vltStat (i : Nat) : Nat := 0x2000000 + 0x1000 * i
abbrev vltEvt (i : Nat) : Nat := 0x2000004 + 0x1000 * i
abbrev vltCeCnt (i : Nat) : Nat := 0x2000008 + 0x1000 * i
abbrev vltPoisonCnt (i : Nat) : Nat := 0x200000C + 0x1000 * i
abbrev vltPoisonLog (i : Nat) : Nat := 0x2000010 + 0x1000 * i
abbrev vltScrub (i : Nat) : Nat := 0x2000014 + 0x1000 * i
abbrev vltLap (i : Nat) : Nat := 0x2000018 + 0x1000 * i
abbrev vltMntCmd (i : Nat) : Nat := 0x2000020 + 0x1000 * i
abbrev vltMntAddr (i : Nat) : Nat := 0x2000024 + 0x1000 * i
abbrev vltMntDataLo (i : Nat) : Nat := 0x2000028 + 0x1000 * i
abbrev vltMntDataHi (i : Nat) : Nat := 0x200002C + 0x1000 * i
abbrev vltSrep (i : Nat) (j : Nat) : Nat := 0x2000800 + 0x1000 * i + 0x4 * j
abbrev vltCfg : Nat := 0x2100000
abbrev vltMap : Nat := 0x2100004
abbrev vltTileen : Nat := 0x2100008
abbrev vltCommit : Nat := 0x210000C
abbrev vltLapDev : Nat := 0x2100010
abbrev vltRefresh : Nat := 0x2100014
abbrev vltFuseCmd : Nat := 0x2100018
abbrev vltFailed (i : Nat) : Nat := 0x2100020 + 0x4 * i
abbrev wfeCtl (i : Nat) : Nat := 0x2800000 + 0x10000 * i
abbrev wfeStatus (i : Nat) : Nat := 0x2800004 + 0x10000 * i
abbrev wfePc (i : Nat) : Nat := 0x2800008 + 0x10000 * i
abbrev wfeStart (i : Nat) : Nat := 0x280000C + 0x10000 * i
abbrev wfeMemAddr (i : Nat) : Nat := 0x2800010 + 0x10000 * i
abbrev wfeMemData (i : Nat) : Nat := 0x2800014 + 0x10000 * i
abbrev wfeStrCfg (i : Nat) : Nat := 0x2800018 + 0x10000 * i
abbrev wfeStrRing (i : Nat) : Nat := 0x280001C + 0x10000 * i
abbrev wfeStrCtl (i : Nat) : Nat := 0x2800020 + 0x10000 * i
abbrev wfeCommit (i : Nat) : Nat := 0x2800024 + 0x10000 * i
abbrev wfeStrTrigLo (i : Nat) : Nat := 0x2800028 + 0x10000 * i
abbrev wfeStrTrigHi (i : Nat) : Nat := 0x280002C + 0x10000 * i
abbrev wfeStrLen (i : Nat) : Nat := 0x2800030 + 0x10000 * i
abbrev wfeStrCnt (i : Nat) : Nat := 0x2800034 + 0x10000 * i
abbrev wfeStrDrop (i : Nat) : Nat := 0x2800038 + 0x10000 * i
abbrev wfeStrGap (i : Nat) : Nat := 0x280003C + 0x10000 * i
abbrev wfeStall (i : Nat) : Nat := 0x2800040 + 0x10000 * i
abbrev wfeEcc (i : Nat) : Nat := 0x2800044 + 0x10000 * i
abbrev wfeIrq (i : Nat) : Nat := 0x2800048 + 0x10000 * i
abbrev fabCellStat : Nat := 0x3008000
abbrev fabResLog : Nat := 0x3008004
abbrev fabResInject : Nat := 0x3008008
abbrev fabResCount (i : Nat) : Nat := 0x3008040 + 0x4 * i
abbrev fabWclkCells (i : Nat) : Nat := 0x3008080 + 0x4 * i
abbrev fabZbusStat : Nat := 0x3008100
abbrev fabZbusLog : Nat := 0x3008104
abbrev fabRwStat : Nat := 0x3008108
abbrev fabPenStat : Nat := 0x300810C
abbrev fabColmap (i : Nat) : Nat := 0x3008140 + 0x4 * i
abbrev fabExpCtl : Nat := 0x3009000
abbrev fabExpStat : Nat := 0x3009004
abbrev fabDevBase (i : Nat) (j : Nat) : Nat := 0x3009040 + 0x8 * i + 0x4 * j
abbrev fabExpMiss (i : Nat) : Nat := 0x30090C0 + 0x4 * i
abbrev fabLoupeSel (i : Nat) : Nat := 0x300A000 + 0x4 * i

end Sys2Proof.Machine.Reg
end

