-- ==== Sys2Proof/Machine/Sparse.lean ====
section
/-! DEFINITION. Sparse maps: a memory, or a bank of like things, as a list of (key, value) pairs in ONE canonical
form: keys strictly rising, and no entry equal to what an unlisted key reads as. -/

namespace Sys2Proof.Machine.Sparse

variable {α : Type}

/-- What key `k` reads as: the first entry of the list for it, or the default. -/
def get (d : Nat → α) : List (Nat × α) → Nat → α
  | [], k => d k
  | (j, v) :: m, k => if j = k then v else get d m k

/-- The list without any entry for `k`. -/
def erase : List (Nat × α) → Nat → List (Nat × α)
  | [], _ => []
  | (j, v) :: m, k => if j = k then erase m k else (j, v) :: erase m k

/-- The list with the entry (k, v) in its place by rising key. -/
def put : List (Nat × α) → Nat → α → List (Nat × α)
  | [], k, v => [(k, v)]
  | (j, w) :: m, k, v =>
    if k < j then (k, v) :: (j, w) :: m
    else if j = k then (k, v) :: m
    else (j, w) :: put m k v

/-- Store `v` at `k`: writing what an unlisted key reads as removes the entry. -/
def set [DecidableEq α] (d : Nat → α) (m : List (Nat × α)) (k : Nat) (v : α) : List (Nat × α) :=
  if v = d k then erase m k else put m k v

/-- Every entry of the list has a key above `k`. -/
def above (k : Nat) (m : List (Nat × α)) : Bool := m.all (fun p => decide (k < p.1))

/-- The canonical form. -/
def wf [DecidableEq α] (d : Nat → α) : List (Nat × α) → Bool
  | [] => true
  | (k, v) :: m => above k m && decide (v ≠ d k) && wf d m

/-- Store a list of values at consecutive keys. -/
def setList [DecidableEq α] (d : Nat → α) (m : List (Nat × α)) (k : Nat) : List α → List (Nat × α)
  | [] => m
  | v :: vs => setList d (set d m k v) (k + 1) vs

/-- Read `n` consecutive keys. -/
def getList (d : Nat → α) (m : List (Nat × α)) (k : Nat) : Nat → List α
  | 0 => []
  | n + 1 => get d m k :: getList d m (k + 1) n

end Sys2Proof.Machine.Sparse
end

