-- ==== Sys2Proof/Machine/State.lean ====
section
/-! DEFINITION. The state of the device as plain data, the reasons a step can stop, and the state after reset. -/

namespace Sys2Proof.Machine

/-- Why the model stops with a fault: for no reason, since every operand names a unit that the part has. -/
inductive Fault where
  deriving DecidableEq, Repr

/-- Why the model refuses a command. -/
inductive Refusal where
  /-- Raised by exec for a command whose meaning is not written. Safe: the model stops. -/
  | notModelled (mnemonic : String)
  deriving DecidableEq, Repr

/-- A queue read by RP fields (R9): its entries, oldest first, and whether an entry was dropped since the last one
entered (the next entry then carries overflow = 1). -/
structure Queue where
  items : List Word := []
  lost : Bool := false
  /-- where several events of one fc enter in an order of their own (R131, R154): the fc of the newest entry, and the places of the
  entries of that fc, newest first -/
  fc : Nat := 0
  ords : List Nat := []
  deriving DecidableEq, Repr

/-- How the last access that returns something completed (R6, R359 table, R358, R401, R489). -/
inductive CplStatus where
  | none
  | ok
  /-- Unsupported Request -/
  | ur
  /-- Completer Abort, or an error response inside the part -/
  | ca
  deriving DecidableEq, Repr

/-- The last completion the device returned: its status, the register value or the bytes, and the poison mark EP. -/
structure Completion where
  status : CplStatus := .none
  value : Word := 0
  bytes : List Byte := []
  ep : Bool := false
  deriving DecidableEq, Repr

/-- A run of consecutive issued cycles with identical fields (R65, R74), with everything fixed when they issued. -/
structure Span where
  first : Nat
  len : Nat
  ctx : BitVec 6
  tset : BitVec 4
  cap : BitVec 4
  /-- the cycles of a CALWIN or BISTWIN carry no vector (R88, R89) -/
  window : Bool := false
  /-- the cycles consume stored vectors from index `x15` on (R71) -/
  sv : Bool := false
  x15 : Word := 0
  sw0 : Word := 0
  sw1 : Word := 0
  /-- the address of the instruction that issued them (R103) -/
  pc : Nat := 0
  /-- the seek they belong to: rows of different seeks are kept apart -/
  gen : Nat := 0
  /-- consuming cycles below this number are too early after a seek (R72) -/
  inTime : Nat := 0
  svmask : BitVec 64 := 0
  topoMask : BitVec 64 := 0
  topoRsel : Word := 0
  topoCsel : Word := 0
  block : BitVec 8 := 0
  mode : BitVec 2 := 0
  /-- the context lies outside the region's in-use mask: the interface outputs are discarded (R165) -/
  discarded : Bool := false
  /-- the first cycle of the BISTWIN that the cycles belong to (R89) -/
  bistFrom : Option Nat := none
  deriving DecidableEq, Repr

/-- Why a sequencer waits (state 0b100 of R106). -/
inductive Wait where
  | none
  /-- a MATCH whose fields were issued; `word` is its instruction -/
  | matching (word : BitVec 64)
  | waitf (flag : BitVec 4) (value : Bool) (since : Nat)
  | sync (mask : BitVec 16) (id : BitVec 4) (since : Nat)
  /-- a CALWIN issued at cycle `first` for `len` cycles -/
  | calwin (first len : Nat)
  | bistwin (first len : Nat)
  deriving DecidableEq, Repr

/-- What a sequencer does after the last cycle it has issued (R68, R74). -/
inductive After where
  /-- the instruction at PC -/
  | go
  /-- its run of cycles is cut there by the planned stop -/
  | cut
  /-- execution has fallen through past address 0x7FFF -/
  | past
  deriving DecidableEq, Repr

/-- What the interface cells of a region produced for one cycle (R162). -/
structure IfcOut where
  syms : BitVec 256 := 0
  row : BitVec 20 := 0
  col : BitVec 16 := 0
  flags : BitVec 8 := 0
  deriving DecidableEq, Repr

/-- A stored-vector row at the formatter (R72). -/
inductive FmtRow where
  | absent
  /-- poisoned, reserved, failed-vault or disabled-tile: it never arrives; whether the integrity word says so -/
  | never (recorded : Bool)
  /-- it had not arrived when its first cycle was due: every cycle that needs it is a fill cycle (R26) -/
  | late
  | here (bytes : List Byte)
  deriving DecidableEq, Repr

/-- What the response path has gathered of one cycle before all 16 lanes have delivered it (R207). -/
structure CycAcc where
  lanes : BitVec 16 := 0
  fail : BitVec 64 := 0
  unv : BitVec 64 := 0
  ex : BitVec 64 := 0
  /-- channels whose symbol expects -/
  comp : BitVec 64 := 0
  act : BitVec 128 := 0
  /-- an uncorrectable expectation entry (R207) -/
  expBad : Bool := false
  /-- channels on which the two compare units disagree (R210) -/
  disagree : BitVec 64 := 0
  /-- the lowest PRX lane of the site whose frame was bad -/
  badLane : Option Nat := none
  deriving DecidableEq, Repr

/-- A fail-map line of the row cache (R221). `bits` lists the failing bit numbers of the 2 KiB row. -/
structure MapLine where
  addr : Nat
  block : Nat
  openFc : Nat
  firstCycle : Nat
  closed : Bool
  bits : List Nat
  deriving DecidableEq, Repr

/-- A counter line of the row cache (R228). -/
structure CtrLine where
  addr : Nat
  data : List Byte
  dirty : Bool
  poisoned : Bool := false
  deriving DecidableEq, Repr

/-- One update in the counter queue (R228): the row and the column counter of one cell of a block. -/
structure CtrUpdate where
  block : Nat
  row : Nat
  col : Nat
  deriving DecidableEq, Repr

/-- The geometry an analysis snapshots at its start (08, Blocks and spares). -/
structure RpaJob where
  geom : Word := 0
  nblk : Word := 0
  mapBase : Nat := 0
  ctrBase : Nat := 0
  spare : Word := 0
  solBase : Nat := 0
  cfg : Word := 0
  limit : Nat := 0
  last : Nat := 0
  deriving DecidableEq, Repr

/-- The state of one site that is no register: its sequencer, formatter, response path, capture and repair engine. -/
structure Site where
  /-- instruction memory (R64), sparse, default 0 -/
  imem : List (Nat × BitVec 64) := []
  /-- cycles issued since the start; the register holds it modulo 2^48 (R66) -/
  cycle : Nat := 0
  /-- the fc in which cycle 0 issues (R98) -/
  fc0 : Nat := 0
  /-- the horizon in use by the running pattern (R79) -/
  hUse : Nat := 0
  /-- the FACC clear point (R78) -/
  clearPt : Nat := 0
  wait : Wait := .none
  /-- stop-on-fail planned for this cycle number (R99): it is not issued; with the failing cycle -/
  stopAt : Option (Nat × Nat) := none
  /-- the reason of the planned stop: 3 stop-on-fail, 4 host stop by SEQ_GSTOP -/
  stopBy : Nat := 3
  /-- what comes after the last issued cycle -/
  after : After := .go
  /-- issued cycles, newest first -/
  spans : List Span := []
  /-- counted channels that are FAIL or UNV, by cycle (R209) -/
  fails : List (Nat × BitVec 64) := []
  /-- interface outputs by cycle (R162) -/
  ifc : List (Nat × IfcOut) := []
  /-- host flag writes: arrival fc and value, newest first (R76) -/
  hflags : List (Nat × Bool) := []
  /-- formatter rows of the stored-vector stream, by gen·2^32 + row of the stream (R72) -/
  fmt : List (Nat × FmtRow) := []
  /-- seeks since the arm -/
  gen : Nat := 0
  /-- the first cycle that may consume after the last seek (R72) -/
  inTime : Nat := 0
  /-- fc of the last host seek while armed (R72) -/
  seekFc : Option Nat := none
  /-- consuming cycles below this number have had their rows looked at (R26) -/
  fillPtr : Nat := 0
  /-- rows whose fill by a cycle too early after a seek is recorded (R26, R72) -/
  early : List Nat := []
  /-- overlay load in progress: bank, first source row, rows (R90) -/
  ovl : Option (Bool × Nat × Nat) := none
  /-- cycles whose EXPOSE has not yet reached its edge (R93) -/
  exposeAt : List Nat := []
  /-- the sequencer as the cycle that ends at an edge to come left it: the edge, and what the record shows of it (R404, R406) -/
  exposeRegs : List (Nat × List Byte) := []
  /-- cycles of FLUSH instructions whose fails are not all in their lines yet (R94) -/
  flushAt : List Nat := []
  /-- capture block and mode in effect for the next cycle (R96, R213) -/
  capBlock : BitVec 8 := 0
  capMode : BitVec 2 := 0
  /-- the PTX lanes send PARK for a reason of R182 until the next start (R100) -/
  parkReason : BitVec 8 := 0
  /-- symbols as sent, by (cycle mod 4096)·16 + lane of the site (R206) -/
  expect : List (Nat × BitVec 16) := []
  acc : List (Nat × CycAcc) := []
  /-- every later response of the site is UNV after a compare fault (R210) -/
  cmpBad : Bool := false
  mapLines : List MapLine := []
  logLine : List (List Byte) := []
  /-- counter lines, least recently used first -/
  ctrLines : List CtrLine := []
  ctrQueue : List CtrUpdate := []
  /-- blocks that have fallen back since the start, with cause (R224) -/
  fallen : List (Nat × Nat) := []
  /-- cycles that have their result (R207) -/
  judged : Nat := 0
  /-- a BISTWIN saved the region's state and it is not yet restored (R89) -/
  restorePending : Bool := false
  /-- the edge at which that BISTWIN saved it, as the fc it begins (R89) -/
  bistEdge : Nat := 0
  /-- self-test slices of the last BISTWIN that may still begin (R89) -/
  slicesLeft : Nat := 0
  /-- the recording window of the integrity word is open (R454) -/
  window : Bool := false
  /-- classes recorded in the window (R455) -/
  seen : BitVec 64 := 0
  job : RpaJob := {}
  /-- a region or lane cause isolates the site (R33), one mark for each cause -/
  isoIncomplete : Bool := false
  isoVault : Bool := false
  isoGolden : Bool := false
  isoForced : Bool := false
  /-- the fc from which that isolation holds (R317) -/
  isoFrom : Nat := 0
  isoPlane : Bool := false
  /-- power class of the region, from the image (R302) -/
  pclass : Nat := 0
  /-- the image declares unsynchronised logic in the region (R138) -/
  unsync : Bool := false
  /-- the first scrub lap after a STANDBY exit has not completed (R39) -/
  cfgUnverified : Bool := false
  /-- frame address of a relevant upset to be recorded at the next start (R321) -/
  upset : Option Nat := none
  /-- lane and site map of the last load that gave one, byte c for channel c; none is the default map (R21, R302) -/
  lmap : Option (BitVec 512) := none
  /-- low 32 bits of the number of the last issued cycle, 0 if none since the last load (R115) -/
  lastIssued : Word := 0
  /-- a partial load, port write or ISOLATE session holds the region (R33) -/
  reconf : Bool := false
  icpSession : Bool := false
  /-- internal-port writes into the region that are not complete (R33) -/
  icpWrites : Nat := 0
  deriving DecidableEq, Repr

/-- A PTX frame awaiting its answer (R190): its kind, its marker number, and the cycle that each position carries. -/
structure Sent where
  frame : Nat
  kind : BitVec 2
  marker : Nat := 0
  cycles : List (Option Nat) := []
  deriving DecidableEq, Repr

/-- The state of one lane pair that is no register: transmitter j and receiver j (R172). -/
structure Lane where
  /-- PTX scrambler: the last 58 scrambled body bits, newest in bit 0; initially all ones (R179) -/
  txScr : BitVec 58 := BitVec.allOnes 58
  /-- the last 160 bits sent, frame bit i in bit i, and the gap bits that followed them, in order (R174, R177) -/
  lastFrame : BitVec 160 := 0
  lastGap : List Bool := []
  /-- the number of the next frame that can be sent (R174) -/
  nextFrame : Nat := 0
  sent : List Sent := []
  /-- the last 58 body bits received -/
  rxScr : BitVec 58 := 0
  /-- consecutive invalid headers, and the last 32 header verdicts, 1 for invalid (R189) -/
  badRun : Nat := 0
  hist : BitVec 32 := 0
  /-- consecutive frames with a wrong tag or outside the window (R189) -/
  tagRun : Nat := 0
  /-- the LNK_EVT bit of the last loss: 0 los, 1 lol, 2 flock_lost (R189, R191) -/
  loss : Nat := 2
  /-- number of the next MARKER, and the frame of the last one (R192) -/
  markNum : Nat := 0
  lastMark : Nat := 0
  /-- MARKERs sent and echoes received in the measurement in progress, and the largest echo (R192) -/
  markSent : Nat := 0
  markGot : Nat := 0
  rMax : Nat := 0
  /-- an R193 measurement in progress: DATA frames gathered, those that resolved, largest round trip -/
  relock : Bool := false
  relockGot : Nat := 0
  relockHits : Nat := 0
  /-- the lane horizon measured last, in fc (R192, R193): LNK_RTT shows its low 12 bits -/
  horizon : Nat := 0
  /-- the LNK_EQTAB entry taken at the last commit of the PTX lane, of the PRX lane (R175, R200) -/
  eqTx : BitVec 128 := 0
  eqRx : BitVec 128 := 0
  /-- the PTX stream of PRBS mode: the fc of its first bit, and the 31 bits that came before that bit (R196) -/
  prbsFrom : Nat := 0
  prbsSeed : BitVec 31 := 0
  /-- the PRX checker of PRBS mode: its register, the bits it has taken in as its seed, the error-free bits in a row before sync; and in
  sync the errors among the last 1,024 bits, newest in bit 0 (R196) -/
  prbsReg : BitVec 31 := 0
  prbsHeld : Nat := 0
  prbsRun : Nat := 0
  prbsErrs : BitVec 1024 := 0
  /-- the fc in which kind 0b00 of LNK_INJECT flipped one bit of the PTX stream, and the fc from which kind 0b01 flips bits of it (R197) -/
  flipOnce : List Nat := []
  flipTx : Option Nat := none
  /-- the next received bit is flipped; the bits received since kind 0b01 flips bits of the received stream (R197) -/
  flipNext : Bool := false
  flipRx : Option Nat := none
  deriving DecidableEq, Repr

/-- The row in a vault's row register (R269). -/
structure RowReg where
  row : Nat := 0
  data : List Byte := []
  poisoned : Bool := false
  /-- a row operation that has activated the row may still write it back (R268) -/
  busy : Bool := false
  deriving DecidableEq, Repr

/-- A vault's service buffer (R271): one row, whether it is dirty or poisoned, and which bytes were written since
the row entered (R278). -/
structure Svc where
  row : Option Nat := none
  data : List Byte := []
  dirty : Bool := false
  poisoned : Bool := false
  written : List Nat := []
  deriving DecidableEq, Repr

/-- A maintenance command accepted and not yet done (R294). -/
structure MntJob where
  cmd : BitVec 4
  row : Nat
  word : Nat
  deriving DecidableEq, Repr

/-- The state of one vault that is no register and no memory. -/
structure Vault where
  rowReg : RowReg := {}
  svc : Svc := {}
  /-- the holder of the service-buffer reservation and the reserved row (R377) -/
  reserve : Option (Nat × Nat) := none
  /-- fused repairs, laid out as soft entries (R282, R284) -/
  fuses : List Word := []
  /-- rows corrected in this lap and in the lap before (R283) -/
  fixedNow : List Nat := []
  fixedLast : List Nat := []
  /-- TSC at which the scrub lap began, or went on after a pause or a reset, and the bc it had lasted before (R279) -/
  lapStart : Nat := 0
  lapPast : Nat := 0
  mnt : Option MntJob := none
  /-- the mirror of the soft repair table in the service rows (R283) -/
  mirror : List (Nat × Word) := []
  /-- refreshes done (R281) -/
  refreshed : Nat := 0
  /-- a failed vault retrained without a rewrite: its rows hold undefined data (R287), free values numbered from here -/
  lost : Option Nat := none
  /-- locations written since then -/
  known : List Nat := []
  /-- reserved rows of the golden copy that are poisoned (R277, R319) -/
  goldenBad : List Nat := []
  /-- the soft entries that the fuse burn in progress still has to turn into fuses (R284) -/
  burn : Option (List Nat) := none
  deriving DecidableEq, Repr
/-- The user state of one cell (R111). -/
structure Cell where
  /-- w0 to w15: register i in bits 32i + 31 : 32i -/
  w : BitVec 512 := 0
  c : Bool := false
  z : Bool := false
  n : Bool := false
  v : Bool := false
  o0 : Word := 0
  o1 : Word := 0
  /-- residue codes, two bits each: w0 to w15, o0, o1 -/
  res : BitVec 36 := 0
  deriving DecidableEq, Repr

/-- What a cell that has executed in the cycle in effect holds at its end. -/
structure CellNext where
  cell : Cell
  /-- o1 is written in the cycle (R146) -/
  wroteO1 : Bool := false
  deriving DecidableEq, Repr

/-- A row-window read in flight (R160). -/
structure WinRead where
  vault : Nat
  /-- fc of issue of the cycle that made the request -/
  since : Nat
  data : List Byte
  poisoned : Bool
  deriving DecidableEq, Repr

/-- A disabled Z-bus: its number 4·block + bus, the context that tripped it, and whether it stays disabled (R154). -/
structure BusOff where
  bus : Nat
  ctx : Nat
  permanent : Bool
  /-- the frames of the strips whose cells enabled the bus when it tripped -/
  frames : List Nat := []
  deriving DecidableEq, Repr

/-- The two planes of a region: cells by plane·4096 + x·64 + y, routing registers, ports and row windows. -/
structure Fabric where
  /-- held at the initial values: unconfigured, loading, or a warm reset not yet released (R47, R49, R52) -/
  held : Bool := true
  /-- a context is in effect -/
  live : Bool := false
  ctx : BitVec 6 := 0
  /-- the fc in which the cycle in effect issued, or would have (R163) -/
  now : Nat := 0
  /-- the sequencer's cycle in effect -/
  cyc : Option Nat := none
  /-- the tile takes the interface outputs of this cycle -/
  sampled : Bool := false
  sw0 : Word := 0
  sw1 : Word := 0
  num : Word := 0
  /-- cells whose context word could not be read: NOP, nothing driven (R164) -/
  dead : List Nat := []
  /-- levels last seen on the clocking wires of the cells that the context in effect clocks by wire (R136) -/
  wire : List (Nat × Bool) := []
  cells : List (Nat × Cell) := []
  /-- cells that have executed in the cycle in effect -/
  next : List (Nat × CellNext) := []
  /-- an illegal instruction of this cycle is recorded (R129) -/
  illegal : Bool := false
  /-- four-hop segments by 4·cell + direction: what each carries in this cycle (R151) -/
  seg : List (Nat × Word) := []
  /-- long-line midpoint registers by 4·cell + direction (R151) -/
  mid : List (Nat × Word) := []
  /-- penumbra port registers by 128·edge + 64·plane + port: the last value registered while forwarding (R155, R156) -/
  pen : List (Nat × Word) := []
  /-- the ports' registers hold park values, as a neighbour reads them until the first fc that forwards again, and the fc from which it
  does (R156) -/
  parked : Bool := true
  parkFrom : Nat := 0
  /-- park codes by port (R156) -/
  park : List (Nat × BitVec 2) := []
  /-- Z-buses disabled now (R154) -/
  busOff : List BusOff := []
  /-- (4·block + bus, context) of every trip since the last load (R154) -/
  trips : List (Nat × Nat) := []
  /-- row-window words by 512·vault + word (R157) -/
  win : List (Nat × Word) := []
  /-- fc of the last accepted request of each window (R161) -/
  winLast : List (Nat × Nat) := []
  /-- windows that have made their request in this cycle -/
  winDone : List Nat := []
  winReads : List WinRead := []
  /-- initial values by 32·cell + item (R302) -/
  init : List (Nat × Word) := []
  /-- the column a self-test slice holds: plane and physical column (R460) -/
  slice : Option (Bool × Nat) := none
  deriving DecidableEq, Repr

/-- What an image gives a region besides its frames (R302). -/
structure RegionCfg where
  inuse : BitVec 64 := 0
  rmode : Bool := false
  /-- lane and site map, where the image has one -/
  lmap : Option (BitVec 512) := none
  park : BitVec 1024 := 0
  pclass : Option Nat := none
  init : List (Nat × Word) := []
  deriving DecidableEq, Repr

/-- An accepted image header (R301, R302). -/
structure ImgHdr where
  full : Bool
  staged : Bool
  regions : BitVec 16
  frames : Nat
  bodyLen : Nat
  /-- (type, offset, length) of each section -/
  sections : List (Nat × Nat × Nat)
  bodyCrc : BitVec 64
  build : BitVec 64
  signed : Bool
  key : BitVec 16
  sig : List Byte
  /-- the staging area (R312) -/
  stage : Nat
  deriving DecidableEq, Repr

/-- The configuration controller's load in progress (R306 to R313). -/
structure Loader where
  /-- the next stream byte (R306) -/
  pos : Nat := 0
  /-- bytes taken and not yet checked -/
  buf : List Byte := []
  hdr : Option ImgHdr := none
  /-- sections taken -/
  sec : Nat := 0
  /-- CRC-64 of the body so far -/
  crc : BitVec 64 := 0
  /-- what the signature covers so far -/
  msg : List Byte := []
  /-- sections taken, by region -/
  cfg : List (Nat × RegionCfg) := []
  /-- relevance bits of the records not yet taken (R302) -/
  rel : List (BitVec 256) := []
  /-- address of the last frame record -/
  last : Option Nat := none
  /-- frames of this load (R153 in a full load counts only these) -/
  done : List Nat := []
  /-- frames written in the staged write phase -/
  written : Nat := 0
  /-- fc in which the body was accepted (R48) -/
  accepted : Option Nat := none
  /-- TSC of the last sink write (R377) -/
  lastWrite : Nat := 0
  deriving DecidableEq, Repr

/-- A command of an internal configuration port, taken and not yet complete (R315). -/
structure IcpJob where
  word : Word
  arg : Word
  code : BitVec 4
  /-- fc in which it was taken -/
  since : Nat
  /-- it is a WRITE to a context in use, which forces the isolation of its target (R317) -/
  forced : Bool := false
  /-- the frame of a WRITE -/
  data : BitVec 4096 := 0
  deriving DecidableEq, Repr

/-- One internal configuration port: the tog of the last command it took, and its commands in the order taken (R314). -/
structure Icp where
  tog : Bool := false
  jobs : List IcpJob := []
  deriving DecidableEq, Repr

/-- A double-bit error of a frame that waits to be reloaded (R320, R321). -/
structure Reload where
  frame : Nat
  /-- found by a context read -/
  byRead : Bool
  relevant : Bool
  deriving DecidableEq, Repr

/-- The context layer and its controller. -/
structure CtxLayer where
  /-- the context layer by frame index: cell i's word in bits 256i + 255 : 256i (R113, R304) -/
  frames : List (Nat × BitVec 4096) := []
  /-- the golden copy and its relevance bits (R319) -/
  golden : List (Nat × BitVec 4096) := []
  relev : List (Nat × BitVec 256) := []
  goldenCfg : List (Nat × RegionCfg) := []
  load : Loader := {}
  icp : List (Nat × Icp) := []
  reloads : List Reload := []
  /-- TSC at the start of the scrub lap -/
  lapStart : Nat := 0
  /-- the fabric is power-gated: STANDBY, and SAFE entered from it (R32, R37) -/
  gated : Bool := false
  /-- a restore lap is in progress after a warm reset (R52) -/
  restore : Bool := false
  /-- the fc of the start-up release after a restore lap that has passed (R52) -/
  release : Option Nat := none
  deriving DecidableEq, Repr

/-- One DMA engine beyond its registers: the lease holder of the ring (R377). -/
structure Dma where
  holder : Option Nat := none
  deriving DecidableEq, Repr

/-- The live counters of one requester (R373). -/
structure NocLive where
  bytes : Nat := 0
  packets : Nat := 0
  bins : List Nat := [0, 0, 0, 0, 0, 0, 0, 0]
  deriving DecidableEq, Repr

/-- The configuration space of the PCI Express function as far as the spec names it (R356): the identity, and whether the function is in
D3hot rather than D0. -/
structure PciFn where
  deviceId : BitVec 16 := 0x2048
  classCode : BitVec 24 := 0x120000
  /-- the BARs as the host has assigned them, the size of BAR4, and the power state (R50, R356, R357) -/
  conf : PciConf := {}
  /-- the AER uncorrectable error status: bit 12 poisoned TLP received, bit 19 ECRC error (R356) -/
  aer : Word := 0
  deriving DecidableEq, Repr

/-- The host interface, the network and the scratchpad beyond their registers. -/
structure HostIf where
  /-- hi halves latched by a lo read, by requester and address of lo (R7) -/
  latch : List (Nat × Word) := []
  /-- lo halves held for a following hi write, by requester and address of lo (R8) -/
  hold : List (Nat × Option Word) := []
  /-- writes or instructions left in each requester's key window (R16, R362) -/
  keyWin : List (Nat × Nat) := []
  /-- the hart's window was broken by debug entry (R397) -/
  keyBroken : Bool := false
  /-- vectors whose message the endpoint has sent, oldest first (R366) -/
  msgs : List Nat := []
  msixEnable : Bool := false
  msixFuncMask : Bool := false
  /-- mask bits of the MSI-X table; PCI Express resets each to 1 -/
  msixMask : BitVec 64 := BitVec.allOnes 64
  /-- pending bit array -/
  pba : BitVec 64 := 0
  /-- the link is up and the function out of reset -/
  linkUp : Bool := false
  pci : PciFn := {}
  dma : List (Nat × Dma) := []
  /-- bytes a DMA engine or a completion last delivered to host memory -/
  toHost : List Byte := []
  /-- those bytes carry EP = 1 (R367) -/
  toHostEp : Bool := false
  live : List (Nat × NocLive) := []
  /-- scratchpad bytes, sparse, default 0 (R374) -/
  spd : List (Nat × Byte) := []
  /-- holder of each scratchpad lock (R379) -/
  locks : List (Nat × Option Nat) := []
  /-- the configuration controller holds the staging lease (R377) -/
  staging : Bool := false
  deriving DecidableEq, Repr

/-- A complex accumulator of a waveform engine (R335): two signed halves. -/
structure Acc where
  re : BitVec 40 := 0
  im : BitVec 40 := 0
  deriving DecidableEq, Repr

/-- A pointer of a waveform engine with its step, base and length (R335). -/
structure Ptr where
  p : Nat := 0
  step : BitVec 16 := 0
  base : Nat := 0
  len : Nat := 0
  deriving DecidableEq, Repr

/-- What a waveform engine waits for. -/
inductive WfeWait where
  | none
  | words (n : Nat)
  /-- an XFER while an earlier transfer runs -/
  | xfer
  | transfer
  deriving DecidableEq, Repr

/-- A repeat in progress (R340): the first instruction of the body, how many, passes left, this one included, and the repeat cache: the
words that the first pass has loaded. -/
structure WfeRep where
  first : Nat
  len : Nat
  left : Nat
  cache : List Word := []
  deriving DecidableEq, Repr

/-- A DRAM transfer of a waveform engine (R350). -/
structure WfeXfer where
  addr : Nat
  /-- local to DRAM -/
  out : Bool
  /-- Y rather than X -/
  inY : Bool
  words : Nat
  at0 : Nat
  deriving DecidableEq, Repr

/-- The side-channel bytes of one PRX frame, taken for the stream (R343, R345): lane within the site, frame number, bytes, type,
whether R191 treats the frame, and the first cycle it answers. -/
structure SideFrame where
  lane : Nat
  frame : Nat
  bytes : BitVec 64
  kind : BitVec 2
  bad : Bool
  cycle : Option Nat
  deriving DecidableEq, Repr

/-- The state of one waveform engine that is no register. -/
structure Wfe where
  /-- program, sample and coefficient memories (R333), sparse, default 0 -/
  p : List (Nat × Word) := []
  x : List (Nat × Word) := []
  y : List (Nat × Word) := []
  /-- d0 to d7: register i in bits 32i + 31 : 32i -/
  d : BitVec 256 := 0
  a0 : Acc := {}
  a1 : Acc := {}
  /-- px0 to px3 at 0 to 3, py0 to py3 at 4 to 7 -/
  ptr : List (Nat × Ptr) := []
  rep : Option WfeRep := none
  wait : WfeWait := .none
  /-- a halt that acts after the instruction in progress (R352) -/
  haltReq : Bool := false
  job : Option WfeXfer := none
  /-- the stream port's write pointer -/
  wp : Nat := 0
  /-- the first frame of the stream, once it is known (R346) -/
  from0 : Option Nat := none
  /-- the frame in progress when WFE_STR_CTL.go was written (R346, R347) -/
  goFrame : Nat := 0
  sides : List SideFrame := []
  deriving DecidableEq, Repr


/-- The kind of reset in progress, or last finished (R51). -/
inductive ResetKind where
  | por
  | full
  | warm
  deriving DecidableEq, Repr

/-- The telemetry samples of one 100 µs average being formed (R424): how many, and their sums. -/
structure Tele where
  n : Nat := 0
  vin : Nat := 0
  iin : Nat := 0
  railV : List Nat := []
  railI : List Nat := []
  /-- the sums of ten samples of VIN behind its last published averages, newest first, ten at most (R425) -/
  hist : List Nat := []
  deriving DecidableEq, Repr

/-- The thermal model of one layer (R437, R438): estimate and sensor mean in 1/8 °C, the correction factor, and whether the host
allowed a suspect mark to clear (R439). -/
structure Therm where
  hat : Rat := 0
  mean : Rat := 0
  k : Rat := 1
  mayClear : Bool := false
  deriving DecidableEq, Repr

/-- The values in force before a bc in which the budget or the committed registers of the PMU change (R427): the bc, the budget, the base
reserve, the boost term, and the class powers. -/
structure PmuVals where
  bc : BitVec 64
  budget : Nat
  base : Nat
  boostW : Nat
  classW : List Nat
  deriving DecidableEq, Repr

/-- The always-on domain beyond its registers (R50). -/
structure Aon where
  /-- AON is up (R42) -/
  up : Bool := false
  /-- a brownout has reset AON, and VIN is still above 1.8 V (R419) -/
  brown : Bool := false
  /-- the step of start-up in progress (R42): 1 REFCLK judgement, 2 PLL lock, 3 ratio confirmation, 4 rails, 5 the steps behind
  PERST_N, 0 none -/
  step : Nat := 0
  /-- VIN has passed the brownout release threshold (R418) -/
  vinOk : Bool := false
  /-- PERST_N is asserted; it floats low (R490) -/
  perst : Bool := true
  /-- the reset in progress -/
  kind : ResetKind := .por
  /-- the vaults that still train do so after a full reset (R286) -/
  trainFull : Bool := false
  /-- the mode that a transition in progress leads to (R34, R56) -/
  target : Option Nat := none
  /-- VIO is good, and the straps SMB_ADDR1, SMB_ADDR0 once sampled (R484) -/
  vio : Bool := false
  strap : Option (BitVec 2) := none
  /-- the SMBus register pointer, and the status of the last WRITE (R489) -/
  smbPtr : Word := 0
  smbStatus : Byte := 0
  tele : Tele := {}
  /-- how many entries of the rails' order are on and in their windows (R420, R422); in a brownout, how many are still on (R419) -/
  railsIn : Nat := 0
  /-- what admission in the bc of the last change still goes by (R427) -/
  pmuBefore : Option PmuVals := none
  /-- the powers of the layers in the model updates of the last 100 ms, newest first (R438) -/
  powers : List (List Rat) := []
  /-- the clocks and the n of the frequency count in progress (R434) -/
  count : Nat × Nat × Nat := (0, 0, 8)
  /-- calibration items asked for while they run: they stay pending after it (R469) -/
  calAsked : List Nat := []
  therm : List (Nat × Therm) := []
  /-- the floor steps n of VDD_F, by 3·region + FCLK select (R474) -/
  floors : List (Nat × Nat) := []
  /-- regions with a floor that waits for drained = 1 (R423) -/
  floorWait : BitVec 16 := 0
  /-- powered hours in 1/16 h (R477) -/
  hours : Nat := 0
  /-- the next record of the ageing log (R477) -/
  logPos : Nat := 0
  /-- records of the ageing log that the firmware has still to write, without their powered hours -/
  logQueue : List (List Byte) := []
  /-- the firmware slots that a reset has left part-written in the flash, B for true (R387) -/
  slotCut : List Bool := []
  /-- fixed-rail layers whose margin is exhausted: B, M0 to M15, C (R475) -/
  exhausted : BitVec 18 := 0
  /-- the taps in force, by calibration instance, from the production value on (R471) -/
  taps : List (Nat × BitVec 8) := []
  /-- the redundant elements in use, spare channels of a region's through-stack item or the comparator of a lane's item (R19, R468): the
  number of the free value that names them, by calibration instance -/
  spares : List (Nat × Nat) := []
  deriving DecidableEq, Repr

/-- A self-test slice (R460): the physical column, 65·plane + column; whether it is a slice of the lap; whether it repeats a
failed one (R464). -/
structure Slice where
  col : Nat
  lap : Bool
  again : Bool := false
  deriving DecidableEq, Repr

/-- The self-test of one region (R459 to R467). -/
structure Bist where
  /-- the next position of the lap -/
  pos : Nat := 0
  sig : Word := 0
  /-- every slice of the lap so far has passed -/
  clean : Bool := true
  run : Option Slice := none
  /-- the slice that failed once and runs again before any other -/
  suspect : Option Slice := none
  /-- planes whose column holds a confirmed permanent fault (R464) -/
  confirmed : BitVec 2 := 0
  /-- a repair of a plane in progress (R465), and whether SAF_REPAIR_CMD asked for it -/
  repair : Option (Bool × Bool) := none
  /-- (plane, physical column) of the columns queued behind the one that SAF_FAULT names (R131, R464) -/
  queued : List (Nat × Nat) := []
  /-- the TSC at the last completed slice or release by a load, and the bc of the debt before the TSC last went back to 0 (R463) -/
  since : BitVec 64 := 0
  past : Nat := 0
  deriving DecidableEq, Repr

/-- A latent copy of a region (R404, R406): where its record goes, the record's first 196 bytes, the cells, and those whose o0 is
wire-clocked. -/
structure Latent where
  base : Nat
  header : List Byte
  cells : List (Nat × Cell)
  wclk : List Nat
  deriving DecidableEq, Repr

/-- The Exposures of one region: fc of the edges a host write waits for, and the latent copy. -/
structure Expo where
  host : List Nat := []
  latent : Option Latent := none
  deriving DecidableEq, Repr

/-- A flash command in progress (R389): command, staged offset, length, partition offset. -/
structure FwJob where
  cmd : Nat
  off : Nat
  len : Nat
  part : Nat
  deriving DecidableEq, Repr

/-- The state of the hart's program where the device last set it or took it (R381, R388, R398): the PC, x1 to x31, the CSRs by number, and
whether it runs at the user level. No command executes an instruction of the hart (log entry 9). -/
structure Hart where
  pc : Word := 0
  x : List Word := List.replicate 31 0
  csr : List (Nat × Word) := []
  user : Bool := false
  deriving DecidableEq, Repr

/-- The control processor beyond its registers (R381 to R398). -/
structure Cpu where
  /-- bytes of the TCM by offset, sparse, default 0 -/
  tcm : List (Nat × Byte) := []
  hart : Hart := {}
  /-- CSRs of the halted program, by number, as the debugger sees and writes them (R398) -/
  csr : List (Nat × Word) := []
  /-- the word an LR has reserved (R382) -/
  resv : Option Nat := none
  /-- the ROM has started the core since its last reset (R387) -/
  started : Bool := false
  /-- a flow extension runs, from this entry (R388) -/
  user : Option Word := none
  /-- a halt, or a forced entry, is requested (R396, R397) -/
  haltReq : Bool := false
  forceReq : Bool := false
  /-- the safety watchdog has raised the service interrupt in this period (R393) -/
  nmi : Bool := false
  job : Option FwJob := none
  /-- CPU_CWDT_CFG as the last restart of the core watchdog took it (R413) -/
  cwdt : Word := 0x12710
  /-- the replacement lines of the patch units by number (R386) -/
  patch : List (Nat × List Byte) := []
  deriving DecidableEq, Repr

/-- An access of the debug master that has not completed: its address, for a write its data, and whether its frame still waits for the
response (R400). -/
structure GlintReq where
  addr : BitVec 48
  wr : Option (Word × WriteAux)
  mine : Bool
  deriving DecidableEq, Repr

/-- The Glint receiver (R399 to R402): the frame in progress with its time unit in ns, the previous address, and the last
response. -/
structure Glint where
  inFrame : Bool := false
  unit : Nat := 0
  prev : BitVec 48 := 0
  status : Byte := 0
  data : Option Word := none
  crc : Byte := 0
  /-- how long the device holds the line low in each slot of that response, in ns (R399) -/
  lows : List Nat := []
  /-- accesses that have not completed, oldest first (R400) -/
  waiting : List GlintReq := []
  deriving DecidableEq, Repr

/-- What happened in the last step, as the event class of Loupe shows it (R417): one bit for each event, and the sequencers that
stopped. -/
structure Pulse where
  event : BitVec 21 := 0
  stop : BitVec 16 := 0
  /-- the levels of the eight Loupe signals, each with the TSC from which they held, newest first, as far back as the pins need them
  (R408) -/
  loupe : List (Nat × BitVec 8) := []
  /-- SAF events and core resets so far, whose counters in the registers saturate (R417) -/
  safs : Nat := 0
  resets : Nat := 0
  deriving DecidableEq, Repr

/-- An accepted commit whose safe point is not reached (R15): its groups, and the snapshot of their shadow registers. -/
structure PendingCommit where
  groups : BitVec 8
  snap : List (Nat × Word)
  deriving DecidableEq, Repr

/-- The device. -/
structure State where
  /-- commands waiting, first in, first out -/
  pending : List Instr := []
  /-- every register of BAR0 by byte address, sparse over the reset values of the register map -/
  regs : List (Nat × Word) := []
  /-- every RP queue by the address of its register (R9) -/
  queues : List (Nat × Queue) := []
  /-- pending commits by the address of the commit register -/
  commits : List (Nat × PendingCommit) := []
  cpl : Completion := {}
  /-- the time base TSC (R5) -/
  tsc : BitVec 64 := 0
  /-- fabric cycles since power-on, and root ticks toward the next one -/
  fc : Nat := 0
  fcPhase : Nat := 0
  /-- the model's own counter for free values (log entry 5) -/
  free : Nat := 0
  /-- flag writes: fc of arrival, set mask, clear mask, newest first (R85) -/
  xflags : List (Nat × BitVec 16 × BitVec 16) := []
  site : List (Nat × Site) := []
  lane : List (Nat × Lane) := []
  vault : List (Nat × Vault) := []
  fab : List (Nat × Fabric) := []
  wfe : List (Nat × Wfe) := []
  ctl : CtxLayer := {}
  /-- embedded flash bytes, sparse over what the factory left (R383) -/
  flash : List (Nat × Byte) := []
  /-- DRAM bytes in the canonical form of Sparse over Dram.reset -/
  dram : List Host.Cell := []
  host : HostIf := {}
  aon : Aon := {}
  bist : List (Nat × Bist) := []
  /-- a column fuse burn in progress: region and plane (R466) -/
  burn : Option (Nat × Bool) := none
  expo : List (Nat × Expo) := []
  cpu : Cpu := {}
  glint : Glint := {}
  /-- the glint_lock fuse (R402) -/
  glintLock : Bool := false
  pulse : Pulse := {}
  deriving DecidableEq, Repr

/-- The machine right after power-on reset: every register at the value of the register map, the mode RESET, every
memory unlisted, no command waiting. -/
def State.reset : State := {}

end Sys2Proof.Machine
end

