-- ==== Sys2Proof/Machine/Ops.lean ====
section
/-! DEFINITION. The named operations every meaning is written over: registers and their fields, queues, time,
events, integrity words, interrupts. -/

namespace Sys2Proof.Machine

abbrev Res := Host.Outcome State Fault Refusal

/-! ### Registers -/

/-- Bits [lo + len − 1 : lo] of a register value. -/
def fldOf (w : Word) (lo len : Nat) : Nat := w.toNat / 2 ^ lo % 2 ^ len

/-- A register value with a field replaced; the value is cut to the field's width. -/
def setFldOf (w : Word) (lo len v : Nat) : Word :=
  BitVec.ofNat 32 (w.toNat - fldOf w lo len * 2 ^ lo + v % 2 ^ len * 2 ^ lo)

/-- The stored value of the register at BAR0 address `a`. -/
def State.rd (s : State) (a : Nat) : Word := Sparse.get regReset s.regs a

/-- Set the register at `a` (what the hardware itself does; software goes through the bus). -/
def State.wr (s : State) (a : Nat) (v : Word) : State := { s with regs := Sparse.set regReset s.regs a v }

def State.fld (s : State) (a lo len : Nat) : Nat := fldOf (s.rd a) lo len

def State.setFld (s : State) (a lo len v : Nat) : State := s.wr a (setFldOf (s.rd a) lo len v)

def State.bit (s : State) (a i : Nat) : Bool := (s.rd a).getLsbD i

def State.setBit (s : State) (a i : Nat) (b : Bool) : State := s.setFld a i 1 (if b then 1 else 0)

/-- Set every bit of the mask. -/
def State.orBits (s : State) (a : Nat) (m : Word) : State := s.wr a (s.rd a ||| m)

/-- Add `n` to a field that saturates at its top. -/
def State.satAdd (s : State) (a lo len n : Nat) : State :=
  s.setFld a lo len (min (s.fld a lo len + n) (2 ^ len - 1))

/-- A 64-bit value held as a lo/hi pair (R7). -/
def State.rd64 (s : State) (a : Nat) : Nat := (s.rd a).toNat + (s.rd (a + 4)).toNat * 2 ^ 32

def State.wr64 (s : State) (a v : Nat) : State :=
  (s.wr a (BitVec.ofNat 32 v)).wr (a + 4) (BitVec.ofNat 32 (v / 2 ^ 32))

/-- The active copy of a committed register (R12): `act` is 0x200, or 0x1000 in SPD. -/
def State.rdAct (s : State) (a : Nat) : Word := s.rd (a + 0x200)

def State.fldAct (s : State) (a lo len : Nat) : Nat := fldOf (s.rdAct a) lo len

/-! ### Banks of like things -/

def State.getSite (s : State) (k : Nat) : Site := Sparse.get (fun _ => {}) s.site k
def State.setSite (s : State) (k : Nat) (x : Site) : State := { s with site := Sparse.set (fun _ => {}) s.site k x }
def State.modSite (s : State) (k : Nat) (f : Site → Site) : State := s.setSite k (f (s.getSite k))

def State.getLane (s : State) (l : Nat) : Lane := Sparse.get (fun _ => {}) s.lane l
def State.setLane (s : State) (l : Nat) (x : Lane) : State := { s with lane := Sparse.set (fun _ => {}) s.lane l x }
def State.modLane (s : State) (l : Nat) (f : Lane → Lane) : State := s.setLane l (f (s.getLane l))

def State.getVault (s : State) (v : Nat) : Vault := Sparse.get (fun _ => {}) s.vault v
def State.setVault (s : State) (v : Nat) (x : Vault) : State :=
  { s with vault := Sparse.set (fun _ => {}) s.vault v x }
def State.modVault (s : State) (v : Nat) (f : Vault → Vault) : State := s.setVault v (f (s.getVault v))

def State.getFab (s : State) (k : Nat) : Fabric := Sparse.get (fun _ => {}) s.fab k
def State.setFab (s : State) (k : Nat) (x : Fabric) : State := { s with fab := Sparse.set (fun _ => {}) s.fab k x }
def State.modFab (s : State) (k : Nat) (f : Fabric → Fabric) : State := s.setFab k (f (s.getFab k))

def State.getWfe (s : State) (k : Nat) : Wfe := Sparse.get (fun _ => {}) s.wfe k
def State.setWfe (s : State) (k : Nat) (x : Wfe) : State := { s with wfe := Sparse.set (fun _ => {}) s.wfe k x }
def State.modWfe (s : State) (k : Nat) (f : Wfe → Wfe) : State := s.setWfe k (f (s.getWfe k))

def State.getBist (s : State) (k : Nat) : Bist := Sparse.get (fun _ => {}) s.bist k
def State.setBist (s : State) (k : Nat) (x : Bist) : State := { s with bist := Sparse.set (fun _ => {}) s.bist k x }
def State.modBist (s : State) (k : Nat) (f : Bist → Bist) : State := s.setBist k (f (s.getBist k))

def State.getExpo (s : State) (k : Nat) : Expo := Sparse.get (fun _ => {}) s.expo k
def State.setExpo (s : State) (k : Nat) (x : Expo) : State := { s with expo := Sparse.set (fun _ => {}) s.expo k x }

/-- Apply a state change for every number of a list, in order. -/
def State.forAll (s : State) (l : List Nat) (f : State → Nat → State) : State := l.foldl f s

/-! ### Queues read by RP fields (R9) -/

def State.getQ (s : State) (a : Nat) : Queue := Sparse.get (fun _ => {}) s.queues a
def State.setQ (s : State) (a : Nat) (q : Queue) : State := { s with queues := Sparse.set (fun _ => {}) s.queues a q }

/-- Push an entry into a queue of `cap` entries: valid in bit 31; a full queue drops it, and the next entry that
enters has overflow (bit 30) = 1 (R95, R293, R456). -/
def State.pushQ (s : State) (a cap : Nat) (e : Word) : State :=
  let q := s.getQ a
  if q.items.length < cap then
    let e1 := e ||| 0x80000000#32
    s.setQ a { items := q.items ++ [if q.lost then e1 ||| 0x40000000#32 else e1], lost := false }
  else s.setQ a { q with lost := true }

/-- Push an entry into a queue whose entries of one fc stand in the order of their places `ord` (R131, R154); the entry that a full queue
drops is the last in that order. -/
def State.insertQ (s : State) (a cap fc ord : Nat) (e : Word) : State :=
  let q := s.getQ a
  let ords := if q.fc = fc then q.ords else []
  let n := (ords.takeWhile (fun o => decide (ord < o))).length
  let e1 := e ||| 0x80000000#32
  let ov := 0x40000000#32
  let front := q.items.take (q.items.length - n)
  let rest := q.items.drop (q.items.length - n)
  let first := rest.headD 0
  let marked := if n = 0 then q.lost else first.getLsbD 30
  let items := front ++ (if marked then e1 ||| ov else e1) :: (match rest with
    | [] => []
    | x :: l => (x &&& ~~~ov) :: l)
  let places := ords.take n ++ ord :: ords.drop n
  if q.items.length < cap then s.setQ a { items := items, lost := false, fc := fc, ords := places }
  else if n = 0 then s.setQ a { q with lost := true }
  else s.setQ a { items := items.take cap, lost := true, fc := fc, ords := places.drop 1 }

/-- The head of a queue, or the empty code 0. -/
def State.headQ (s : State) (a : Nat) : Word := (s.getQ a).items.headD 0

/-- Remove the head of a queue. -/
def State.popQ (s : State) (a : Nat) : State :=
  let q := s.getQ a
  s.setQ a { q with items := q.items.tail, ords := q.ords.take q.items.tail.length }

/-! ### Time -/

/-- FCLK divider of the root (R433): the active select of CLK_STAT[5:4]. -/
def State.fdiv (s : State) : Nat :=
  match s.fld Reg.clkStat 4 2 with
  | 1 => 12
  | 2 => 16
  | _ => 10

/-- UI per fc (R174): 20, 24 or 32. -/
def State.ui (s : State) : Nat := 2 * s.fdiv

/-- Advance to fabric cycle `f` when it lies ahead: to the first bc edge in it. The TSC counts the bc passed, ten root ticks each;
what the edge lies past the beginning of the fc stays in fcPhase (R5, R433). -/
def State.runTo (s : State) (f : Nat) : State :=
  if f ≤ s.fc then s
  else
    let bc := ((f - s.fc) * s.fdiv - s.fcPhase + 9) / 10
    { s with fc := f, fcPhase := s.fcPhase + 10 * bc - (f - s.fc) * s.fdiv, tsc := s.tsc + BitVec.ofNat 64 bc }

/-- The number that a cycle of site `k` issued now would have. -/
def State.nowCyc (s : State) (k : Nat) : Nat := s.fc - (s.getSite k).fc0

/-- A fresh free value number. -/
def State.tickFree (s : State) : State := { s with free := s.free + 1 }

/-- Fabric cycles and frames count from 0 again (R174, R433): the flags keep their values, no frame awaits an answer, and no frame from
now on carries a cycle of a pattern that has run (R182, R184). -/
def State.restartFc (s : State) : State :=
  let keep : BitVec 16 := BitVec.ofNat 16 (s.rd Reg.seqXflags).toNat
  { s with
    fc := 0, fcPhase := 0, xflags := [(0, keep, ~~~keep)]
    lane := s.lane.map (fun p => (p.1, { p.2 with
      nextFrame := 0, lastMark := 0, sent := [], markSent := 0, markGot := 0, prbsFrom := 0, flipOnce := [], flipTx := p.2.flipTx.map (fun _ => 0) }))
    queues := s.queues.map (fun p => (p.1, { p.2 with ords := [] }))
    fab := s.fab.map (fun p => (p.1, { p.2 with now := 0, winLast := [], parkFrom := 0 }))
    ctl := { s.ctl with
      load := { s.ctl.load with accepted := s.ctl.load.accepted.map (fun f => f - s.fc) }
      release := s.ctl.release.map (fun f => f - s.fc)
      icp := s.ctl.icp.map (fun p => (p.1, { p.2 with jobs := p.2.jobs.map (fun j => { j with since := j.since - s.fc }) })) }
    expo := s.expo.map (fun p => (p.1, { p.2 with host := p.2.host.map (fun e => e - s.fc) }))
    wfe := s.wfe.map (fun p => (p.1, { p.2 with from0 := p.2.from0.map (fun _ => 0), goFrame := 0, sides := [] }))
    site := s.site.map (fun p => (p.1, { p.2 with
      hflags := (p.2.hflags.head?.map (fun h => (0, h.2))).toList, seekFc := none, spans := [], stopAt := none
      after := .go, isoFrom := 0, exposeAt := [], exposeRegs := [] })) }

/-! ### Modes and sites -/

def modeRESET : Nat := 0
def modeLOAD : Nat := 1
def modeSTANDBY : Nat := 2
def modeREADY : Nat := 3
def modeRUN : Nat := 4
def modeSAFE : Nat := 5

/-- The device mode (R32). -/
def State.mode (s : State) : Nat := s.fld Reg.glbMode 0 3
def State.setMode (s : State) (m : Nat) : State := s.setFld Reg.glbMode 0 3 m
/-- The root clocks run (R431): the AON clock is not the monitor oscillator. -/
def State.clocksRun (s : State) : Bool := !s.bit Reg.clkStat 6

/-- BAR0 and the blocks behind it can be reached by the host and the NoC: the base domain is out of reset and the root clocks
run (R32, R43, R55). -/
def State.busUp (s : State) : Bool := s.mode != modeRESET && s.clocksRun

/-- The register that holds the clock enables of the gating level of the mode (R32, R432): run, deep-sleep or sleep. -/
def State.gateReg (s : State) : Nat :=
  if s.mode = modeRUN then Reg.clkGateRun else if s.mode = modeSTANDBY then Reg.clkGateDeep else Reg.clkGateSleep

/-- The clock group of a bit of that register runs; in RESET every group is off (R32). -/
def State.clockOn (s : State) (group : Nat) : Bool := s.busUp && s.bit s.gateReg group

/-- The block of the register at `a` is up for requester `req`: the host reaches the vaults' block only once the DRAM is trained (R43, log
entry 59). -/
def State.upFor (s : State) (req a : Nat) : Bool :=
  req != 0 || s.bit Reg.glbStartup 7 || decide (a < 0x2000000) || decide (0x2800000 ≤ a)

def State.boost (s : State) : Bool := s.bit Reg.glbMode 4
def State.cfgValid (s : State) : Bool := s.bit Reg.glbMode 5

/-- The sequencer's state code (R106): 0 idle, 1 arming, 2 armed, 3 running, 4 waiting, 5 draining. -/
def State.seqState (s : State) (k : Nat) : Nat := s.fld (Reg.seqStatus k) 0 3
def State.setSeqState (s : State) (k c : Nat) : State := s.setFld (Reg.seqStatus k) 0 3 c

/-- The sequencer runs (R33): it issues instructions or waits in one. -/
def State.seqRuns (s : State) (k : Nat) : Bool := s.seqState k == 3 || s.seqState k == 4

/-- The site counts as running for safe points and checks (R12): from its accepted start until drained = 1. -/
def State.siteBusy (s : State) (k : Nat) : Bool := !s.bit (Reg.seqStatus k) 3

/-- The site state of GLB_SITE_STATE (R61): 0 stopped, 1 running, 2 reconfiguring, 3 isolated. -/
def State.siteState (s : State) (k : Nat) : Nat := s.fld Reg.glbSiteState (2 * k) 2

def Site.isolated (x : Site) : Bool := x.isoIncomplete || x.isoVault || x.isoGolden || x.isoForced || x.isoPlane

/-- What the state of site `k` is (R33). A partial load shows before the isolation it is to end (R49). DESIGN CHOICE (log entry 82): a
site that runs shows running while an internal-port WRITE into its region is in progress. -/
def State.siteStateNow (s : State) (k : Nat) : Nat :=
  let x := s.getSite k
  if x.reconf then 2
  else if x.isolated && !s.seqRuns k then 3
  else if x.icpSession || (decide (0 < x.icpWrites) && !s.seqRuns k) then 2
  else if s.seqRuns k then 1
  else 0

def sites : List Nat := List.range 16

/-- The sequencers of a barrier's mask. -/
def members (mask : BitVec 16) : List Nat := sites.filter mask.getLsbD

/-- Any sequencer runs. -/
def State.anyRuns (s : State) : Bool := sites.any s.seqRuns

/-- Any site counts as running under R12. -/
def State.anyBusy (s : State) : Bool := sites.any s.siteBusy

/-- The outbound penumbra ports of region `k` are isolated for a load, the state of its site, or a forced isolation, in fc `f`
(R47, R49, R156, R317). -/
def State.isoHeld (s : State) (k f : Nat) : Bool :=
  let x := s.getSite k
  (s.getFab k).held || 2 ≤ s.siteStateNow k || (x.isoForced && decide (x.isoFrom ≤ f))
    || s.ctl.icp.any (fun p => p.2.jobs.any (fun j => j.forced && fldOf j.word 24 4 == k && decide (j.since + 3 ≤ f)))

/-- They are isolated in fc `f` (R156): also from the edge at which a BISTWIN saves the region's state until its restore (R89). -/
def State.penIsoAt (s : State) (k f : Nat) : Bool :=
  let x := s.getSite k
  s.isoHeld k f || (x.restorePending && decide (x.bistEdge ≤ f))

def State.penIso (s : State) (k : Nat) : Bool := s.penIsoAt k s.fc

/-- Report the state of site `k` and of its ports, and let the mode follow the sites: RUN if any site runs, otherwise READY, unless a
device-wide cause holds another mode (R33, R34). -/
def State.followSite (s : State) (k : Nat) : State :=
  let s := s.setFld Reg.glbSiteState (2 * k) 2 (s.siteStateNow k)
  let s := s.setBit Reg.fabPenStat k (s.penIso k)
  if s.mode = modeREADY ∧ s.anyRuns then s.setMode modeRUN
  else if s.mode = modeRUN ∧ !s.anyRuns then s.setMode modeREADY
  else s

/-! ### Events -/

/-- A SAF event (R456): an entry of SAF_EVT_LOG (64 entries), counted in SAF_EVT_CNT, and an event that Loupe shows (R417). -/
def State.safEvent (s : State) (src detail : Nat) : State :=
  let s := { s with pulse := { s.pulse with safs := s.pulse.safs + 1 } }
  (s.pushQ Reg.safEvtLog 64 (BitVec.ofNat 32 (src % 64 * 2 ^ 24 + detail % 2 ^ 24))).satAdd Reg.safEvtCnt 0 16 1

/-- No cycle named (R455). -/
def noCycle : Nat := 2 ^ 48 - 1

/-- Write log entry `e` of site `k` (R455): tsc, cycle, class, flags, detail, epoch. -/
def State.integEntry (s : State) (k e cls cyc detail flags : Nat) : State :=
  let a := Reg.glbIntegLog k (8 * e)
  let c := cyc % 2 ^ 48
  ((((s.wr64 a s.tsc.toNat).wr (a + 8) (BitVec.ofNat 32 c)).wr (a + 12)
    (BitVec.ofNat 32 (c / 2 ^ 32 + cls * 2 ^ 16 + flags * 2 ^ 24))).wr (a + 16) (BitVec.ofNat 32 detail)).wr (a + 20)
    (BitVec.ofNat 32 (s.fld Reg.glbEpoch 0 16))

/-- Record an event of class `cls` in site `k`'s integrity word and log (R453 to R455), when the window is open. -/
def State.integ (s : State) (k cls cyc detail : Nat) (flags : Nat := 0) : State :=
  let x := s.getSite k
  if x.window then
    let s := s.setBit (if cls < 32 then Reg.glbIntegLo k else Reg.glbIntegHi k) (cls % 32) true
    let s := s.satAdd (Reg.glbIntegCnt k) 0 16 1
    if x.seen.getLsbD cls then s
    else
      let s := s.modSite k (fun x => { x with seen := x.seen ||| BitVec.ofNat 64 (2 ^ cls) })
      let used := s.fld (Reg.glbIntegCnt k) 16 5
      if used < 16 then (s.integEntry k used cls cyc detail flags).setFld (Reg.glbIntegCnt k) 16 5 (used + 1)
      else s
  else s

/-- Clear the word, the count and the log of site `k` (R454, R455). -/
def State.integClear (s : State) (k : Nat) : State :=
  let s := ((s.wr (Reg.glbIntegLo k) 0).wr (Reg.glbIntegHi k) 0).wr (Reg.glbIntegCnt k) 0
  let s := s.forAll (List.range 128) (fun s j => s.wr (Reg.glbIntegLog k j) 0)
  s.modSite k (fun x => { x with seen := 0 })

/-- The calibration item of instance `i` is running (R468, R480). -/
def State.calRuns (s : State) (i : Nat) : Bool := s.bit (Reg.safCalStat i) 31

/-- The calibration items of `cut` run no further: those in progress end without a result, and stay pending (R470). -/
def State.calCutOf (s : State) (cut : Nat → Bool) : State :=
  let hit (a : Nat) : Bool := decide (Reg.safCalStat 0 ≤ a) && decide (a ≤ Reg.safCalStat 528) && a % 16 == 12
    && cut ((a - Reg.safCalStat 0) / 16)
  let cutOne (p : Nat × Word) : Nat × Word := if hit p.1 then (p.1, p.2 &&& 0x7FFFFFFF#32) else p
  { s with regs := (s.regs.map cutOne).filter (fun p => decide (p.2 ≠ regReset p.1)) }

/-- No calibration item runs on. -/
def State.calCut (s : State) : State := s.calCutOf (fun _ => true)

/-- Item `i` may not run while site `k` runs, but in a CALWIN, or is loaded (R470): the items of its vaults, its region and its lanes, and
the clock spine. -/
def calOf (k i : Nat) : Bool := i / 16 == k || i == 256 + k || (i - 272) / 16 == k && decide (272 ≤ i) && decide (i < 528) || i == 528

/-! ### Self-test slices (R462, R463) -/

/-- A self-test slice in progress in region `k` is aborted: its column goes on as it was (R462). -/
def State.abortSlice (s : State) (k : Nat) : State :=
  (s.modBist k (fun b => { b with run := none })).modFab k (fun f => { f with slice := none })

/-- The state of site `k` has changed to one in which no slice may run (R462): a slice in its region is aborted, and its state is reported. -/
def State.followHeld (s : State) (k : Nat) : State :=
  (if 2 ≤ s.siteStateNow k && (s.getBist k).run.isSome then s.abortSlice k else s).followSite k

/-- The self-test debt of region `k` in ms, saturating (R463): what the TSC shows, and at least what was reported. DEDUCED
(log entry 104). -/
def State.debtMs (s : State) (k : Nat) : Nat :=
  let b := s.getBist k
  min 0xFFFF (max (s.fld (Reg.safBistDebt k) 0 16) ((b.past + (s.tsc - b.since).toNat) / 1600000))

/-- The self-test debt of region `k` is 0 from now on (R463). -/
def State.debtClear (s : State) (k : Nat) : State :=
  (s.setFld (Reg.safBistDebt k) 0 16 0).modBist k (fun b => { b with since := s.tsc, past := 0 })

/-- A step of start-up fails (R41, R62): fail_step names it, and fail_count counts its attempts. -/
def State.startFail (s : State) (step : Nat) : State :=
  let n := if s.fld Reg.glbStartup 16 4 = step then s.fld Reg.glbStartup 24 8 + 1 else 1
  (s.setFld Reg.glbStartup 16 4 step).setFld Reg.glbStartup 24 8 (min n 255)

/-! ### Interrupts (R365, R366) -/

/-- The OR of the pending sources of vector `v`. -/
def State.irqOr (s : State) (v : Nat) : Bool :=
  if v < 16 then
    (s.getQ (Reg.seqIrq v)).items != [] || (s.rd (Reg.capIrqStat v) &&& s.rd (Reg.capIrqEn v)) != 0
  else if v < 32 then
    let k := v - 16
    (s.rd (Reg.rpaIrqStat k) &&& s.rd (Reg.rpaIrqEn k)) != 0 || (s.getQ (Reg.wfeIrq k)).items != []
      || s.fld (Reg.wfeStatus k) 0 3 == 4
  else if v = 34 then (s.getQ Reg.cfgUpsetLog).items != []
  else if v = 35 then (s.getQ Reg.safEvtLog).items != []
  else if v = 36 then s.bit Reg.glbKeyErr 31
  else if v = 37 then
    (s.rd Reg.pmuEvt &&& s.rd Reg.pmuIrqEn) != 0 || (s.rd Reg.thmEvt &&& s.rd Reg.thmIrqEn) != 0
  else if v = 38 then s.rd Reg.nocEvt != 0 || s.rd Reg.spdEvt != 0
  else if v = 39 then
    s.regs.any (fun p => decide (0x2000000 ≤ p.1) && decide (p.1 < 0x2100000) && p.1 % 0x1000 == 4 && p.2 != 0)
  else if v = 40 then s.bit Reg.cpuMboxStat 1
  else false

/-- Send the message of vector `v`, or set its pending bit while it is masked; nothing while the link is down or the
function in reset (R366). -/
def HostIf.send (h : HostIf) (v : Nat) : HostIf :=
  if !h.linkUp then h
  else if h.msixEnable && !h.msixFuncMask && !h.msixMask.getLsbD v then { h with msgs := h.msgs ++ [v] }
  else { h with pba := h.pba ||| BitVec.ofNat 64 (2 ^ v) }

def State.sendMsg (s : State) (v : Nat) : State := { s with host := s.host.send v }

/-- Whether the change from `s0` to `s1` sends a message of vector `v`. -/
def State.mustSend (s0 s1 : State) (v : Nat) : Bool :=
  (s1.irqOr v && !s0.irqOr v)
    || (v == 36 && (s1.mode != s0.mode || s1.fld Reg.glbStartup 0 9 != s0.fld Reg.glbStartup 0 9))

/-- The host interface at the end of a command: the message of every vector whose OR rose is sent. A mode change or a step of
start-up is a message of vector 36 of its own (log entry 16). -/
def State.messages (s0 s1 : State) : HostIf :=
  (List.range 41).foldl (fun h v => if s0.mustSend s1 v then h.send v else h) s1.host

end Sys2Proof.Machine
end

