-- ==== Sys2Proof/Machine/Rs.lean ====
section
/-! DEFINITION. The light code (R273) and the row code (R274, R275): a Reed-Solomon code over GF(2^16), its encoder
and a decoder of erasures and unflagged errors together. -/

namespace Sys2Proof.Machine.Rs

/-! ### Light code (R273) -/

def parity (l : List Bool) : Bool := l.foldl xor false

/-- ce and co of byte `d` at byte address `j` of its row. -/
def checkPair (j : Nat) (d : Byte) : Bool × Bool :=
  (parity [d.getLsbD 0, d.getLsbD 2, d.getLsbD 4, d.getLsbD 6, j.testBit 0, j.testBit 2, j.testBit 4, j.testBit 6,
      j.testBit 8, j.testBit 10],
   parity [d.getLsbD 1, d.getLsbD 3, d.getLsbD 5, d.getLsbD 7, j.testBit 1, j.testBit 3, j.testBit 5, j.testBit 7,
      j.testBit 9])

def pairBits (p : Bool × Bool) : Nat := (if p.1 then 1 else 0) + (if p.2 then 2 else 0)

/-- Check byte `m`: the pairs of bytes 4m to 4m + 3, the lowest byte in the lowest bits. -/
def checkByte (m : Nat) (d : Nat → Byte) : Byte :=
  BitVec.ofNat 8 (pairBits (checkPair (4 * m) (d (4 * m))) + 4 * pairBits (checkPair (4 * m + 1) (d (4 * m + 1)))
    + 16 * pairBits (checkPair (4 * m + 2) (d (4 * m + 2))) + 64 * pairBits (checkPair (4 * m + 3) (d (4 * m + 3))))

/-- The 512 check bytes of a row's data. -/
def checkBytes (data : List Byte) : List Byte :=
  let a := data.toArray
  (List.range 512).map (fun m => checkByte m (fun j => a.getD j 0))

/-- Byte `j` is flagged: its stored pair differs from the pair recomputed. -/
def flagged (j : Nat) (d chk : Byte) : Bool := chk.toNat / 4 ^ (j % 4) % 4 != pairBits (checkPair j d)

/-! ### The field GF(2^16), polynomial x^16 + x^12 + x^3 + x + 1, primitive element 2 -/

def mulGo : Nat → Nat → Nat → Nat → Nat
  | 0, acc, _, _ => acc
  | n + 1, acc, a, b =>
    mulGo n (if b % 2 = 1 then acc ^^^ a else acc) (if 2 * a < 0x10000 then 2 * a else (2 * a) ^^^ 0x1100B) (b / 2)

def mul (a b : Nat) : Nat := if a = 0 ∨ b = 0 then 0 else mulGo 16 0 a b

def powGo : Nat → Nat → Nat → Nat → Nat
  | 0, acc, _, _ => acc
  | n + 1, acc, a, e => powGo n (if e % 2 = 1 then mul acc a else acc) (mul a a) (e / 2)

def pow (a e : Nat) : Nat := powGo 20 1 a e

/-- The power of the primitive element. -/
def alpha (e : Nat) : Nat := pow 2 (e % 65535)

def inv (a : Nat) : Nat := pow a 65534

/-! ### Polynomials, lowest coefficient first -/

def addP : List Nat → List Nat → List Nat
  | [], q => q
  | p, [] => p
  | a :: p, b :: q => (a ^^^ b) :: addP p q

def scaleP (c : Nat) (p : List Nat) : List Nat := p.map (mul c)

def shiftP (p : List Nat) : List Nat := 0 :: p

def mulP : List Nat → List Nat → List Nat
  | [], _ => []
  | a :: p, q => addP (scaleP a q) (shiftP (mulP p q))

def evalP (p : List Nat) (x : Nat) : Nat := p.foldr (fun c acc => c ^^^ mul acc x) 0

def degP (p : List Nat) : Nat := (p.reverse.dropWhile (· = 0)).length - 1

/-- The formal derivative: in characteristic 2 the odd coefficients move down. -/
def derivP (p : List Nat) : List Nat := (p.drop 1).mapIdx (fun i c => if i % 2 = 0 then c else 0)

/-- g(x), the product of (x - alpha^m) for m = 0 to 15 (R274). -/
def gen : List Nat := (List.range 16).foldl (fun g m => mulP [alpha m, 1] g) [1]

/-- One step of the remainder: bring down symbol `s`. -/
def remStep (g r : List Nat) (s : Nat) : List Nat :=
  let fb := s ^^^ r.getD 15 0
  List.zipWith (fun a b => a ^^^ b) (0 :: r.take 15) (scaleP fb (g.take 16))

/-- The 16 check symbols of the 1,024 data symbols. -/
def encode (data : List Nat) : List Nat :=
  let g := gen
  data.reverse.foldl (remStep g) (List.replicate 16 0)

/-- Data symbols: byte 2i + 256 × byte 2i + 1. -/
def symbols : List Byte → List Nat
  | a :: b :: l => (a.toNat + 256 * b.toNat) :: symbols l
  | [a] => [a.toNat]
  | [] => []

def bytesOf (l : List Nat) : List Byte := l.flatMap (fun w => [BitVec.ofNat 8 w, BitVec.ofNat 8 (w / 256)])

/-- The syndromes of a codeword, position 0 first. -/
def syndromes (c : List Nat) : List Nat := (List.range 16).map (fun m => evalP c (alpha m))

/-- State of the errata-locator iteration. -/
structure Bm where
  lam : List Nat
  b : List Nat
  l : Nat

def bmStep (synd : List Nat) (f : Nat) (st : Bm) (r : Nat) : Bm :=
  let sa := synd.toArray
  let delta := (st.lam.mapIdx (fun j c => if j < r then mul c (sa.getD (r - 1 - j) 0) else 0)).foldl (· ^^^ ·) 0
  let t := addP st.lam (scaleP delta (shiftP st.b))
  if delta ≠ 0 ∧ 2 * st.l ≤ r - 1 + f then
    { lam := t, b := scaleP (inv delta) st.lam, l := r + f - st.l }
  else { lam := t, b := shiftP st.b, l := st.l }

/-- Solve for erasures (positions in the codeword) and unflagged errors together: the codeword within the bound
2e + f ≤ 16, or none (R275). -/
def solve (c : List Nat) (erasures : List Nat) : Option (List Nat) :=
  let f := erasures.length
  let synd := syndromes c
  if 16 < f then none
  else if synd.all (· = 0) then some c
  else
    let gam := erasures.foldl (fun p e => mulP [1, alpha e] p) [1]
    let st := ((List.range (16 - f)).map (fun i => f + 1 + i)).foldl (bmStep synd f) { lam := gam, b := gam, l := f }
    let roots := (List.range c.length).filter (fun p => evalP st.lam (alpha (65535 - p)) = 0)
    if roots.length ≠ degP st.lam then none
    else
      let om := (mulP synd st.lam).take 16
      let dl := derivP st.lam
      let fixes := roots.map (fun p =>
        let xi := alpha (65535 - p)
        (p, mul (alpha p) (mul (evalP om xi) (inv (evalP dl xi)))))
      let c2 := fixes.foldl (fun c (q : Nat × Nat) => c.modify q.1 (· ^^^ q.2)) c
      let e := (fixes.filter (fun q => q.2 ≠ 0 && !erasures.contains q.1)).length
      if (syndromes c2).all (· = 0) && decide (2 * e + f ≤ 16) then some c2 else none

/-- What a decode delivers: the data bytes, whether a symbol was changed, whether only check bits disagreed. -/
structure Decoded where
  data : List Byte
  changed : Bool
  stale : Bool
  deriving DecidableEq, Repr

/-- Decode a stored row (R275). -/
def decode (data chk code : List Byte) : Option Decoded :=
  let ca := chk.toArray
  let flags := data.mapIdx (fun j d => flagged j d (ca.getD (j / 4) 0))
  let fa := flags.toArray
  let erasures := ((List.range 1024).filter (fun i => fa.getD (2 * i) false || fa.getD (2 * i + 1) false)).map (· + 16)
  let c := symbols code ++ symbols data
  match solve c erasures with
  | none => none
  | some c2 =>
    some { data := bytesOf (c2.drop 16), changed := c2 != c, stale := !erasures.isEmpty && c2 == c }

/-- The marker of a poisoned row: every check symbol XORed with 0x5A5A (R276). -/
def mark (code : List Byte) : List Byte := code.map (· ^^^ 0x5A#8)

end Sys2Proof.Machine.Rs
end

