-- ==== Sys2Proof/Machine/Dram.lean ====
section
/-! DEFINITION. The stacked DRAM (09_stacked_memory): where a byte of a row is stored, repairs, whole-row reads and
writes with their codes, poison, the service buffer, and the address maps. -/

namespace Sys2Proof.Machine

/-! ### Storage

The cell of index `i` of row location `loc` of vault `v` is at key (v·2^23 + loc)·8192 + i. Index 0 to 2047 are the data
bytes, 2048 to 2559 the check bytes, 2560 to 2591 the code bytes (R263, R285); 4096 + 10·g holds the eight data bytes and
two check bytes of spare group g. Locations 0 to 2^22 − 1 are the user rows, 2^22 + 64·q + n spare row n of bank q. -/

def Dram.key (v loc i : Nat) : Nat := (v * 2 ^ 23 + loc) * 8192 + i

/-- What an unlisted cell reads as: zero data with valid codes, as start-up BIST leaves it (R286). -/
def Dram.reset (a : Nat) : Byte :=
  let i := a % 8192
  if 2048 ≤ i ∧ i < 2560 then Rs.checkByte (i - 2048) (fun _ => 0) else 0

def Dram.wf (m : List Host.Cell) : Bool := Sparse.wf Dram.reset m

/-- What cell `a` holds. In a vault whose user data is undefined (R287) a location not written since holds free values. -/
def State.cell (s : State) (a : Nat) : Byte :=
  let x := s.getVault (a / 8192 / 2 ^ 23)
  match x.lost with
  | some n => if x.known.contains (a / 8192 % 2 ^ 23) then Sparse.get Dram.reset s.dram a else Config.freeByte (n + a)
  | none => Sparse.get Dram.reset s.dram a
/-- Store a list of (cell, byte) pairs. -/
def State.setCells (s : State) (l : List (Nat × Byte)) : State :=
  { s with dram := l.foldl (fun m p => Sparse.set Dram.reset m p.1 p.2) s.dram }

/-! ### Repairs (R282) -/

/-- The valid soft entries of vault `v` with their index. -/
def State.softEntries (s : State) (v : Nat) : List (Nat × Word) :=
  s.regs.filterMap (fun p =>
    if Reg.vltSrep v 0 ≤ p.1 ∧ p.1 < Reg.vltSrep v 256 ∧ p.2.getLsbD 31 then some ((p.1 - Reg.vltSrep v 0) / 4, p.2)
    else none)

/-- Every repair of vault `v`, soft entries first. -/
def State.repairs (s : State) (v : Nat) : List Word := (s.softEntries v).map Prod.snd ++ (s.getVault v).fuses

def repBank (e : Word) : Nat := fldOf e 23 7
def repTarget (e : Word) : Nat := fldOf e 8 15
def repSpare (e : Word) : Nat := fldOf e 0 8
def repIsCol (e : Word) : Bool := e.getLsbD 30

def Dram.spareRow (q n : Nat) : Nat := 0x400000 + q * 64 + n

/-- The location of user row `r` (vault row index row·128 + q): its spare row where it is repaired. -/
def State.rowLoc (s : State) (v r : Nat) : Nat :=
  match (s.repairs v).find? (fun e => !repIsCol e && repBank e == r % 128 && repTarget e == r / 128) with
  | some e => Dram.spareRow (r % 128) (repSpare e)
  | none => r

/-- The column-group repairs of bank `q`: (group, spare group). -/
def State.colMap (s : State) (v q : Nat) : List (Nat × Nat) :=
  (s.repairs v).filterMap (fun e => if repIsCol e && repBank e == q then some (repTarget e % 256, repSpare e) else none)

/-- The user row that location `loc` of vault `v` holds: the row repaired into it, or the row itself where it is not
repaired away. -/
def State.userRow (s : State) (v loc : Nat) : Option Nat :=
  if loc < 0x400000 then (if s.rowLoc v loc = loc then some loc else none)
  else
    let q := (loc - 0x400000) / 64
    match (s.repairs v).find? (fun e => !repIsCol e && repBank e == q && repSpare e == (loc - 0x400000) % 64) with
    | some e => some (repTarget e * 128 + q)
    | none => none

/-- The cell of stored index `i` (data, check or code) at a location, through the bank's column repairs, and the value of the
check byte of zero data there, with which a spare check byte is stored XORed: an unlisted spare group reads as zero data with
valid check bits, whichever group it replaces (R286). -/
def Dram.cellAt (cols : List (Nat × Nat)) (v loc i : Nat) : Nat × Byte :=
  if i < 2048 then
    match cols.find? (fun p => p.1 == i / 8) with
    | some p => (Dram.key v loc (4096 + 10 * p.2 + i % 8), 0)
    | none => (Dram.key v loc i, 0)
  else if i < 2560 then
    match cols.find? (fun p => p.1 == (i - 2048) / 2) with
    | some p => (Dram.key v loc (4096 + 10 * p.2 + 8 + i % 2), Rs.checkByte (i - 2048) (fun _ => 0))
    | none => (Dram.key v loc i, 0)
  else (Dram.key v loc i, 0)

/-- `n` stored bytes at a location from index `i`, as the cells hold them. -/
def State.rawAt (s : State) (cols : List (Nat × Nat)) (v loc i n : Nat) : List Byte :=
  (List.range n).map (fun j => let c := Dram.cellAt cols v loc (i + j); s.cell c.1 ^^^ c.2)

/-- `n` stored bytes of row `r` from index `i`. -/
def State.rawRow (s : State) (v r i n : Nat) : List Byte := s.rawAt (s.colMap v (r % 128)) v (s.rowLoc v r) i n

/-- Store raw bytes at a location from index `i`. Where the location's contents are undefined, the bytes not written become
free values that stay. -/
def State.setRawAt (s : State) (cols : List (Nat × Nat)) (v loc i : Nat) (bs : List Byte) : State :=
  let x := s.getVault v
  let put (s : State) (i : Nat) (bs : List Byte) : State :=
    s.setCells (bs.mapIdx (fun j b => let c := Dram.cellAt cols v loc (i + j); (c.1, b ^^^ c.2)))
  if x.lost.isSome && !x.known.contains loc then
    let old := s.rawAt cols v loc 0 2592
    put ((put s 0 old).setVault v { x with known := loc :: x.known }) i bs
  else put s i bs

/-- Store raw bytes into row `r` from index `i`. -/
def State.setRawRow (s : State) (v r i : Nat) (bs : List Byte) : State :=
  s.setRawAt (s.colMap v (r % 128)) v (s.rowLoc v r) i bs

/-- Another row operation of vault `v` has begun: the one that holds the row register has ended (R268). -/
def State.rowEnds (s : State) (v : Nat) : State :=
  if (s.getVault v).rowReg.busy then s.modVault v (fun x => { x with rowReg := { x.rowReg with busy := false } }) else s

/-- Write a whole row with regenerated check bits and row code, marked as poisoned or not (R274, R276). -/
def State.writeRow (s : State) (v r : Nat) (data : List Byte) (marked : Bool) : State :=
  let code := Rs.bytesOf (Rs.encode (Rs.symbols data))
  (s.rowEnds v).setRawRow v r 0 (data ++ Rs.checkBytes data ++ (if marked then Rs.mark code else code))

/-! ### Which rows can be read (R267) -/

def Dram.reserved (v r : Nat) : Bool := decide (240 ≤ v) && decide (4177920 ≤ r)

def State.vltState (s : State) (v : Nat) : Nat := s.fld (Reg.vltStat v) 29 3

def State.tileEnabled (s : State) (t : Nat) : Bool := (s.rdAct Reg.vltTileen).getLsbD t

/-- The VLT_EVT bit that records a refused access to a row, or none where the row can be reached: 8 failed vault, 9 tile
disabled, 7 reserved row; 6 aborted while the vault is untrained, training or in self-refresh (R267, R289). -/
def State.rowRefused (s : State) (v r : Nat) : Option Nat :=
  if s.vltState v = 5 then some 8
  else if !s.tileEnabled (v / 16) then some 9
  else if s.vltState v ≠ 2 then some 6
  else if Dram.reserved v r then some 7
  else none

/-! ### Activation (R275, R276) -/

/-- Sources of VLT_POISON_LOG (R293). -/
def srcScrub : Nat := 0
def srcPerCycle : Nat := 1
def srcWindow : Nat := 2
def srcHost : Nat := 3
def srcConfig : Nat := 4
def srcRepair : Nat := 5
def srcMaint : Nat := 6

def State.poisonLog (s : State) (v r src : Nat) (new : Bool) : State :=
  s.pushQ (Reg.vltPoisonLog v) 16 (BitVec.ofNat 32 (src * 2 ^ 27 + (if new then 2 ^ 26 else 0) + r % 2 ^ 22))

/-- What an activation puts into the row register. -/
structure Act where
  st : State
  data : List Byte
  poisoned : Bool
  corrected : Bool
  /-- this activation poisoned the row -/
  fresh : Bool := false

/-- Activate row `r` of vault `v` for a request of source `src`, with every effect of the decode. A golden row that is poisoned reads as
one (R277, R279): what the golden rows hold stands in CtxLayer.golden (log entry 88). -/
def State.activateRow (s : State) (v r src : Nat) : Act :=
  let data := s.rawRow v r 0 2048
  let chk := s.rawRow v r 2048 512
  let code := s.rawRow v r 2560 32
  if (s.getVault v).goldenBad.contains r then
    { st := ((s.poisonLog v r src false).setBit (Reg.vltEvt v) 2 true).modVault v (fun x =>
        { x with rowReg := { row := r, data := data, poisoned := true } }), data := data, poisoned := true, corrected := false }
  else
  let reg (s : State) (d : List Byte) (p : Bool) : State :=
    s.modVault v (fun x => { x with rowReg := { row := r, data := d, poisoned := p } })
  match Rs.decode data chk code with
  | some d =>
    if d.changed then
      let s := (s.satAdd (Reg.vltCeCnt v) 0 32 1).setBit (Reg.vltEvt v) 0 true
      { st := reg (s.writeRow v r d.data false) d.data false, data := d.data, poisoned := false, corrected := true }
    else if d.stale then
      { st := reg (s.writeRow v r d.data false) d.data false, data := d.data, poisoned := false, corrected := false }
    else { st := reg s d.data false, data := d.data, poisoned := false, corrected := false }
  | none =>
    match Rs.decode data chk (Rs.mark code) with
    | some d =>
      let s := (s.poisonLog v r src false).setBit (Reg.vltEvt v) 2 true
      let s := if d.changed && src != srcScrub then s.writeRow v r d.data true else s
      { st := reg s d.data true, data := d.data, poisoned := true, corrected := false }
    | none =>
      let s := s.writeRow v r data true
      let s := (s.poisonLog v r src true).setBit (Reg.vltEvt v) 1 true
      let s := (s.satAdd (Reg.vltPoisonCnt v) 0 16 1).safEvent 0x03 (v * 2 ^ 16)
      { st := reg s data true, data := data, poisoned := true, corrected := false, fresh := true }

/-! ### Soft repairs (R282, R283) -/

/-- The lowest free soft entry. -/
def State.freeEntry (s : State) (v : Nat) : Option Nat :=
  (List.range 256).find? (fun i => !(s.softEntries v).any (fun p => p.1 == i))

def State.freeSpareRow (s : State) (v q : Nat) : Option Nat :=
  (List.range 64).find? (fun n => !(s.repairs v).any (fun e => !repIsCol e && repBank e == q && repSpare e == n))

def State.freeSpareCol (s : State) (v q : Nat) : Option Nat :=
  (List.range 32).find? (fun n => !(s.repairs v).any (fun e => repIsCol e && repBank e == q && repSpare e == n))

def repEntry (col : Bool) (q target spare : Nat) : Word :=
  BitVec.ofNat 32 (2 ^ 31 + (if col then 2 ^ 30 else 0) + q * 2 ^ 23 + target * 2 ^ 8 + spare)

/-- Bring srep_used and the mirror in the service rows in step with the table (R283, R291). -/
def State.mirrorSrep (s : State) (v : Nat) : State :=
  let l := s.softEntries v
  (s.setFld (Reg.vltStat v) 15 9 l.length).modVault v (fun x => { x with mirror := l })

/-- Soft-repair row `r`: activate it, copy it as that leaves it into a free spare, and validate an entry; none without a free one. A row
repaired by an earlier soft entry gives that entry up, and a marked row keeps its marker (R278). -/
def State.softRepairRow (s : State) (v r : Nat) : Option State :=
  match s.freeEntry v, s.freeSpareRow v (r % 128) with
  | some i, some n =>
    let s := (s.activateRow v r srcMaint).st
    let img := s.rawRow v r 0 2592
    let old := (s.softEntries v).filter (fun p => !repIsCol p.2 && repBank p.2 == r % 128 && repTarget p.2 == r / 128)
    let s := s.forAll (old.map Prod.fst) (fun s j => s.wr (Reg.vltSrep v j) 0)
    let s := s.wr (Reg.vltSrep v i) (repEntry false (r % 128) (r / 128) n)
    some ((s.setRawRow v r 0 img).mirrorSrep v)
  | _, _ => none

/-- Automatic soft repair (R283): counted in VLT_EVT.srep_auto, or srep_full and a SAF event. -/
def State.autoSrep (s : State) (v r : Nat) : State :=
  if !s.bit Reg.vltCfg 1 then s
  else match s.softRepairRow v r with
    | some t => t.setBit (Reg.vltEvt v) 4 true
    | none => (s.setBit (Reg.vltEvt v) 5 true).safEvent 0x05 (v * 2 ^ 16)

/-- Activate a row; one that this poisons is soft-repaired (R283). -/
def State.activate (s : State) (v r src : Nat) : Act :=
  let a := s.activateRow v r src
  if a.fresh then
    { a with st := (a.st.autoSrep v r).modVault v (fun x => { x with rowReg := { row := r, data := a.data, poisoned := true } }) }
  else a

/-! ### The service buffer (R271, R278) -/

/-- Write the buffer back as a whole row, if it is dirty. -/
def State.svcFlush (s : State) (v : Nat) : State :=
  let b := (s.getVault v).svc
  match b.row with
  | some r =>
    if b.dirty then
      (s.writeRow v r b.data (b.poisoned && b.written.length < 2048)).modVault v (fun x =>
        { x with svc := { b with dirty := false, poisoned := b.poisoned && decide (b.written.length < 2048) } })
    else s
  | none => s

/-- A request of another kind names row `r`: a dirty buffer of that row is written back first. -/
def State.svcSync (s : State) (v r : Nat) : State := if (s.getVault v).svc.row = some r then s.svcFlush v else s

/-- Invalidate a buffer that holds row `r`. -/
def State.svcDrop (s : State) (v r : Nat) : State :=
  if (s.getVault v).svc.row = some r then s.modVault v (fun x => { x with svc := {} }) else s

/-- Bring row `r` into the buffer. -/
def State.svcLoad (s : State) (v r src : Nat) : State :=
  if (s.getVault v).svc.row = some r then s
  else
    let a := (s.svcFlush v).activate v r src
    a.st.modVault v (fun x => { x with svc := { row := some r, data := a.data, dirty := false, poisoned := a.poisoned } })

/-- Merge bytes into the buffer from byte `o` of the row. -/
def State.svcPatch (s : State) (v o : Nat) (bs : List Byte) : State :=
  s.modVault v (fun x =>
    let data := x.svc.data.mapIdx (fun j b => if o ≤ j ∧ j < o + bs.length then bs.getD (j - o) b else b)
    let written := ((List.range bs.length).map (· + o)).foldl (fun l j => if l.contains j then l else j :: l) x.svc.written
    { x with svc := { x.svc with data := data, dirty := true, written := written } })

/-! ### Row requests -/

/-- The outcome of a row read. -/
inductive RowRead where
  | refused (bit : Nat)
  | ok (data : List Byte)
  | poisoned (data : List Byte)
  deriving DecidableEq, Repr

/-- A whole-row read through row transport, of any rank but the service buffer's. -/
def State.readRow (s : State) (v r src : Nat) (priv : Bool := false) : State × RowRead :=
  match s.rowRefused v r with
  | some b =>
    if b = 7 ∧ priv then
      let a := (s.svcSync v r).activate v r src
      (a.st, if a.poisoned then .poisoned a.data else .ok a.data)
    else (s.setBit (Reg.vltEvt v) b true, .refused b)
  | none =>
    let a := (s.svcSync v r).activate v r src
    (a.st, if a.poisoned then .poisoned a.data else .ok a.data)

/-- A whole-row write of 2,048 bytes: it clears poison (R278) and invalidates a buffer that holds the row. The Bool says
whether the row was written. -/
def State.writeWhole (s : State) (v r : Nat) (data : List Byte) (priv : Bool := false) : State × Bool :=
  match s.rowRefused v r with
  | some b =>
    if b = 7 ∧ priv then ((s.svcDrop v r).writeRow v r data false, true) else (s.setBit (Reg.vltEvt v) b true, false)
  | none => ((s.svcDrop v r).writeRow v r data false, true)

/-- Change a row through row transport: activate, change, write back; a poisoned row keeps its marker (R278). -/
def State.modRow (s : State) (v r src : Nat) (f : List Byte → List Byte) : State × RowRead :=
  match s.readRow v r src with
  | (s, .ok d) => ((s.svcDrop v r).writeRow v r (f d) false, .ok d)
  | (s, .poisoned d) => ((s.svcDrop v r).writeRow v r (f d) true, .poisoned d)
  | (s, other) => (s, other)

/-- A list of bytes with `bs` in place from index `o`. -/
def putBytes (l : List Byte) (o : Nat) (bs : List Byte) : List Byte :=
  l.mapIdx (fun j b => if o ≤ j ∧ j < o + bs.length then bs.getD (j - o) b else b)

/-! ### Addresses (R264, R265) -/

/-- Global map mode is in force. -/
def State.globalMap (s : State) : Bool := (s.rdAct Reg.vltMap).getLsbD 4
def State.mapOwner (s : State) : Nat := s.fldAct Reg.vltMap 0 4

def vaults : List Nat := List.range 256

/-- The site a vault belongs to under the active map (R264, R265). -/
def State.vaultOwner (s : State) (v : Nat) : Nat := if s.globalMap then s.mapOwner else v / 16

/-- Vault and vault row index of physical address `a`. -/
def State.locate (s : State) (a : Nat) : Nat × Nat :=
  if s.globalMap then
    (a / 2 ^ 11 % 256, a / 2 ^ 26 % 32768 * 128 + (8 * (a / 2 ^ 22 % 16) + a / 2 ^ 19 % 8))
  else
    (16 * (a / 2 ^ 37 % 16) + a / 2 ^ 11 % 16, a / 2 ^ 22 % 32768 * 128 + (8 * (a / 2 ^ 18 % 16) + a / 2 ^ 15 % 8))

/-- Read the whole row at physical address `a`. -/
def State.readAt (s : State) (a src : Nat) : State × RowRead :=
  let (v, r) := s.locate a
  s.readRow v r src

def State.writeAt (s : State) (a : Nat) (data : List Byte) : State × Bool :=
  let (v, r) := s.locate a
  s.writeWhole v r data

/-- Change the row that holds physical address `a`. -/
def State.modAt (s : State) (a src : Nat) (f : List Byte → List Byte) : State :=
  let (v, r) := s.locate a
  (s.modRow v r src f).1

/-- Change the bytes at physical address `a` (within one row). -/
def State.patchAt (s : State) (a src : Nat) (bs : List Byte) : State := s.modAt a src (fun d => putBytes d (a % 2048) bs)

/-- The result of a service read: bytes, poison, or refusal. -/
inductive SvcRead where
  | refused
  | ok (bytes : List Byte) (ep : Bool)
  deriving DecidableEq, Repr

/-- Another requester than `req` holds the service buffer of vault `v` (R377): requests of `req` go direct. -/
def State.bufferHeld (s : State) (v req : Nat) : Bool := (s.getVault v).reserve.any (fun h => h.1 != req)

/-- A rank-4 read of `n` bytes at physical address `a`, inside one row, through the service buffer. -/
def State.bufRead (s : State) (a n req : Nat) : State × SvcRead :=
  let (v, r) := s.locate a
  match s.rowRefused v r with
  | some b => (s.setBit (Reg.vltEvt v) b true, .refused)
  | none =>
    if s.bufferHeld v req then
      match s.readRow v r srcHost with
      | (s, .ok d) => (s, .ok ((d.drop (a % 2048)).take n) false)
      | (s, .poisoned d) => (s, .ok ((d.drop (a % 2048)).take n) true)
      | (s, .refused _) => (s, .refused)
    else
      let s := s.svcLoad v r srcHost
      let b := (s.getVault v).svc
      (s, .ok ((b.data.drop (a % 2048)).take n) b.poisoned)

/-- A rank-4 read inside one row: a whole row goes direct, a part through the service buffer (R271, R368). -/
def State.svcRead (s : State) (a n : Nat) (req : Nat := 0) : State × SvcRead :=
  if a % 2048 = 0 ∧ n = 2048 then
    match s.readAt a srcHost with
    | (s, .ok d) => (s, .ok d false)
    | (s, .poisoned d) => (s, .ok d true)
    | (s, .refused _) => (s, .refused)
  else s.bufRead a n req

/-- A rank-4 write of a part of a row at physical address `a` through the service buffer. -/
def State.bufWrite (s : State) (a : Nat) (bs : List Byte) (req : Nat) : State × Bool :=
  let (v, r) := s.locate a
  match s.rowRefused v r with
  | some b => (s.setBit (Reg.vltEvt v) b true, false)
  | none =>
    if s.bufferHeld v req then ((s.modRow v r srcHost (fun d => putBytes d (a % 2048) bs)).1, true)
    else ((s.svcLoad v r srcHost).svcPatch v (a % 2048) bs, true)

/-- A rank-4 write inside one row: a whole aligned row goes direct, a part through the service buffer. -/
def State.svcWrite (s : State) (a : Nat) (bs : List Byte) (req : Nat := 0) : State × Bool :=
  if a % 2048 = 0 ∧ bs.length = 2048 then s.writeAt a bs else s.bufWrite a bs req

/-! ### The golden copy (R267, R277, R319) -/

/-- The vault and the reserved row that hold the golden copy of frame `f`. DESIGN CHOICE (log entry 88): four frames share a row, and
consecutive rows go to V240 to V255 in turn. -/
def goldenRow (f : Nat) : Nat × Nat := (240 + f / 4 % 16, 4177920 + f / 64)

/-- The configuration controller reads the golden row of frame `f`; the Bool says that the row gives no data, as it is poisoned or its vault
cannot be reached. `hit` says that this activation finds it beyond repair. -/
def State.goldenRead (s : State) (f : Nat) (hit : Bool) : State × Bool :=
  let (v, r) := goldenRow f
  match s.rowRefused v r with
  | some 7 | none =>
    let old := (s.getVault v).goldenBad.contains r
    if hit then
      let s := ((s.poisonLog v r srcConfig true).setBit (Reg.vltEvt v) 1 true).satAdd (Reg.vltPoisonCnt v) 0 16 1
      let s := (s.safEvent 0x03 (v * 2 ^ 16)).modVault v (fun x => { x with goldenBad := if old then x.goldenBad else r :: x.goldenBad })
      (s.autoSrep v r, true)
    else if old then ((s.poisonLog v r srcConfig false).setBit (Reg.vltEvt v) 2 true, true)
    else (s, false)
  | some b => (s.setBit (Reg.vltEvt v) b true, true)

/-- Every byte of the golden row of frame `f` has been replaced: its poison is cleared (R278). -/
def State.goldenClean (s : State) (f : Nat) : State :=
  let (v, r) := goldenRow f
  if (s.getVault v).goldenBad.contains r then s.modVault v (fun x => { x with goldenBad := x.goldenBad.filter (· != r) }) else s

/-- Cut a range of bytes at row boundaries: (address, offset into the range, length). -/
def rowCuts (a n : Nat) : List (Nat × Nat × Nat) :=
  if n = 0 then []
  else
    let first := a / 2048
    let last := (a + n - 1) / 2048
    (List.range (last - first + 1)).map (fun i =>
      let lo := max a ((first + i) * 2048)
      let hi := min (a + n) ((first + i + 1) * 2048)
      (lo, lo - a, hi - lo))

/-- A service read of any length: the bytes, whether any row refused, whether any was poisoned. -/
def State.readBytes (s : State) (a n : Nat) (req : Nat := 0) : State × List Byte × Bool × Bool :=
  (rowCuts a n).foldl (fun (acc : State × List Byte × Bool × Bool) c =>
    match acc.1.svcRead c.1 c.2.2 req with
    | (t, .ok b ep) => (t, acc.2.1 ++ b, acc.2.2.1, acc.2.2.2 || ep)
    | (t, .refused) => (t, acc.2.1, true, acc.2.2.2)) (s, [], false, false)

/-- A service write of any length; whether any row refused. -/
def State.writeBytes (s : State) (a : Nat) (bs : List Byte) (req : Nat := 0) : State × Bool :=
  (rowCuts a bs.length).foldl (fun (acc : State × Bool) c =>
    match acc.1.svcWrite c.1 ((bs.drop c.2.1).take c.2.2) req with
    | (t, ok) => (t, acc.2 || !ok)) (s, false)

/-- Some row of the range is reserved by another requester: requests to it wait (R377). -/
def State.rangeHeld (s : State) (req a n : Nat) : Bool :=
  (rowCuts a n).any (fun c =>
    let (v, r) := s.locate c.1
    (s.getVault v).reserve.any (fun h => h.1 != req && h.2 == r))

/-- Little-endian bytes of a number. -/
def leBytes : Nat → Nat → List Byte
  | 0, _ => []
  | n + 1, w => BitVec.ofNat 8 w :: leBytes n (w / 256)

/-- The number a list of little-endian bytes holds. -/
def ofLe (l : List Byte) : Nat := l.foldr (fun b acc => b.toNat + 256 * acc) 0

/-- Row `i` of site `k`'s DRAM by stored-vector or program row number: the physical address row × 2048 (R71, R90, R97), and
whether it lies in the site's vaults under the active map. -/
def State.inSite (s : State) (k a : Nat) : Bool :=
  if s.globalMap then s.mapOwner == k && decide (a < 2 ^ 41) else a / 2 ^ 37 == k

/-- Every row of the `n` bytes at physical address `a` lies in site `k`'s vaults under the active map and outside the reserved
rows (R239, R265, R267): the last 128 rows of every bank of vaults 240 to 255. -/
def State.areaInSite (s : State) (k a n : Nat) : Bool :=
  if s.globalMap then
    let b := max a (32640 * 2 ^ 26)
    s.mapOwner == k && decide (a + n ≤ 2 ^ 41)
      && (decide (a + n ≤ b) || decide (b % 2 ^ 19 + (a + n - b) ≤ 240 * 2048))
  else
    let top := if k = 15 then 32640 * 2 ^ 22 else 2 ^ 37
    decide (k * 2 ^ 37 ≤ a) && decide (a + n ≤ k * 2 ^ 37 + top)

/-- The stored-vector address of vector `v` of the stream (R71, R265): it wraps inside the tile, or at 2^41. -/
def State.svAddr (s : State) (k base v : Nat) : Nat :=
  let a := base * 2048 + 32 * v
  if s.globalMap then a % 2 ^ 41 else k * 2 ^ 37 + a % 2 ^ 37

end Sys2Proof.Machine
end

