-- ==== Sys2Proof/Machine/Operands.lean ====
section
/-! DEFINITION. Operand forms: the fields of a sequencer instruction (R67), when it is legal (R68, R69), and the bit
helpers the instruction sets share. -/

namespace Sys2Proof.Machine

/-! ### Sequencer instructions (R67) -/

def seqOp (w : BitVec 64) : Nat := (w.extractLsb' 58 6).toNat
def seqCtx (w : BitVec 64) : BitVec 6 := w.extractLsb' 52 6
def seqCnd (w : BitVec 64) : Nat := (w.extractLsb' 48 4).toNat
def seqCap (w : BitVec 64) : BitVec 4 := w.extractLsb' 44 4
def seqTset (w : BitVec 64) : BitVec 4 := w.extractLsb' 40 4
def seqAux (w : BitVec 64) : Nat := (w.extractLsb' 32 8).toNat
def seqImm (w : BitVec 64) : Nat := (w.extractLsb' 0 32).toNat

/-- The opcodes that evaluate a condition (R69). -/
def seqHasCond (op : Nat) : Bool := [5, 6, 7, 8, 9, 10, 23].contains op

/-- aux and imm lie in the range the opcode table gives the opcode, for sequencer `k` (R69, R86, R96). -/
def seqOperandsOk (k op aux imm : Nat) : Bool :=
  match op with
  | 0 => aux < 4 && imm == 0
  | 1 => aux < 4 && imm != 0
  | 2 => aux < 8
  | 3 => aux < 8 && imm < 0x8000
  | 4 => aux == 0 && imm < 0x8000
  | 5 => aux % 16 == 0 && imm < 0x8000
  | 6 => aux % 16 == 0 && imm < 0x8000
  | 7 => aux % 16 == 0 && imm == 0
  | 8 => aux % 16 < 8 && imm < 0x8000
  | 9 => imm == 0
  | 10 => imm == 0
  | 11 => aux < 16 && imm < 0x10000 && imm.testBit k
  | 12 => aux < 32 && imm == 0
  | 13 => aux < 32 && imm == 0
  | 14 => aux < 8
  | 15 => aux < 16
  | 16 => aux < 16
  | 17 => !aux.testBit 3
  | 18 => aux == 0 && imm != 0
  | 19 => aux == 0 && imm != 0
  | 20 => aux == 0 && imm == 0
  | 21 => (aux == 0 && imm < 256) || (aux == 1 && imm < 3)
  | 22 => aux == 0 && imm == 0
  | 23 => aux % 16 == 0 && imm < 256
  | 24 => 1 ≤ aux % 128 && aux % 128 ≤ 64 && imm < 2 ^ 30
  | _ => false

/-- The instruction is legal (R68): op, cnd and cap are not reserved, cnd is 0 where no condition is evaluated, aux[7] is 0
under RF and NRF, and the operands lie in range. -/
def seqLegal (k : Nat) (w : BitVec 64) : Bool :=
  let op := seqOp w
  let cnd := seqCnd w
  op ≤ 0x18 && cnd != 15 && (seqCap w).toNat < 6 && (seqHasCond op || cnd == 0)
    && !((cnd == 7 || cnd == 8) && (seqAux w).testBit 7) && seqOperandsOk k op (seqAux w) (seqImm w)

/-! ### Zhotal cell instructions (R116 to R119) -/

def cellOp (i : BitVec 48) : Nat := (i.extractLsb' 42 6).toNat
def cellDst (i : BitVec 48) : Nat := (i.extractLsb' 38 4).toNat
def cellSrcA (i : BitVec 48) : Nat := (i.extractLsb' 32 6).toNat
def cellSrcB (i : BitVec 48) : Nat := (i.extractLsb' 26 6).toNat
def cellFctl (i : BitVec 48) : Nat := (i.extractLsb' 24 2).toNat
def cellWr (i : BitVec 48) : Bool := i.getLsbD 23
def cellO0e (i : BitVec 48) : Bool := i.getLsbD 22
def cellO1e (i : BitVec 48) : Bool := i.getLsbD 21
def cellPf (i : BitVec 48) : Nat := (i.extractLsb' 19 2).toNat
def cellSub (i : BitVec 48) : Nat := (i.extractLsb' 16 3).toNat
def cellImm (i : BitVec 48) : Nat := (i.extractLsb' 0 16).toNat

/-- How many sub-operations an opcode has, from 0 on; none for a reserved opcode (R120). -/
def cellSubs (op : Nat) : Nat :=
  [1, 1, 1, 1, 1, 8, 5, 8, 8, 4, 1, 1, 8, 4, 4, 2, 5, 3].getD op 0

/-- The instruction uses operand B (R119, R120). -/
def cellUsesB (op sub : Nat) : Bool :=
  match op with
  | 0 => false
  | 5 => sub < 6
  | 0x0A => false
  | 0x0B => false
  | 0x0D => false
  | 0x10 => sub != 3
  | 0x11 => sub != 1
  | _ => true

/-- The fields of imm16 that R120 to R127 constrain are in range. -/
def cellImmOk (op sub imm : Nat) : Bool :=
  match op with
  | 0x0B => 1 ≤ imm % 64 && imm % 64 ≤ 32
  | 0x10 =>
    if sub = 0 then imm < 32
    else if sub = 3 ∨ sub = 4 then imm < 1024 && imm % 32 + imm / 32 % 32 + 1 ≤ 32
    else true
  | 0x11 => if sub = 0 then imm < 8 else if sub = 1 then imm < 1024 else imm / 1024 % 4 == 0
  | _ => true

/-- A legal instruction of a context that is not in shift-register mode (R129). -/
def cellLegal (i : BitVec 48) : Bool :=
  let op := cellOp i
  let sub := cellSub i
  sub < cellSubs op && (op == 0 || cellSrcA i < 0x24) && (!cellUsesB op sub || cellSrcB i < 0x24)
    && cellImmOk op sub (cellImm i)

/-- A legal instruction of a shift-register context: NOP, a source that exists, a tap within its field (R129, R133). DESIGN CHOICE (log
entry 107): a reserved source or a set bit of imm16 that R133 wants 0 is illegal, as such operands are in other contexts; R129 names the
constraints of R120 to R127 alone. -/
def cellLegalSr (bitMode : Bool) (i : BitVec 48) : Bool :=
  cellOp i == 0 && cellSub i == 0 && cellSrcA i < 0x24 && cellImm i < (if bitMode then 512 else 16)

/-! ### Bits -/

/-- Bit `i` of a number as a BitVec. -/
def bvBit (n i : Nat) : BitVec n := BitVec.ofNat n (2 ^ i)

/-- The number of set bits. -/
def popCount {n : Nat} (x : BitVec n) : Nat := ((List.range n).filter x.getLsbD).length

/-- XOR of all bits. -/
def parityOf {n : Nat} (x : BitVec n) : Bool := popCount x % 2 == 1

/-- The signed value of the low `m` bits. -/
def signed (m v : Nat) : Int := if 2 ^ (m - 1) ≤ v % 2 ^ m then (v % 2 ^ m : Int) - 2 ^ m else (v % 2 ^ m : Int)

/-- A signed value as the low `m` bits. -/
def unsign (m : Nat) (i : Int) : Nat := (i % (2 ^ m : Int)).toNat

end Sys2Proof.Machine
end

