-- ==== Sys2Proof/Machine/Flags.lean ====
section
/-! DEFINITION. What a conditional sequencer instruction sees (R75 to R78, R85): horizon fails, FACC, region flags,
cross-sequencer flags, host flag, MX; and the flag results of cell operations (R128). -/

namespace Sys2Proof.Machine

/-- Counted channels of cycle `n` that are FAIL or UNV; a cycle not yet judged or never issued fails nowhere. -/
def Site.failMask (x : Site) (n : Nat) : BitVec 64 := Sparse.get (fun _ => 0) x.fails n

/-- The horizon cycle of an instruction whose last fc carries cycle `c` is c + 1 − H; below 0 it counts as not failing
(R76, R77). -/
def Site.horizonFail (x : Site) (c : Nat) (mask : BitVec 64) : Bool :=
  decide (x.hUse ≤ c + 1) && x.failMask (c + 1 - x.hUse) &&& mask != 0

/-- FACC as an instruction at cycle `c` sees it: a fail in the cycles from the clear point through c + 1 − H (R78). -/
def Site.faccAt (x : Site) (c : Nat) : Bool :=
  x.fails.any (fun p => decide (x.clearPt ≤ p.1) && decide (p.1 + x.hUse ≤ c + 1) && p.2 != 0)

/-- FACC as SEQ_STATUS shows it: over every cycle judged so far. -/
def Site.faccNow (x : Site) : Bool := x.fails.any (fun p => decide (x.clearPt ≤ p.1) && p.2 != 0)

/-- Cross-sequencer flag `f` over the writes that arrived at or before fc `t`: the latest write decides, and a set wins over
a clear in the same fc (R85). -/
def flagAt (l : List (Nat × BitVec 16 × BitVec 16)) (f t : Nat) : Bool :=
  let es := l.filter (fun e => decide (e.1 ≤ t) && (e.2.1.getLsbD f || e.2.2.getLsbD f))
  let top := es.foldl (fun m e => max m e.1) 0
  es.any (fun e => e.1 == top && e.2.1.getLsbD f)

/-- Flag `f` as a conditional instruction issued at fc `u` sees it: every SETF issued at or before u − 3 (R76). -/
def State.flagSeen (s : State) (f u : Nat) : Bool := if u < 3 then false else flagAt s.xflags f (u - 3)

/-- The value of the flag register: every write so far. -/
def State.flagNow (s : State) (f : Nat) : Bool :=
  flagAt s.xflags f (s.xflags.foldl (fun m e => max m e.1) 0)

/-- A write of cross-sequencer flags that arrives at fc `t`, and the register that shows them (R85, R104). -/
def State.writeFlags (s : State) (t : Nat) (set clr : BitVec 16) : State :=
  let s := { s with xflags := (t, set, clr) :: s.xflags }
  let v := (List.range 16).foldl (fun a f => if s.flagNow f then a + 2 ^ f else a) 0
  (s.wr Reg.seqXflags (BitVec.ofNat 32 v)).wr Reg.seqXflagsClr (BitVec.ofNat 32 v)

/-- The host flag as an instruction issued at fc `u` sees it: host writes at or before u − 8 (R76). -/
def Site.hostFlagSeen (x : Site) (u : Nat) : Bool :=
  match x.hflags.find? (fun p => decide (p.1 + 8 ≤ u)) with
  | some p => p.2
  | none => false

/-- The region flags an instruction at cycle `c` sees: those of cycle c − 9, read as 0 in a BISTWIN (R76, R89). -/
def Site.regionFlag (x : Site) (c f : Nat) : Bool :=
  decide (9 ≤ c) && (Sparse.get (fun _ => {}) x.ifc (c - 9)).flags.getLsbD f

/-- The active SEQ_CMASK. -/
def State.cmask (s : State) (k : Nat) : BitVec 64 :=
  BitVec.ofNat 64 ((s.rdAct (Reg.seqCmask k 0)).toNat + (s.rdAct (Reg.seqCmask k 1)).toNat * 2 ^ 32)

/-- The condition of instruction `w` of sequencer `k`, decided in the fc that carries cycle `c` (R75). -/
def State.seqCond (s : State) (k : Nat) (w : BitVec 64) (c : Nat) : Bool :=
  let x := s.getSite k
  let all := BitVec.allOnes 64
  let a := seqAux w / 16
  match seqCnd w with
  | 0 => true
  | 1 => x.horizonFail c all
  | 2 => !x.horizonFail c all
  | 3 => x.faccAt c
  | 4 => !x.faccAt c
  | 5 => x.horizonFail c (s.cmask k)
  | 6 => !x.horizonFail c (s.cmask k)
  | 7 => x.regionFlag c (a % 8)
  | 8 => !x.regionFlag c (a % 8)
  | 9 => s.flagSeen a (x.fc0 + c)
  | 10 => !s.flagSeen a (x.fc0 + c)
  | 11 => s.rd (Reg.seqX k a) == 0
  | 12 => s.rd (Reg.seqX k a) != 0
  | 13 => s.bit (Reg.seqStatus k) 5
  | 14 => x.hostFlagSeen (x.fc0 + c)
  | _ => false

/-! ### Cell results and flags (R120, R128) -/

/-- What a cell's ALU delivers: the result, c and v for fctl 0b01, the value z and n come from, and for the opcodes of R130
the residue predicted for the value checked. -/
structure Alu where
  r : Word
  c : Bool := false
  v : Bool := false
  /-- z and n come from this value, which is also the one the residue check looks at -/
  zn : Word := r
  pred : Option Nat := none
  deriving DecidableEq, Repr

/-- What an ALU computes from: the operands, their residues, the flags, imm16. -/
structure AluIn where
  a : Word
  b : Word
  ra : Nat := 0
  rb : Nat := 0
  c : Bool := false
  z : Bool := false
  n : Bool := false
  v : Bool := false
  imm : Nat := 0
  deriving DecidableEq, Repr

/-- Flag by its code: 0 c, 1 z, 2 n, 3 v (R118). -/
def AluIn.flag (i : AluIn) (f : Nat) : Bool :=
  match f with
  | 0 => i.c
  | 1 => i.z
  | 2 => i.n
  | _ => i.v

/-- a + b + cin with carry out of bit 31 and signed overflow; `rb` is the residue of b (R128, R130). -/
def addc (a b : Word) (cin : Bool) (ra rb : Nat) : Alu :=
  let ci := if cin then 1 else 0
  let sum := a.toNat + b.toNat + ci
  let r := BitVec.ofNat 32 sum
  let co := decide (2 ^ 32 ≤ sum)
  { r := r, c := co, v := a.msb == b.msb && r.msb != a.msb
    pred := some ((ra + rb + ci + (if co then 2 else 0)) % 3) }

/-- a + NOT b + cin: the subtractions. The residue of NOT b is that of −b, because 2^32 − 1 is a multiple of 3. -/
def subc (a b : Word) (cin : Bool) (ra rb : Nat) : Alu := addc a (~~~b) cin ra ((3 - rb % 3) % 3)

/-- A compare: 1 or 0 as the relation holds, flags and residue check from A − B (R120, R128, R130). -/
def cmpAlu (i : AluIn) (rel : Bool) : Alu :=
  let d := subc i.a i.b true i.ra i.rb
  { r := if rel then 1 else 0, c := d.c, v := d.v, zn := d.r, pred := d.pred }

end Sys2Proof.Machine
end

