-- ==== Sys2Proof/Machine/Power.lean ====
section
/-! DEFINITION. Power admission (14, R425 to R427), key windows (R16, R362), and other small shared operations of more
than one chapter. -/

namespace Sys2Proof.Machine

/-! ### Key windows (R16, R362) -/

def State.keyLeft (s : State) (req : Nat) : Nat := Sparse.get (fun _ => 0) s.host.keyWin req

def State.setKey (s : State) (req n : Nat) : State :=
  { s with host := { s.host with keyWin := Sparse.set (fun _ => 0) s.host.keyWin req n } }

/-- One write transaction (or hart instruction) of requester `req` goes by: its window shrinks by one. -/
def State.txn (s : State) (req : Nat) : State := s.setKey req (s.keyLeft req - 1)

/-- Requester `req` can send requests: the bus is up, and its interface is not isolated (R380). -/
def State.reaches (s : State) (req : Requester) : Bool :=
  s.busUp && (req == 0 || !s.bit Reg.nocIsoStat req.toNat)

/-- A register write by requester `req`: it counts in the requester's key window, and acts if the request can be sent. -/
def State.onWrite (s : State) (req : Requester) (f : State → State) : State :=
  if s.reaches req then f (s.txn req.toNat) else s

/-- As onWrite, for a write whose effect depends on whether it falls in the requester's key window (R16). -/
def State.onKeyed (s : State) (req : Requester) (f : Bool → State → State) : State :=
  if s.reaches req then f (decide (0 < s.keyLeft req.toNat)) (s.txn req.toNat) else s

/-- A read by requester `req`: of the hart it is an instruction, and counts in its key window (R16). -/
def State.readTxn (s : State) (req : Requester) : State := if req = 3 then s.txn 3 else s

/-- As onKeyed, for a register at `a` of a block that may not be up: the write is then dropped (R43). -/
def State.onBlock (s : State) (req : Requester) (a : Nat) (f : Bool → State → State) : State :=
  s.onKeyed req (fun keyed s => if s.upFor req.toNat a then f keyed s else s)

/-- A protected write at BAR0 address `a` outside a window: counted, and recorded if none is recorded yet (R362). -/
def State.keyRefused (s : State) (req a : Nat) : State :=
  let s := s.satAdd Reg.glbKeyCnt 0 16 1
  if s.bit Reg.glbKeyErr 31 then s
  else
    let cause := if req = 3 ∧ s.host.keyBroken then 2 else 1
    s.wr Reg.glbKeyErr (BitVec.ofNat 32 (2 ^ 31 + cause * 2 ^ 29 + req % 32 * 2 ^ 24 + a / 4 % 2 ^ 24))

/-! ### The budget (R425) and the allocation (R426), in units of 0.25 W -/

/-- The budget at an average VIN in mV: 520 W × min(1, vin / 4.6 V), the cap and the thermal factor, rounded down to 0.25 W. -/
def State.budgetNow (s : State) (vin : Rat) : Nat :=
  let supply : Rat := if 4600 ≤ vin then 2080 else 2080 * vin / 4600
  let cap : Rat := s.fldAct Reg.pmuCap 0 12
  let b := min cap supply
  (if s.rd Reg.thmCapred != 0 then b * 3 / 4 else b).floor.toNat

def State.sitePower (s : State) (k : Nat) : Nat := s.fld (Reg.pmuSite k) 0 8

def State.admitted (s : State) (k : Nat) : Bool := s.bit (Reg.pmuSite k) 12

/-- PMU_BASE, the class power of every admitted site, and the boost term while boost is on. -/
def State.allocation (s : State) : Nat :=
  s.fldAct Reg.pmuBase 0 12 + (sites.map (fun k => if s.admitted k then s.sitePower k else 0)).sum
    + (if s.bit Reg.pmuStat 26 then s.fldAct Reg.pmuBoostW 0 12 else 0)

def State.showAlloc (s : State) : State := s.setFld Reg.pmuStat 12 12 s.allocation

/-- The budget as the last update computed it. -/
def State.budget (s : State) : Nat := s.fld Reg.pmuStat 0 12

/-- The budget and the active copies of the PMU now. -/
def State.pmuVals (s : State) : PmuVals :=
  { bc := s.tsc, budget := s.budget, base := s.fldAct Reg.pmuBase 0 12, boostW := s.fldAct Reg.pmuBoostW 0 12
    classW := (List.range 16).map (fun c => s.fldAct (Reg.pmuClassW c) 0 8) }

/-- What admission goes by in this bc (R427): the values in force before it, if they have changed in it. -/
def State.pmuForce (s : State) : PmuVals :=
  match s.aon.pmuBefore with
  | some v => if v.bc = s.tsc then v else s.pmuVals
  | none => s.pmuVals

/-- The budget or the active copies of the PMU are about to change in this bc. -/
def State.holdPmu (s : State) : State := { s with aon := { s.aon with pmuBefore := some s.pmuForce } }

/-- The class power of site `k`'s region. -/
def State.classPower (s : State) (k : Nat) : Nat := s.pmuForce.classW.getD (s.getSite k).pclass 0

/-- The allocation that admission in this bc goes by. -/
def State.allocForce (s : State) : Nat :=
  s.pmuForce.base + (sites.map (fun k => if s.admitted k then s.sitePower k else 0)).sum
    + (if s.bit Reg.pmuStat 26 then s.pmuForce.boostW else 0)

/-- A set of sites fits beside the allocation (R426). Of one bc, its sites are judged one after the other in ascending order, and a start
that the queue has later in that bc after them: the starts of a bc stand in the queue in the order of R427 (log entry 108). -/
def State.admits (s : State) (l : List Nat) : Bool := s.allocForce + (l.map s.classPower).sum ≤ s.pmuForce.budget

def State.admitSite (s : State) (k : Nat) : State :=
  let p := s.classPower k
  let s := s.wr (Reg.pmuSite k) (BitVec.ofNat 32 (p + (s.getSite k).pclass % 16 * 2 ^ 8 + 2 ^ 12
    + s.fld (Reg.pmuSite k) 16 8 * 2 ^ 16))
  s.showAlloc

/-- The allocation of a site ends when it has drained (R426). -/
def State.release (s : State) (k : Nat) : State :=
  if s.admitted k then (s.setBit (Reg.pmuSite k) 12 false).showAlloc else s

def State.powerRefused (s : State) : State := s.setBit Reg.pmuEvt 5 true

/-! ### Analysis boost (R38, R426) -/

def State.showBoost (s : State) (b : Bool) : State := ((s.setBit Reg.glbMode 4 b).setBit Reg.pmuStat 26 b).showAlloc

/-- Boost ends, and releases its term (R427). -/
def State.boostEnd (s : State) : State := if s.boost then s.showBoost false else s

end Sys2Proof.Machine
end

