-- ==== Sys2Proof/Machine/SeqOps.lean ====
section
/-! DEFINITION. Shared operations of the pattern sequencers (03): issuing cycles, stopping, faults, what an accepted start
does, and the abort of a repair analysis. -/

namespace Sys2Proof.Machine

/-! ### Registers of a sequencer -/

def State.seqPc (s : State) (k : Nat) : Nat := s.fld (Reg.seqPc k) 0 15

/-- Show the cycle counter: cycles issued, modulo 2^48 (R66). What a read shows while a run of cycles passes, the wrap among it, is
State.liveValue's. -/
def State.showCycle (s : State) (k : Nat) : State := s.wr64 (Reg.seqCycleLo k) ((s.getSite k).cycle % 2 ^ 48)

def State.showFacc (s : State) (k : Nat) : State := s.setBit (Reg.seqStatus k) 4 (s.getSite k).faccNow

def State.cmdStatus (s : State) (k c : Nat) : State := s.setFld (Reg.seqStatus k) 20 4 c

/-! ### Stored vectors (R26, R71, R72, R277) -/

/-- The key of row `r` of the stream after the last seek. -/
def Site.fmtKey (x : Site) (r : Nat) : Nat := x.gen * 2 ^ 32 + r

def Site.fmtRow (x : Site) (key : Nat) : FmtRow := Sparse.get (fun _ => .absent) x.fmt key

def Site.setFmt (x : Site) (key : Nat) (r : FmtRow) : Site := { x with fmt := Sparse.set (fun _ => .absent) x.fmt key r }

/-- The vector that cycle `n` of a span consumes (R71); the index wraps. -/
def Span.vector (sp : Span) (n : Nat) : Nat := (sp.x15.toNat + (n - sp.first)) % 2 ^ 32

/-- The rows that the cycles `lo` to `hi` − 1 of a span need, each as its key and the first of these cycles that needs it. -/
def Span.rows (sp : Span) (lo hi : Nat) : List (Nat × Nat) :=
  let v := sp.vector lo
  (List.range ((v % 64 + (hi - lo) + 63) / 64)).map (fun i =>
    (sp.gen * 2 ^ 32 + (v / 64 + i) % 2 ^ 26, if i = 0 then lo else lo + (64 * i - v % 64)))

/-- Row `key` of the stream can never arrive: it is poisoned, reserved, or in a failed vault or a disabled tile. -/
def State.rowNever (s : State) (k key : Nat) : Bool :=
  match (s.readAt (s.svAddr k (s.fld (Reg.seqSvbaseRow k) 0 30) (64 * (key % 2 ^ 32))) srcPerCycle).2 with
  | .ok _ => false
  | _ => true

/-- Cycle `n` is the first that needs row `key`, and is due: a row that has not arrived is late, and one that can never arrive is
recorded as unreadable in place of that. -/
def State.rowDue (s : State) (k key n : Nat) : State :=
  let put (s : State) (r : FmtRow) : State := s.modSite k (fun x => x.setFmt key r)
  match (s.getSite k).fmtRow key with
  | .absent => if s.rowNever k key then put (s.integ k 2 n 0) (.never true) else put (s.integ k 1 n 0) .late
  | .never false => put (s.integ k 2 n 0) (.never true)
  | _ => s

/-- Cycle `n` needs row `key` and comes too early after a seek, so it is a fill cycle (R72): the row is late, which is recorded once for
each row, or unreadable where it can never arrive. -/
def State.rowEarly (s : State) (k key n : Nat) : State :=
  let x := s.getSite k
  let late : State := if x.early.contains key then s else (s.integ k 1 n 0).modSite k (fun x => { x with early := key :: x.early })
  match x.fmtRow key with
  | .never _ => s.rowDue k key n
  | .absent => if s.rowNever k key then s.rowDue k key n else late
  | .late => s
  | .here _ => late

/-- The rows that the consuming cycles `lo` to `hi` − 1 of a span need: for those too early after a seek, then for the others. -/
def State.spanFills (s : State) (k : Nat) (sp : Span) (lo hi : Nat) : State :=
  let mid := max lo (min hi sp.inTime)
  let s := if lo < mid then (sp.rows lo mid).foldl (fun s p => s.rowEarly k p.1 p.2) s else s
  if mid < hi then (sp.rows mid hi).foldl (fun s p => s.rowDue k p.1 p.2) s else s

/-- Row `row` of the stream reaches the formatter, or is found never to arrive (R72, R277). A row that comes after its first cycle was due is
not used (R26). -/
def State.svArrive (s : State) (k row : Nat) : State :=
  let key := (s.getSite k).fmtKey (row % 2 ^ 26)
  let old := (s.getSite k).fmtRow key
  let put (t : State) (r : FmtRow) : State := if old = .late then t else t.modSite k (fun x => x.setFmt key r)
  match s.readAt (s.svAddr k (s.fld (Reg.seqSvbaseRow k) 0 30) (64 * (row % 2 ^ 26))) srcPerCycle with
  | (t, .ok d) => put t (.here d)
  | (t, _) => put t (.never (old == .never true))

/-- Look at the rows of every consuming cycle below `upto` that has not been looked at. A cycle is due when the formatter merges it,
6 fc after its issue (R70). -/
def State.checkFills (s : State) (k upto : Nat) : State :=
  let x := s.getSite k
  let e := min upto x.cycle
  if e ≤ x.fillPtr then s
  else
    ((x.spans.reverse.filter (fun sp => sp.sv)).foldl (fun s sp =>
      s.spanFills k sp (max sp.first x.fillPtr) (min (sp.first + sp.len) e)) s).modSite k (fun x => { x with fillPtr := e })

/-- The cycles whose vectors have been merged by now. -/
def State.checkDue (s : State) (k : Nat) : State := s.checkFills k (s.nowCyc k - 6)

/-! ### Issuing cycles (R65, R70, R74)

An instruction takes its cycles at once, and time goes on to its second fc: cycle n has been issued once the fc is beyond fc0 + n. A
stop takes back the cycles that have not been issued, and lets a sequencer that waits in WAITF or SYNC issue those that have passed.
What follows a run of cycles (a planned stop, a fall through past 0x7FFF) comes when the fc has come: at the next tick, or with the
sequencer's next command (log entry 75). -/

/-- What the cycles of sequencer `k` carry of its committed registers and of the region's in-use mask (R110, R165). -/
def State.withCopies (s : State) (k : Nat) (sp : Span) : Span :=
  let pair (a : Nat) : BitVec 64 := BitVec.ofNat 64 ((s.rdAct a).toNat + (s.rdAct (a + 4)).toNat * 2 ^ 32)
  let inuse := (s.rd (Reg.cfgInuseLo k)).toNat + (s.rd (Reg.cfgInuseHi k)).toNat * 2 ^ 32
  { sp with
    svmask := pair (Reg.seqSvmask k 0), topoMask := pair (Reg.seqTopoMask k 0)
    topoRsel := s.rdAct (Reg.seqTopoRsel k), topoCsel := s.rdAct (Reg.seqTopoCsel k)
    discarded := !inuse.testBit sp.ctx.toNat }

/-- The run of `len` cycles that instruction `w` issues from the next cycle on. -/
def State.spanOf (s : State) (k : Nat) (w : BitVec 64) (len : Nat) (window sv : Bool) : Span :=
  let x := s.getSite k
  s.withCopies k { first := x.cycle, len := len, ctx := seqCtx w, tset := seqTset w, cap := seqCap w, window := window, sv := sv
                   x15 := s.rd (Reg.seqX k 15), sw0 := s.rd (Reg.seqSw k 0), sw1 := s.rd (Reg.seqSw k 1), pc := s.seqPc k
                   gen := x.gen, inTime := x.inTime, block := x.capBlock, mode := x.capMode
                   bistFrom := if seqOp w = 19 then some x.cycle else none }

/-- A context outside the in-use mask runs: its outputs are discarded (R165). -/
def State.recordDiscard (s : State) (k : Nat) (sp : Span) : State :=
  if sp.discarded && !sp.window then s.integ k 3 sp.first 0 else s

/-- Issue `len` cycles with the fields of `w`: the span is recorded, the cycle counter and X15 move on, the current
capture block and mode are shown, and the fc goes on to the one after its first. -/
def State.issue (s : State) (k : Nat) (w : BitVec 64) (len : Nat) (window : Bool := false) (sv : Bool := false) : State :=
  let sp := s.spanOf k w len window sv
  let s := s.recordDiscard k sp
  let s := s.modSite k (fun x => { x with
    spans := sp :: x.spans, cycle := x.cycle + len, lastIssued := BitVec.ofNat 32 (x.cycle + len - 1) })
  let s := if sv then s.wr (Reg.seqX k 15) (s.rd (Reg.seqX k 15) + BitVec.ofNat 32 len) else s
  let s := (s.setFld (Reg.capStatus k) 20 8 sp.block.toNat).setFld (Reg.capStatus k) 18 2 sp.mode.toNat
  ((s.showCycle k).runTo ((s.getSite k).fc0 + sp.first + 1)).checkDue k

/-- Take back the cycles from `upto` on, which a stop keeps from issuing: the newest span is cut, and the stored vectors
it would have consumed are given back. -/
def State.trimTo (s : State) (k upto : Nat) : State :=
  let x := s.getSite k
  if x.cycle ≤ upto then s
  else
    let back := (x.spans.map (fun sp => if sp.sv then min sp.len (sp.first + sp.len - upto) else 0)).sum
    let spans := (x.spans.filter (fun sp => decide (sp.first < upto))).map (fun sp =>
      { sp with len := min sp.len (upto - sp.first) })
    let s := s.modSite k (fun x => { x with
      spans := spans, cycle := upto, lastIssued := BitVec.ofNat 32 (upto - 1), after := .cut })
    let s := s.wr (Reg.seqX k 15) (s.rd (Reg.seqX k 15) - BitVec.ofNat 32 back)
    s.showCycle k

/-- The span that holds cycle `n`. -/
def Site.spanAt (x : Site) (n : Nat) : Option Span :=
  x.spans.find? (fun sp => decide (sp.first ≤ n) && decide (n < sp.first + sp.len))

/-- The address of the instruction that issues now (R104): that of a run of cycles not yet over, else PC. -/
def State.pcNow (s : State) (k : Nat) : Nat :=
  match (s.getSite k).spanAt (s.nowCyc k) with
  | some sp => if s.seqRuns k then sp.pc else s.seqPc k
  | none => s.seqPc k

/-! ### Stopping (R100 to R102) -/

/-- The integrity class of a stop reason, where R100 gives one. -/
def stopClass (reason : Nat) : Option Nat :=
  match reason with
  | 4 => some 12
  | 5 => some 13
  | 6 => some 14
  | 7 => some 15
  | 8 => some 16
  | _ => none

/-- The park reason the site's lanes carry after a stop; 0 for IDLE frames (R100, R182). -/
def State.stopPark (s : State) (k reason : Nat) : BitVec 8 :=
  match reason with
  | 1 => if s.fldAct (Reg.seqCfg k) 2 1 = 1 then 5 else 0
  | 2 => 4
  | 5 => 2
  | 7 => 4
  | 8 => 4
  | _ => 0

/-- The rank of a stop reason in the order of R101; a higher one wins over a lower one that came for the same fc. -/
def stopRank (reason : Nat) : Nat :=
  match reason with
  | 6 => 7
  | 5 => 6
  | 7 => 5
  | 8 => 4
  | 1 => 3
  | 2 => 3
  | 3 => 2
  | 4 => 1
  | _ => 0

/-- Sequencer `k` can be stopped with a reason: it runs, or it stopped in this very fc for a reason of lower rank (R35, R101). -/
def State.canStop (s : State) (k reason : Nat) : Bool :=
  s.seqRuns k || (s.seqState k == 5 && decide (s.fc ≤ (s.getSite k).fc0 + (s.getSite k).cycle)
    && decide (stopRank (s.fld (Reg.seqStatus k) 16 4) < stopRank reason))

/-- The event of class `cls` that a stop has just recorded is not the one that counts (R101): it is taken back. -/
def State.integUndo (s : State) (k cls : Nat) : State :=
  let used := s.fld (Reg.glbIntegCnt k) 16 5
  let mine := 0 < used ∧ s.fld (Reg.glbIntegLog k (8 * (used - 1) + 3)) 16 8 = cls
  if !(s.getSite k).window then s
  else
    let s := s.setFld (Reg.glbIntegCnt k) 0 16 (s.fld (Reg.glbIntegCnt k) 0 16 - 1)
    if mine then
      let s := s.setBit (if cls < 32 then Reg.glbIntegLo k else Reg.glbIntegHi k) (cls % 32) false
      let s := s.forAll (List.range 8) (fun s i => s.wr (Reg.glbIntegLog k (8 * (used - 1) + i)) 0)
      let s := s.modSite k (fun x => { x with seen := x.seen &&& ~~~(BitVec.ofNat 64 (2 ^ cls)) })
      s.setFld (Reg.glbIntegCnt k) 16 5 (used - 1)
    else s

/-- Stop sequencer `k` with a stop reason of R100 and the cycle SEQ_STOP_CYC records. The state becomes draining, and a self-test slice
of a BISTWIN is aborted (R89). -/
def State.seqStop (s : State) (k reason cyc : Nat) : State :=
  let park := s.stopPark k reason
  let s := match stopClass (s.fld (Reg.seqStatus k) 16 4) with
    | some c => if s.seqState k == 5 then s.integUndo k c else s
    | none => s
  let s := s.wr64 (Reg.seqStopCycLo k) (cyc % 2 ^ 48)
  let s := s.setFld (Reg.seqStatus k) 16 4 reason
  let s := match stopClass reason with
    | some c => s.integ k c cyc 0
    | none => s
  let s := (s.abortSlice k).modSite k (fun x => { x with
    wait := .none, stopAt := none, stopBy := 3, after := .go, parkReason := park, slicesLeft := 0 })
  (s.setSeqState k 5).followSite k

/-- The cycle before the next one, as SEQ_STOP_CYC shows it. -/
def State.lastCycle (s : State) (k : Nat) : Nat := ((s.getSite k).cycle + 2 ^ 48 - 1) % 2 ^ 48

/-- A fault (R103): the code and the PC of the instruction are recorded, the sequencer stops. -/
def State.seqFaultAt (s : State) (k code pc cyc : Nat) : State :=
  (s.wr (Reg.seqFault k) (BitVec.ofNat 32 (code + pc % 2 ^ 15 * 2 ^ 8))).seqStop k 7 cyc

/-- A fault of the instruction at PC, which does not issue. -/
def State.seqFaultNow (s : State) (k code : Nat) : State := s.seqFaultAt k code (s.seqPc k) (s.lastCycle k)

/-- What follows the last issued cycle has come, when its fc is over: the illegal instruction past 0x7FFF (R68), which ranks first
(R101), or the planned stop. A stop before an instruction that is still to be fetched waits for that fetch or for the fc to pass. -/
def State.stopNow (s : State) (k : Nat) : State :=
  let x := s.getSite k
  if !s.seqRuns k || decide (s.nowCyc k < x.cycle) then s
  else if x.after = .past then s.seqFaultAt k 0x02 0x8000 (s.lastCycle k)
  else match x.stopAt with
    | some (e, n) => if e ≤ x.cycle ∧ (x.after = .cut ∨ x.cycle < s.nowCyc k) then s.seqStop k x.stopBy n else s
    | none => s

/-- Go on at address `pc`. Falling through past 0x7FFF is an illegal instruction, which comes after the cycles issued (R68). -/
def State.goTo (s : State) (k pc : Nat) : State :=
  let s := s.setFld (Reg.seqPc k) 0 15 pc
  if pc < 0x8000 then s else (s.modSite k (fun x => { x with after := .past })).stopNow k

/-- Issue `len` cycles, cut where a stop is planned; the Bool says that they are cut. -/
def State.issueUpTo (s : State) (k : Nat) (w : BitVec 64) (len : Nat) (window : Bool := false) (sv : Bool := false) :
    State × Bool :=
  let x := s.getSite k
  match x.stopAt with
  | some (e, _) =>
    if x.cycle + len ≤ e then (s.issue k w len window sv, false)
    else (((if e ≤ x.cycle then s else s.issue k w (e - x.cycle) window sv).modSite k (fun x => { x with after := .cut })).stopNow k, true)
  | none => (s.issue k w len window sv, false)

/-- What instruction memory holds at PC (R64). -/
def State.imemWord (s : State) (k : Nat) : BitVec 64 := Sparse.get (fun _ => 0) (s.getSite k).imem (s.seqPc k)

/-- The sequencer waits in a WAITF or SYNC, which issue one cycle in each fc. -/
def State.inWait (s : State) (k : Nat) : Bool :=
  s.seqState k == 4 && match (s.getSite k).wait with
    | .waitf _ _ _ => true
    | .sync _ _ _ => true
    | _ => false

/-- The number of cycles issued by now (R66): of a run of cycles those of the fc that have passed, in a WAITF or SYNC one for each. -/
def State.cycleNow (s : State) (k : Nat) : Nat :=
  let x := s.getSite k
  if !s.seqRuns k then x.cycle
  else if s.inWait k then x.stopAt.elim (s.nowCyc k) (fun p => min p.1 (s.nowCyc k))
  else min x.cycle (s.nowCyc k)

/-- Bring the cycles of sequencer `k` to the number `e`: one that waits issues up to there, from a run of cycles those beyond are taken
back. A planned stop that comes before cuts them. -/
def State.cutTo (s : State) (k e : Nat) : State :=
  if s.inWait k then
    let n := e - (s.getSite k).cycle
    if n = 0 then s else (s.issueUpTo k (s.imemWord k) n).1
  else s.trimTo k e

/-- A waiting sequencer has issued a cycle in every fc that has passed (R65). -/
def State.catchUp (s : State) (k : Nat) : State := if s.inWait k then s.cutTo k (s.nowCyc k) else s

/-- Copies that cycles carry change for those issued from the next fc on (R110, R165): a run of cycles not yet over goes on with the
new ones, as a run of its own. To be called after catchUp and the change. -/
def State.splitSpan (s : State) (k : Nat) : State :=
  let x := s.getSite k
  let n := s.nowCyc k
  match x.spans with
  | sp :: rest =>
    if s.seqRuns k && decide (sp.first < n) && decide (n < sp.first + sp.len) then
      let tail := s.withCopies k { sp with
        first := n, len := sp.first + sp.len - n, x15 := if sp.sv then sp.x15 + BitVec.ofNat 32 (n - sp.first) else sp.x15 }
      let s := if sp.discarded then s else s.recordDiscard k tail
      s.modSite k (fun x => { x with spans := tail :: { sp with len := n - sp.first } :: rest })
    else s
  | [] => s

/-- What comes of sequencer `k` by now: a sequencer that waits has issued its cycles up to a planned stop, and what follows its last
cycle has come (R65, R68, R99). -/
def State.dueStop (s : State) (k : Nat) : State :=
  (match (s.getSite k).stopAt with
  | some (e, _) => if s.inWait k && decide (e ≤ s.nowCyc k) then s.catchUp k else s
  | none => s).stopNow k

/-- A stop-on-fail of cycle `n` (R99): cycle n + H is not issued, and any taken at once beyond it are taken back. It is planned for that
cycle, where no stop that ranks as high comes as early; it also replaces a host stop that has taken effect in that fc (R101). -/
def State.stopOnFail (s : State) (k n : Nat) : State :=
  let x := s.getSite k
  let e := n + x.hUse
  let first := x.stopAt.all (fun p => decide (e < p.1) || (p.1 == e && decide (stopRank x.stopBy < stopRank 3)))
  if s.seqRuns k then
    if !first then s
    else ((s.trimTo k e).modSite k (fun x => { x with stopAt := some (e, n), stopBy := 3 })).dueStop k
  else if s.canStop k 3 && decide (e ≤ x.cycle) then (s.trimTo k e).seqStop k 3 n
  else s

/-- X15 as the cycles below number `n` left it: what later cycles of its runs consume is not yet counted (R71, R104). -/
def State.x15At (s : State) (k n : Nat) : Word :=
  s.rd (Reg.seqX k 15)
    - BitVec.ofNat 32 (((s.getSite k).spans.map (fun sp => if sp.sv then sp.first + sp.len - max sp.first n else 0)).sum)

/-- The address of the instruction that comes after cycle `n` − 1: that of a run of cycles which goes on, else PC. -/
def State.pcAt (s : State) (k n : Nat) : Nat :=
  match (s.getSite k).spanAt n with
  | some sp => if sp.first < n then sp.pc else s.seqPc k
  | none => s.seqPc k

/-- What a record shows of the sequencer as its cycles below number `n` left it (R406, R407): PC to SW1, then from SP on. -/
def State.seqImage (s : State) (k n : Nat) : List Byte :=
  let w (a : Nat) : List Byte := leBytes 4 (s.rd a).toNat
  leBytes 4 (s.pcAt k n) ++ (List.range 8).flatMap (fun i => w (Reg.seqLc k i)) ++ (List.range 15).flatMap (fun i => w (Reg.seqX k i))
    ++ leBytes 4 (s.x15At k n).toNat
    ++ w (Reg.seqSw k 0) ++ w (Reg.seqSw k 1) ++ leBytes 1 (s.rd (Reg.seqSp k)).toNat
    ++ leBytes 1 ((if (s.getSite k).faccNow then 1 else 0) + (if s.bit (Reg.seqStatus k) 5 then 2 else 0))
    ++ (List.range 16).flatMap (fun i => w (Reg.seqStack k i))

/-- The edges of the Exposures to come that end a cycle before cycle `c` show the sequencer as that cycle left it, unless they show an
earlier state (R404). DEDUCED (log entry 103). -/
def State.noteEdges (s : State) (k c : Nat) : State :=
  let x := s.getSite k
  let edges := x.exposeAt.map (fun n => x.fc0 + n + 3) ++ (s.getExpo k).host
  let due := edges.filter (fun e => decide (e < x.fc0 + c + 3) && !x.exposeRegs.any (fun p => p.1 == e))
  if due.isEmpty then s
  else s.modSite k (fun x => { x with exposeRegs := due.map (fun e => (e, s.seqImage k (e - x.fc0 - 2))) ++ x.exposeRegs })

/-! ### Executing one instruction -/

/-- The sequencer can take its next instruction: it runs, or a CALWIN or a restored BISTWIN has ended. -/
def State.seqReady (s : State) (k : Nat) : Bool :=
  s.seqState k == 3 ||
    (s.seqState k == 4 && match (s.getSite k).wait with
      | .calwin _ _ => true
      | .bistwin _ _ => !(s.getSite k).restorePending
      | _ => false)

/-- The fault of the fetch of instruction `w` (R64, R68, R91, R103), if it has one. -/
def State.fetchFault (s : State) (k : Nat) (w : BitVec 64) (ecc : Ecc) : Option Nat :=
  let busyBank := match (s.getSite k).ovl with
    | some (b, _, _) => (if b then 1 else 0) == s.seqPc k / 0x4000
    | none => false
  if ecc = .double then some 0x03
  else if busyBank then some 0x06
  else if !seqLegal k w then some 0x02
  else none

/-- Fetch and check instruction `w` of sequencer `k`, and run `body` on it: the command is the step only when the sequencer
is ready, `w` is the word at PC and its opcode is `op` (a reserved opcode counts as the illegal case of VEC). After a run of cycles that
is cut, or past 0x7FFF, no instruction is fetched: what comes there comes (R68, R99). A fault of the
fetch, or the instruction's own `fault` (with what its check leaves behind), stops the sequencer before it issues; so does, below it in the order of R101, a planned
stop. -/
def State.seqExec (s : State) (k : Nat) (w : BitVec 64) (ecc : Ecc) (op : Nat) (body : State → State)
    (fault : State → Option (State × Nat) := fun _ => none) : State :=
  if !s.seqReady k || s.imemWord k != w || !(seqOp w == op || (op == 0 && decide (0x18 < seqOp w))) then s
  else if (s.getSite k).after ≠ .go then (s.runTo ((s.getSite k).fc0 + (s.getSite k).cycle)).stopNow k
  else
    let s := s.noteEdges k (s.getSite k).cycle
    let s := (s.setSeqState k 3).modSite k (fun x => { x with wait := .none })
    let x := s.getSite k
    let s := if ecc = .single then s.satAdd (Reg.seqImemEcc k) 0 16 1 else s
    match (s.fetchFault k w ecc).map (fun c => (s, c)) <|> fault s with
    | some (t, c) => t.seqFaultNow k c
    | none =>
      match x.stopAt with
      | some (e, n) => if e ≤ x.cycle then s.seqStop k x.stopBy n else body s
      | none => body s

/-- Issue one cycle and go on at `pc`. -/
def State.oneCycle (s : State) (k : Nat) (w : BitVec 64) (pc : Nat) (sv : Bool := false) : State :=
  let (s, stopped) := s.issueUpTo k w 1 false sv
  if stopped then s else s.goTo k pc

/-! ### Repair analysis (R243) -/

/-- Abort a running analysis with a stop reason (R243). -/
def State.rpaAbort (s : State) (k reason : Nat) : State :=
  if s.bit (Reg.rpaStatus k) 0 then
    ((s.setBit (Reg.rpaStatus k) 0 false).setFld (Reg.rpaStatus k) 24 4 reason).setBit (Reg.rpaIrqStat k) 3 true
  else s

/-! ### What a start clears (R213) -/

/-- Clear the capture counts and the sticky bits [10:2], an armed injection among them (R213, R233, R234). -/
def State.capClear (s : State) (k : Nat) : State :=
  let s := [Reg.capFcycLo k, Reg.capFcycHi k, Reg.capUnvcycLo k, Reg.capUnvcycHi k, Reg.capFoccLo k, Reg.capFoccHi k,
    Reg.capFirstLo k, Reg.capFirstHi k, Reg.capOor k, Reg.capFallbackLo k, Reg.capFallbackHi k, Reg.capLogPtr k].foldl
      (fun s a => s.wr a 0) s
  let s := s.setFld (Reg.capStatus k) 2 9 0
  s.modSite k (fun x => { x with logLine := [] })

end Sys2Proof.Machine
end

