-- ==== Sys2Proof/Machine/LinkOps.lean ====
section
/-! DEFINITION. Shared operations of the pattern link (06): symbols and the formatter, frames with their CRC and
scrambler, the state of the lanes, and horizon measurement. -/

namespace Sys2Proof.Machine

/-! ### Symbols (R73, R186) -/

def symHold : Nat := 3

/-- Codes 0xE and 0xF (R186). -/
def symReserved (s : Nat) : Bool := decide (14 ≤ s)

/-- The complemented data symbol of the topology scramble (R73). -/
def symSwap (s : Nat) : Nat :=
  match s with
  | 0 => 1
  | 1 => 0
  | 4 => 5
  | 5 => 4
  | 8 => 11
  | 9 => 10
  | 10 => 9
  | 11 => 8
  | 12 => 13
  | 13 => 12
  | _ => s

/-- The actual that an expecting symbol passes on; none for a symbol that is not compared (R186, R208). -/
def symPass (s : Nat) : Option Nat :=
  match s with
  | 4 => some 0
  | 8 => some 0
  | 10 => some 0
  | 12 => some 0
  | 5 => some 1
  | 9 => some 1
  | 11 => some 1
  | 13 => some 1
  | 6 => some 2
  | _ => none

/-! ### The lane and site map (R21, R302) -/

/-- Channel `c` of the site: mapped, with its lane within the site and its symbol position. -/
def Site.mapOf (x : Site) (c : Nat) : Option (Nat × Nat) :=
  match x.lmap with
  | none => some (c / 4, c % 4)
  | some m =>
    let b := m.toNat / 256 ^ c
    if b.testBit 7 then some (b / 4 % 16, b % 4) else none

/-- The channel on symbol position `i` of lane `l`. -/
def Site.chan (x : Site) (l i : Nat) : Option Nat := (List.range 64).find? (fun c => x.mapOf c == some (l % 16, i))

/-! ### The formatter (R71 to R73, R165) -/

/-- The stored vector that cycle `n` of a span consumes, if its row is here in time. -/
def Site.storedVector (x : Site) (sp : Span) (n : Nat) : Option (List Byte) :=
  let v := sp.vector n
  if n < sp.inTime then none
  else match x.fmtRow (sp.gen * 2 ^ 32 + v / 64) with
    | .here d => some ((d.drop (32 * (v % 64))).take 32)
    | _ => none

/-- Cycle `n` is a fill cycle (R26, R165). -/
def Site.isFill (x : Site) (sp : Span) (n : Nat) : Bool := sp.discarded || (sp.sv && (x.storedVector sp n).isNone)

def Site.ifcAt (x : Site) (n : Nat) : IfcOut := Sparse.get (fun _ => {}) x.ifc n

/-- The symbol of channel `c` in cycle `n`, before the replacement of reserved codes. -/
def Site.rawSymbol (x : Site) (sp : Span) (n c : Nat) : Nat :=
  if x.isFill sp n then symHold
  else
    let o := x.ifcAt n
    let fabric := (o.syms.extractLsb' (4 * c) 4).toNat
    let sym :=
      if sp.sv && sp.svmask.getLsbD c then
        match x.storedVector sp n with
        | some d => (d.getD (c / 2) 0).toNat / 16 ^ (c % 2) % 16
        | none => symHold
      else fabric
    let p := xor (parityOf (o.row.setWidth 32 &&& sp.topoRsel)) (parityOf (o.col.setWidth 32 &&& sp.topoCsel))
    if p && sp.topoMask.getLsbD c then symSwap sym else sym

/-- The cycle in position `p` of frame `f`, if it carries one outside a window (R184). -/
def Site.cycleIn (x : Site) (f p : Nat) : Option Nat :=
  let u := 8 * f + p
  if u < x.fc0 then none
  else
    let n := u - x.fc0
    match x.spanAt n with
    | some sp => if n < x.cycle && !sp.window then some n else none
    | none => none

def Site.frameCycles (x : Site) (f : Nat) : List (Option Nat) := (List.range 8).map (x.cycleIn f)

/-! ### Frames (R177 to R183) -/

def bitN (b : Bool) : Nat := if b then 1 else 0

/-- The CRC of a list of bits, first bit first (R180): the register after the last bit. -/
def crc16 (bits : List Bool) : Nat :=
  bits.foldl (fun c b =>
    let fb := xor (c.testBit 15) b
    let c := c * 2 % 2 ^ 16
    if fb then c ^^^ 0x1021 else c) 0xFFFF

/-- Bits `lo` to `lo + n − 1` of a number, lowest first. -/
def bitsOf (w lo n : Nat) : List Bool := (List.range n).map (fun i => w.testBit (lo + i))

def ofBits (l : List Bool) : Nat := l.foldr (fun b acc => bitN b + 2 * acc) 0

/-- The CRC field of a body: crc bit 15 is sent first (R180). -/
def crcField (d : Nat) : Nat := ofBits (bitsOf (crc16 (bitsOf d 0 142)) 0 16).reverse

/-- The 158 body bits of payload, kind, tag and info (R177, R181). -/
def frameBody (payload kind tag info : Nat) : Nat :=
  let d := payload % 2 ^ 128 + (kind % 4 + tag % 16 * 4 + info % 256 * 64) * 2 ^ 128
  d + crcField d * 2 ^ 142

/-- Scramble body bits from a scrambler state: the scrambled bits, lowest first, and the next state (R179). -/
def scramble (st : Nat) : List Bool → List Bool × Nat
  | [] => ([], st)
  | d :: ds =>
    let b := xor d (xor (st.testBit 38) (st.testBit 57))
    let (l, fin) := scramble ((st * 2 + bitN b) % 2 ^ 58) ds
    (b :: l, fin)

/-- Descramble received bits (R179). -/
def descramble (st : Nat) : List Bool → List Bool × Nat
  | [] => ([], st)
  | b :: bs =>
    let d := xor b (xor (st.testBit 38) (st.testBit 57))
    let (l, fin) := descramble ((st * 2 + bitN b) % 2 ^ 58) bs
    (d :: l, fin)

/-- The sync header: 0b10 on VECTOR and DATA, 0b01 on every other kind (R178). -/
def headerOf (kind : Nat) : Nat := if kind = 0 then 2 else 1

def kindData : Nat := 0
def kindIdle : Nat := 1
def kindPark : Nat := 2
def kindMarker : Nat := 3

/-! ### Lane windows and states (R198, R201) -/

/-- The window of receiver `l`. -/
def prxWin (l : Nat) : Nat := 256 + l

def State.lnkState (s : State) (w : Nat) : Nat := s.fld (Reg.lnkStat w) 29 3
def State.setLnkState (s : State) (w c : Nat) : State := s.setFld (Reg.lnkStat w) 29 3 c
def State.lnkEvt (s : State) (w b : Nat) : State := s.setBit (Reg.lnkEvt w) b true

/-- A PRX lane with frame lock: locked, measuring or ready. -/
def State.prxLocked (s : State) (l : Nat) : Bool :=
  let c := s.lnkState (prxWin l)
  c == 4 || c == 5 || c == 6

/-- The receivers of site `k`. -/
def lanesOf (k : Nat) : List Nat := (List.range 16).map (16 * k + ·)

/-- The park reason of site `k`'s lanes, 0 where they send IDLE (R32, R33, R36, R38, R100, R182): a mode that parks every
lane comes first, then the site state, boost, and the reason of the last stop. -/
def State.parkCode (s : State) (k : Nat) : BitVec 8 :=
  if s.mode = modeLOAD then 1
  else if s.mode = modeSAFE then 2
  else if s.siteState k = 2 ∨ s.siteState k = 3 then 3
  else if s.boost then 6
  else (s.getSite k).parkReason

/-- The kind of frame `f` of site `k`, without measurement (R182). -/
def State.frameKind (s : State) (k f : Nat) : Nat :=
  if ((s.getSite k).frameCycles f).any Option.isSome then kindData
  else if s.parkCode k != 0 then kindPark
  else kindIdle

/-- Lane `l` can send frame `f`: it sends frames, `f` has come and was not sent, and every cycle that belongs in it has
issued. -/
def State.canSend (s : State) (l f : Nat) : Bool :=
  let x := s.getSite (l / 16)
  s.busUp && s.lnkState l == 4 && decide ((s.getLane l).nextFrame ≤ f) && decide (8 * f ≤ s.fc)
    && (!s.seqRuns (l / 16) || (decide (8 * f + 8 ≤ x.fc0 + x.cycle) && decide (8 * f + 8 ≤ s.fc)))

/-- An armed corruption of the next frame's CRC (R197, R204). -/
def State.injArmed (s : State) (w : Nat) : Bool := s.bit (Reg.lnkInject w) 31 && s.fld (Reg.lnkInject w) 28 2 == 2

/-- The gap after the 160 bits of a frame: the remaining UI of its 8 fc, filled with repetitions of 0b1100, bit 0 first (R174). -/
def State.gapBits (s : State) : List Bool := (List.range (8 * s.ui - 160)).map (fun i => decide (2 ≤ i % 4))

/-- The lane's LNK_EQTAB entry inverts the polarity of PTX `l`, of PRX `l` (R175). -/
def Lane.txInvert (x : Lane) : Bool := x.eqTx.getLsbD 73
def Lane.rxInvert (x : Lane) : Bool := x.eqRx.getLsbD 74

/-- Bits as they are on a line of that polarity. -/
def onLine {n : Nat} (inv : Bool) (b : BitVec n) : BitVec n := if inv then ~~~b else b

/-- Send a frame and its gap on PTX lane `l`, with everything the lane remembers of it. -/
def State.sendFrame (s : State) (l f kind payload info : Nat) (cycles : List (Option Nat)) (marker : Nat) : State :=
  let x := s.getLane l
  let (bits, st) := scramble x.txScr.toNat (bitsOf (frameBody payload kind (f % 16) info) 0 158)
  let inj := s.injArmed l
  let line := ofBits bits ^^^ (if inj then 2 ^ 157 else 0)
  let e : Sent := { frame := f, kind := BitVec.ofNat 2 kind, marker := marker, cycles := cycles }
  let s := if inj then s.setBit (Reg.lnkInject l) 31 false else s
  let s := s.setLane l { x with
    txScr := BitVec.ofNat 58 st
    lastFrame := onLine x.txInvert (BitVec.ofNat 160 (headerOf kind + line * 4))
    lastGap := s.gapBits.map (xor x.txInvert)
    nextFrame := f + 1
    sent := x.sent.filter (fun p => decide (f < p.frame + 512)) ++ [e] }
  s.setFld (Reg.lnkStat l) 27 2 kind

/-! ### Cycles on their way to a lane (R73, R187, R206) -/

/-- Replace a reserved symbol: HOLD, an event on the PTX lane and in the integrity word (R187). -/
def State.badSymbol (s : State) (l n : Nat) : State := (s.lnkEvt l 11).integ (l / 16) 4 n l

/-- The four symbols of lane `l` in cycle `n`, as the cells and the formatter give them. -/
def Site.laneSymbols (x : Site) (l n : Nat) : List Nat :=
  match x.spanAt n with
  | some sp => (List.range 4).map (fun i => match x.chan l i with
    | some c => x.rawSymbol sp n c
    | none => (Config.unmappedSym (4 * l + i) n).toNat)
  | none => [symHold, symHold, symHold, symHold]

/-- Symbols as sent: reserved codes replaced by HOLD. -/
def sentSymbols (l : List Nat) : List Nat := l.map (fun v => if symReserved v then symHold else v)

def packNibbles (l : List Nat) : Nat := l.foldr (fun v acc => v + 16 * acc) 0

/-- Enter the expectation of cycle `n` on lane `l` (R206). -/
def State.expectCycle (s : State) (l n : Nat) : State :=
  let raw := (s.getSite (l / 16)).laneSymbols l n
  let s := if raw.any symReserved then s.badSymbol l n else s
  s.modSite (l / 16) (fun x => { x with
    expect := Sparse.set (fun _ => 0) x.expect (n % 4096 * 16 + l % 16) (BitVec.ofNat 16 (packNibbles (sentSymbols raw))) })

/-- The formatter has merged the cycles of frame `f` for lane `l`: their fills are judged and their expectations entered (R26, R70, R206). -/
def State.buildFrame (s : State) (l f : Nat) (cycles : List (Option Nat)) : State :=
  let s := s.checkFills (l / 16) (8 * f + 8 - (s.getSite (l / 16)).fc0)
  (cycles.filterMap (fun c => c)).foldl (fun s n => s.expectCycle l n) s

/-! ### Horizon (R192, R193) -/

/-- The site's horizon is not valid. -/
def State.horizonOff (s : State) (k : Nat) : State := s.setBit (Reg.seqHorizon k) 31 false

/-- Start a measurement of site `k` (R192), unless it is running. -/
def State.measureStart (s : State) (k : Nat) : State :=
  if s.seqRuns k then s
  else
    let s := (s.horizonOff k).setBit (Reg.seqHorizon k) 30 false
    let s := (s.setBit Reg.lnkSkew k false).setBit Reg.lnkMeasure (16 + k) true
    s.forAll (lanesOf k) (fun s l =>
      let s := s.modLane l (fun x => { x with markSent := 0, markGot := 0, rMax := 0, relock := false })
      if s.prxLocked l then s.setLnkState (prxWin l) 5 else s)

/-- The lane horizon of a round trip of `r` UI (R192). -/
def State.laneHorizon (s : State) (r : Nat) : Nat := 44 + (r + s.ui - 1) / s.ui

/-- Write a lane's round trip and horizon, and show the lane ready. -/
def State.setRtt (s : State) (l r : Nat) : State :=
  let h := s.laneHorizon r
  ((s.wr (Reg.lnkRtt l) (BitVec.ofNat 32 (2 ^ 31 + h % 2 ^ 12 * 2 ^ 17 + r % 2 ^ 17))).modLane l (fun x => { x with horizon := h })).setLnkState
    (prxWin l) 6

/-- The site's horizon from its lanes' (R192 step 4) given as fc: H, the slowest lane, and the failures. DESIGN CHOICE (log entry 107):
where the measured horizon is above 4095 fc, the field horizon holds its low 12 bits and slowest_lane the lane, which R108 leaves open. -/
def State.writeHorizon (s : State) (k : Nat) (hs : List Nat) : State :=
  let top := hs.foldl max 0
  let low := hs.foldl min top
  let tooFar := decide (4095 < top)
  let skew := decide (low + 256 < top)
  let ready := (lanesOf k).all (fun l => s.lnkState (prxWin l) == 6)
  let s := s.setBit Reg.lnkSkew k skew
  s.wr (Reg.seqHorizon k) (BitVec.ofNat 32 (bitN (ready && !tooFar && !skew) * 2 ^ 31 + bitN tooFar * 2 ^ 30
    + hs.idxOf top % 16 * 2 ^ 12 + top % 2 ^ 12))

/-- The measurement of site `k` ends when every lane has its 256 echoes (R192). -/
def State.measureDone (s : State) (k : Nat) : State :=
  if (lanesOf k).all (fun l => s.lnkState (prxWin l) == 5 && (s.getLane l).markGot == 256) then
    let rs := (lanesOf k).map (fun l => (s.getLane l).rMax)
    let hs := rs.map s.laneHorizon
    let s := (lanesOf k).foldl (fun s l => s.setRtt l (s.getLane l).rMax) s
    (s.setBit Reg.lnkMeasure (16 + k) false).writeHorizon k hs
  else s

/-- The horizon after lane `l` of a running site measured its round trip anew (R193). -/
def State.relockDone (s : State) (l r : Nat) : State :=
  let k := l / 16
  let s := (s.setRtt l r).modLane l (fun x => { x with relock := false })
  s.writeHorizon k ((lanesOf k).map (fun j => (s.getLane j).horizon))

/-! ### Losing lock (R189) -/

/-- A lane loses what it had and goes to state `c`; `b` is the LNK_EVT bit of the cause, or 2 for the frame conditions. -/
def State.loseLane (s : State) (l b c : Nat) : State :=
  let w := prxWin l
  let s := if s.prxLocked l then s.lnkEvt w 2 else s
  let s := (s.lnkEvt w b).setLnkState w c
  (s.modLane l (fun x => { x with badRun := 0, hist := 0, tagRun := 0, loss := b, relock := false })).horizonOff (l / 16)

/-! ### Bring-up, electrical idle and commits (R32, R188, R194, R200, R204) -/

/-- The exponents of the polynomial of a prbs_sel (R196). -/
def prbsTaps (sel : Nat) : Nat × Nat :=
  match sel with
  | 1 => (7, 6)
  | 2 => (15, 14)
  | 3 => (23, 18)
  | _ => (31, 28)

/-- The lane of window `w` is in PRBS mode. -/
def State.prbsMode (s : State) (w : Nat) : Bool := s.fldAct (Reg.lnkCfg w) 8 4 != 0

/-- The PTX lanes are in electrical idle: their clocks are off, or a clock or supply cause of SAFE is live (R30, R32, R55). Log entry 92. -/
def State.linesIdle (s : State) : Bool := !s.clockOn 5 || s.bit Reg.glbMode 9 || s.bit Reg.glbMode 10

/-- The state in which the lane of window `w` starts from the first step of R188 (R32, R196, R201). -/
def State.startState (s : State) (w : Nat) : Nat :=
  if s.fldAct (Reg.lnkCfg w) 6 1 = 1 then 0
  else if (if w < 256 then s.linesIdle else !s.clockOn 5) then 1
  else if s.prbsMode w then 7
  else if w < 256 then 4
  else 1

/-- The PRBS stream of the lane of window `w` starts: the transmitter's first bits are a nonzero state, of as many bits as the polynomial's
degree, that the spec does not name, and the checker seeds itself (R196). -/
def State.prbsStart (s : State) (w : Nat) : State :=
  let l := w % 256
  if s.lnkState w ≠ 7 then s
  else if w < 256 then
    let n := (prbsTaps (s.fldAct (Reg.lnkCfg w) 8 4)).1
    let seed := BitVec.ofNat 31 ((Config.freeWord s.free).toNat % (2 ^ n - 1) + 1)
    s.tickFree.modLane l (fun x => { x with prbsFrom := s.fc, prbsSeed := seed })
  else s.modLane l (fun x => { x with prbsReg := 0, prbsHeld := 0, prbsRun := 0, prbsErrs := 0 })

/-- The lane of window `w` stops and starts again from the first step of R188. -/
def State.laneRestart (s : State) (w : Nat) : State :=
  let l := w % 256
  let s := (s.setLnkState w (s.startState w)).setBit (Reg.lnkStat w) 24 false
  let s := s.modLane l (fun x =>
    if w < 256 then { x with sent := [] } else { x with badRun := 0, hist := 0, tagRun := 0, relock := false })
  (if w < 256 then s else s.horizonOff (l / 16)).prbsStart w

/-- A commit takes effect on the lane of window `w`: it ends any injection, the lane takes its LNK_EQTAB entry `eq` and starts again, and
the site's horizon is measured (R192, R200, R204). -/
def State.laneCommit (s : State) (w : Nat) (eq : BitVec 128) : State :=
  let s := (s.setBit (Reg.lnkInject w) 31 false).modLane (w % 256) (fun x =>
    if w < 256 then { x with eqTx := eq, flipOnce := [], flipTx := none } else { x with eqRx := eq, flipNext := false, flipRx := none })
  (s.laneRestart w).measureStart (w % 256 / 16)

/-- Frames of lane `l` that were still to carry issued cycles are cut: they never reach the line whole, and no answer comes (R194). -/
def State.cutFrames (s : State) (l : Nat) : State :=
  let x := s.getSite (l / 16)
  let first := (s.getLane l).nextFrame
  (List.range ((x.fc0 + x.cycle + 7) / 8 - first)).foldl (fun s i =>
    let cycles := (s.getSite (l / 16)).frameCycles (first + i)
    if cycles.any Option.isSome then
      (s.buildFrame l (first + i) cycles).modLane l (fun y => { y with
        nextFrame := first + i + 1, sent := y.sent ++ [{ frame := first + i, kind := 0, cycles := cycles }] })
    else s) s

/-- Every sending PTX lane goes to electrical idle at once (R30, R55, R194). -/
def State.idleLanes (s : State) : State :=
  s.forAll (List.range 256) (fun s l =>
    if s.lnkState l = 4 ∨ s.lnkState l = 7 then (s.cutFrames l).setLnkState l 1 else s)

/-- PTX lanes in electrical idle send again where nothing holds them there any more, from the next frame boundary (R32, R188). -/
def State.resumeLanes (s : State) : State :=
  s.forAll (List.range 256) (fun s l =>
    if s.lnkState l = 1 ∧ s.startState l ≠ 1 then
      ((s.setLnkState l (s.startState l)).modLane l (fun x => { x with nextFrame := max x.nextFrame (s.fc / 8 + 1) })).prbsStart l
    else s)

/-! ### Side-channel bytes (R343 to R346) -/

/-- The lanes within the site that the active WFE_STR_CFG names, in order (R354). -/
def State.strLanes (s : State) (k : Nat) : List Nat :=
  (List.range (s.fldAct (Reg.wfeStrCfg k) 24 2 + 1)).map (fun i => s.fldAct (Reg.wfeStrCfg k) (4 * i) 4)

/-- The stream of site `k` is triggered by a cycle. -/
def State.strTrig (s : State) (k : Nat) : Bool := s.fldAct (Reg.wfeStrCfg k) 16 1 == 1

/-- The stream of site `k` ends (R347). -/
def State.strEnd (s : State) (k : Nat) : State :=
  (s.modWfe k (fun x => { x with sides := [], from0 := none })).setBit (Reg.wfeStatus k) 4 false

/-- The frame that holds the last issued cycle, once the sequencer has stopped (R347). -/
def State.strLast (s : State) (k : Nat) : Option Nat :=
  let x := s.getSite k
  if s.strTrig k && !s.seqRuns k && decide (0 < x.cycle) then some ((x.fc0 + x.cycle - 1) / 8) else none

/-- The stream port takes the side-channel bytes of the frame that answers `e` on lane `l` (R344 to R346): payload `data`, side
type `kind`, and whether R191 treats the frame. A triggered stream whose pattern has its last frame answered before S ends (R347). -/
def State.takeSide (s : State) (l : Nat) (e : Sent) (data kind : Nat) (bad : Bool) : State :=
  let k := l / 16
  let x := s.getWfe k
  let trig := s.rd64 (Reg.wfeStrTrigLo k) % 2 ^ 48
  let from0 := match x.from0 with
    | some f => some f
    | none => if !s.strTrig k || e.cycles.any (fun c => c.any (fun n => n % 2 ^ 48 == trig)) then some e.frame else none
  if s.bit (Reg.wfeStatus k) 4 && (s.strLanes k).contains (l % 16) && from0.any (fun f => decide (f ≤ e.frame)) then
    let bytes := ((List.range 8).map (fun p => data / 2 ^ (16 * p + 8) % 256 * 2 ^ (8 * p))).sum
    let entry : SideFrame := { lane := l % 16, frame := e.frame, bytes := BitVec.ofNat 64 bytes, kind := BitVec.ofNat 2 kind
                               bad := bad, cycle := (e.cycles.filterMap (fun c => c)).head? }
    s.setWfe k { x with from0 := from0, sides := x.sides ++ [entry] }
  else if s.bit (Reg.wfeStatus k) 4 && (s.strLanes k).contains (l % 16)
      && (s.strLast k).any (fun n => e.frame == n || (decide (n < e.frame) && decide (x.goFrame ≤ n))) then s.strEnd k
  else s

/-! ### PRBS streams (R196, R197, R204) -/

/-- The next bit of the stream after the bits of `st`, newest in bit 0. -/
def prbsNext (sel : Nat) (st : BitVec 31) : Bool := xor (st.getLsbD ((prbsTaps sel).1 - 1)) (st.getLsbD ((prbsTaps sel).2 - 1))

def prbsShift (st : BitVec 31) (b : Bool) : BitVec 31 := BitVec.ofNat 31 (st.toNat * 2 + bitN b)

/-- Bit `i` of the stream after the bits of `st`. -/
def prbsBit (sel : Nat) (st : BitVec 31) : Nat → Bool
  | 0 => prbsNext sel st
  | i + 1 => prbsBit sel (prbsShift st (prbsNext sel st)) i

/-- Bits per fc of the lane of window `w` in PRBS mode (R174, R176). -/
def State.prbsRate (s : State) (w : Nat) : Nat := s.ui / (if s.fldAct (Reg.lnkCfg w) 7 1 = 1 then 2 else 1)

/-- Bits from one flip of a repeating injection to the next (R204). -/
def State.flipStep (s : State) (w : Nat) : Nat := 2 ^ (s.fld (Reg.lnkInject w) 24 4 + 8)

/-- Bit `i` on the line of PTX lane `l` in PRBS mode: the stream, the flips of LNK_INJECT, and the lane's polarity (R175, R196, R197).
A single flip takes the first bit of its fc, and a repeating one the last of every 2^(rate + 8) bits. Log entry 93. -/
def State.prbsLine (s : State) (l i : Nat) : Bool :=
  let x := s.getLane l
  let n := s.prbsRate l
  let once := x.flipOnce.any (fun f => i == (f - x.prbsFrom) * n)
  let rep := x.flipTx.any (fun f => decide ((f - x.prbsFrom) * n ≤ i) && (i - (f - x.prbsFrom) * n + 1) % s.flipStep l == 0)
  xor (xor (prbsBit (s.fldAct (Reg.lnkCfg l) 8 4) x.prbsSeed i) (xor once rep)) x.txInvert

/-- The checker takes one bit of the stream (R196): before sync it holds the received bits and counts those in a row that follow from them;
in sync it counts the errors against its own stream, and drops sync at 16 among the last 1,024 bits. -/
def State.prbsCheck (s : State) (l : Nat) (b : Bool) : State :=
  let w := prxWin l
  let x := s.getLane l
  let sel := s.fldAct (Reg.lnkCfg w) 8 4
  let own := prbsNext sel x.prbsReg
  if s.bit (Reg.lnkStat w) 24 then
    let errs := BitVec.ofNat 1024 (x.prbsErrs.toNat * 2 + bitN (b != own))
    let s := if b != own then s.satAdd (Reg.lnkPrbsErr l) 0 32 1 else s
    if 16 ≤ popCount errs then
      (s.setLane l { x with prbsReg := 0, prbsHeld := 0, prbsRun := 0, prbsErrs := 0 }).setBit (Reg.lnkStat w) 24 false
    else s.setLane l { x with prbsReg := prbsShift x.prbsReg own, prbsErrs := errs }
  else
    let n := (prbsTaps sel).1
    let run := if n ≤ x.prbsHeld && b == own then x.prbsRun + 1 else 0
    let s := s.setLane l { x with prbsReg := prbsShift x.prbsReg b, prbsHeld := min n (x.prbsHeld + 1), prbsRun := run, prbsErrs := 0 }
    if 128 ≤ run then s.setBit (Reg.lnkStat w) 24 true else s

/-- One bit from the line of PRX lane `l`: its polarity, the flips of LNK_INJECT, and the checker (R175, R196, R197). -/
def State.prbsTake (s : State) (l : Nat) (b : Bool) : State :=
  let x := s.getLane l
  let rep := x.flipRx.any (fun n => (n + 1) % s.flipStep (prxWin l) == 0)
  let s := s.setLane l { x with flipNext := false, flipRx := x.flipRx.map (· + 1) }
  s.prbsCheck l (xor (xor b x.rxInvert) (xor x.flipNext rep))

/-- The bits of a stretch, in order. -/
def State.prbsFeed (s : State) (l : Nat) (bits : List Bool) : State := bits.foldl (fun s b => s.prbsTake l b) s

end Sys2Proof.Machine
end

