-- ==== Sys2Proof/Machine/CtxOps.lean ====
section
/-! DEFINITION. The context layer (04, 05, 10): frames and context words, the checks of a context word, the golden copy and
its reloads, in-use masks, and the upset log. -/

namespace Sys2Proof.Machine

/-! ### Cells and frames (R113, R143, R304) -/

/-- Cell (x, y) of a plane of a region. -/
def cellKey (p x y : Nat) : Nat := p * 4096 + x * 64 + y
def keyPlane (c : Nat) : Nat := c / 4096
def keyX (c : Nat) : Nat := c / 64 % 64
def keyY (c : Nat) : Nat := c % 64

/-- Block of a cell (R143). -/
def keyBlock (c : Nat) : Nat := 16 * (keyY c / 4) + keyX c / 4

/-- The frame that holds context `ctx` of a cell of region `k` (R304). -/
def frameOf (k c ctx : Nat) : Nat := 32768 * k + 16384 * keyPlane c + 256 * keyX c + 64 * (keyY c / 16) + ctx

/-- The cells of a frame, in strip order. -/
def frameCells (f : Nat) : List Nat :=
  (List.range 16).map (fun i => cellKey (f / 16384 % 2) (f / 256 % 64) (16 * (f / 64 % 4) + i))

/-- Frame address to frame index; none for an invalid address (R304). -/
def frameIndex (a : Nat) : Option Nat :=
  if a % 4096 ≠ 0 ∨ 64 ≤ a / 2 ^ 20 % 128 then none
  else some (32768 * (a / 2 ^ 28) + 16384 * (a / 2 ^ 27 % 2) + 256 * (a / 2 ^ 20 % 128) + 64 * (a / 2 ^ 18 % 4) + a / 2 ^ 12 % 64)

/-- Frame index to frame address. -/
def frameAddr (f : Nat) : Nat :=
  f / 32768 * 2 ^ 28 + f / 16384 % 2 * 2 ^ 27 + f / 256 % 64 * 2 ^ 20 + f / 64 % 4 * 2 ^ 18 + f % 64 * 2 ^ 12

def State.getFrame (s : State) (f : Nat) : BitVec 4096 := Sparse.get (fun _ => 0) s.ctl.frames f
def State.putFrame (s : State) (f : Nat) (d : BitVec 4096) : State :=
  { s with ctl := { s.ctl with frames := Sparse.set (fun _ => 0) s.ctl.frames f d } }
def State.putGolden (s : State) (f : Nat) (d : BitVec 4096) (rel : BitVec 256) : State :=
  { s with ctl := { s.ctl with
      golden := Sparse.set (fun _ => 0) s.ctl.golden f d, relev := Sparse.set (fun _ => 0) s.ctl.relev f rel } }

/-- The context word of cell `i` of a frame (R113). -/
def wordIn (d : BitVec 4096) (i : Nat) : BitVec 256 := d.extractLsb' (256 * i) 256

/-- The stored context word of a cell. -/
def State.ctxWord (s : State) (k c ctx : Nat) : BitVec 256 := wordIn (s.getFrame (frameOf k c ctx)) (keyY c % 16)

/-- A field of a context word. -/
def wfld (w : BitVec 256) (lo len : Nat) : Nat := (w.extractLsb' lo len).toNat

/-! ### Routing fields (R146) -/

def ctxInstr (w : BitVec 256) : BitVec 48 := w.extractLsb' 0 48
def ctxSrm (w : BitVec 256) : Bool := w.getLsbD 63
def ctxSrb (w : BitVec 256) : Bool := w.getLsbD 62
def ctxWclk (w : BitVec 256) : Bool := w.getLsbD 61
/-- The input port whose bit 0 is the clocking wire (R132). -/
def ctxWsrc (w : BitVec 256) : Nat := wfld w 58 3
/-- The wire clocks at its falling edge, not its rising one (R132). -/
def ctxWedge (w : BitVec 256) : Bool := w.getLsbD 57
def ctxO1sel (w : BitVec 256) : Bool := w.getLsbD 56
def ctxIp (w : BitVec 256) (p : Nat) : Nat := wfld w (64 + 4 * p) 4
def ctxSh (w : BitVec 256) (d i : Nat) : Nat := wfld w (96 + 16 * d + 2 * i) 2
def ctxFh (w : BitVec 256) (d : Nat) : Nat := wfld w (160 + 2 * d) 2
def ctxLl (w : BitVec 256) (d : Nat) : Nat := wfld w (168 + 2 * d) 2
def ctxZt (w : BitVec 256) (i : Nat) : Nat := wfld w (176 + 2 * i) 2
def ctxZbe (w : BitVec 256) : Nat := wfld w 184 4
def ctxZbs (w : BitVec 256) : Nat := wfld w 188 2
def ctxRwe (w : BitVec 256) : Nat := wfld w 190 2
def ctxRwreq (w : BitVec 256) : Bool := w.getLsbD 192

/-- The cell starts long lines in direction `d`: its coordinate, counted from the edge where they start, is a multiple
of 8 (R147). -/
def llOrigin (c d : Nat) : Bool :=
  match d with
  | 0 => keyY c % 8 == 0
  | 1 => keyX c % 8 == 0
  | 2 => (63 - keyY c) % 8 == 0
  | _ => (63 - keyX c) % 8 == 0

/-- The window control cell of a vault area (R157). -/
def ctlCell (c : Nat) : Bool := keyPlane c == 0 && keyX c % 16 == 15 && keyY c % 16 == 15

/-- The controller refuses the context word for cell `c` (R132, R149). -/
def ctxRefused (c : Nat) (w : BitVec 256) : Bool :=
  wfld w 193 63 != 0 || wfld w 48 8 != 0 || (ctxSrm w && ctxWclk w)
    || (List.range 4).any (fun i => ctxZt w i == 3)
    || (List.range 4).any (fun d => ctxLl w d == 3 || (ctxLl w d != 0 && !llOrigin c d))
    || (List.range 4).any (fun d => (List.range 8).any (fun i => ctxSh w d i == 3))
    || (List.range 4).any (fun p => 0xC ≤ ctxIp w p && ctxIp w p ≤ 0xE)
    || (List.range 4).any (fun p => 8 ≤ ctxIp w (4 + p) && ctxIp w (4 + p) ≤ 0xE)
    || (keyPlane c == 1 && ctxRwe w != 0) || (ctxRwreq w && !ctlCell c)

/-- A frame holds a context word the controller refuses. -/
def frameRefused (f : Nat) (d : BitVec 4096) : Bool :=
  (frameCells f).zipIdx.any (fun p => ctxRefused p.1 (wordIn d p.2))

/-- The enables of a frame's cells on the Z-buses: (4·block + bus), one entry for each driver. -/
def frameDrives (f : Nat) (d : BitVec 4096) : List Nat :=
  (frameCells f).zipIdx.flatMap (fun p =>
    ((List.range 4).filter (fun i => (ctxZbe (wordIn d p.2)).testBit i)).map (fun i => 4 * keyBlock p.1 + i))

/-- Frames of the same region and context whose cells can share a Z-bus with frame `f`: both planes, the four columns of its
blocks, the same strip. -/
def busMates (f : Nat) : List Nat :=
  let x := f / 256 % 64 / 4 * 4
  (List.range 2).flatMap (fun p => (List.range 4).map (fun i =>
    f / 32768 * 32768 + 16384 * p + 256 * (x + i) + 64 * (f / 64 % 4) + f % 64))

/-- Writing `d` into frame `f` would give a Z-bus a second driver in its context (R153); `present` gives the other frames,
none for one that does not count. -/
def busConflict (f : Nat) (d : BitVec 4096) (present : Nat → Option (BitVec 4096)) : Bool :=
  let mine := frameDrives f d
  let others := ((busMates f).filter (fun g => g != f)).flatMap (fun g => match present g with
    | some e => frameDrives g e
    | none => [])
  mine.any (fun b => decide (1 < mine.count b) || others.contains b)

/-! ### In-use masks, wire-clock cells (R138, R165, R318) -/

def State.inuse (s : State) (k : Nat) : Nat := (s.rd (Reg.cfgInuseLo k)).toNat + (s.rd (Reg.cfgInuseHi k)).toNat * 2 ^ 32

/-- Cells of region `k` with wclk = 1 in a context of the in-use mask `m`. -/
def State.wclkCells (s : State) (k m : Nat) : Nat :=
  let cells := (s.ctl.frames.filter (fun p => p.1 / 32768 == k && m.testBit (p.1 % 64))).flatMap (fun p =>
    ((frameCells p.1).zipIdx.filter (fun q => ctxWclk (wordIn p.2 q.2))).map Prod.fst)
  cells.eraseDups.length

/-- Count the wire-clock cells of region `k` for the in-use mask `m`. -/
def State.countWclk (s : State) (k m : Nat) : State :=
  let n := s.wclkCells k m
  (s.wr (Reg.fabWclkCells k) (BitVec.ofNat 32 (min n 0xFFFF))).modSite k (fun x => { x with unsync := n != 0 })

def State.setInuse (s : State) (k : Nat) (m : Nat) : State := s.wr64 (Reg.cfgInuseLo k) (m % 2 ^ 64)

/-! ### The state of a region (R328) -/

def regConfigured : Nat := 1
def regLoading : Nat := 2
def regIncomplete : Nat := 3
def regSession : Nat := 4
def regForced : Nat := 5
def regLost : Nat := 6

def State.regState (s : State) (k : Nat) : Nat := s.fld (Reg.cfgRegion k) 29 3
def State.setRegState (s : State) (k c : Nat) : State := s.setFld (Reg.cfgRegion k) 29 3 c
def State.goldenValid (s : State) (k : Nat) : Bool := s.bit (Reg.cfgRegion k) 27
def State.rmode (s : State) (k : Nat) : Bool := s.bit (Reg.cfgRegion k) 28

/-! ### Upsets and reloads (R320 to R322) -/

/-- A double-bit error in codeword `cw` (64 bits) of frame `f` is relevant: its context is in use and the design depends on
one of its four byte pairs (R321). -/
def State.relevant (s : State) (f cw : Nat) : Bool :=
  (s.inuse (f / 32768)).testBit (f % 64) &&
    ((Sparse.get (fun _ => (0 : BitVec 256)) s.ctl.relev f).extractLsb' (4 * cw) 4 != 0)

/-- A double-bit error is found: counted, recorded when relevant and found by scrub, and queued for reload (R320, R321). -/
def State.upsetFound (s : State) (f cw : Nat) (byRead : Bool) : State :=
  let k := f / 32768
  let rel := s.relevant f cw
  let s := s.satAdd Reg.cfgUpsetDbl 0 32 1
  let s :=
    if rel && !byRead then
      if s.seqRuns k then s.integ k 24 noCycle (frameAddr f)
      else s.modSite k (fun x => { x with upset := some (x.upset.getD (frameAddr f)) })
    else s
  { s with ctl := { s.ctl with reloads := s.ctl.reloads ++ [{ frame := f, byRead := byRead, relevant := rel }] } }

/-- Copy frame `f` from the golden copy, unless the copy is invalid or its row poisoned; the Bool says that it was copied. `hit` says
that the read finds the row beyond repair. -/
def State.fromGolden (s : State) (f : Nat) (hit : Bool) : State × Bool :=
  if s.goldenValid (f / 32768) then
    match s.goldenRead f hit with
    | (t, true) => (t, false)
    | (t, false) => (t.putFrame f (Sparse.get (fun _ => 0) t.ctl.golden f), true)
  else (s, false)

/-- A reload that failed (R322): a SAF event; for a relevant error the integrity word records it and the region is golden
lost. -/
def State.reloadFailed (s : State) (f : Nat) (relevant : Bool) : State :=
  let k := f / 32768
  let s := s.safEvent 0x09 f
  if relevant then
    let s := (s.integ k 25 noCycle (frameAddr f)).setRegState k regLost
    (s.modSite k (fun x => { x with isoGolden := true })).followHeld k
  else s

/-- The entry of CFG_UPSET_LOG for a double-bit error (R330). -/
def Reload.entry (r : Reload) (ok : Bool) : Word :=
  BitVec.ofNat 32 ((if r.byRead then 2 ^ 29 else 0) + (if r.relevant then 2 ^ 28 else 0) + (if ok then 0 else 2 ^ 27) + r.frame)

/-- The reload of frame `f` ends: the log entry of each of its double-bit errors, and what a failure does. `hit` says that the read finds
the golden row beyond repair. -/
def State.reloadFrame (s : State) (f : Nat) (hit : Bool) : State :=
  let errs := s.ctl.reloads.filter (fun r => r.frame == f)
  let (s, ok) := s.fromGolden f hit
  let s := errs.foldl (fun s r => s.pushQ Reg.cfgUpsetLog 32 (r.entry ok)) s
  let s := { s with ctl := { s.ctl with reloads := s.ctl.reloads.filter (fun q => q.frame != f) } }
  if ok then s else s.reloadFailed f (errs.any (fun r => r.relevant))

end Sys2Proof.Machine
end

