-- ==== Sys2Proof/Machine/FabOps.lean ====
section
/-! DEFINITION. The fabric (04, 05): cell registers and residue codes, routing and its registers, the edge that ends a cycle,
the read of a context, what one cell does in a cycle, and the row windows. -/

namespace Sys2Proof.Machine

/-! ### Cell registers (R111) -/

def Cell.reg (c : Cell) (i : Nat) : Word := c.w.extractLsb' (32 * i) 32

/-- Register by its item number: w0 to w15, 0x10 o0, 0x11 o1 (R141). -/
def Cell.item (c : Cell) (i : Nat) : Word := if i < 16 then c.reg i else if i = 16 then c.o0 else c.o1

/-- The residue code stored with a register. -/
def Cell.code (c : Cell) (i : Nat) : Nat := (c.res.extractLsb' (2 * i) 2).toNat

def Cell.setReg (c : Cell) (i : Nat) (v : Word) : Cell :=
  { c with w := c.w &&& ~~~((0xFFFFFFFF : BitVec 512) <<< (32 * i)) ||| (v.setWidth 512 <<< (32 * i)) }

def Cell.setCode (c : Cell) (i r : Nat) : Cell :=
  { c with res := c.res &&& ~~~((3 : BitVec 36) <<< (2 * i)) ||| (BitVec.ofNat 36 (r % 4) <<< (2 * i)) }

/-- Write a register with the code of its value. -/
def Cell.put (c : Cell) (i : Nat) (v : Word) : Cell :=
  (if i < 16 then c.setReg i v else if i = 16 then { c with o0 := v } else { c with o1 := v }).setCode i (v.toNat % 3)

/-- The flag word (R119). -/
def Cell.flags (c : Cell) : Word :=
  (if c.c then 1 else 0) + (if c.z then 2 else 0) + (if c.n then 4 else 0) + (if c.v then 8 else 0)

/-- A register changes without its code: an upset. -/
def Cell.flip (c : Cell) (i : Nat) (m : Word) : Cell :=
  if i < 16 then c.setReg i (c.reg i ^^^ m) else if i = 16 then { c with o0 := c.o0 ^^^ m } else { c with o1 := c.o1 ^^^ m }

/-- A cell at its initial values (R111, R302). -/
def Cell.initial (init : List (Nat × Word)) (c : Nat) : Cell :=
  (init.filter (fun p => p.1 / 32 == c)).foldl (fun x p =>
    if p.1 % 32 = 0x12 then
      { x with c := p.2.getLsbD 0, z := p.2.getLsbD 1, n := p.2.getLsbD 2, v := p.2.getLsbD 3 }
    else x.put (p.1 % 32) p.2) {}

def Fabric.cell (f : Fabric) (c : Nat) : Cell := Sparse.get (fun _ => {}) f.cells c

/-- A cell at the end of the cycle in effect. -/
def Fabric.after (f : Fabric) (c : Nat) : Cell :=
  match f.next.find? (fun p => p.1 == c) with
  | some p => p.2.cell
  | none => f.cell c

/-- Every user flip-flop of the region takes its initial value, and nothing is in flight. -/
def Fabric.restart (f : Fabric) : Fabric :=
  let cs := (f.init.map (fun p => p.1 / 32)).eraseDups
  { f with
    live := false, dead := [], wire := [], next := [], seg := [], mid := [], now := 0, cyc := none
    cells := cs.foldl (fun m c => Sparse.set (fun _ => {}) m c (Cell.initial f.init c)) [] }

/-! ### Physical columns (R144, R171) -/

def State.planeRepaired (s : State) (k : Nat) (p : Nat) : Bool := s.bit (Reg.fabColmap k) (7 + 8 * p)
def State.replaced (s : State) (k : Nat) (p : Nat) : Nat := s.fld (Reg.fabColmap k) (8 * p) 6

/-- The physical column of a logical column. -/
def State.physCol (s : State) (k p x : Nat) : Nat :=
  if s.planeRepaired k p && decide (s.replaced k p ≤ x) then x + 1 else x

/-- The logical column in a physical column; none for an unused spare or a replaced column. -/
def State.logCol (s : State) (k p x : Nat) : Option Nat :=
  (List.range 64).find? (fun c => s.physCol k p c == x)

/-! ### Queued columns (R131, R464) -/

/-- Queue a physical column for confirmation by a slice and then for spare repair: SAF_FAULT names it, or it waits until the column
named there is dealt with. -/
def State.queueColumn (s : State) (k p col : Nat) : State :=
  let named := s.fld (Reg.safFault k) (8 * p) 7
  if named = 0x7F then s.setFld (Reg.safFault k) (8 * p) 7 col
  else if named = col ∨ (s.getBist k).queued.contains (p, col) then s
  else s.modBist k (fun b => { b with queued := b.queued ++ [(p, col)] })

/-- The column that SAF_FAULT names is dealt with: it names the next one queued, if any. -/
def State.nextColumn (s : State) (k p : Nat) : State :=
  match (s.getBist k).queued.find? (fun q => q.1 == p) with
  | some q => (s.setFld (Reg.safFault k) (8 * p) 7 q.2).modBist k (fun b => { b with queued := b.queued.erase q })
  | none => s.setFld (Reg.safFault k) (8 * p) 7 0x7F

/-! ### When a region executes (R47, R49, R115, R431) -/

/-- The region executes contexts: configured and released, powered and clocked. -/
def State.fabRuns (s : State) (k : Nat) : Bool :=
  !(s.getFab k).held && !s.ctl.gated && s.clockOn 0

/-- The context word in effect in a cell. -/
def State.effWord (s : State) (k c : Nat) : BitVec 256 :=
  let f := s.getFab k
  if f.dead.contains c then 0 else s.ctxWord k c f.ctx.toNat

/-! ### Tracks (R147 to R156) -/

/-- The cell `n` cells away in direction `d` (0 N, 1 E, 2 S, 3 W), inside the region. -/
def moveKey (c d n : Nat) : Option Nat :=
  let p := keyPlane c
  let x := keyX c
  let y := keyY c
  match d with
  | 0 => if y + n < 64 then some (cellKey p x (y + n)) else none
  | 1 => if x + n < 64 then some (cellKey p (x + n) y) else none
  | 2 => if n ≤ y then some (cellKey p x (y - n)) else none
  | _ => if n ≤ x then some (cellKey p (x - n) y) else none

def opposite (d : Nat) : Nat := (d + 2) % 4

/-- The region next to region `k` on side `d` (R20). -/
def neighbour (k d : Nat) : Option Nat :=
  match d with
  | 0 => if k / 4 < 3 then some (k + 4) else none
  | 1 => if k % 4 < 3 then some (k + 1) else none
  | 2 => if 0 < k / 4 then some (k - 4) else none
  | _ => if 0 < k % 4 then some (k - 1) else none

/-- The penumbra port of an edge cell on edge `d`. -/
def portOf (c d : Nat) : Nat := 128 * d + 64 * keyPlane c + (if d % 2 = 0 then keyX c else keyY c)

/-- The cell lies on edge `d` of its region. -/
def onEdge (c d : Nat) : Bool := (moveKey c d 1).isNone

/-- What an origin select puts on a track (R146). -/
def originOf (sel : Nat) (c : Cell) : Word :=
  match sel with
  | 1 => c.o0
  | 2 => c.o1
  | _ => 0

/-- What outbound port `p` of region `k` presents to a neighbour's cycle issued in fc `u` (R156): from the second fc behind the isolating
edge its park value, until the second behind the releasing one. -/
def State.port (s : State) (k p u : Nat) : Word :=
  let f := s.getFab k
  let reg := Sparse.get (fun _ => 0) f.pen p
  if f.parked && decide (f.parkFrom ≤ u + 2) then
    match (Sparse.get (fun _ => 0) f.park p).toNat with
    | 0 => 0
    | 1 => 0xFFFFFFFF
    | _ => reg
  else reg

/-- Row-window word `i` (0 for RW0, 1 for RW1) of a cell (R119, R157). -/
def Fabric.rw (f : Fabric) (c i : Nat) : Word :=
  if keyPlane c = 1 then 0
  else
    let v := 4 * (keyY c / 16) + keyX c / 16
    Sparse.get (fun _ => 0) f.win (512 * v + 2 * (16 * (keyY c % 16) + keyX c % 16) + i)

/-- The cells of a block on both planes. -/
def blockCells (b : Nat) : List Nat :=
  (List.range 2).flatMap (fun p => (List.range 4).flatMap (fun i => (List.range 4).map (fun j =>
    cellKey p (4 * (b % 16) + i) (4 * (b / 16) + j))))

/-- The word on Z-bus `i` of block `b` (R152, R154). -/
def State.zbus (s : State) (k b i : Nat) : Word :=
  let f := s.getFab k
  if f.busOff.any (fun o => o.bus == 4 * b + i) then 0
  else match (blockCells b).find? (fun c => (ctxZbe (s.effWord k c)).testBit i) with
    | some c => match ctxZbs (s.effWord k c) with
      | 0 => (f.cell c).o0
      | 1 => (f.cell c).o1
      | 2 => f.rw c 0
      | _ => f.rw c 1
    | none => 0

/-- A long line into a cell: direction E, W, N or S by `d`, the line whose origin is nearer first (R147, R148). -/
def State.longLine (s : State) (k c d second : Nat) : Word :=
  let a := match d with
    | 0 => keyY c
    | 1 => keyX c
    | 2 => 63 - keyY c
    | _ => 63 - keyX c
  if a = 0 then 0
  else
    let near := (a - 1) / 8 * 8
    if near < 8 * second then 0
    else match moveKey c (opposite d) (a - (near - 8 * second)) with
      | some o => Sparse.get (fun _ => 0) (s.getFab k).mid (4 * o + d)
      | none => 0

/-- The word on input port `p` (N, E, S, W, U, D, L0, L1) of a cell (R148, R150). -/
def State.inPort (s : State) (k c p : Nat) : Word :=
  let f := s.getFab k
  let code := ctxIp (s.effWord k c) p
  if p < 4 then
    if code < 8 then
      match moveKey c p 1 with
      | some o => originOf (ctxSh (s.effWord k o) (opposite p) code) (f.cell o)
      | none =>
        if code ≠ 0 then 0
        else match neighbour k p with
          | some r => s.port r (128 * opposite p + 64 * keyPlane c + (if p % 2 = 0 then keyX c else keyY c)) f.now
          | none => 0
    else if code < 12 then
      match moveKey c p (code - 7) with
      | some o => Sparse.get (fun _ => 0) f.seg (4 * o + opposite p)
      | none => 0
    else 0
  else if p < 6 then
    if code < 4 then
      if (p = 4 ∧ keyPlane c = 1) ∨ (p = 5 ∧ keyPlane c = 0) then
        let o := cellKey (1 - keyPlane c) (keyX c) (keyY c)
        originOf (ctxZt (s.effWord k o) code) (f.cell o)
      else 0
    else if code < 8 then s.zbus k (keyBlock c) (code - 4)
    else 0
  else if code < 8 then s.longLine k c ([1, 3, 0, 2].getD (code / 2) 0) (code % 2)
  else 0

/-! ### Sources (R119) -/

/-- A source: its value, its residue, and the register whose stored code the read checks. -/
structure Source where
  val : Word
  res : Nat
  item : Option Nat := none

def State.source (s : State) (k c code imm : Nat) : Source :=
  let f := s.getFab k
  let x := f.cell c
  let regd (i : Nat) : Source := { val := x.item i, res := x.code i, item := some i }
  let plain (v : Word) : Source := { val := v, res := v.toNat % 3 }
  if code < 16 then regd code
  else if code < 0x18 then plain (s.inPort k c (code - 16))
  else match code with
    | 0x18 => plain f.sw0
    | 0x19 => plain f.sw1
    | 0x1A => plain (f.rw c 0)
    | 0x1B => plain (f.rw c 1)
    | 0x1C => plain (BitVec.ofNat 32 imm)
    | 0x1D => plain ((BitVec.ofNat 16 imm).signExtend 32)
    | 0x1E => plain (BitVec.ofNat 32 (imm * 2 ^ 16))
    | 0x20 => regd 16
    | 0x21 => regd 17
    | 0x22 => plain f.num
    | 0x23 => plain x.flags
    | _ => plain 0

/-! ### The interface (R162) -/

/-- What the interface cells give at the end of the cycle in effect. -/
def Fabric.outputs (f : Fabric) : IfcOut :=
  let o (x : Nat) : Word := (f.after (cellKey 0 x 31)).o0
  { syms := BitVec.ofNat 256 (((List.range 8).map (fun i => (o (28 + i)).toNat * 2 ^ (32 * i))).sum)
    row := (o 36).setWidth 20, col := (o 37).setWidth 16, flags := (o 38).setWidth 8 }

/-- The tile takes the outputs of the sequencer's cycle in effect. -/
def State.sampleIfc (s : State) (k : Nat) : State :=
  let f := s.getFab k
  match f.cyc with
  | some n => if f.sampled then
      s.modSite k (fun x => { x with ifc := Sparse.set (fun _ => {}) x.ifc n f.outputs })
    else s
  | none => s

/-- The cycle number an event of the cycle in effect names. -/
def Fabric.cycNum (f : Fabric) : Nat := f.cyc.getD noCycle

/-- The cells of region `k` whose word in the context in effect is not all zero. -/
def State.routed (s : State) (k : Nat) : List Nat :=
  let f := s.getFab k
  ((s.ctl.frames.filter (fun p => p.1 / 32768 == k && p.1 % 64 == f.ctx.toNat)).flatMap (fun p =>
    frameCells p.1)).filter (fun c => !f.dead.contains c)

/-! ### Wire-clocked output registers (R132, R136, R137) -/

/-- The level on the clocking wire of a cell. -/
def State.wireLevel (s : State) (k c : Nat) : Bool := (s.inPort k c (ctxWsrc (s.effWord k c))).getLsbD 0

/-- A self-test slice holds the column of cell `c` (R460). -/
def State.inSlice (s : State) (k c : Nat) : Bool :=
  match (s.getFab k).slice with
  | some (p, col) => (if p then 1 else 0) == keyPlane c && s.physCol k (keyPlane c) (keyX c) == col
  | none => false

/-- The clocking wire of a cell has made an edge of its kind that o0 has not taken. What the wire was before its context came into
effect does not count: edges under wclk = 0 are ignored; so are those while a slice holds the cell's column (R460). -/
def State.wireEdge (s : State) (k c : Nat) : Bool :=
  let w := s.effWord k c
  match (s.getFab k).wire.find? (fun p => p.1 == c) with
  | some p => ctxWclk w && !s.inSlice k c && p.2 != s.wireLevel k c && s.wireLevel k c != ctxWedge w
  | none => false

/-- o0 takes the edge: what it loads the device does not vouch for, so it is free (log entry 5). -/
def State.wireLoad (s : State) (k c : Nat) : State :=
  let f := s.getFab k
  let v := Config.freeWord s.free
  (s.tickFree.setFab k { f with
    cells := Sparse.set (fun _ => {}) f.cells c ((f.cell c).put 16 v)
    next := f.next.map (fun p => if p.1 == c then (p.1, { p.2 with cell := p.2.cell.put 16 v }) else p)
    wire := (c, s.wireLevel k c) :: f.wire.filter (fun p => p.1 != c) }).sampleIfc k

/-- The cells whose o0 is wire-clocked in the context in effect (R137). -/
def State.wireClocked (s : State) (k : Nat) : List Nat :=
  if (s.getFab k).live then (s.routed k).filter (fun c => ctxWclk (s.effWord k c)) else []

/-- Edges not yet taken are taken; one may bring about the next. -/
def State.wireSettle : Nat → State → Nat → State
  | 0, s, _ => s
  | n + 1, s, k => match (s.wireClocked k).find? (s.wireEdge k) with
    | some c => State.wireSettle n (s.wireLoad k c) k
    | none => s

/-! ### The edge that ends a cycle (R114, R151, R155, R158) -/

def putWord (m : List (Nat × Word)) (a : Nat) (v : Word) : List (Nat × Word) := Sparse.set (fun _ => 0) m a v

/-- What the segment that leaves cell `c` in direction `d` carries next (R151). -/
def State.nextSeg (s : State) (k c d : Nat) : Word :=
  let f := s.getFab k
  match ctxFh (s.effWord k c) d with
  | 1 => (f.after c).o0
  | 2 => (f.after c).o1
  | 3 => match moveKey c (opposite d) 4 with
    | some o => Sparse.get (fun _ => 0) f.seg (4 * o + d)
    | none => 0
  | _ => 0

def dirs : List Nat := [0, 1, 2, 3]

/-- Row-window words that the cells write at the end of the cycle (R158); the window of a failed vault takes none (R161). -/
def State.winWrites (s : State) (k : Nat) : List (Nat × Word) :=
  let f := s.getFab k
  ((s.routed k).filter (fun c => keyPlane c == 0)).flatMap (fun c =>
    let v := 4 * (keyY c / 16) + keyX c / 16
    let a := 512 * v + 2 * (16 * (keyY c % 16) + keyX c % 16)
    if s.vltState (16 * k + v) = 5 then []
    else match ctxRwe (s.effWord k c) with
    | 1 => [(a, (f.after c).o0)]
    | 2 => [(a + 1, (f.after c).o0)]
    | 3 => [(a, (f.after c).o0), (a + 1, (f.after c).o1)]
    | _ => [])

/-- Window words with the row of a read in them. -/
def WinRead.fill (r : WinRead) (win : List (Nat × Word)) : List (Nat × Word) :=
  Sparse.setList (fun _ => 0) win (512 * (r.vault % 16)) ((List.range 512).map (fun w => BitVec.ofNat 32 (ofLe ((r.data.drop (4 * w)).take 4))))

/-- The reads of region `k` that land by the end of cycle `n`, 63 after their request (R160). -/
def State.dueReads (s : State) (k n : Nat) : List WinRead := (s.getFab k).winReads.filter (fun r => decide (r.since + 63 ≤ n))

/-- The window words `win` after those reads; nothing lands in a failed vault's window (R161). -/
def State.landWords (s : State) (k n : Nat) (win : List (Nat × Word)) : List (Nat × Word) :=
  ((s.dueReads k n).filter (fun r => s.vltState r.vault != 5)).foldl (fun m r => r.fill m) win

/-- The window words at the end of the cycle in effect: cells write, then a landing row wins (R158, R160). -/
def State.winAfter (s : State) (k : Nat) : List (Nat × Word) :=
  s.landWords k (s.getFab k).now ((s.winWrites k).foldl (fun m p => putWord m p.1 p.2) (s.getFab k).win)

/-- An event of the cycle in effect enters the integrity word of a running site (R129, R131, R154, R161, R164): that of a cycle of the
pattern, or while the sequencer runs. Context 0 of a stopped site that drains is neither (R33, R115). -/
def State.fabInteg (s : State) (k cls cyc detail : Nat) : State :=
  if (s.getFab k).cyc.isSome || s.seqRuns k then s.integ k cls cyc detail else s

/-- A request of the window of vault `v` is refused (R161). -/
def State.winRefused (s : State) (v : Nat) : State :=
  (s.setBit Reg.fabRwStat (16 + v / 16) true).fabInteg (v / 16) 21 (s.getFab (v / 16)).cycNum 0

/-- What the landing of a read reports: a poisoned row (R161); in a vault that has failed since the request, a refusal. -/
def State.landEvent (s : State) (r : WinRead) : State :=
  let k := r.vault / 16
  if s.vltState r.vault = 5 then s.winRefused r.vault
  else if r.poisoned then (s.setBit Reg.fabRwStat k true).fabInteg k 22 (s.getFab k).cycNum 0
  else s

/-- Every read of region `k` that is due by the end of cycle `n` lands. -/
def State.landDue (s : State) (k n : Nat) : State :=
  let due := s.dueReads k n
  if due.isEmpty then s
  else
    let s := s.modFab k (fun f => { f with
      win := s.landWords k n f.win, winReads := f.winReads.filter (fun r => !decide (r.since + 63 ≤ n)) })
    due.foldl (fun s r => s.landEvent r) s

/-- The edge that ends fc now + 2, in which the cycle was in effect: wire-clocked registers take their edges; registers, joints, midpoints, ports and windows take what the cycle gave them. -/
def State.fabEdge (s : State) (k : Nat) : State :=
  let s := State.wireSettle (s.wireClocked k).length s k
  let f := s.getFab k
  let cells := s.routed k
  let iso := s.penIsoAt k (f.now + 2)
  let seg := cells.foldl (fun m c => dirs.foldl (fun m d => putWord m (4 * c + d) (s.nextSeg k c d)) m) []
  let mid := cells.foldl (fun m c => dirs.foldl (fun m d =>
    putWord m (4 * c + d) (originOf (ctxLl (s.effWord k c) d) (f.cell c))) m) []
  let pen := cells.foldl (fun m c => dirs.foldl (fun m d =>
    if onEdge c d then putWord m (portOf c d) (originOf (ctxSh (s.effWord k c) d 0) (f.cell c)) else m) m) []
  (s.setFab k { f with
    cells := f.next.foldl (fun m p => Sparse.set (fun _ => {}) m p.1 p.2.cell) f.cells
    next := [], seg := seg, mid := mid, pen := if iso then f.pen else pen, parked := iso
    parkFrom := if !iso then 0 else if f.parked then f.parkFrom else f.now + 3
    win := (s.winWrites k).foldl (fun m p => putWord m p.1 p.2) f.win
    wire := (s.wireClocked k).map (fun c => (c, s.wireLevel k c))
    winDone := [], illegal := false, live := false }).landDue k f.now

/-! ### Z-bus monitors (R154) -/

/-- Show whether region `k` has a Z-bus disabled now. -/
def State.showBusOff (s : State) (k : Nat) : State :=
  s.setBit Reg.fabZbusStat (16 + k) (!(s.getFab k).busOff.isEmpty)

/-- The monitor of a bus counts `n` drivers in context `ctx`, of cells in the strips of `frames`. -/
def State.busTrip (s : State) (k bus n : Nat) (ctx : Nat) (cyc : Nat) (frames : List Nat) : State :=
  let f := s.getFab k
  let perm := f.trips.contains (bus, ctx)
  let e := (if perm then 2 ^ 29 else 0) + ctx * 2 ^ 23 + k * 2 ^ 19 + bus / 4 * 2 ^ 11 + bus % 4 * 2 ^ 9 + n % 64 * 2 ^ 3
  let s := s.insertQ Reg.fabZbusLog 16 f.now (1024 * k + bus) (BitVec.ofNat 32 e)
  let s := (s.setBit Reg.fabZbusStat k true).safEvent 0x01 (k * 2 ^ 20 + bus / 4 * 2 ^ 12 + bus % 4 * 2 ^ 10)
  let s := s.fabInteg k 19 cyc (e / 2 ^ 9 % 2 ^ 14)
  let s := s.modFab k (fun f => { f with
    trips := if perm then f.trips else (bus, ctx) :: f.trips
    busOff := { bus := bus, ctx := ctx, permanent := perm, frames := frames } :: f.busOff.filter (fun o => !(o.bus == bus && o.ctx == ctx)) })
  s.showBusOff k

/-- Every bus of the context in effect is counted, in order of block and bus, a disabled one too: what the monitors count are the
decoded enables. -/
def State.busMonitor (s : State) (k : Nat) (strays : List StrayDrive) : State :=
  let f := s.getFab k
  let bitsOn (c e : Nat) : List (Nat × Nat) := ((List.range 4).filter e.testBit).map (fun i => (4 * keyBlock c + i, c))
  let own := (s.routed k).flatMap (fun c => bitsOn c (ctxZbe (s.effWord k c)))
  let stray := strays.flatMap (fun d =>
    let c := cellKey (if d.plane then 1 else 0) d.x.toNat d.y.toNat
    bitsOn c (d.zbe.toNat &&& (15 - ctxZbe (s.effWord k c))))
  let drives := own ++ stray
  let all := drives.map Prod.fst
  let hot := (all.filter (fun b => decide (1 < all.count b))).eraseDups.mergeSort (fun a b => decide (a ≤ b))
  hot.foldl (fun s b => s.busTrip k b (all.count b) f.ctx.toNat f.cycNum
    ((drives.filter (fun d => d.1 == b)).map (fun d => frameOf k d.2 f.ctx.toNat)).eraseDups) s

/-! ### Reading a context (R163 to R165) -/

/-- Errors found by the read: a single-bit error is corrected in the word used; a double-bit error makes the cell execute NOP
with nothing driven, and queues the frame for reload (R164). -/
def State.readErrors (s : State) (k : Nat) (ups : List CtxUpset) : State :=
  let bad := ups.filter (fun u => u.double)
  let key (u : CtxUpset) : Nat := cellKey (if u.plane then 1 else 0) u.x.toNat u.y.toNat
  let s := bad.foldl (fun s u =>
    s.upsetFound (frameOf k (key u) (s.getFab k).ctx.toNat) (4 * (u.y.toNat % 16) + u.word.toNat) true) s
  let s := if bad.isEmpty then s else s.fabInteg k 20 (s.getFab k).cycNum 0
  s.modFab k (fun f => { f with dead := (bad.map key).eraseDups })

/-- The sequencer's cycle issued at fc `u`: its number and fields. -/
def State.cycleAt (s : State) (k u : Nat) : Option (Nat × Span) :=
  let x := s.getSite k
  if u < x.fc0 ∨ x.cycle ≤ u - x.fc0 then none
  else (x.spanAt (u - x.fc0)).map (fun sp => (u - x.fc0, sp))

/-- A BISTWIN holds the region in the cycle issued at `u` (R89, R115): from the edge that saved its state, two fc behind the second cycle's
issue, to the last cycle of the window, and for as long as the state is not restored. -/
def State.inBist (s : State) (k u : Nat) : Bool :=
  let x := s.getSite k
  (x.restorePending && decide (x.bistEdge ≤ u + 2)) || (match s.cycleAt k u with
    | some (n, sp) => sp.bistFrom.any (fun b => decide (b < n))
    | none => false)

/-- The context of the cycle issued at fc `u` comes into effect in region `k`, and the cycle before it ends; context 0 where
the sequencer issued none (R115). -/
def State.contextRead (s : State) (k u : Nat) (ups : List CtxUpset) (strays : List StrayDrive) (flips : List RegFlip) :
    State :=
  let s := if (s.getFab k).live then s.fabEdge k else s
  let s := s.landDue k (u - 1)
  let x := s.getSite k
  if s.inBist k u then s.modFab k (fun f => { f with
    now := u, cyc := (s.cycleAt k u).map Prod.fst, parked := true, parkFrom := if f.parked then f.parkFrom else u + 3 })
  else match s.cycleAt k u with
  | some (n, sp) =>
    let s := s.modFab k (fun f => { f with
      live := true, ctx := sp.ctx, now := u, cyc := some n, sampled := !sp.discarded && !sp.window
      sw0 := sp.sw0, sw1 := sp.sw1, num := BitVec.ofNat 32 n, dead := [], next := [] })
    finish (s.readErrors k ups)
  | none =>
    let s := s.modFab k (fun f => { f with
      live := true, ctx := 0, now := u, cyc := none, sampled := false, sw0 := s.rd (Reg.seqSw k 0)
      sw1 := s.rd (Reg.seqSw k 1), num := x.lastIssued, dead := [], next := [] })
    finish (s.readErrors k ups)
where
  /-- the monitors check, upsets of registers strike, the interface holds what it held -/
  finish (s : State) : State :=
    let s := s.busMonitor k strays
    let s := flips.foldl (fun s u => s.modFab k (fun f =>
      let c := cellKey (if u.plane then 1 else 0) u.x.toNat u.y.toNat
      if u.item.toNat < 18 then
        { f with cells := Sparse.set (fun _ => {}) f.cells c ((f.cell c).flip u.item.toNat u.mask) }
      else f)) s
    s.sampleIfc k

/-! ### What one cell does (R114 to R137) -/

/-- A residue mismatch of cell `c` (R131): logged, counted, recorded, its column queued. -/
def State.residueEvent (s : State) (k c kind item : Nat) : State :=
  let f := s.getFab k
  let col := s.physCol k (keyPlane c) (keyX c)
  let e := kind * 2 ^ 29 + f.ctx.toNat * 2 ^ 23 + k * 2 ^ 19 + keyPlane c * 2 ^ 18 + col * 2 ^ 11 + keyY c * 2 ^ 5 + item
  let ord := ((2 * k + keyPlane c) * 128 + col) * 64 + keyY c
  let s := s.insertQ Reg.fabResLog 64 f.now ord (BitVec.ofNat 32 e)
  let s := (s.setBit Reg.fabCellStat k true).satAdd (Reg.fabResCount k) 0 16 1
  (s.fabInteg k 17 f.cycNum 0).queueColumn k (keyPlane c) col

/-- The storage check of a source (R130); a wire-clocked o0 is excluded (R137). -/
def State.storageCheck (s : State) (k c : Nat) (src : Source) : State :=
  match src.item with
  | some i => if src.res = src.val.toNat % 3 ∨ (i = 16 ∧ ctxWclk (s.effWord k c)) then s else s.residueEvent k c 0 i
  | none => s

/-- The storage checks of what a cell reads in one cycle: a register read twice gives one entry (R131). -/
def State.storageChecks (s : State) (k c : Nat) (a b : Source) : State :=
  let s := s.storageCheck k c a
  if b.item = a.item then s else s.storageCheck k c b

/-- An illegal instruction of the region in this cycle (R129): recorded once a cycle of a running site. -/
def State.illegalCell (s : State) (k : Nat) : State :=
  let f := s.getFab k
  let s := s.setBit Reg.fabCellStat (16 + k) true
  if f.illegal then s else (s.fabInteg k 18 f.cycNum 0).modFab k (fun f => { f with illegal := true })

/-- The injection of R142 is armed at cell `c`. -/
def State.injectedAt (s : State) (k c : Nat) : Bool :=
  let a := Reg.fabResInject
  s.bit a 31 && s.fld a 19 4 == k && s.fld a 18 1 == keyPlane c && s.fld a 5 6 == keyY c
    && s.logCol k (keyPlane c) (s.fld a 11 7) == some (keyX c)

/-- Cell `c` has executed and ends the cycle as `x`. -/
def State.cellDone (s : State) (k c : Nat) (x : Cell) (wroteO1 : Bool) : State :=
  (s.modFab k (fun f => { f with next := (c, { cell := x, wroteO1 := wroteO1 }) :: f.next })).sampleIfc k

/-- Cell `c` has not executed in the cycle in effect, and its instruction is `i`. -/
def State.cellReady (s : State) (k c : Nat) (i : BitVec 48) : Bool :=
  let f := s.getFab k
  f.live && s.fabRuns k && !f.next.any (fun p => p.1 == c) && !s.inSlice k c && ctxInstr (s.effWord k c) == i

/-- The operands and flags a cell's ALU computes from. -/
def State.aluIn (s : State) (k c : Nat) (i : BitVec 48) : AluIn :=
  let a := s.source k c (cellSrcA i) (cellImm i)
  let b := s.source k c (cellSrcB i) (cellImm i)
  let x := (s.getFab k).cell c
  { a := a.val, b := b.val, ra := a.res, rb := b.res, c := x.c, z := x.z, n := x.n, v := x.v, imm := cellImm i }

/-- The instruction executes under its fctl field (R117). -/
def cellExecutes (i : BitVec 48) (inp : AluIn) : Bool :=
  match cellFctl i with
  | 2 => inp.flag (cellPf i)
  | 3 => !inp.flag (cellPf i)
  | _ => true

/-- The cell after an executed instruction (R114, R117, R118, R132, R136). -/
def Cell.writeBack (x : Cell) (i : BitVec 48) (w : BitVec 256) (o : Alu) : Cell :=
  let x := if cellFctl i = 1 then { x with c := o.c, v := o.v, z := o.zn == 0, n := o.zn.msb } else x
  let x := if cellWr i then x.put (cellDst i) o.r else x
  let y := if cellO0e i && !ctxWclk w then x.put 16 o.r else x
  if cellO1e i then y.put 17 (if ctxO1sel w then x.flags else o.r) else y

/-- The result check (R130, R142). -/
def State.resultCheck (s : State) (k c : Nat) (o : Alu) : State :=
  match o.pred with
  | some p =>
    let inj := s.injectedAt k c
    let s := if inj then s.setBit Reg.fabResInject 31 false else s
    if inj || p != o.zn.toNat % 3 then s.residueEvent k c 1 0x1F else s
  | none => s

/-- Cell (x, y) executes instruction `i` of opcode `op` in the cycle in effect, computing with `f`; `sub` is its
sub-operation where the opcode has several. `err` are the result bits that a fault of the ALU inverts: none in a sound
cell. -/
def State.cellExec (s : State) (k : SiteIx) (plane : Bool) (x y : BitVec 6) (i : BitVec 48) (err : Word) (op : Nat)
    (sub : Option Nat) (f : AluIn → Alu) : State :=
  let c := cellKey (if plane then 1 else 0) x.toNat y.toNat
  let w := s.effWord k c
  if !s.cellReady k c i || ctxSrm w || !cellLegal i || cellOp i != op || !(sub == none || sub == some (cellSub i)) then s
  else
    let inp := s.aluIn k c i
    let a := s.source k c (cellSrcA i) (cellImm i)
    let s := s.storageChecks k c a (if cellUsesB op (cellSub i) then s.source k c (cellSrcB i) (cellImm i) else a)
    if cellExecutes i inp then
      let o := f inp
      let o := { o with r := o.r ^^^ err, zn := o.zn ^^^ err }
      (s.resultCheck k c o).cellDone k c (((s.getFab k).cell c).writeBack i w o) (cellO1e i)
    else s.cellDone k c ((s.getFab k).cell c) false

/-- A NOP, or an illegal instruction executing as one (R120, R129). -/
def State.cellNop (s : State) (k : SiteIx) (plane : Bool) (x y : BitVec 6) (i : BitVec 48) : State :=
  let c := cellKey (if plane then 1 else 0) x.toNat y.toNat
  if !s.cellReady k c i || ctxSrm (s.effWord k c) then s
  else if !cellLegal i then (s.illegalCell k).cellDone k c ((s.getFab k).cell c) false
  else if cellOp i = 0 then s.cellDone k c ((s.getFab k).cell c) false
  else s

/-- The line after one shift in word mode: every stage's code moves with its value (R133, R135). -/
def Cell.shiftWord (x : Cell) (a : Word) (ra tap : Nat) : Cell :=
  let line := x.res.extractLsb' 0 32
  { x with
    w := (x.w <<< 32) ||| a.setWidth 512, o0 := x.reg tap
    res := (((line <<< 2) ||| BitVec.ofNat 32 (ra % 4)).setWidth 36) |||
      (BitVec.ofNat 36 (x.code tap) <<< 32) ||| (BitVec.ofNat 36 (x.code 17) <<< 34) }

/-- The codes of the line and of o0 are generated from their values; o1 is no stage and keeps its own (R133, R135). -/
def Cell.recode (x : Cell) : Cell := (List.range 17).foldl (fun y i => y.setCode i ((x.item i).toNat % 3)) x

/-- The line after one shift in bit mode (R133). -/
def Cell.shiftBit (x : Cell) (a : Word) (tap : Nat) : Cell :=
  Cell.recode { x with
    w := (x.w <<< 1) ||| (if a.getLsbD 0 then 1 else 0), o0 := if x.w.getLsbD tap then 1 else 0 }

/-- A cycle of a shift-register context (R129, R133, R135). -/
def State.cellShift (s : State) (k : SiteIx) (plane : Bool) (x y : BitVec 6) (i : BitVec 48) (bitMode : Bool) : State :=
  let c := cellKey (if plane then 1 else 0) x.toNat y.toNat
  let w := s.effWord k c
  if !s.cellReady k c i || !ctxSrm w || ctxSrb w != bitMode then s
  else if !cellLegalSr bitMode i then (s.illegalCell k).cellDone k c ((s.getFab k).cell c) false
  else
    let a := s.source k c (cellSrcA i) (cellImm i)
    let old := (s.getFab k).cell c
    let tap := cellImm i
    if bitMode then s.cellDone k c (old.shiftBit a.val tap) false
    else
      let s := s.storageChecks k c a { val := old.reg tap, res := old.code tap, item := some tap }
      s.cellDone k c (old.shiftWord a.val a.res tap) false

/-! ### Row windows (R157 to R161) -/

/-- The window of vault `j` of region `k`, as bytes, at the end of the cycle in effect (R160). -/
def State.winBytes (s : State) (k j : Nat) : List Byte :=
  let win := s.winAfter k
  (List.range 512).flatMap (fun w => leBytes 4 (Sparse.get (fun _ => (0 : Word)) win (512 * j + w)).toNat)

/-- Fill the window of vault `j` of region `k` from the bytes of a row. -/
def State.winFill (s : State) (k j : Nat) (data : List Byte) : State :=
  let words := (List.range 512).map (fun w => BitVec.ofNat 32 (ofLe ((data.drop (4 * w)).take 4)))
  s.modFab k (fun f => { f with win := Sparse.setList (fun _ => 0) f.win (512 * j) words })

/-- The control cell of vault `j` in its region's F0 (R157). -/
def ctlCellOf (j : Nat) : Nat := cellKey 0 (16 * (j % 4) + 15) (16 * (j / 4) + 15)

/-- The request word that the control cell of vault `v` has written in the cycle in effect (R146, R159). -/
def State.winRequest (s : State) (v : Nat) : Option Word :=
  let k := v / 16
  let c := ctlCellOf (v % 16)
  let f := s.getFab k
  if !f.live || !s.fabRuns k || f.winDone.contains v || !ctxRwreq (s.effWord k c) then none
  else match f.next.find? (fun p => p.1 == c) with
    | some p => if p.2.wroteO1 then some p.2.cell.o1 else none
    | none => none

/-- The conditions of R161 for request word `w` of vault `v`. -/
def State.winMayRequest (s : State) (v : Nat) (w : Word) : Bool :=
  let k := v / 16
  let f := s.getFab k
  let close := match f.winLast.find? (fun p => p.1 == v) with
    | some p => decide (f.now < p.2 + 16)
    | none => false
  fldOf w 30 2 != 3 && fldOf w 22 8 == 0 && !close && !Dram.reserved v (fldOf w 0 22) && !s.penIso k

/-- A request of kind `op` (1 read, 2 write) by the window of vault `v`; a reserved op is refused. The vault records a reserved row
(R267). -/
def State.winCommand (s : State) (v op : Nat) : State :=
  let k := v / 16
  match s.winRequest v with
  | none => s
  | some w =>
    if fldOf w 30 2 ≠ op ∧ fldOf w 30 2 ≠ 3 then s
    else
      let s0 := s.modFab k (fun f => { f with winDone := v :: f.winDone })
      if !s.winMayRequest v w then
        let t := s0.winRefused v
        if Dram.reserved v (fldOf w 0 22) && fldOf w 30 2 == op then t.setBit (Reg.vltEvt v) 7 true else t
      else
        let row := fldOf w 0 22
        let taken (s : State) : State := s.modFab k (fun f =>
          { f with winLast := (v, f.now) :: f.winLast.filter (fun p => p.1 != v) })
        if op = 1 then
          let read (d : List Byte) (p : Bool) (t : State) : State :=
            (taken t).modFab k (fun f => { f with
              winReads := f.winReads ++ [{ vault := v, since := f.now, data := d, poisoned := p }] })
          match s0.readRow v row srcWindow with
          | (t, .ok d) => read d false t
          | (t, .poisoned d) => read d true t
          | (t, .refused _) => t.winRefused v
        else
          match s0.writeWhole v row (s.winBytes k (v % 16)) with
          | (t, true) => taken t
          | (t, false) => t.winRefused v

/-- The row read by the window of vault `v` lands (R160): cycle t + 63, in effect, ends, and the region's other cells with it; a region
that executes nothing takes the row once that fc has passed. -/
def State.winLand (s : State) (v : Nat) : State :=
  let k := v / 16
  let f := s.getFab k
  match f.winReads.find? (fun r => r.vault == v) with
  | none => s
  | some r =>
    if f.live then (if f.now = r.since + 63 then s.fabEdge k else s)
    else if r.since + 66 ≤ s.fc then s.landDue k (r.since + 63)
    else s

end Sys2Proof.Machine
end

