-- ==== Sys2Proof/Machine/LoaderOps.lean ====
section
/-! DEFINITION. Shared operations of the configuration controller (10): CRCs, the image header and its checks, sections and
frame records, holding and releasing regions, what a rejection leaves, and the internal configuration ports. -/

namespace Sys2Proof.Machine

/-! ### CRCs (R305) -/

def crc64Bits : Nat → Nat → Nat
  | 0, c => c
  | n + 1, c => crc64Bits n (if c.testBit 63 then (c * 2 % 2 ^ 64) ^^^ 0x42F0E1EBA9EA3693 else c * 2 % 2 ^ 64)

/-- CRC-64 (ECMA-182) of more bytes. -/
def crc64 (c : Nat) (l : List Byte) : Nat := l.foldl (fun c b => crc64Bits 8 (c ^^^ (b.toNat * 2 ^ 56))) c

def crc32Bits : Nat → Nat → Nat
  | 0, c => c
  | n + 1, c => crc32Bits n (if c % 2 = 1 then (c / 2) ^^^ 0x82F63B78 else c / 2)

/-- CRC-32C of a list of bytes. -/
def crc32c (l : List Byte) : Nat := (l.foldl (fun c b => crc32Bits 8 (c ^^^ b.toNat)) 0xFFFFFFFF) ^^^ 0xFFFFFFFF

/-! ### Bytes of flash and scratchpad -/

/-- Little-endian number at offset `o` of a list of bytes. -/
def leAt (l : List Byte) (o n : Nat) : Nat := ofLe ((l.drop o).take n)

def zeroAt (l : List Byte) (o n : Nat) : Bool := ((l.drop o).take n).all (· == 0)

def State.flashBytes (s : State) (a n : Nat) : List Byte := Sparse.getList Config.factoryFlash s.flash a n
def State.flashPut (s : State) (a : Nat) (l : List Byte) : State :=
  { s with flash := Sparse.setList Config.factoryFlash s.flash a l }

/-- The production data (R383). -/
def State.production (s : State) : List Byte := s.flashBytes 0x210000 0x10000

def State.spdBytes (s : State) (a n : Nat) : List Byte := Sparse.getList (fun _ => 0) s.host.spd a n
def State.spdPut (s : State) (a : Nat) (l : List Byte) : State :=
  { s with host := { s.host with spd := Sparse.setList (fun _ => 0) s.host.spd a l } }

/-- The words read had single-bit errors or a double-bit error (R374, R376). -/
def State.spdChecked (s : State) (o : SpdObs) : State :=
  let s := if o.singles = 0 then s else s.satAdd Reg.spdEcc 0 16 o.singles
  if o.double then s.setBit Reg.spdEvt 1 true else s

/-- What the checks of the scratchpad words in `n` bytes report where no operand says it: a free value. -/
def State.freeObs (s : State) (n : Nat) : SpdObs :=
  { singles := (Config.freeWord s.free).toNat % (n / 8 + 1), double := Config.freeBit s.free
    flip := (List.range n).map (fun i => Config.freeByte (s.free * 2 ^ 48 + i)) }

/-- Bytes as a double-bit error delivers them. -/
def flipBytes (o : SpdObs) (l : List Byte) : List Byte :=
  if o.double then l.mapIdx (fun i b => b ^^^ o.flip.getD i 0) else l

/-- The public key of a valid, unrevoked entry of the key table with a flag: bit 2 image key, bit 3 firmware key (R385). -/
def State.keyOf (s : State) (id flag : Nat) : Option (List Byte) :=
  ((List.range 16).map (fun i => s.flashBytes (0x200000 + 128 * i) 128)).findSome? (fun e =>
    let f := (e.getD 2 0).toNat
    if leAt e 0 2 = id ∧ f.testBit 0 ∧ !f.testBit 1 ∧ f.testBit flag then some ((e.drop 32).take 96) else none)

/-! ### CFG_STATUS (R326) -/

def ldIdle : Nat := 0
def ldHeader : Nat := 1
def ldSections : Nat := 2
def ldFrames : Nat := 3
def ldBody : Nat := 4
def ldWrite : Nat := 5
def ldRelease : Nat := 6
def ldDrop : Nat := 7

def State.loadState (s : State) : Nat := s.fld Reg.cfgStatus 28 4
def State.setLoadState (s : State) (c : Nat) : State := s.setFld Reg.cfgStatus 28 4 c

/-- A load is in progress: an image is being taken, checked, written or released. -/
def State.loading (s : State) : Bool := s.loadState != ldIdle && s.loadState != ldDrop

def State.modLoad (s : State) (f : Loader → Loader) : State := { s with ctl := { s.ctl with load := f s.ctl.load } }

/-- The PX2048-E has no signature checks (R3). -/
def State.variantE (s : State) : Bool := s.fld Reg.glbVariant 0 4 == 1

/-! ### The header (R301, R302) -/

/-- The section table: (type, offset, length) of its entries before the first all-zero one. -/
def sectionTable (h : List Byte) : List (Nat × Nat × Nat) :=
  ((List.range 8).map (fun i => (leAt h (0x40 + 16 * i) 2, leAt h (0x40 + 16 * i + 4) 4, leAt h (0x40 + 16 * i + 8) 4))).takeWhile
    (fun e => e != (0, 0, 0))

/-- The length R302 gives a section of type `t`; none where it is free within its bound. -/
def sectionLength (t n frames : Nat) : Option Nat :=
  match t with
  | 1 => some 16
  | 2 => some (16 * n)
  | 3 => some (64 * n)
  | 4 => some (128 * n)
  | 6 => some (32 * frames)
  | 7 => some (520 * frames)
  | _ => none

/-- The sections lie one after the other from offset `o` to the end of the body. -/
def contiguous : Nat → Nat → List (Nat × Nat × Nat) → Bool
  | o, len, [] => o == len
  | o, len, (_, a, n) :: l => a == o && contiguous (o + n) len l

def ascending : List Nat → Bool
  | [] => true
  | [_] => true
  | a :: b :: l => decide (a < b) && ascending (b :: l)

/-- The section table follows R302. -/
def sectionsOk (h : List Byte) (full : Bool) (n frames bodyLen : Nat) : Bool :=
  let t := sectionTable h
  let types := t.map (fun e => e.1)
  let need := if full then [1, 2, 3, 4, 6, 7] else [2, 4, 6, 7]
  ascending types && types.all (fun x => decide (1 ≤ x) && decide (x ≤ 7)) && need.all types.contains
    && contiguous 0 bodyLen t
    && t.all (fun e => match sectionLength e.1 n frames with
      | some len => e.2.2 == len
      | none => e.2.2 % 8 == 0 && decide (e.2.2 ≤ 2 ^ 24))
    && (List.range 8).all (fun i => zeroAt h (0x42 + 16 * i) 2 && zeroAt h (0x4C + 16 * i) 4
      && (decide (i < t.length) || zeroAt h (0x40 + 16 * i) 16))

def onesIn (m : Nat) : List Nat := (List.range 16).filter m.testBit

/-- Check 8 of R308. -/
def headerShape (h : List Byte) : Bool :=
  let ty := leAt h 0x10 1
  let regions := leAt h 0x12 2
  let n := (onesIn regions).length
  let frames := leAt h 0x14 4
  let flags := leAt h 0xE00 2
  let key := leAt h 0xE02 2
  (ty == 1 || ty == 2)
    && (if ty = 1 then regions == 0xFFFF && frames == 524288
        else regions != 0 && decide (1 ≤ frames) && decide (frames ≤ 32768 * n))
    && zeroAt h 0x11 1 && zeroAt h 0x30 16 && zeroAt h 0xC0 3392 && zeroAt h 0xE04 12 && zeroAt h 0xE70 396
    && decide (flags < 2) && (if flags = 1 then key != 0 && key != 0xFFFF else key == 0)
    && sectionsOk h (ty == 1) n frames (leAt h 0x18 4)

/-- The first check of R308 that header `h` fails, as its code. DESIGN CHOICE (log entry 83): while an accepted transition out of READY is
in progress, the mode counts as left. -/
def State.headerCode (s : State) (h : List Byte) : Option Nat :=
  let full := leAt h 0x10 1 == 1
  let regions := onesIn (leAt h 0x12 2)
  let signed := (leAt h 0xE00 2) % 2 == 1
  let staged := !full && s.fldAct Reg.cfgCfg 0 1 == 0
  let modeOk := s.aon.target.isNone && if full then s.mode == modeLOAD || s.mode == modeREADY
    else (s.mode == modeREADY || s.mode == modeRUN) && s.cfgValid
  if !s.bit Reg.glbStartup 7 then some 0x01
  else if s.bit Reg.glbStartup 8 then some 0x02
  else if !modeOk then some 0x13
  else if crc32c (h.take 0xFFC) ≠ leAt h 0xFFC 4 then some 0x03
  else if h.take 4 ≠ [0x50, 0x52, 0x58, 0x42] ∨ leAt h 5 1 ≠ 1 ∨ leAt h 6 2 ≠ 0x1000 then some 0x04
  else if leAt h 8 2 ≠ 0x5058 ∨ leAt h 0xA 2 ≠ 0x2048 ∨ !(leAt h 0xC 4).testBit (s.fld Reg.glbVariant 8 4) then some 0x05
  else if leAt h 0x1C 4 ≠ 0x40244010 then some 0x06
  else if !headerShape h then some 0x07
  else if !s.variantE && !signed && (s.bit Reg.glbVariant 4 || s.fldAct Reg.cfgCfg 1 1 == 1) then some 0x08
  else if !s.variantE && signed && (s.keyOf (leAt h 0xE02 2) 2).isNone then some 0x09
  else if !(List.range 16).all (fun j => s.vltState (240 + j) == 2) then some 0x17
  else if !full && !regions.all (fun k => (s.siteState k == 0 || s.siteState k == 3)
      && s.regState k != regLoading && s.regState k != regSession) then some 0x12
  else if staged && decide (s.fldAct Reg.cfgStageLen 0 32 < 4096 + leAt h 0x18 4) then some 0x14
  else none

def State.parseHeader (s : State) (h : List Byte) : ImgHdr :=
  let full := leAt h 0x10 1 == 1
  { full := full, staged := !full && s.fldAct Reg.cfgCfg 0 1 == 0, regions := BitVec.ofNat 16 (leAt h 0x12 2)
    frames := leAt h 0x14 4, bodyLen := leAt h 0x18 4, sections := sectionTable h
    bodyCrc := BitVec.ofNat 64 (leAt h 0x28 8), build := BitVec.ofNat 64 (leAt h 0x20 8)
    signed := leAt h 0xE00 2 % 2 == 1, key := BitVec.ofNat 16 (leAt h 0xE02 2), sig := (h.drop 0xE10).take 96
    stage := s.fldAct Reg.cfgStageBase 0 32 }

def ImgHdr.regionList (h : ImgHdr) : List Nat := onesIn h.regions.toNat

/-! ### Holding and releasing regions (R47 to R49, R309, R311) -/

/-- Codes of the ports of a park section of 128 bytes: port q of edge e in plane p (R302). -/
def parkCodes (park : BitVec 1024) : List (Nat × BitVec 2) :=
  (List.range 512).foldl (fun m i =>
    let e := i / 128
    let p := i / 64 % 2
    Sparse.set (fun _ => (0 : BitVec 2)) m i (park.extractLsb' (8 * (16 * (2 * e + p)) + 2 * (i % 64)) 2)) []

/-- Region `k` is held at its initial values, and nothing of it executes; a slice in it is aborted (R462). Its ports are isolated from the
edge that ends this fc. -/
def State.holdRegion (s : State) (k : Nat) (init : List (Nat × Word)) : State :=
  ((s.setInuse k 0).abortSlice k).modFab k (fun f => ({ f with
    held := true, parked := true, parkFrom := if f.parked then f.parkFrom else s.fc + 2, init := init } : Fabric).restart)

/-- A load of region `k` cancels a pending residue injection there (R142). -/
def State.cancelInject (s : State) (k : Nat) : State :=
  let a := Reg.fabResInject
  if s.bit a 31 && s.fld a 19 4 == k then s.setBit a 31 false else s

/-- The region's state in CFG_REGION once no load covers it. -/
def State.showRegion (s : State) (k : Nat) : State :=
  let x := s.getSite k
  s.setRegState k (if x.isoIncomplete then regIncomplete else if x.isoGolden then regLost
    else if x.isoForced then regForced else if x.icpSession then regSession else regConfigured)

/-- A load of region `k` ends what its Z-bus monitors have disabled, for good or not (R154). -/
def State.busLoaded (s : State) (k : Nat) : State := (s.modFab k (fun f => { f with trips := [], busOff := [] })).showBusOff k

/-- Install what an image gave region `k` but its in-use mask: rmode, park values, lane map, power class, initial values. -/
def State.installRegion (s : State) (k : Nat) (c : RegionCfg) : State :=
  let s := s.setBit (Reg.cfgRegion k) 28 c.rmode
  let s := s.modFab k (fun f => { f with park := parkCodes c.park, init := c.init })
  let s := s.modSite k (fun x => { x with
    lmap := match c.lmap with | some m => some m | none => x.lmap
    pclass := c.pclass.getD x.pclass })
  s.countWclk k c.inuse.toNat

def State.getIcp (s : State) (k : Nat) : Icp := Sparse.get (fun _ => {}) s.ctl.icp k
def State.setIcp (s : State) (k : Nat) (p : Icp) : State :=
  { s with ctl := { s.ctl with icp := Sparse.set (fun _ => {}) s.ctl.icp k p } }

/-- Region `k` is released after a load that covers it (R48, R311, R318): the in-use mask is the image's, user flip-flops start at their
initial values, and the lanes change from PARK to IDLE. -/
def State.releaseRegion (s : State) (k : Nat) : State :=
  let c := Sparse.get (fun _ => ({} : RegionCfg)) s.ctl.goldenCfg k
  let s := (s.setInuse k c.inuse.toNat).modFab k (fun f => ({ f with held := false } : Fabric).restart)
  let s := s.modSite k (fun x => { x with
    reconf := false, isoIncomplete := false, isoGolden := false, lastIssued := 0, parkReason := 0 })
  let s := s.setIcp k { s.getIcp k with tog := false }
  ((s.debtClear k).showRegion k).followSite k

/-- The outcome of a load in CFG_STATUS, and the stream position back at 0 for one that completes (R307, R326). -/
def State.loadComplete (s : State) : State :=
  let s := (s.setFld Reg.cfgStatus 24 2 1).setLoadState ldIdle
  let s := { s with host := { s.host with staging := false } }
  s.modLoad (fun _ => {})

/-! ### Rejection (R307, R323) -/

/-- A region of a load that stopped in its write phase: INCOMPLETE and isolated (R313). -/
def State.leaveIncomplete (s : State) (k : Nat) : State :=
  let s := s.setBit (Reg.cfgRegion k) 27 false
  let s := s.modSite k (fun x => { x with reconf := false, isoIncomplete := true })
  (s.showRegion k).followSite k

/-- The controller refuses the image with a code of R323, or aborts the load with 0x15: what each kind of load leaves, and the
sink drops writes until it is reset. -/
def State.loadReject (s : State) (code : Nat) : State :=
  let writing := s.loadState == ldWrite
  let s1 := match s.ctl.load.hdr with
    | none => s
    | some h =>
      if h.full then
        let s := s.setBit Reg.glbMode 5 false
        h.regionList.foldl (fun s k => (s.setBit (Reg.cfgRegion k) 27 false).setRegState k 0) s
      else if !h.staged || writing then h.regionList.foldl (fun s k => s.leaveIncomplete k) s
      else s
  let s := ((s1.setFld Reg.cfgStatus 24 2 (if code = 0x15 then 3 else 2)).setFld Reg.cfgStatus 16 8 code).setLoadState ldDrop
  let s := { s with host := { s.host with staging := false } }
  s.modLoad (fun l => { pos := l.pos })

/-- Abort the load in progress (R325, R36, R52). -/
def State.loadAbort (s : State) : State := if s.loading then s.loadReject 0x15 else s

/-! ### The image sink (R306, R307) -/

/-- A write of `data` at sink offset `off`. While an accepted body is checked, written or released the sink holds writes back; every write it
takes or drops counts in the host's key window (R16). -/
def State.sinkWrite (s : State) (off : Nat) (data : List Byte) : State :=
  if !s.busUp ∨ data = [] then s
  else
    let st := s.loadState
    if st = ldBody ∨ st = ldWrite ∨ st = ldRelease then s
    else
      let s := s.txn 0
      if st = ldDrop then s.satAdd Reg.cfgSinkDrop 0 32 1
      else if off ≠ s.ctl.load.pos % 2 ^ 28 then s.loadReject 0x16
      else
        let s := if st = ldIdle then s.setLoadState ldHeader else s
        s.modLoad (fun l => { l with buf := l.buf ++ data, pos := l.pos + data.length, lastWrite := s.tsc.toNat })

/-! ### Taking the body (R302, R309) -/

/-- Take `n` bytes off the buffer: they count in the body CRC and the signature, and a staged image is copied (R312). -/
def State.takeBody (s : State) (n : Nat) : State :=
  let l := s.ctl.load
  let b := l.buf.take n
  let off := (l.msg.length - 0xE00) + 4096
  let s := match l.hdr with
    | some h => if h.staged then s.spdPut (h.stage + off) b else s
    | none => s
  s.modLoad (fun l => { l with buf := l.buf.drop n, crc := BitVec.ofNat 64 (crc64 l.crc.toNat b), msg := l.msg ++ b })

/-- A lane map of 64 bytes: bit 6 clear, and no two mapped channels on one lane and position. -/
def laneMapOk (m : List Byte) : Bool :=
  let used := m.filterMap (fun b => if b.getLsbD 7 then some (b.toNat % 64) else none)
  m.all (fun b => !b.getLsbD 6) && used.eraseDups.length == used.length

def bytesVec (n : Nat) (l : List Byte) : BitVec n := BitVec.ofNat n (ofLe l)

/-- The entries of a register initial values section: (location, value). -/
def initEntries (l : List Byte) : List (Nat × Word) :=
  (List.range (l.length / 8)).map (fun i => (leAt l (8 * i) 4, BitVec.ofNat 32 (leAt l (8 * i + 4) 4)))

/-- A section of type `t` is invalid (R302, R323 code 0x11). -/
def sectionBad (t : Nat) (regions : List Nat) (b : List Byte) : Bool :=
  let n := regions.length
  let part (w i : Nat) : List Byte := (b.drop (w * i)).take w
  match t with
  | 1 => (List.range 16).any (fun k => if regions.contains k then decide (15 < (b.getD k 0).toNat) else b.getD k 0 != 0)
  | 2 => (List.range n).any (fun i => decide (1 < ((part 16 i).getD 8 0).toNat) || !zeroAt (part 16 i) 9 7)
  | 3 => (List.range n).any (fun i => !laneMapOk (part 64 i))
  | 4 => (List.range (n * 512)).any (fun i => (b.getD (i / 4) 0).toNat / 4 ^ (i % 4) % 4 == 3)
  | 5 =>
    let es := initEntries b
    !ascending (es.map Prod.fst) || es.any (fun e => e.1 % 1024 != 0 || decide (0x12 < e.1 / 1024 % 32)
      || !regions.contains (e.1 / 2 ^ 28))
  | _ => false

def Loader.cfgOf (l : Loader) (k : Nat) : RegionCfg := Sparse.get (fun _ => {}) l.cfg k
def Loader.setCfg (l : Loader) (k : Nat) (c : RegionCfg) : Loader := { l with cfg := Sparse.set (fun _ => {}) l.cfg k c }

/-- Cell and item of a register initial value location (R302). -/
def initKey (loc : Nat) : Nat := 32 * cellKey (loc / 2 ^ 27 % 2) (loc / 2 ^ 21 % 64) (loc / 2 ^ 15 % 64) + loc / 2 ^ 10 % 32

/-- Keep what section `t` says of each region. -/
def Loader.keep (l : Loader) (t : Nat) (regions : List Nat) (b : List Byte) : Loader :=
  let part (w i : Nat) : List Byte := (b.drop (w * i)).take w
  match t with
  | 1 => regions.foldl (fun l k => l.setCfg k { l.cfgOf k with pclass := some (b.getD k 0).toNat }) l
  | 2 => regions.zipIdx.foldl (fun l p => l.setCfg p.1 { l.cfgOf p.1 with
      inuse := bytesVec 64 ((part 16 p.2).take 8), rmode := (part 16 p.2).getD 8 0 == 1 }) l
  | 3 => regions.zipIdx.foldl (fun l p => l.setCfg p.1 { l.cfgOf p.1 with lmap := some (bytesVec 512 (part 64 p.2)) }) l
  | 4 => regions.zipIdx.foldl (fun l p => l.setCfg p.1 { l.cfgOf p.1 with park := bytesVec 1024 (part 128 p.2) }) l
  | 5 => regions.foldl (fun l k => l.setCfg k { l.cfgOf k with
      init := ((initEntries b).filter (fun e => e.1 / 2 ^ 28 == k)).map (fun e => (initKey e.1, e.2)) }) l
  | 6 => { l with rel := (List.range (b.length / 32)).map (fun i => bytesVec 256 (part 32 i)) }
  | _ => l

/-- The staged bytes of frame `g` of this load. -/
def State.stagedFrame (s : State) (h : ImgHdr) (g : Nat) : List Byte :=
  let done := s.ctl.load.done
  let i := done.length - 1 - done.idxOf g
  let o := h.bodyLen - 520 * h.frames
  s.spdBytes (h.stage + 4096 + o + 520 * i + 8) 512

/-- The frame records of this load before `f` is written: their data, for the staged ones from the staging area. -/
def State.loadedFrame (s : State) (h : ImgHdr) (g : Nat) : Option (BitVec 4096) :=
  let done := s.ctl.load.done
  if done.contains g then
    if h.staged then some (bytesVec 4096 (s.stagedFrame h g))
    else some (s.getFrame g)
  else if h.full then none
  else some (s.getFrame g)

/-- The per-frame check that a record fails, in order (R323). -/
def State.frameCode (s : State) (h : ImgHdr) (r : List Byte) : Option Nat :=
  let l := s.ctl.load
  let a := leAt r 0 4
  if crc32c (r.take 4 ++ r.drop 8) ≠ leAt r 4 4 then some 0x0C
  else match frameIndex a with
    | none => some 0x0D
    | some f =>
      let d := bytesVec 4096 (r.drop 8)
      if !h.regions.getLsbD (f / 32768) then some 0x0D
      else if l.last.any (fun p => decide (a ≤ p)) || decide (h.frames ≤ l.done.length) then some 0x0E
      else if frameRefused f d then some 0x0F
      else if busConflict f d (s.loadedFrame h) then some 0x10
      else none

/-- Write a frame into the context layer and the golden copy with its relevance bits (R309, R311). A full load writes every golden row
whole: the last of the four frames of a row clears its poison (R278). -/
def State.writeFrame (s : State) (f : Nat) (d : BitVec 4096) (rel : BitVec 256) (full : Bool := false) : State :=
  let s := (s.putFrame f d).putGolden f d rel
  if full && f % 4 == 3 then s.goldenClean f else s

/-- The partial load's regions are held from the start of its write phase (R311). -/
def State.holdPartial (s : State) (h : ImgHdr) : State :=
  h.regionList.foldl (fun s k =>
    let s := ((s.modSite k (fun x => { x with reconf := true })).holdRegion k (s.ctl.load.cfgOf k).init).cancelInject k
    (s.setRegState k regLoading).followSite k) s

/-- The write phase of a partial load is complete: every region of it is released (R311). -/
def State.partialRelease (s : State) (h : ImgHdr) : State :=
  let l := s.ctl.load
  let s := h.regionList.foldl (fun s k =>
    let c := l.cfgOf k
    let old := Sparse.get (fun _ => ({} : RegionCfg)) s.ctl.goldenCfg k
    let g : RegionCfg := { c with
      lmap := (match c.lmap with | some m => some m | none => old.lmap)
      pclass := (match c.pclass with | some p => some p | none => old.pclass) }
    let s := { s with ctl := { s.ctl with goldenCfg := Sparse.set (fun _ => {}) s.ctl.goldenCfg k g } }
    (((s.installRegion k c).busLoaded k).setBit (Reg.cfgRegion k) 27 true).releaseRegion k) s
  s.loadComplete

/-- The body is accepted (R309 steps 4 and 5, R312): a full load is installed and waits for its release, a staged one enters its
write phase, a streamed one is complete. -/
def State.bodyAccepted (s : State) (h : ImgHdr) : State :=
  if h.full then
    let l := s.ctl.load
    let s := s.wr64 Reg.cfgBuildLo h.build.toNat
    let s := h.regionList.foldl (fun s k =>
      let c := l.cfgOf k
      let s := { s with ctl := { s.ctl with goldenCfg := Sparse.set (fun _ => {}) s.ctl.goldenCfg k c } }
      ((s.installRegion k c).busLoaded k).setBit (Reg.cfgRegion k) 27 true) s
    let s := (s.setBit Reg.glbMode 5 true).setLoadState ldRelease
    s.modLoad (fun l => { l with accepted := some s.fc })
  else if h.staged then (s.holdPartial h).setLoadState ldWrite
  else s.partialRelease h

/-! ### Internal configuration ports (R314 to R317) -/

def icpOp (w : Word) : Nat := fldOf w 28 3
def icpTarget (w : Word) : Nat := fldOf w 24 4
def icpContext (w : Word) : Nat := fldOf w 5 6

/-- The command and argument words the port of region `k` samples at the end of the fc, when they hold a command to take. -/
def State.icpSample (s : State) (k : Nat) : Option (Word × Word) :=
  let f := s.getFab k
  let w := (f.after (cellKey 0 39 31)).o0
  let a := (f.after (cellKey 0 40 31)).o0
  if f.live && s.fabRuns k && icpOp w != 0 && w.getLsbD 31 != (s.getIcp k).tog then some (w, a) else none

/-- The frame a WRITE names. -/
def icpFrame (w : Word) : Nat :=
  32768 * icpTarget w + 16384 * fldOf w 19 1 + 256 * fldOf w 13 6 + 64 * fldOf w 11 2 + icpContext w

/-- Bits of the words that must be 0. -/
def icpMalformed (w a : Word) : Bool :=
  fldOf w 20 2 != 0 || fldOf w 0 5 != 0 || decide (5 < icpOp w) || (icpOp w == 1 && fldOf a 26 6 != 0)

/-- The code of a command of port `k`: the lowest of the checks it fails, 0 when it is done. `row` is the source of a WRITE,
if it could be read (R316). -/
def State.icpCode (s : State) (k : Nat) (w a : Word) (row : Option (BitVec 4096)) : Nat :=
  let g := Reg.cfgIcpGrant k
  let t := icpTarget w
  let c := icpContext w
  let op := icpOp w
  let named := op == 1 || op == 4 || op == 5
  let x := s.getSite t
  if s.fldAct g 31 1 = 0 ∨ s.fldAct g t 1 = 0 ∨ (named ∧ (c < s.fldAct g 16 6 ∨ s.fldAct g 22 6 < c)) then 1
  else if !s.rmode t then 2
  else if op = 1 ∧ (s.inuse t).testBit c then 3
  else if op = 1 ∧ row.any (frameRefused (icpFrame w)) then 4
  else if op = 1 ∧ row.any (fun d => busConflict (icpFrame w) d (fun g => some (s.getFrame g))) then 5
  else if op = 1 ∧ row = none then 6
  else if op = 2 ∧ s.seqRuns t then 7
  else if icpMalformed w a ∨ (op = 3 ∧ !x.icpSession ∧ !x.isoForced) then 8
  else if s.regState t = regLoading ∨ s.regState t = regIncomplete then 9
  else if !(s.getIcp k).jobs.isEmpty then 10
  else 0

/-- The 512-byte slot of the source row of a WRITE by port `k` (R314, R315). -/
def State.icpSource (s : State) (k : Nat) (w a : Word) : State × Option (BitVec 4096) :=
  match s.readRow (16 * k + fldOf a 22 4) (fldOf a 0 22) srcConfig with
  | (t, .ok d) => (t, some (bytesVec 4096 ((d.drop (512 * fldOf w 22 2)).take 512)))
  | (t, _) => (t, none)

/-- The isolation of region `t` is forced from fc `f` on (R317). -/
def State.forceIsolation (s : State) (t f : Nat) : State :=
  let s := (s.setBit Reg.fabPenStat (16 + t) true).modSite t (fun x => { x with isoForced := true, isoFrom := f })
  let s := if s.seqRuns t then s.integ t 27 ((s.getSite t).cycle - 1) 0 else s
  (s.showRegion t).followHeld t

/-- The configuration controller's interface is not isolated: it reaches DRAM and scratchpad (R380, log entry 91). -/
def State.cfgReaches (s : State) : Bool := !s.bit Reg.nocIsoStat 5

/-- The port of region `k` takes its command when its op is one of `ops`. A WRITE that codes 1 to 3 refuse reads no row. -/
def State.icpTake (s : State) (k : Nat) (ops : List Nat) : State :=
  match s.icpSample k with
  | none => s
  | some (w, a) =>
    if !ops.contains (icpOp w) || (icpOp w == 1 && !s.cfgReaches) then s
    else
      let (s1, row) := if icpOp w = 1 then s.icpSource k w a else (s, none)
      let code := s.icpCode k w a row
      let s := if code = 0 ∨ 4 ≤ code then s1 else s
      let t := icpTarget w
      let p := s.getIcp k
      let job : IcpJob :=
        { word := w, arg := a, code := BitVec.ofNat 4 code, since := (s.getFab k).now, data := row.getD 0
          forced := icpOp w == 1 && (s.inuse t).testBit (icpContext w) }
      let s := s.setIcp k { tog := w.getLsbD 31, jobs := p.jobs ++ [job] }
      if icpOp w = 1 ∧ code = 0 then (s.modSite t (fun x => { x with icpWrites := x.icpWrites + 1 })).followHeld t else s

/-- The fc at whose end a command completes (R315). -/
def IcpJob.ends (j : IcpJob) : Nat := j.since + (if j.code ≠ 0 then 2 else if icpOp j.word = 1 then 128 else 4)

/-- End an ISOLATE session of region `t`, or a forced isolation of it. -/
def State.endIsolation (s : State) (t : Nat) (both : Bool) : State :=
  let s := s.modSite t (fun x =>
    if both then { x with icpSession := false, isoForced := false }
    else if x.icpSession then { x with icpSession := false } else { x with isoForced := false })
  (s.showRegion t).followSite t

/-- What a command that is not refused does (R315). -/
def State.icpEffect (s : State) (j : IcpJob) : State :=
  let t := icpTarget j.word
  let c := icpContext j.word
  match icpOp j.word with
  | 1 => ((s.writeFrame (icpFrame j.word) j.data (BitVec.allOnes 256)).modSite t (fun x =>
      { x with icpWrites := x.icpWrites - 1 })).followSite t
  | 2 => ((s.modSite t (fun x => { x with icpSession := true })).showRegion t).followHeld t
  | 3 => s.endIsolation t false
  | 4 => (((s.catchUp t).setInuse t (s.inuse t ||| 2 ^ c)).splitSpan t).countWclk t (s.inuse t ||| 2 ^ c)
  | 5 => ((s.catchUp t).setInuse t (if (s.inuse t).testBit c then s.inuse t - 2 ^ c else s.inuse t)).splitSpan t
  | _ => s

/-- A command of port `k` completes: its effect, the isolation that a refused WRITE forces (R317), and its status in w15 of cell (39, 31)
(R316). -/
def State.icpDone (s : State) (k : Nat) : State :=
  let p := s.getIcp k
  let first := p.jobs.foldl (fun m j => match m with
    | none => some j
    | some b => if j.ends < b.ends then some j else some b) (none : Option IcpJob)
  match first with
  | none => s
  | some j =>
    let s := s.setIcp k { p with jobs := p.jobs.erase j }
    let s := if j.forced then s.forceIsolation (icpTarget j.word) (j.since + 3) else s
    let s := if j.code = 0 then s.icpEffect j else s.setBit Reg.cfgIcpStat k true
    let s := if j.code = 1 ∨ j.code = 3 then s.safEvent 0x08 (k * 16 + icpTarget j.word) else s
    let v := (j.word &&& 0xF0000000#32) ||| BitVec.ofNat 32 (j.code.toNat * 2 ^ 24)
    let c := cellKey 0 39 31
    s.modFab k (fun f => { f with
      cells := if f.next.any (fun q => q.1 == c) then f.cells else Sparse.set (fun _ => {}) f.cells c ((f.cell c).put 15 v)
      next := f.next.map (fun q => if q.1 == c then (q.1, { q.2 with cell := q.2.cell.put 15 v }) else q) })

end Sys2Proof.Machine
end

