-- ==== Sys2Proof/Machine/CapOps.lean ====
section
/-! DEFINITION. Shared operations of compare and capture (07): the geometry of blocks, counter areas and their summaries, the
row cache, the counter queue, the fail log, and the delivery of one judged cycle to every consumer. -/

namespace Sys2Proof.Machine

def cdiv (a b : Nat) : Nat := (a + b - 1) / b

/-- An active address held as a lo/hi pair. -/
def State.pairAct (s : State) (a : Nat) : Nat := (s.rdAct a).toNat + (s.rdAct (a + 4)).toNat * 2 ^ 32

/-! ### Geometry (R214, R216, R229) -/

structure CapGeom where
  wbits : Nat
  cols : Nat
  rows : Nat
  nblk : Nat
  mapBase : Nat
  ctrBase : Nat
  spareRows : Nat
  spareCols : Nat
  logBase : Nat
  logLen : Nat
  deriving DecidableEq, Repr

/-- The geometry of given register values. -/
def CapGeom.ofRegs (geom nblk spare logLen : Word) (mapBase ctrBase logBase : Nat) : CapGeom :=
  { wbits := fldOf geom 25 3, cols := 2 ^ fldOf geom 20 5, rows := fldOf geom 0 20 + 1, nblk := fldOf nblk 0 8 + 1
    mapBase := mapBase, ctrBase := ctrBase, spareRows := fldOf spare 0 6, spareCols := fldOf spare 8 6
    logBase := logBase, logLen := fldOf logLen 0 21 }

/-- The active geometry of site `k`. -/
def State.capGeomOf (s : State) (k : Nat) : CapGeom :=
  .ofRegs (s.rdAct (Reg.capGeom k)) (s.rdAct (Reg.capNblk k)) (s.rdAct (Reg.capSpare k)) (s.rdAct (Reg.capLogLen k))
    (s.pairAct (Reg.capMapBase k 0)) (s.pairAct (Reg.capCtrBase k 0)) (s.pairAct (Reg.capLogBase k 0))

/-- B of R216: fail-map rows of a block. -/
def CapGeom.blockRows (g : CapGeom) : Nat := cdiv (g.rows * g.cols) 16384

/-- The six parts of a counter area in rows (R229). -/
def CapGeom.parts (g : CapGeom) : List Nat :=
  [1, cdiv g.rows 2048, cdiv g.cols 2048, cdiv (cdiv g.rows 8) 2048, cdiv (cdiv g.cols 8) 2048,
    cdiv (cdiv (cdiv g.rows 64 * cdiv g.cols 64) 8) 2048]

def CapGeom.areaRows (g : CapGeom) : Nat := g.parts.sum

/-- The address of byte `o` of part `p` of block `b`'s counter area. -/
def CapGeom.ctrAddr (g : CapGeom) (b p o : Nat) : Nat :=
  g.ctrBase + 2048 * (g.areaRows * b + (g.parts.take p).sum) + o

/-- The extents of the map, the counter areas and the log area: first address and length. -/
def CapGeom.mapExt (g : CapGeom) : Nat × Nat := (g.mapBase, 2048 * g.blockRows * g.nblk)
def CapGeom.ctrExt (g : CapGeom) : Nat × Nat := (g.ctrBase, 2048 * g.areaRows * g.nblk)
def CapGeom.logExt (g : CapGeom) : Nat × Nat := (g.logBase, 2048 * g.logLen)

/-! ### Summaries and contact sheets (R226, R230) -/

def getLe (l : List Byte) (o n : Nat) : Nat := ofLe ((l.drop o).take n)
def putLe (l : List Byte) (o n v : Nat) : List Byte := putBytes l o (leBytes n v)
def addLe (l : List Byte) (o n v : Nat) : List Byte := putLe l o n (getLe l o n + v)
def setFlag (l : List Byte) (o i : Nat) : List Byte := putLe l o 1 (getLe l o 1 ||| 2 ^ i)
def clrFlag (l : List Byte) (o i : Nat) : List Byte := putLe l o 1 (getLe l o 1 &&& (255 - 2 ^ i))

/-- Change the summary of block `b`. -/
def State.modSummary (s : State) (k b : Nat) (f : List Byte → List Byte) : State :=
  s.modAt ((s.capGeomOf k).ctrAddr b 0 0) srcPerCycle f

/-- Set bit `j` of part `p` of block `b`'s counter area. -/
def State.setAreaBit (s : State) (k b p j : Nat) : State :=
  let a := (s.capGeomOf k).ctrAddr b p (j / 8)
  s.modAt a srcPerCycle (fun d => setFlag d (a % 2048) (j % 8))

/-- Every mapped FAIL, in every mode: the occurrence count, the first cycle, the contact sheet (R226). -/
def State.occur (s : State) (k b row col n : Nat) : State :=
  let g := s.capGeomOf k
  let s := s.modSummary k b (fun d => addLe (if getLe d 8 8 = 0 then putLe d 16 6 n else d) 8 8 1)
  s.setAreaBit k b 5 (row / 64 * cdiv g.cols 64 + col / 64)

/-! ### The counter queue (R228) -/

/-- One event in CAP_STATUS and CAP_IRQ_STAT. -/
def State.capMark (s : State) (k stat irq : Nat) : State :=
  (s.setBit (Reg.capStatus k) stat true).setBit (Reg.capIrqStat k) irq true

/-- Enter a counter update, or drop it when the queue is full. -/
def State.count (s : State) (k b row col n : Nat) : State :=
  let x := s.getSite k
  if x.ctrQueue.length < 4096 then
    s.setSite k { x with ctrQueue := x.ctrQueue ++ [{ block := b, row := row, col := col }] }
  else ((s.modSummary k b (fun d => clrFlag d 40 1)).capMark k 10 6).integ k 11 n 0

/-- A per-occurrence count (R226). -/
def State.countOccurrence (s : State) (k b row col n : Nat) : State :=
  (s.modSummary k b (fun d => clrFlag d 40 0)).count k b row col n

/-- The row of a counter's byte. -/
def rowOf (a : Nat) : Nat := a / 2048 * 2048

def Site.ctrLine (x : Site) (a : Nat) : Option CtrLine := x.ctrLines.find? (fun l => l.addr == rowOf a)

/-- Count one up in a held counter, saturating: the new state and value; its line becomes the most recently used. -/
def State.bump (s : State) (k a : Nat) : State × Nat :=
  let x := s.getSite k
  match x.ctrLine a with
  | some l =>
    let v := min 255 (getLe l.data (a % 2048) 1 + 1)
    let l2 := { l with data := putLe l.data (a % 2048) 1 v, dirty := true }
    (s.setSite k { x with ctrLines := x.ctrLines.filter (fun m => m.addr != rowOf a) ++ [l2] }, v)
  | none => (s, 0)

/-- A line counter passes its threshold: the flag, the list and the unrepairable mark (R227). `p` is the part of the flags,
`cnt` and `lst` the places of the summary, `lim` the spares of that kind. -/
def State.mustRepair (s : State) (k b p line cnt lst lim : Nat) : State :=
  let a := (s.capGeomOf k).ctrAddr b p (line / 8)
  let (v, r) := s.locate a
  let data := s.rawRow v r 0 2048
  if (getLe data (a % 2048) 1).testBit (line % 8) then s
  else
    (s.setAreaBit k b p line).modSummary k b (fun d =>
      let m := getLe d cnt 1
      let d := if m < 32 then putLe d (lst + 4 * m) 4 line else d
      let d := putLe d cnt 1 (min 33 (m + 1))
      if lim < min 33 (m + 1) then setFlag d 40 4 else d)

/-- Apply a counter update whose lines are held (R227, R228). -/
def State.applyUpdate (s : State) (k : Nat) (u : CtrUpdate) : State :=
  let g := s.capGeomOf k
  let (s, rv) := s.bump k (g.ctrAddr u.block 1 u.row)
  let (s, cv) := s.bump k (g.ctrAddr u.block 2 u.col)
  let s := if g.spareCols < rv then s.mustRepair k u.block 3 u.row 41 48 g.spareRows else s
  if g.spareRows < cv then s.mustRepair k u.block 4 u.col 42 176 g.spareCols else s

/-- The first counter row that update `u` needs and no line holds. -/
def State.missingRow (s : State) (k : Nat) (u : CtrUpdate) : Option Nat :=
  let g := s.capGeomOf k
  ([g.ctrAddr u.block 1 u.row, g.ctrAddr u.block 2 u.col].map rowOf).find? (fun a => ((s.getSite k).ctrLine a).isNone)

/-- Write a counter line back; a row that was poisoned when it was read keeps its marker (R278). -/
def State.writeLine (s : State) (l : CtrLine) : State :=
  if l.dirty then
    let (v, r) := s.locate l.addr
    match s.rowRefused v r with
    | some b => s.setBit (Reg.vltEvt v) b true
    | none => (s.svcDrop v r).writeRow v r l.data l.poisoned
  else s

/-- Load counter row `a` into a counter line, the least recently used one when all 128 are in use (R228). The value of a
counter whose row cannot be read is open (log entry 5). -/
def State.loadLine (s : State) (k a : Nat) : State :=
  let x := s.getSite k
  let full := decide (128 ≤ x.ctrLines.length)
  let s := match full, x.ctrLines with
    | true, l :: _ => s.writeLine l
    | _, _ => s
  let s := s.modSite k (fun x => { x with ctrLines := if full then x.ctrLines.tail else x.ctrLines })
  let add (s : State) (d : List Byte) (p : Bool) : State :=
    s.modSite k (fun x => { x with ctrLines := x.ctrLines ++ [{ addr := a, data := d, dirty := false, poisoned := p }] })
  match s.readAt a srcPerCycle with
  | (s, .ok d) => add s d false
  | (s, .poisoned d) => add s d true
  | (s, .refused _) => add s.tickFree ((List.range 2048).map (fun i => Config.freeByte (s.free * 2048 + i))) false

/-- Apply the head of the queue, loading what it needs; for a drain. -/
def State.applyHead (s : State) (k : Nat) : State :=
  match (s.getSite k).ctrQueue with
  | u :: rest =>
    let s := match s.missingRow k u with
      | some a => s.loadLine k a
      | none => s
    let s := match s.missingRow k u with
      | some a => s.loadLine k a
      | none => s
    (s.modSite k (fun x => { x with ctrQueue := rest })).applyUpdate k u
  | [] => s

/-! ### Fallback (R224) -/

def State.fallBack (s : State) (k b n cause : Nat) : State :=
  let x := s.getSite k
  if x.fallen.any (fun p => p.1 == b) then s
  else
    let s := s.setSite k { x with fallen := x.fallen ++ [(b, cause)] }
    let s := s.modSummary k b (fun d =>
      let d := if getLe d 30 1 = 0 then putLe (putLe d 24 6 n) 30 1 cause else d
      clrFlag (clrFlag d 40 0) 40 2)
    let s := s.capMark k 7 3
    let s := if s.bit (Reg.capFallbackHi k) 31 then s
      else (s.wr (Reg.capFallbackLo k) (BitVec.ofNat 32 n)).wr (Reg.capFallbackHi k)
        (BitVec.ofNat 32 (n / 2 ^ 32 % 2 ^ 16 + b % 256 * 2 ^ 16 + cause * 2 ^ 24 + 2 ^ 31))
    s.integ k 8 n b

/-! ### The row cache (R221 to R223) -/

/-- Insert a number into a rising list. -/
def insertNat (n : Nat) : List Nat → List Nat
  | [] => [n]
  | m :: l => if n = m then m :: l else if n < m then n :: m :: l else m :: insertNat n l

/-- Capture lines in use: open and unmerged lines, and an open log line. -/
def Site.linesUsed (x : Site) : Nat := x.mapLines.length + (if x.logLine.isEmpty then 0 else 1)

/-- OR a mapped FAIL of cycle `n` into its fail-map line; false when no line is free (R221, R224). -/
def State.orLine (s : State) (k b row col n : Nat) : State × Bool :=
  let g := s.capGeomOf k
  let x := s.getSite k
  let i := row * g.cols + col
  let a := g.mapBase + 2048 * (b * g.blockRows + i / 16384)
  if x.mapLines.any (fun l => l.addr == a && !l.closed) then
    (s.setSite k { x with mapLines := x.mapLines.map (fun l =>
      if l.addr == a && !l.closed then { l with bits := insertNat (i % 16384) l.bits } else l) }, true)
  else if 896 ≤ x.linesUsed then (s, false)
  else
    (s.setSite k { x with mapLines := x.mapLines ++
      [{ addr := a, block := b, openFc := s.fc, firstCycle := n, closed := false, bits := [i % 16384] }] }, true)

/-- Close every open line. -/
def State.closeLines (s : State) (k : Nat) : State :=
  s.modSite k (fun x => { x with mapLines := x.mapLines.map (fun l => { l with closed := true }) })

/-- The row and column of bit `i` of a line. -/
def CapGeom.cellOf (g : CapGeom) (l : MapLine) (i : Nat) : Nat × Nat :=
  let j := ((l.addr - g.mapBase) / 2048 - l.block * g.blockRows) * 16384 + i
  (j / g.cols, j % g.cols)

/-- A row as the bits of `l` turn it: `d` with every listed bit set. -/
def orBitsOf (d : List Byte) (bits : List Nat) : List Byte :=
  d.mapIdx (fun j b => BitVec.ofNat 8 (b.toNat ||| (bits.filter (fun i => i / 8 == j)).foldl (fun m i => m ||| 2 ^ (i % 8)) 0))

/-- Merge a closed line into its DRAM row (R223, R224, R226). -/
def State.mergeLine (s : State) (k : Nat) (l : MapLine) : State :=
  let g := s.capGeomOf k
  let lose (s : State) (cause : Nat) : State :=
    l.bits.foldl (fun s i => s.count k l.block (g.cellOf l i).1 (g.cellOf l i).2 l.firstCycle)
      (s.fallBack k l.block l.firstCycle cause)
  match s.readAt l.addr srcPerCycle with
  | (s, .ok d) =>
    let new := l.bits.filter (fun i => !(getLe d (i / 8) 1).testBit (i % 8))
    let s := (s.writeAt l.addr (orBitsOf d l.bits)).1
    let s := if new.isEmpty then s else s.modSummary k l.block (fun d => addLe d 0 8 new.length)
    new.foldl (fun s i => s.count k l.block (g.cellOf l i).1 (g.cellOf l i).2 l.firstCycle) s
  | (s, .poisoned _) => lose s 2
  | (s, .refused _) => lose s 3

/-- Merge the first closed line, if there is one. -/
def State.mergeFirst (s : State) (k : Nat) : State :=
  let x := s.getSite k
  match x.mapLines.find? (fun l => l.closed) with
  | some l => (s.setSite k { x with mapLines := x.mapLines.erase l }).mergeLine k l
  | none => s

/-! ### The order of service (R23, R268) -/

/-- Closed lines of site `k` whose rows lie in one of the vaults of the rows `l`. -/
def State.linesIn (s : State) (k : Nat) (vs : List Nat) : List MapLine :=
  (s.getSite k).mapLines.filter (fun l => l.closed && vs.contains (s.locate l.addr).1)

/-- The vaults that the `n` bytes at physical address `a` lie in. -/
def State.vaultsOf (s : State) (a n : Nat) : List Nat := ((rowCuts a n).take 256).map (fun c => (s.locate c.1).1)

/-- The vault of row `row` of the stream of site `k`. -/
def State.svVault (s : State) (k row : Nat) : Nat :=
  (s.locate (s.svAddr k (s.fld (Reg.seqSvbaseRow k) 0 30) (64 * (row % 2 ^ 26)))).1

/-- The fetches of the formatter of site `k` that wait: from the arm on, the rows that have not arrived of the 8 from that of X15 on (R72).
DEDUCED (log entry 112). -/
def State.svWaits (s : State) (k : Nat) : List Nat :=
  if s.seqState k = 0 ∨ s.seqState k = 5 then []
  else
    let x := s.getSite k
    let first := (s.x15At k (s.cycleNow k)).toNat / 64
    ((List.range 8).map (fun i => (first + i) % 2 ^ 26)).filter (fun r => x.fmtRow (x.fmtKey r) == .absent)

/-- The counter row that the head of the update queue of site `k` misses. -/
def State.ctrWaits (s : State) (k : Nat) : Option Nat :=
  match (s.getSite k).ctrQueue with
  | u :: _ => s.missingRow k u
  | [] => none

/-- A per-cycle request of site `k` waits in one of the vaults: a stored-vector fetch, a closed line, or a counter row. -/
def State.siteWaits (s : State) (k : Nat) (vs : List Nat) : Bool :=
  !(s.linesIn k vs).isEmpty || (s.ctrWaits k).any (fun a => vs.contains (s.locate a).1)
    || (s.svWaits k).any (fun r => vs.contains (s.svVault k r))

/-- A change of the map or of the tiles has reached its safe point, and requests wait until it is in force (R299). -/
def State.mapChanges (s : State) : Bool := s.commits.any (fun p => p.1 == Reg.vltCommit) && !s.anyBusy

/-- Vault `v` takes no request: its deskew runs (R289, R468), or the map changes. -/
def State.vaultPauses (s : State) (v : Nat) : Bool := s.calRuns v || s.mapChanges

/-- The frames that wait for their reload in one of the vaults, in arrival order. -/
def State.reloadsIn (s : State) (vs : List Nat) : List Nat :=
  if s.cfgReaches then
    (s.ctl.reloads.filter (fun r => let v := (goldenRow r.frame).1; vs.contains v && s.vltState v != 3)).map (fun r => r.frame)
  else []

/-- The requests of ranks 2 and 3 that wait in the vaults of a service access are served before it (R23, R268): the closed lines there are
merged, the counter row that is missed is loaded, the rows of the streams are fetched, and the queued frames are reloaded. A golden row that
the reload finds beyond repair is FRAME_RELOAD's to say. -/
def State.serveFirst (s : State) (a n : Nat) : State :=
  let vs := s.vaultsOf a n
  let s := s.forAll (sites.filter (fun k => s.siteWaits k vs)) (fun s k =>
    let now := s.linesIn k vs
    let s := now.foldl (fun s l => s.mergeLine k l) (s.modSite k (fun x => { x with mapLines := x.mapLines.filter (fun l => !now.contains l) }))
    let s := match s.ctrWaits k with
      | some a => if vs.contains (s.locate a).1 then s.loadLine k a else s
      | none => s
    s.forAll ((s.svWaits k).filter (fun r => vs.contains (s.svVault k r))) (fun s r => (s.checkDue k).svArrive k r))
  (s.reloadsIn vs).foldl (fun s f => s.reloadFrame f false) s

/-- The rank of the first request that waits in vault `v`: 2 a per-cycle request; 3 the reload of a frame whose golden row lies there; 4 a
maintenance command; 5 none. 0 where the vault takes no request at all. Requests of rank 4 come round robin by requester: the order of their
commands is that order (log entry 112). -/
def State.waitRank (s : State) (v : Nat) : Nat :=
  if s.vaultPauses v then 0
  else if sites.any (fun k => s.siteWaits k [v]) then 2
  else if !(s.reloadsIn [v]).isEmpty then 3
  else if (s.getVault v).mnt.isSome then 4
  else 5

/-- A service access to the `n` bytes at physical address `a` waits: another requester reserves a row of it (R377), or a vault takes no
request. -/
def State.accessWaits (s : State) (req a n : Nat) : Bool := s.rangeHeld req a n || (s.vaultsOf a n).any s.vaultPauses

/-- The rank of a request by its source in VLT_POISON_LOG (R268, R293). -/
def srcRank (src : Nat) : Nat :=
  if src = srcScrub then 5 else if src = srcPerCycle ∨ src = srcWindow then 2 else if src = srcConfig then 3 else 4

/-! ### The fail log (R218 to R220) -/

/-- Write the log line back; a partly filled one is padded with zero entries (R253). -/
def State.writeLog (s : State) (k : Nat) : State :=
  let x := s.getSite k
  if x.logLine.isEmpty then s
  else
    let g := s.capGeomOf k
    let d := x.logLine.flatten
    (s.writeAt (g.logBase + 2048 * s.fld (Reg.capLogPtr k) 0 21) (d ++ List.replicate (2048 - d.length) 0)).1

/-- Write one log entry of cycle `n`, or drop it. -/
def State.logPush (s : State) (k n : Nat) (e : List Byte) : State :=
  let x := s.getSite k
  let g := s.capGeomOf k
  if g.logLen ≤ s.fld (Reg.capLogPtr k) 0 21 ∨ (x.logLine.isEmpty ∧ 896 ≤ x.linesUsed) then
    let s := if s.bit (Reg.capStatus k) 9 then s else s.integ k 10 n 0
    (s.capMark k 9 5).setBit (Reg.capLogPtr k) 31 true
  else
    let s := s.setSite k { x with logLine := x.logLine ++ [e] }
    if x.logLine.length + 1 = 128 then
      let s := (s.writeLog k).setFld (Reg.capLogPtr k) 21 7 0
      (s.setFld (Reg.capLogPtr k) 0 21 (s.fld (Reg.capLogPtr k) 0 21 + 1)).modSite k (fun x => { x with logLine := [] })
    else s.setFld (Reg.capLogPtr k) 21 7 (x.logLine.length + 1)

/-- A log entry (R219). -/
def logEntry (n block kind : Nat) (unv oor : Bool) (data : Nat) : List Byte :=
  leBytes 6 n ++ leBytes 1 block ++ leBytes 1 (kind * 64 + bitN unv * 32 + bitN oor * 16) ++ leBytes 8 data

/-! ### Cap codes (R80) -/

def capNORM : Nat := 0
def capVERD : Nat := 1
def capCOND : Nat := 2
def capCOUNT : Nat := 3
def capLOG : Nat := 4
def capMARK : Nat := 5

/-- The code reaches the verdict, the integrity word and stop-on-fail. -/
def capVerdict (c : Nat) : Bool := c != capCOND
/-- The code reaches the fail counts and line counters. -/
def capCounts (c : Nat) : Bool := c != capCOND && c != capVERD

/-! ### One judged cycle (R208 to R220) -/

def State.capEntry (s : State) (k c : Nat) : Nat := s.fldAct (Reg.capChmap k (c / 2)) (16 * (c % 2)) 16

/-- Place the result of channel `c` of cycle `n`, if it is mapped; the Bool says that a FAIL was out of range. -/
def State.placeChannel (s : State) (k n : Nat) (sp : Span) (o : IfcOut) (unv : Bool) (c : Nat) : State × Bool :=
  let g := s.capGeomOf k
  let e := s.capEntry k c
  if !e.testBit 15 then (s, false)
  else
    let b := sp.block.toNat + e / 2 ^ 8 % 16
    let row := o.row.toNat
    let col := o.col.toNat * 2 ^ g.wbits + e % 64
    if g.nblk ≤ b ∨ g.rows ≤ row ∨ g.cols ≤ col then
      if unv then (s, false) else (s.satAdd (Reg.capOor k) 0 32 1, true)
    else if unv then (s.modSummary k b (fun d => setFlag (addLe d 32 8 1) 40 3), false)
    else
      let s := s.occur k b row col n
      let bitmap := sp.mode == 0 && sp.cap.toNat != capCOUNT && !((s.getSite k).fallen.any (fun p => p.1 == b))
      if bitmap then
        match s.orLine k b row col n with
        | (s, true) => (s, false)
        | (s, false) => ((s.fallBack k b n 1).countOccurrence k b row col n, false)
      else (s.countOccurrence k b row col n, false)

/-- Place every FAIL and UNV of cycle `n` in channel order. -/
def State.placeAll (s : State) (k n : Nat) (sp : Span) (o : IfcOut) (fail unv : BitVec 64) : State × Bool :=
  (List.range 64).foldl (fun (p : State × Bool) c =>
    if fail.getLsbD c || unv.getLsbD c then
      let q := p.1.placeChannel k n sp o (unv.getLsbD c) c
      (q.1, p.2 || q.2)
    else p) (s, false)

/-- The log entries of cycle `n` (R217, R219, R220). -/
def State.logCycle (s : State) (k n : Nat) (sp : Span) (a : CycAcc) (fail unv counted : BitVec 64) (oor : Bool) : State :=
  let cap := sp.cap.toNat
  let some := (fail ||| unv) != 0
  let kind : Option Nat :=
    if cap = capMARK then .some 1
    else if some && (cap == capLOG || (cap == capNORM && sp.mode == 1)) then .some 0
    else none
  let raw := s.fldAct (Reg.capCfg k) 2 1 == 1 && (a.ex &&& counted) != 0 && (kind.isSome || cap == capLOG)
  let put (s : State) (kd data : Nat) : State :=
    s.logPush k n (logEntry n sp.block.toNat kd (unv != 0) oor data)
  let s := match kind with
    | .some kd => put s kd (fail ||| unv).toNat
    | none => s
  if raw then put (put s 2 (a.act.toNat % 2 ^ 64)) 3 (a.act.toNat / 2 ^ 64) else s

/-- The verdict counters, the integrity word and stop-on-fail of a failing cycle (R99, R213). -/
def State.verdict (s : State) (k n : Nat) (fail unv : BitVec 64) (badLane : Nat) : State :=
  if (fail ||| unv) = 0 then s
  else
    let first := s.rd64 (Reg.capFcycLo k) = 0
    let s := s.wr64 (Reg.capFcycLo k) ((s.rd64 (Reg.capFcycLo k) + 1) % 2 ^ 48)
    let s := if first then (s.wr64 (Reg.capFirstLo k) (n % 2 ^ 48 + 2 ^ 63)).setBit (Reg.capIrqStat k) 0 true else s
    let s := s.setBit (Reg.capStatus k) 3 true
    let s :=
      if unv = 0 then s
      else
        let s := if s.rd64 (Reg.capUnvcycLo k) = 0 then s.setBit (Reg.capIrqStat k) 1 true else s
        let s := s.wr64 (Reg.capUnvcycLo k) ((s.rd64 (Reg.capUnvcycLo k) + 1) % 2 ^ 48)
        (s.setBit (Reg.capStatus k) 4 true).integ k 0 n (prxWin badLane)
    let cfg := s.rdAct (Reg.seqCfg k)
    let stops := if cfg.getLsbD 1 then ((fail ||| unv) &&& s.cmask k) != 0 else true
    if cfg.getLsbD 0 && stops then s.stopOnFail k n else s

/-- The compare units disagree (R210). The report reaches the sequencer with the result, in the fc of cycle n + H − 3, the
last one issued (R103, R211; log entry 22). -/
def State.compareFault (s : State) (k n : Nat) : State :=
  let s := (s.capMark k 6 2).integ k 7 n 0
  let s := s.safEvent 0x02 k
  let s := s.modSite k (fun x => { x with cmpBad := true })
  let s := s.dueStop k
  if s.canStop k 7 then (s.cutTo k (n + (s.getSite k).hUse - 2)).seqFaultAt k 0x08 (s.pcNow k) n
  else s.modSite k (fun x => { x with parkReason := 4 })

/-- Cycle `n` has its result on all lanes: it is judged and goes to every consumer (R207 to R220). DESIGN CHOICE (log entry 107): an
uncorrectable expectation entry is recorded, as R207 says, whatever the capture mode of the cycle, COND too, of which R80 says that it
affects only conditions. -/
def State.deliver (s : State) (k n : Nat) (a : CycAcc) : State :=
  let x := s.getSite k
  match x.spanAt n with
  | none => s
  | some sp =>
    let cap := sp.cap.toNat
    let counted : BitVec 64 := BitVec.ofNat 64 (s.pairAct (Reg.capCmpmask k 0))
    let inject := s.bit (Reg.capStatus k) 2 && a.comp.getLsbD 0 && counted.getLsbD 0 && !x.cmpBad
    let dis := a.disagree ||| (if inject then 1 else 0)
    let s := if inject then s.setBit (Reg.capStatus k) 2 false else s
    let unv := (if x.cmpBad || a.expBad then BitVec.allOnes 64 else a.unv ||| dis) &&& counted
    let fail := a.fail &&& counted &&& ~~~unv
    let s := s.modSite k (fun x =>
      { x with
        fails := Sparse.set (fun _ => 0) x.fails n (fail ||| unv)
        acc := x.acc.filter (fun p => p.1 != n), judged := x.judged + 1 })
    let s := if a.expBad then (s.setBit (Reg.capStatus k) 5 true).integ k 6 n 0 else s
    let s := if dis != 0 then s.compareFault k n else s
    let s := s.showFacc k
    let s := if capVerdict cap then s.verdict k n fail unv (a.badLane.getD (16 * k)) else s
    let s :=
      if capCounts cap then
        let s := s.wr64 (Reg.capFoccLo k) ((s.rd64 (Reg.capFoccLo k) + popCount fail) % 2 ^ 64)
        let (s, oor) := if x.isFill sp n then (s, false) else s.placeAll k n sp (x.ifcAt n) fail unv
        let s :=
          if oor then (if s.bit (Reg.capStatus k) 8 then s else s.integ k 9 n 0).capMark k 8 4 else s
        if cap = capCOUNT then s else s.logCycle k n sp a fail unv counted oor
      else s
    if x.flushAt.contains n then (s.closeLines k).modSite k (fun x => { x with flushAt := x.flushAt.filter (· != n) }) else s

/-- Close what is open and wait for the write-backs (R225). -/
def State.startFlush (s : State) (k : Nat) : State :=
  (s.closeLines k).setBit (Reg.capStatus k) 16 true

/-- Write back the log line and every changed counter line (R225). -/
def State.writeBackCache (s : State) (k : Nat) : State :=
  let s := s.writeLog k
  let s := (s.getSite k).ctrLines.foldl (fun s l => s.writeLine l) s
  s.modSite k (fun x => { x with ctrLines := x.ctrLines.map (fun l => { l with dirty := false }) })

/-- A flush is complete: its cycles are judged, no closed line waits, the queue is empty (R225). -/
def State.flushReady (s : State) (k : Nat) : Bool :=
  let x := s.getSite k
  s.bit (Reg.capStatus k) 16 && !(x.mapLines.any (fun l => l.closed)) && x.ctrQueue.isEmpty
    && x.flushAt.isEmpty

/-- The whole row cache goes to DRAM: every line merged in order, every update applied, log and counter lines written
(R102, R225). -/
def State.drainCache (s : State) (k : Nat) : State :=
  let s := s.closeLines k
  let s := (s.getSite k).mapLines.foldl (fun s _ => s.mergeFirst k) s
  let s := (s.getSite k).ctrQueue.foldl (fun s _ => s.applyHead k) s
  let s := s.writeBackCache k
  if s.bit (Reg.capStatus k) 16 then
    ((s.setBit (Reg.capStatus k) 16 false).setBit (Reg.capIrqStat k) 7 true).modSite k (fun x => { x with flushAt := [] })
  else s

end Sys2Proof.Machine
end

