-- ==== Sys2Proof/Machine/Pins.lean ====
section
/-! DEFINITION. What the sideband pins show (16, R484; R408, R417, R441, and the mode table of 02), and the end of every command. -/

namespace Sys2Proof.Machine

/-- PARK_N is pulled low: AON is up, or has been and VIN is still above 1.8 V (R419), and the mode is neither READY nor RUN. -/
def State.parkAsserted (s : State) : Bool := (s.aon.up || s.aon.brown) && s.mode != modeREADY && s.mode != modeRUN

/-- ALERT_N is pulled low (R441). -/
def State.alertAsserted (s : State) : Bool :=
  s.aon.up && ((s.rd Reg.pmuEvt &&& s.rd Reg.pmuAlertEn) != 0 || (s.rd Reg.thmEvt &&& s.rd Reg.thmAlertEn) != 0)

/-- THERM_N is pulled low (R441). -/
def State.thermAsserted (s : State) : Bool := s.aon.up && s.rd Reg.thmCapred != 0

/-- What a Loupe pin shows: nothing, a level, or a clock divided by 2^d. -/
inductive LoupePin where
  | off
  | level (v : Bool)
  | clock (clk d : Nat)
  deriving DecidableEq, Repr

/-- A signal of sequencer `k` (R417). -/
def State.loupeSeq (s : State) (k sig b : Nat) : Bool :=
  let x := s.getSite k
  match sig with
  | 0 => s.seqRuns k
  | 1 => x.horizonFail (x.cycle - 1) (BitVec.allOnes 64)
  | 2 => x.faccNow
  | 3 => s.seqState k == 4
  | 4 => s.pulse.stop.getLsbD k
  | 5 => (s.cycleNow k).testBit b
  | _ => false

/-- A clock in kHz by its code (00_scope, Clocks; R445). -/
def State.clockKhz (s : State) (c : Nat) : Nat := [16000000 / s.fdiv, 1600000, 1600000, 800000, 800000, 100000, 100000].getD c 0

/-- The divider shift raised until the pin shows at most 50 MHz. -/
def State.loupeShift (s : State) (c d : Nat) : Nat :=
  ((List.range 16).find? (fun i => decide (d ≤ i) && decide (s.clockKhz c ≤ 50000 * 2 ^ i))).getD d

/-- The level of the signal that FAB_LOUPE_SEL`n` selects, of those that are sampled (R417). -/
def State.loupeLevel (s : State) (n : Nat) : Bool :=
  let a := Reg.fabLoupeSel n
  match s.fld a 28 4 with
  | 1 => s.bit a 0
  | 2 =>
    let f := s.getFab (s.fld a 23 4)
    let c := f.after (cellKey (s.fld a 22 1) (s.fld a 16 6) (s.fld a 10 6))
    (if s.bit a 9 then c.o1 else c.o0).getLsbD (s.fld a 4 5)
  | 3 => s.loupeSeq (s.fld a 23 4) (s.fld a 0 5) (s.fld a 8 5)
  | 5 => decide (s.fld a 0 8 < 21) && s.pulse.event.getLsbD (s.fld a 0 8)
  | _ => false

/-- The levels of all eight signals. -/
def State.loupeLevels (s : State) : BitVec 8 :=
  BitVec.ofNat 8 (((List.range 8).map (fun n => if s.loupeLevel n then 2 ^ n else 0)).sum)

/-- HCLK cycles of a count of BCLK cycles (00_scope, Clocks). DEDUCED (log entry 51): the hc begin at multiples of 16 of the TSC. -/
def hcOf (bc : Nat) : Nat := bc / 16

/-- Levels that hold from now on, beside those of the past that a pin still needs: the values of the last five hc, and the level before them. -/
def noteLevels (h : List (Nat × BitVec 8)) (now : Nat) (v : BitVec 8) : List (Nat × BitVec 8) :=
  let h := h.filter (fun e => decide (e.1 ≤ now))
  let new := h.takeWhile (fun e => decide (hcOf now ≤ hcOf e.1 + 5))
  let h := new ++ (h.drop new.length).take 1
  if (h.head?.map (fun e => e.2)).getD 0 = v then h else (now, v) :: h

/-- The signals after a command with events `p`: an event of one fc is over at once, one of an hc lasts to the end of its hc (R408, R417). -/
def State.noteLoupe (s : State) (p : Pulse) : List (Nat × BitVec 8) :=
  let now := s.tsc.toNat
  let up := noteLevels s.pulse.loupe now (State.loupeLevels { s with pulse := p })
  noteLevels up now (State.loupeLevels { s with pulse := {} })

/-- The value that pin `n` takes for hc `j` (R408): the signal's in the last fc of the hc, or in stretch mode and for an event the OR over
it. -/
def State.loupeTaken (s : State) (n j : Nat) : Bool :=
  let h := s.pulse.loupe
  let first := 16 * j
  let last := 16 * j + 15
  let within (a : Nat) : Bool :=
    (h.filter (fun e => decide (a ≤ e.1) && decide (e.1 ≤ last))).any (fun e => e.2.getLsbD n)
  let before (a : Nat) : Bool := ((h.find? (fun e => decide (e.1 < a))).map (fun e => e.2.getLsbD n)).getD false
  let from0 := if s.bit (Reg.fabLoupeSel n) 27 || s.fld (Reg.fabLoupeSel n) 28 4 == 5 then first else last
  within from0 || (before from0 && !h.any (fun e => e.1 == from0))

/-- Pin LOUPE`n` (R408): off, a clock, or the value of the hc that ended 40 ns before this one. -/
def State.loupe (s : State) (n : Nat) : LoupePin :=
  let a := Reg.fabLoupeSel n
  let h := hcOf s.tsc.toNat
  if !s.aon.vio || !s.busUp || (s.loading && s.fld Reg.cfgStatus 26 2 == 1) then .off
  else match s.fld a 28 4 with
    | 1 | 2 | 3 | 5 => .level (decide (5 ≤ h) && s.loupeTaken n (h - 5))
    | 4 => .clock (s.fld a 0 3) (s.loupeShift (s.fld a 0 3) (s.fld a 4 5))
    | _ => .off

/-! ### The end of a command -/

/-- The events of a command that Loupe can show (R417): integrity words changed, SAF event, SAFE entry, message sent, core reset,
Exposure taken; and the sequencers that stopped. -/
def State.pulses (s0 s1 : State) (h : HostIf) : Pulse :=
  let word (s : State) (k : Nat) : Nat := s.rd64 (Reg.glbIntegLo k)
  let bits := sites.map (fun k => word s0 k != word s1 k) ++ [
    decide (s0.pulse.safs < s1.pulse.safs), s1.mode == modeSAFE && s0.mode != modeSAFE,
    decide (s0.host.msgs.length < h.msgs.length), decide (s0.pulse.resets < s1.pulse.resets),
    (s1.rd Reg.fabExpStat &&& ~~~(s0.rd Reg.fabExpStat)) >>> 16 != 0]
  let val (l : List Bool) : Nat := l.foldr (fun b a => (if b then 1 else 0) + 2 * a) 0
  { event := BitVec.ofNat 21 (val bits), stop := BitVec.ofNat 16 (val (sites.map (fun k => s0.seqRuns k && !s1.seqRuns k)))
    safs := s1.pulse.safs, resets := s1.pulse.resets }

/-- The end of a command: messages are sent, and the events are shown. -/
def State.settle (s0 s1 : State) : State :=
  let h := s0.messages s1
  let p := s0.pulses s1 h
  { s1 with host := h, pulse := { p with loupe := s1.noteLoupe p } }

/-- The next state of a command that turned `s0` into `s1`. -/
def fin (s0 s1 : State) : Res := .next (State.settle s0 s1)

end Sys2Proof.Machine
end

