-- ==== Sys2Proof/Machine/Capture.lean ====
section
/-! DEFINITION. The commands of the capture engine (07): CAP_CTL and the events of the row cache. One definition for each
command. -/

namespace Sys2Proof.Machine

/-! ### Clearing the areas (R225) -/

/-- The physical address of vault row `r` of vault `v`, the inverse of `locate` (R264, R265). -/
def State.addrOf (s : State) (v r : Nat) : Nat :=
  let row := r / 128
  let layer := r % 128 / 8
  let bank := r % 8
  if s.globalMap then row * 2 ^ 26 + layer * 2 ^ 22 + bank * 2 ^ 19 + v * 2 ^ 11
  else v / 16 * 2 ^ 37 + row * 2 ^ 22 + layer * 2 ^ 18 + bank * 2 ^ 15 + v % 16 * 2 ^ 11

/-- Cell `key` belongs to a row of one of the extents that can be written. -/
def State.inExtents (s : State) (l : List (Nat × Nat)) (key : Nat) : Bool :=
  let v := key / 8192 / 2 ^ 23
  match s.userRow v (key / 8192 % 2 ^ 23) with
  | some r =>
    let a := s.addrOf v r
    (s.rowRefused v r).isNone && l.any (fun e => decide (e.1 ≤ a) && decide (a < e.1 + e.2))
  | none => false

/-- Write zeros with valid codes over every row of the extents: an unlisted cell reads so. -/
def State.zeroExtents (s : State) (l : List (Nat × Nat)) : State :=
  let rows (v : Nat) : List Nat := (l.flatMap (fun e => (List.range (cdiv e.2 2048)).map (fun i => s.locate (e.1 + 2048 * i)))).filterMap
    (fun (q : Nat × Nat) => if q.1 = v ∧ (s.rowRefused v q.2).isNone then some (s.rowLoc v q.2) else none)
  let s := { s with vault := s.vault.map (fun (p : Nat × Vault) =>
    let x := match p.2.svc.row with
      | some r => if l.any (fun e => decide (e.1 ≤ s.addrOf p.1 r) && decide (s.addrOf p.1 r < e.1 + e.2)) then
          { p.2 with svc := {} } else p.2
      | none => p.2
    (p.1, if x.lost.isSome then { x with known := x.known ++ rows p.1 } else x)) }
  { s with dram := s.dram.filter (fun p => !s.inExtents l p.1) }

/-- A block summary in its initial state (R230). -/
def initialSummary : List Byte := (List.range 2048).map (fun i => if i = 40 then 0x07 else 0)

/-- CAP_CTL.clear_areas (R225): zeros over the map, counter and log areas, then every summary in its initial state. -/
def State.clearAreas (s : State) (k : Nat) : State :=
  let g := s.capGeomOf k
  let s := s.rpaAbort k 4
  let s := s.zeroExtents [g.mapExt, g.ctrExt, g.logExt]
  let s := s.forAll (List.range g.nblk) (fun s b => (s.writeAt (g.ctrAddr b 0 0) initialSummary).1)
  (s.setBit (Reg.capStatus k) 17 true).modSite k (fun x => { x with ctrLines := [] })

/-! ### CAP_CTL (R225, R233) -/

def State.capCmd (s : State) (k c : Nat) : State := s.setFld (Reg.capStatus k) 28 4 c

/-- A write of CAP_CTL; `keyed` says that it falls in the requester's key window. -/
def State.capCtl (s : State) (req : Requester) (k : Nat) (v : Word) (keyed : Bool) : State :=
  let cmds := v.toNat % 16
  let inj := v.getLsbD 4
  let s := if inj && !keyed then s.keyRefused req.toNat (Reg.capCtl k) else s
  if 1 < popCount (BitVec.ofNat 4 cmds) then s.capCmd k 2
  else
    let armed := s.bit (Reg.capStatus k) 2
    let s := if inj && keyed then s.setBit (Reg.capStatus k) 2 true else s
    match cmds with
    | 1 => if s.seqRuns k then s.capCmd k 2 else (s.capClear k).capCmd k 1
    | 4 =>
      if s.seqRuns k then s.capCmd k 2
      else if s.bit (Reg.capCommit k) 31 || s.bit (Reg.capStatus k) 16 || s.bit (Reg.capStatus k) 17 then s.capCmd k 3
      else (s.clearAreas k).capCmd k 1
    | 8 =>
      if s.seqRuns k then s.capCmd k 2
      else if s.bit (Reg.capStatus k) 17 then s.capCmd k 3
      else if s.bit (Reg.capStatus k) 16 then s.capCmd k 1
      else (s.startFlush k).capCmd k 1
    | 0 => if !inj then s else if !keyed then s.capCmd k 5 else if armed then s.capCmd k 4 else s.capCmd k 1
    | _ => s

/-- CAP_CTL.inject_cmp (R210, R233). -/
def execCapInjectCmp (req : Requester) (k : SiteIx) (s : State) : Res :=
  fin s (s.onKeyed req (fun keyed s => s.capCtl req k 0x10 keyed))

/-- CAP_CTL.flush (R225). -/
def execCapFlush (req : Requester) (k : SiteIx) (s : State) : Res :=
  fin s (s.onKeyed req (fun keyed s => s.capCtl req k 0x8 keyed))

/-- CAP_CTL.clear_areas (R225). -/
def execCapClearAreas (req : Requester) (k : SiteIx) (s : State) : Res :=
  fin s (s.onKeyed req (fun keyed s => s.capCtl req k 0x4 keyed))

/-- CAP_CTL.clear_regs (R213, R233). -/
def execCapClearRegs (req : Requester) (k : SiteIx) (s : State) : Res :=
  fin s (s.onKeyed req (fun keyed s => s.capCtl req k 0x1 keyed))

/-! ### Events of the row cache -/

/-- The line open longest closes, 512 fc after it opened (R221). -/
def execLineClose (k : SiteIx) (s : State) : Res :=
  fin s (
    let x := s.getSite k
    match x.mapLines.find? (fun l => !l.closed) with
    | some l =>
      if l.openFc + 512 ≤ s.fc then
        s.setSite k { x with mapLines := x.mapLines.map (fun m => if m = l then { m with closed := true } else m) }
      else s
    | none => s)

/-- The first closed line is merged (R223). -/
def execFailmapMerge (k : SiteIx) (s : State) : Res := fin s (s.mergeFirst k)

/-- The head of the counter queue is applied, when its counter rows are held (R227, R228). -/
def execCounterUpdate (k : SiteIx) (s : State) : Res :=
  fin s (match (s.getSite k).ctrQueue with
    | u :: rest =>
      match s.missingRow k u with
      | none => (s.modSite k (fun x => { x with ctrQueue := rest })).applyUpdate k u
      | some _ => s
    | [] => s)

/-- A counter row that the head of the queue misses is loaded (R228). -/
def execCounterLineLoad (k : SiteIx) (s : State) : Res :=
  fin s (match (s.getSite k).ctrQueue with
    | u :: _ =>
      match s.missingRow k u with
      | some a => s.loadLine k a
      | none => s
    | [] => s)

/-- The last write of a flush completes (R225). -/
def execCapFlushDone (k : SiteIx) (s : State) : Res :=
  fin s (if s.flushReady k then
    ((s.writeBackCache k).setBit (Reg.capStatus k) 16 false).setBit (Reg.capIrqStat k) 7 true
  else s)

/-- clear_areas completes (R225, R238). -/
def execClearAreasDone (k : SiteIx) (s : State) : Res :=
  fin s (if s.bit (Reg.capStatus k) 17 then
    (s.setBit (Reg.capStatus k) 17 false).setBit (Reg.capIrqStat k) 8 true
  else s)

end Sys2Proof.Machine
end

