-- ==== Sys2Proof/Machine/Repair.lean ====
section
/-! DEFINITION. Repair analysis (08): must-repair and the bounded search as pure functions, the analysis of one block, and the
commands of RPA_CTL. -/

namespace Sys2Proof.Machine

/-! ### Must-repair, bound and search (R244, R246, R247) -/

/-- A node of the search: lines taken, spares left, uncovered cells (row, column). -/
structure RpaNode where
  rows : List Nat
  cols : List Nat
  r : Nat
  c : Nat
  cells : List (Nat × Nat)
  deriving DecidableEq, Repr

/-- A row or a column takes a spare, where one of its kind is left. -/
def RpaNode.takeRow (n : RpaNode) (x : Nat) : Option RpaNode :=
  if n.r = 0 then none
  else some { n with rows := insertNat x n.rows, r := n.r - 1, cells := n.cells.filter (fun p => p.1 != x) }

def RpaNode.takeCol (n : RpaNode) (x : Nat) : Option RpaNode :=
  if n.c = 0 then none
  else some { n with cols := insertNat x n.cols, c := n.c - 1, cells := n.cells.filter (fun p => p.2 != x) }

/-- Force the lines of a list in order, while each that `forced` names finds a spare: the node so far, and whether all did. -/
def RpaNode.force (take : RpaNode → Nat → Option RpaNode) (forced : RpaNode → Nat → Bool) : List Nat → RpaNode → RpaNode × Bool
  | [], n => (n, true)
  | x :: xs, n =>
    if forced n x then match take n x with
      | some m => m.force take forced xs
      | none => (n, false)
    else n.force take forced xs

/-- The distinct values of a list, rising. -/
def distinct (l : List Nat) : List Nat := l.foldl (fun acc x => insertNat x acc) []

/-- One must-repair pass: rows, then columns; false when a line is forced and no spare of its kind is left. -/
def RpaNode.pass (n : RpaNode) : RpaNode × Bool :=
  let (n, ok) := n.force RpaNode.takeRow (fun n x => decide (n.c < (n.cells.filter (fun p => p.1 == x)).length))
    (distinct (n.cells.map Prod.fst))
  if ok then n.force RpaNode.takeCol (fun n x => decide (n.r < (n.cells.filter (fun p => p.2 == x)).length))
    (distinct (n.cells.map Prod.snd))
  else (n, false)

/-- Passes until one changes nothing; each pass that changes something uses a spare. -/
def RpaNode.mustRepair : Nat → RpaNode → RpaNode × Bool
  | 0, n => (n, true)
  | f + 1, n =>
    let (m, ok) := n.pass
    if !ok ∨ (m.r = n.r ∧ m.c = n.c) then (m, ok) else m.mustRepair f

/-- Steps 4 and 5: none when the cells are proved unrepairable. -/
def RpaNode.settle (n : RpaNode) : Option RpaNode :=
  let (m, ok) := n.mustRepair (n.r + n.c + 1)
  if !ok || decide (2 * m.r * m.c < m.cells.length) then none else some m

structure RpaSol where
  rows : List Nat
  cols : List Nat
  deriving DecidableEq, Repr

def RpaSol.size (x : RpaSol) : Nat := x.rows.length + x.cols.length

/-- What the search has gathered: nodes used, solutions kept, and whether the limit or the list ended it. -/
structure RpaSearch where
  nodes : Nat := 0
  sols : List RpaSol := []
  limitHit : Bool := false
  ended : Bool := false
  deriving DecidableEq, Repr

/-- Insert a solution in the ranking order of min: spares, then columns, then the earlier find (R247). -/
def rankIn (x : RpaSol) : List RpaSol → List RpaSol
  | [] => [x]
  | y :: l =>
    if x.size < y.size ∨ (x.size = y.size ∧ x.cols.length < y.cols.length) then x :: y :: l else y :: rankIn x l

/-- Keep a solution under the policy; a set of lines already kept is discarded. -/
def RpaSearch.keep (t : RpaSearch) (min : Bool) (most : Nat) (x : RpaSol) : RpaSearch :=
  if t.sols.contains x then t
  else if min then { t with sols := (rankIn x t.sols).take most }
  else
    let l := t.sols ++ [x]
    { t with sols := l, ended := decide (most ≤ l.length) }

/-- Visit a settled node depth first; `fuel` bounds the spares left. -/
def RpaSearch.visit (min : Bool) (most limit : Nat) : Nat → RpaNode → RpaSearch → RpaSearch
  | 0, _, t => t
  | f + 1, n, t =>
    let full := min && decide (most ≤ t.sols.length)
    let worst := (t.sols.getLast?.map RpaSol.size).getD 0
    if full && decide (worst ≤ n.rows.length + n.cols.length) then t
    else match n.cells with
      | [] => t.keep min most { rows := n.rows, cols := n.cols }
      | c :: cs =>
        let low := cs.foldl (fun (a b : Nat × Nat) => if b.1 < a.1 ∨ (b.1 = a.1 ∧ b.2 < a.2) then b else a) c
        let branch (t : RpaSearch) (o : Option RpaNode) : RpaSearch :=
          match o with
          | none => t
          | some m =>
            if t.ended || t.limitHit then t
            else if limit ≤ t.nodes then { t with limitHit := true }
            else
              let t := { t with nodes := t.nodes + 1 }
              match m.settle with
              | none => t
              | some m => RpaSearch.visit min most limit f m t
        branch (branch t (n.takeRow low.1)) (n.takeCol low.2)

/-! ### Scanning the bitmap (R244, R245) -/

/-- The values an analysis snapshots (08, Blocks and spares). -/
def RpaJob.geo (j : RpaJob) : CapGeom := .ofRegs j.geom j.nblk j.spare 0 j.mapBase j.ctrBase 0

/-- The failing cells of fail-map row `m` of a block. -/
def CapGeom.cellsOf (g : CapGeom) (m : Nat) (d : List Byte) : List (Nat × Nat) :=
  ((List.range 2048).zip d).flatMap (fun p =>
    if p.2 = 0 then []
    else (List.range 8).filterMap (fun i =>
      let n := m * 16384 + p.1 * 8 + i
      if p.2.getLsbD i && decide (n < g.rows * g.cols) then some (n / g.cols, n % g.cols) else none))

/-- How a scan ended. -/
inductive ScanEnd where
  | complete
  | overflow
  | poisoned
  | unreadable
  deriving DecidableEq, Repr

/-- Read the listed fail-map rows of block `b`, gathering the cells that `keep` admits; it stops past `most` cells, or at a row
that is poisoned or cannot be read. -/
def State.scanRows (s : State) (g : CapGeom) (b : Nat) (keep : Nat × Nat → Bool) (most : Nat) (acc : List (Nat × Nat)) :
    List Nat → State × List (Nat × Nat) × ScanEnd
  | [] => (s, acc, .complete)
  | m :: ms =>
    match s.readAt (g.mapBase + 2048 * (b * g.blockRows + m)) srcRepair with
    | (t, .ok d) =>
      let acc := acc ++ (g.cellsOf m d).filter keep
      if most < acc.length then (t, acc, .overflow) else t.scanRows g b keep most acc ms
    | (t, .poisoned _) => (t, acc, .poisoned)
    | (t, .refused _) => (t, acc, .unreadable)

/-- The bytes of `n` rows from address `a`, and how the reading ended: it stops at a row that is poisoned or cannot be read (R277). -/
def State.readArea (s : State) (a : Nat) : Nat → State × List Byte × ScanEnd
  | 0 => (s, [], .complete)
  | n + 1 =>
    match s.readAt a srcRepair with
    | (t, .ok d) =>
      let (t, rest, e) := t.readArea (a + 2048) n
      (t, d ++ rest, e)
    | (t, .poisoned d) => (t, d, .poisoned)
    | (t, .refused _) => (t, [], .unreadable)

/-- The fail-map rows a targeted scan reads: those that hold a DUT row whose counter is not 0 and that is not trusted. -/
def CapGeom.targets (g : CapGeom) (ctr : List Byte) (trusted : List Nat) : List Nat :=
  let rows := ((List.range g.rows).zip ctr).filterMap (fun p =>
    if p.2 != 0 && !trusted.contains p.1 then some p.1 else none)
  distinct (rows.flatMap (fun r =>
    let lo := r * g.cols / 16384
    (List.range ((r * g.cols + g.cols - 1) / 16384 - lo + 1)).map (lo + ·)))

/-! ### Result records (R248, R250) -/

structure RpaResult where
  result : Nat
  flags : Nat := 0
  full : Bool := false
  ignored : Bool := false
  mrRows : Nat := 0
  mrCols : Nat := 0
  found : Nat := 0
  after : Nat := 0
  nodes : Nat := 0
  sols : List RpaSol := []

def padTo (n : Nat) (l : List Byte) : List Byte := l.take n ++ List.replicate (n - l.length) 0

/-- The 8 KiB record of a block. -/
def RpaResult.record (x : RpaResult) (sr sc elapsed : Nat) : List Byte :=
  let head := leBytes 1 x.result ++ leBytes 1 x.flags ++ leBytes 1 x.sols.length
    ++ leBytes 1 (bitN x.full + 2 * bitN x.ignored) ++ leBytes 1 sr ++ leBytes 1 sc ++ leBytes 1 x.mrRows
    ++ leBytes 1 x.mrCols ++ leBytes 4 x.found ++ leBytes 4 x.after ++ leBytes 4 x.nodes ++ leBytes 4 0
    ++ leBytes 8 elapsed
  let counts := x.sols.flatMap (fun y => leBytes 4 (y.rows.length + y.cols.length * 2 ^ 8))
  let lines := x.sols.flatMap (fun y => padTo 256 ((y.rows ++ y.cols).flatMap (leBytes 4)))
  padTo 8192 (padTo 256 (padTo 64 head ++ counts) ++ lines)

/-- Write a record: its three last rows, then the header row (R242). -/
def State.writeRecord (s : State) (a : Nat) (rec : List Byte) : State :=
  [1, 2, 3, 0].foldl (fun s i => (s.writeAt (a + 2048 * i) ((rec.drop (2048 * i)).take 2048)).1) s

/-! ### The analysis of one block (R244 to R248) -/

/-- The solutions and the result of uncovered cells at a node with the trusted lines taken. -/
def rpaSolve (root : RpaNode) (cfg : Word) (limit : Nat) : RpaResult :=
  let (n, ok) := root.mustRepair (root.r + root.c + 1)
  let fixed : RpaResult := { result := 4, mrRows := n.rows.length, mrCols := n.cols.length }
  if !ok then fixed
  else
    let base : RpaResult := { fixed with after := n.cells.length }
    if n.cells.isEmpty then
      { base with result := if n.rows.isEmpty && n.cols.isEmpty then 1 else 2, sols := [{ rows := n.rows, cols := n.cols }] }
    else if 2 * n.r * n.c < n.cells.length then base
    else
      let t := RpaSearch.visit (cfg.getLsbD 4) (fldOf cfg 0 4 + 1) limit (n.r + n.c + 1) n {}
      let res := match t.sols.isEmpty, t.limitHit with
        | false, true => 3
        | false, false => 2
        | true, true => 5
        | true, false => 4
      { base with result := res, nodes := t.nodes, sols := t.sols }

/-- The code of a block that meets a row it cannot read, which no rule states: any of the codes that list no solution (log entry 5). -/
def State.openResult (s : State) : Nat := [0, 4, 5, 6, 7, 8, 15].getD ((Config.freeWord s.free).toNat % 7) 0

/-- A block that a row stops: 0x8 where it is poisoned (R245, R277), else open. -/
def State.rpaStops (s : State) (base : RpaResult) (e : ScanEnd) : State × RpaResult :=
  match e with
  | .poisoned => (s, { base with result := 8 })
  | .overflow => (s, { base with result := 7 })
  | _ => (s.tickFree, { base with result := s.openResult })

/-- The rows that the scan of a block reads (R244 steps 2 and 3), with the trusted rows `tr`. -/
def State.scanList (s : State) (g : CapGeom) (b : Nat) (full : Bool) (tr : List Nat) : State × List Nat × ScanEnd :=
  if full then (s, List.range g.blockRows, .complete)
  else
    let (s, ctr, e) := s.readArea (g.ctrAddr b 1 0) (cdiv g.rows 2048)
    (s, g.targets ctr tr, e)

/-- An analysis of block `b`: the state after the reads, and its result. -/
def State.rpaAnalyse (s : State) (j : RpaJob) (b : Nat) : State × RpaResult :=
  let g := j.geo
  let (s, sum, e) := s.readArea (g.ctrAddr b 0 0) 1
  let flags := getLe sum 40 1
  let exactC := flags.testBit 0
  let complete := flags.testBit 1
  let base : RpaResult := { result := 6, flags := flags, ignored := !exactC }
  if e ≠ .complete then s.rpaStops base e
  else if !flags.testBit 2 then (s, base)
  else if flags.testBit 4 && exactC then (s, { base with result := 4 })
  else
    let trust := exactC && complete
    let tr := if trust then (List.range (min 32 (getLe sum 41 1))).map (fun i => getLe sum (48 + 4 * i) 4) else []
    let tc := if trust then (List.range (min 32 (getLe sum 42 1))).map (fun i => getLe sum (176 + 4 * i) 4) else []
    let full := !complete || j.cfg.getLsbD 5
    let base := { base with full := full, mrRows := (distinct tr).length, mrCols := (distinct tc).length }
    let (s, ms, e) := s.scanList g b full tr
    if e ≠ .complete then s.rpaStops base e
    else
      let (s, cells, e) := s.scanRows g b (fun p => !tr.contains p.1 && !tc.contains p.2) 8192 [] ms
      let base := { base with found := cells.length }
      if e ≠ .complete then s.rpaStops base e
      else if g.spareRows < tr.length ∨ g.spareCols < tc.length then (s, { base with result := 4 })
      else
        let root : RpaNode := ⟨distinct tr, distinct tc, g.spareRows - tr.length, g.spareCols - tc.length, cells⟩
        let x := rpaSolve root j.cfg j.limit
        (s, { x with flags := flags, ignored := !exactC, full := full, found := cells.length })

/-! ### Rebuild (R254) -/

def countOf (l : List Nat) (x : Nat) : Nat := (l.filter (fun y => y == x)).length

/-- The lines of a list of line numbers in scan order whose count passes `lim`, in the order in which they pass it. -/
def flaggedLines (lim : Nat) (l : List Nat) : List Nat :=
  (l.foldl (fun (p : List Nat × List Nat) x =>
    let seen := x :: p.1
    (seen, if countOf seen x = lim + 1 then p.2 ++ [x] else p.2)) ([], [])).2

/-- A part of `rows` rows holding saturating counts of `n` lines. -/
def counterPart (rows n : Nat) (l : List Nat) : List Byte :=
  padTo (rows * 2048) ((List.range n).map (fun i => BitVec.ofNat 8 (min 255 (countOf l i))))

/-- A part of `rows` rows with the listed bits set. -/
def bitPart (rows : Nat) (l : List Nat) : List Byte :=
  (List.range (rows * 2048)).map (fun j =>
    BitVec.ofNat 8 ((l.filter (fun i => i / 8 == j)).foldl (fun m i => m ||| 2 ^ (i % 8)) 0))

/-- The summary after a rebuild from the given cells. -/
def rebuiltSummary (g : CapGeom) (cells : List (Nat × Nat)) (d : List Byte) : List Byte :=
  let fr := flaggedLines g.spareCols (cells.map Prod.fst)
  let fc := flaggedLines g.spareRows (cells.map Prod.snd)
  let d := putLe d 0 8 cells.length
  let d := setFlag (setFlag d 40 0) 40 1
  let d := if g.spareRows < min 33 fr.length ∨ g.spareCols < min 33 fc.length then setFlag d 40 4 else clrFlag d 40 4
  let d := putLe (putLe d 41 1 (min 33 fr.length)) 42 1 (min 33 fc.length)
  putBytes (putBytes d 48 (padTo 128 (fr.flatMap (leBytes 4)))) 176 (padTo 128 (fc.flatMap (leBytes 4)))

/-- Write whole rows from address `a` on. -/
def State.writeArea (s : State) (a : Nat) (d : List Byte) : State :=
  (List.range (d.length / 2048)).foldl (fun s i => (s.writeAt (a + 2048 * i) ((d.drop (2048 * i)).take 2048)).1) s

/-- The counter lines of block `b` that are still in the capture unit are given up: the rebuild has written their rows anew (R254). -/
def State.dropLines (s : State) (k : Nat) (g : CapGeom) (b : Nat) : State :=
  s.modSite k (fun x => { x with ctrLines := x.ctrLines.filter (fun l =>
    decide (l.addr < g.ctrAddr b 0 0) || decide (g.ctrAddr (b + 1) 0 0 ≤ l.addr)) })

/-- A rebuild of block `b` of site `k`. -/
def State.rpaRebuild (s : State) (k : Nat) (j : RpaJob) (b : Nat) : State × RpaResult :=
  let g := j.geo
  let (s, sum, e) := s.readArea (g.ctrAddr b 0 0) 1
  let flags := getLe sum 40 1
  let base : RpaResult := { result := 0, flags := flags, full := true, ignored := !flags.testBit 0 }
  if e ≠ .complete then s.rpaStops base e
  else
    let (s, cells, e) := s.scanRows g b (fun _ => true) (g.rows * g.cols) [] (List.range g.blockRows)
    let base := { base with found := cells.length }
    if e ≠ .complete then s.rpaStops base e
    else
      let p := g.parts
      let fr := flaggedLines g.spareCols (cells.map Prod.fst)
      let fc := flaggedLines g.spareRows (cells.map Prod.snd)
      let s := s.modAt (g.ctrAddr b 0 0) srcRepair (rebuiltSummary g cells)
      let s := s.writeArea (g.ctrAddr b 1 0) (counterPart (p.getD 1 0) g.rows (cells.map Prod.fst))
      let s := s.writeArea (g.ctrAddr b 2 0) (counterPart (p.getD 2 0) g.cols (cells.map Prod.snd))
      let s := s.writeArea (g.ctrAddr b 3 0) (bitPart (p.getD 3 0) fr)
      let s := s.writeArea (g.ctrAddr b 4 0) (bitPart (p.getD 4 0) fc)
      let s := s.writeArea (g.ctrAddr b 5 0) (bitPart (p.getD 5 0)
        (cells.map (fun c => c.1 / 64 * cdiv g.cols 64 + c.2 / 64)))
      (s.dropLines k g b, { base with result := if flags.testBit 2 then 0 else 6 })

/-! ### Starting (R241, R242) -/

/-- Two extents, each an address and a length, share a byte. -/
def overlaps (a b : Nat × Nat) : Bool :=
  decide (0 < a.2) && decide (0 < b.2) && decide (a.1 < b.1 + b.2) && decide (b.1 < a.1 + a.2)

/-- The records of the blocks `first` to `last`: address and length. -/
def solExt (base first last : Nat) : Nat × Nat := (base + 8192 * first, 8192 * (last + 1 - first))

/-- The cmd_status of a start or rebuild (R241): none where it is accepted. -/
def State.rpaRefused (s : State) (k : Nat) : Option Nat :=
  let g := s.capGeomOf k
  let range := s.rdAct (Reg.rpaRange k)
  let sol := solExt (s.pairAct (Reg.rpaSolBase k 0)) (fldOf range 0 8) (fldOf range 8 8)
  if s.siteBusy k then some 2
  else if s.bit (Reg.rpaStatus k) 0 || s.bit (Reg.capStatus k) 16 || s.bit (Reg.capStatus k) 17
      || s.bit (Reg.capCommit k) 31 || s.bit (Reg.rpaCommit k) 31 then some 3
  else if g.nblk ≤ fldOf range 8 8 || [g.mapExt, g.ctrExt, g.logExt].any (overlaps sol) then some 4
  else none

/-- Start an analysis or a rebuild, or record why not (R241, R242). -/
def State.rpaBegin (s : State) (k : Nat) (rebuild : Bool) : State :=
  match s.rpaRefused k with
  | some c => s.setFld (Reg.rpaStatus k) 28 4 c
  | none =>
    let range := s.rdAct (Reg.rpaRange k)
    let first := fldOf range 0 8
    let last := fldOf range 8 8
    let base := s.pairAct (Reg.rpaSolBase k 0)
    let s := s.forAll (List.range (last + 1 - first)) (fun s i =>
      s.patchAt (base + 8192 * (first + i)) srcRepair [0x0F])
    let s := s.modSite k (fun x => { x with job :=
      { geom := s.rdAct (Reg.capGeom k), nblk := s.rdAct (Reg.capNblk k), mapBase := s.pairAct (Reg.capMapBase k 0)
        ctrBase := s.pairAct (Reg.capCtrBase k 0), spare := s.rdAct (Reg.capSpare k), solBase := base
        cfg := s.rdAct (Reg.rpaCfg k), limit := (s.rdAct (Reg.rpaNodeLimit k)).toNat, last := last } })
    s.wr (Reg.rpaStatus k) (BitVec.ofNat 32 (2 ^ 28 + first * 2 ^ 16 + 2 * bitN rebuild + 1))

/-- The automatic start at the moment drained becomes 1 (R241). -/
def State.rpaAuto (s : State) (k : Nat) : State := if s.fldAct (Reg.rpaCfg k) 6 1 = 1 then s.rpaBegin k false else s

/-- A write of RPA_CTL (R241, R257). -/
def State.rpaCtl (s : State) (k : Nat) (v : Word) : State :=
  match v.toNat % 8 with
  | 0 => s
  | 1 => s.rpaBegin k false
  | 2 => s.rpaBegin k true
  | 4 => s.rpaAbort k 2
  | _ => s.setFld (Reg.rpaStatus k) 28 4 2

def execRpaStart (req : Requester) (k : SiteIx) (s : State) : Res := fin s (s.onWrite req (fun s => s.rpaCtl k 1))
def execRpaRebuild (req : Requester) (k : SiteIx) (s : State) : Res := fin s (s.onWrite req (fun s => s.rpaCtl k 2))
def execRpaAbort (req : Requester) (k : SiteIx) (s : State) : Res := fin s (s.onWrite req (fun s => s.rpaCtl k 4))

/-- The analysis in progress is at its end after block `b`: an abort taken in the bc of the last record wins (R261); with the last record it
completes (R258, R260). -/
def State.rpaNext (s : State) (k b : Nat) (abort : Option (Fin 4)) : State :=
  let st := Reg.rpaStatus k
  match abort with
  | some i => s.rpaAbort k (2 + i.val)
  | none =>
    if b < (s.getSite k).job.last then s.setFld st 16 8 (b + 1)
    else ((s.setBit st 0 false).setFld st 24 4 1).setBit (Reg.rpaIrqStat k) 0 true

/-- The block in progress finishes and its record is written (R242, R244, R250). -/
def execRpaBlockDone (k : SiteIx) (e : RpaEnd) (s : State) : Res :=
  fin s (
    let st := Reg.rpaStatus k
    if !s.bit st 0 then s
    else
      let j := (s.getSite k).job
      let b := s.fld st 16 8
      let (s, x) := if s.bit st 1 then s.rpaRebuild k j b else s.rpaAnalyse j b
      let s := s.writeRecord (j.solBase + 8192 * b) (x.record j.geo.spareRows j.geo.spareCols e.elapsed.toNat)
      let s := if [3, 5, 6, 7, 8].contains x.result then s.setBit (Reg.rpaIrqStat k) 2 true else s
      let s := if x.result = 4 then s.setBit (Reg.rpaIrqStat k) 1 true else s
      (s.setFld st 7 9 (s.fld st 7 9 + 1)).rpaNext k b e.abort)

end Sys2Proof.Machine
end

