-- ==== Sys2Proof/Machine/HostOps.lean ====
section
/-! DEFINITION. Shared operations of the host interface, the network and the scratchpad (12): regions, locks and leases, isolation,
DMA engines, MSI-X, BAR4. -/

namespace Sys2Proof.Machine

/-! ### The scratchpad (R374 to R376) -/

/-- An enabled region of requester `req` covers the access with the permission it needs (R375). -/
def State.spdAllowed (s : State) (req a n : Nat) (wr : Bool) : Bool :=
  (List.range 8).any (fun r =>
    let w := s.rd (Reg.spdRegion req r + 0x1000)
    w.getLsbD 31 && w.getLsbD (if wr then 30 else 29) && decide (fldOf w 0 14 * 4096 ≤ a)
      && decide (a + n ≤ (fldOf w 14 14 + 1) * 4096))

/-- The range touches the staging area while the configuration controller holds its lease (R377). -/
def State.inStaging (s : State) (a n : Nat) : Bool :=
  let base := (s.rdAct Reg.cfgStageBase).toNat
  s.host.staging && decide (a < base + (s.rdAct Reg.cfgStageLen).toNat) && decide (base < a + n)

/-- The configuration controller, requester 5, holds the staging lease, and the range lies in the staging area (R375, R378). -/
def State.stagingOwn (s : State) (a n : Nat) : Bool :=
  let base := (s.rdAct Reg.cfgStageBase).toNat
  s.host.staging && decide (base ≤ a) && decide (a + n ≤ base + (s.rdAct Reg.cfgStageLen).toNat)

def State.spdMay (s : State) (req a n : Nat) (wr : Bool) : Bool :=
  if req = 5 then s.stagingOwn a n else s.spdAllowed req a n wr && !(wr && s.inStaging a n)

/-- A denied access is logged (R375, R376). -/
def State.spdDenied (s : State) (req a : Nat) (wr : Bool) : State :=
  (s.pushQ Reg.spdErrLog 16 (BitVec.ofNat 32 ((if wr then 2 ^ 29 else 0) + req % 32 * 2 ^ 24 + a / 4096 % 2 ^ 14))).setBit Reg.spdEvt 0 true

/-- A write by another requester than the hart to the word an LR has reserved loses the reservation (R382): `a` is the core
address of the bytes. -/
def State.breakResv (s : State) (req a n : Nat) : State :=
  if req ≠ 3 ∧ s.cpu.resv.any (fun w => decide (a < w / 4 * 4 + 4) && decide (w / 4 * 4 < a + n)) then
    { s with cpu := { s.cpu with resv := none } }
  else s

/-- A read of the scratchpad: the bytes, none where it is denied. -/
def State.spdRead (s : State) (req a n : Nat) : State × Option (List Byte) :=
  if s.spdMay req a n false then (s, some (s.spdBytes a n)) else (s.spdDenied req a false, none)

/-- A write of the scratchpad; whether it was allowed. -/
def State.spdWrite (s : State) (req a : Nat) (bs : List Byte) : State × Bool :=
  if s.spdMay req a bs.length true then ((s.spdPut a bs).breakResv req (0x60000000 + a) bs.length, true)
  else (s.spdDenied req a true, false)

/-! ### Scratchpad locks (R379) -/

def State.lockHolder (s : State) (n : Nat) : Option Nat := Sparse.get (fun _ => none) s.host.locks n

def State.setLock (s : State) (n : Nat) (h : Option Nat) : State :=
  { s with host := { s.host with locks := Sparse.set (fun _ => none) s.host.locks n h } }

/-- What a read of lock `n` by `req` returns. -/
def State.lockValue (s : State) (req n : Nat) : Word :=
  match s.lockHolder n with
  | none => BitVec.ofNat 32 (2 ^ 31 + req % 32)
  | some h => if h = req then BitVec.ofNat 32 (2 ^ 31 + req % 32) else BitVec.ofNat 32 (2 ^ 30 + h % 32)

/-- An ordinary read grants a free lock to the reader. -/
def State.lockAcquire (s : State) (req n : Nat) : State :=
  if (s.lockHolder n).isNone then s.setLock n (some req) else s

/-- A write by the holder releases the lock. -/
def State.lockRelease (s : State) (req n : Nat) : State := if s.lockHolder n = some req then s.setLock n none else s

/-! ### DMA engines (R367 to R369) -/

def State.getDma (s : State) (e : Nat) : Dma := Sparse.get (fun _ => {}) s.host.dma e
def State.setDma (s : State) (e : Nat) (d : Dma) : State :=
  { s with host := { s.host with dma := Sparse.set (fun _ => {}) s.host.dma e d } }

def dmaStopped : Nat := 0
def dmaRunning : Nat := 1
def dmaStopping : Nat := 2
def dmaError : Nat := 3

def State.dmaState (s : State) (e : Nat) : Nat := s.fld (Reg.glbDmaStat e) 29 3
def State.setDmaState (s : State) (e c : Nat) : State := s.setFld (Reg.glbDmaStat e) 29 3 c

/-- Descriptors queued by producer index `head`: (head − tail) mod 2^16. -/
def State.dmaQueued (s : State) (e head : Nat) : Nat := (head + 2 ^ 16 - s.fld (Reg.glbDmaTail e) 0 16) % 2 ^ 16

/-- The engine has a descriptor in progress: it runs or stops, and one is queued. -/
def State.dmaBusy (s : State) (e : Nat) : Bool :=
  (s.dmaState e == dmaRunning || s.dmaState e == dmaStopping) && decide (0 < s.dmaQueued e (s.fld (Reg.glbDmaHead e) 0 16))

/-- The ring lies in the scratchpad. -/
def State.dmaInSpd (s : State) (e : Nat) : Bool := s.bit (Reg.glbDmaRingHi e) 31

/-- The address of the descriptor in progress. -/
def State.dmaDescAddr (s : State) (e : Nat) : Nat :=
  (s.rd (Reg.glbDmaRingLo e)).toNat + s.fld (Reg.glbDmaRingHi e) 0 31 * 2 ^ 32
    + 32 * (s.fld (Reg.glbDmaTail e) 0 16 % 2 ^ s.fld (Reg.glbDmaSize e) 0 5)

structure DmaDesc where
  src : Nat
  dst : Nat
  len : Nat
  ctl : Word
  deriving DecidableEq, Repr

def DmaDesc.ofBytes (l : List Byte) : DmaDesc :=
  { src := leAt l 0 8, dst := leAt l 8 8, len := leAt l 16 4, ctl := BitVec.ofNat 32 (leAt l 20 4) }

/-- The space of a device range: true DRAM, false scratchpad, none invalid (R367). -/
def devSpace (a n : Nat) : Option Bool :=
  if a + n ≤ 2 ^ 41 then some true
  else if 2 ^ 44 ≤ a ∧ a + n ≤ 2 ^ 44 + 2 ^ 26 then some false
  else none

/-- A descriptor that R367 calls invalid. -/
def DmaDesc.bad (d : DmaDesc) : Bool :=
  d.len == 0 || decide (0x1000000 < d.len) || fldOf d.ctl 5 27 != 0 || (!d.ctl.getLsbD 0 && !d.ctl.getLsbD 1)
    || (d.ctl.getLsbD 0 && (devSpace d.src d.len).isNone) || (d.ctl.getLsbD 1 && (devSpace d.dst d.len).isNone)

/-- Cut a range at 4 KiB boundaries: (address, offset into the range, length). -/
def pageCuts (a n : Nat) : List (Nat × Nat × Nat) :=
  (List.range ((a % 4096 + n + 4095) / 4096)).map (fun i =>
    let lo := max a ((a / 4096 + i) * 4096)
    (lo, lo - a, min (a + n) ((a / 4096 + i + 1) * 4096) - lo))

/-- How many bytes of a device range an engine of requester `req` reaches before the first refusal. -/
def State.devReach (s : State) (req a n : Nat) (wr : Bool) : Nat :=
  match devSpace a n with
  | some true =>
    (((rowCuts a n).find? (fun c => let (v, r) := s.locate c.1; (s.rowRefused v r).isSome)).map (fun c => c.2.1)).getD n
  | some false =>
    (((pageCuts (a - 2 ^ 44) n).find? (fun c => !s.spdMay req c.1 c.2.2 wr)).map (fun c => c.2.1)).getD n
  | none => 0

/-- Read bytes that the engine reaches; whether any was poisoned. -/
def State.devRead (s : State) (req a n : Nat) : State × List Byte × Bool :=
  if a < 2 ^ 44 then
    let (t, bs, _, ep) := (s.serveFirst a n).readBytes a n req
    (t, bs, ep)
  else (s, s.spdBytes (a - 2 ^ 44) n, false)

def State.devWrite (s : State) (req a : Nat) (bs : List Byte) : State :=
  if a < 2 ^ 44 then ((s.serveFirst a bs.length).writeBytes a bs req).1
  else (s.spdPut (a - 2 ^ 44) bs).breakResv req (0x60000000 + (a - 2 ^ 44)) bs.length

/-- The refused access itself: the vault's event, or the entry of SPD_ERR_LOG. -/
def State.devRefuse (s : State) (req a : Nat) (wr : Bool) : State :=
  if a < 2 ^ 44 then
    let (v, r) := s.locate a
    match s.rowRefused v r with
    | some b => s.setBit (Reg.vltEvt v) b true
    | none => s
  else s.spdDenied req (a - 2 ^ 44) wr

/-- A row that the descriptor uses is reserved by another requester (R377). -/
def State.dmaWaits (s : State) (req : Nat) (d : DmaDesc) : Bool :=
  (d.ctl.getLsbD 0 && devSpace d.src d.len == some true && s.accessWaits req d.src d.len)
    || (d.ctl.getLsbD 1 && devSpace d.dst d.len == some true && s.accessWaits req d.dst d.len)

/-- The ring's lease ends (R377). -/
def State.dmaLeaseEnds (s : State) (e : Nat) : State := s.setDma e { s.getDma e with holder := none }

/-- The engine writes the status and moved words of the descriptor in progress, which an isolated interface does not inject (R380), sends
its interrupt, and moves its consumer index on; `fatal` stops it in state error (R368, R369). -/
def State.dmaStatus (s : State) (e code : Nat) (moved : Word) (irq fatal : Bool) : State :=
  let words := leBytes 4 (2 ^ 31 + code * 2 ^ 28) ++ leBytes 4 moved.toNat
  let s :=
    if !s.reaches (BitVec.ofNat 5 (1 + e)) then s
    else if s.dmaInSpd e then (s.spdWrite (1 + e) (s.dmaDescAddr e + 24) words).1
    else { s with host := { s.host with toHost := s.host.toHost ++ words } }
  let st := Reg.glbDmaStat e
  let s := if code ≤ 1 then s.setFld st 0 16 (s.fld st 0 16 + 1) else s
  let s := s.setFld (Reg.glbDmaTail e) 0 16 (s.fld (Reg.glbDmaTail e) 0 16 + 1)
  let s :=
    if fatal then ((s.setFld st 26 3 code).setDmaState e dmaError).dmaLeaseEnds e
    else if s.dmaState e = dmaStopping then (s.setDmaState e dmaStopped).dmaLeaseEnds e
    else s
  if irq then s.sendMsg (32 + e) else s

/-- The descriptor in progress ends. `desc` is what the engine read from a ring in host memory, `hostData` what it read from the host
as source; `hostErr` says that a host access failed, or nothing moved for GLB_DMA_TMO; `m` is how many bytes had moved where the
descriptor did not complete; `o` is what the checks of the scratchpad words report (R374). -/
def State.dmaEnd (s : State) (e : Nat) (desc hostData : List Byte) (hostErr : Bool) (m : Nat) (o : DmaObs) : State :=
  let req := 1 + e
  let s := { s with host := { s.host with toHost := [], toHostEp := false } }
  let (s, fetched) :=
    if s.dmaInSpd e then
      match s.spdRead req (s.dmaDescAddr e) 32 with
      | (t, some l) => (t.spdChecked o.ring, some (flipBytes o.ring l))
      | (t, none) => (t, none)
    else (s, some desc)
  match fetched with
  | none => s.dmaStatus e 2 (Config.freeWord s.free) false true |>.tickFree
  | some l =>
    let d := DmaDesc.ofBytes l
    let irq := d.ctl.getLsbD 2
    if d.bad then s.tickFree.dmaStatus e 4 (Config.freeWord s.free) irq true
    else
      let src := d.ctl.getLsbD 0
      let dst := d.ctl.getLsbD 1
      let rp := if src then s.devReach req d.src d.len false else d.len
      let wp := if dst then s.devReach req d.dst d.len true else d.len
      let whole := !hostErr && rp == d.len && wp == d.len
      let k := if whole then d.len else min m (min rp wp)
      let (s, data, ep) := if src then s.devRead req d.src k else (s, hostData.take k ++ List.replicate (k - hostData.length) 0, false)
      let fromSpd := src && devSpace d.src d.len == some false && decide (0 < k)
      let s := if fromSpd then s.spdChecked o.data else s
      let data := if fromSpd then flipBytes o.data data else data
      let ep := ep || (fromSpd && o.data.double)
      let s := if dst then s.devWrite req d.dst data else { s with host := { s.host with toHost := data, toHostEp := ep } }
      let s :=
        if hostErr || whole then s
        else if rp < d.len then s.devRefuse req (d.src + rp) false
        else s.devRefuse req (d.dst + wp) true
      let code := if hostErr then 3 else if !whole then 2 else if ep then 1 else 0
      s.dmaStatus e code (BitVec.ofNat 32 k) irq (decide (2 ≤ code) || (code == 1 && d.ctl.getLsbD 4))

/-- The descriptor in progress is aborted with code 5: none of its bytes has moved, and the spec states no moved word. An engine with
none in progress stops. -/
def State.dmaAbort (s : State) (e : Nat) : State :=
  if s.dmaBusy e then
    let irq :=
      if s.dmaInSpd e then (DmaDesc.ofBytes (s.spdBytes (s.dmaDescAddr e) 32)).ctl.getLsbD 2 else Config.freeBit s.free
    s.tickFree.dmaStatus e 5 (Config.freeWord s.free) irq true
  else if s.dmaState e = dmaRunning ∨ s.dmaState e = dmaStopping then (s.setDmaState e dmaStopped).dmaLeaseEnds e
  else s

/-- A write of GLB_DMA_CTL: go clears head_err and the last error code in every state (R369). A write with several bits has no effect (log
entry 29). -/
def State.dmaCtl (s : State) (req : Requester) (e : Nat) (v : Word) : State :=
  let st := s.dmaState e
  match fldOf v 0 4 with
  | 1 =>
    let s := (s.setBit (Reg.glbDmaStat e) 25 false).setFld (Reg.glbDmaStat e) 26 3 0
    if st = dmaStopped ∨ st = dmaError then
      (s.wr (Reg.glbDmaStat e) (BitVec.ofNat 32 (dmaRunning * 2 ^ 29))).setDma e { holder := some req.toNat }
    else s
  | 2 =>
    if st = dmaRunning then
      if s.dmaBusy e then s.setDmaState e dmaStopping else (s.setDmaState e dmaStopped).dmaLeaseEnds e
    else s
  | 4 => s.dmaAbort e
  | 8 => if st = dmaStopped ∨ st = dmaError then (s.wr (Reg.glbDmaHead e) 0).wr (Reg.glbDmaTail e) 0 else s
  | _ => s

/-- A write of GLB_DMA_HEAD: refused with head_err where it queues more than the ring holds (R369). -/
def State.dmaHead (s : State) (e v : Nat) : State :=
  if 2 ^ s.fld (Reg.glbDmaSize e) 0 5 < s.dmaQueued e v then s.setBit (Reg.glbDmaStat e) 25 true
  else s.setFld (Reg.glbDmaHead e) 0 16 v

/-! ### Leases that run out (R377, R378) -/

/-- The lease of lock `n` ends by timeout. -/
def State.lockExpires (s : State) (n : Nat) : State :=
  if (s.lockHolder n).isSome && s.fld Reg.spdLockTmo 0 16 != 0 then (s.setLock n none).setBit Reg.spdEvt 2 true else s

/-- The reservation of the service buffer of vault `v` ends by timeout. -/
def State.reservationExpires (s : State) (v : Nat) : State :=
  if (s.getVault v).reserve.isSome then (s.modVault v (fun x => { x with reserve := none })).setBit Reg.nocEvt 4 true else s

/-- The descriptor in progress as the engine reads it: `desc` from a ring in host memory. -/
def State.dmaFetched (s : State) (e : Nat) (desc : List Byte) (o : DmaObs) : DmaDesc :=
  DmaDesc.ofBytes (if s.dmaInSpd e then flipBytes o.ring (s.spdBytes (s.dmaDescAddr e) 32) else desc)

/-- The engine can go on with its descriptor: it has one, its interface is not isolated, and no row is reserved by another. -/
def State.dmaMayEnd (s : State) (e : Nat) (desc : List Byte) (o : DmaObs) : Bool :=
  s.dmaBusy e && s.reaches (BitVec.ofNat 5 (1 + e)) && !s.dmaWaits (1 + e) (s.dmaFetched e desc o)

/-! ### Isolation (R378, R380) -/

/-- The leases of requester `i` are revoked: locks, reservations, rings and the staging lease (R377, R378). -/
def State.revoke (s : State) (i : Nat) : State :=
  let s := if s.host.locks.any (fun p => p.2 == some i) then s.setBit Reg.spdEvt 2 true else s
  let s : State := { s with host := { s.host with locks := s.host.locks.filter (fun p : Nat × Option Nat => p.2 != some i) } }
  let holds (x : Vault) : Bool := x.reserve.any (fun h => h.1 == i)
  let s := if s.vault.any (fun p => holds p.2) then s.setBit Reg.nocEvt 4 true else s
  let s := s.forAll ((s.vault.filter (fun p => holds p.2)).map (fun p => p.1)) (fun s v => s.modVault v (fun x => { x with reserve := none }))
  let s := s.forAll [0, 1] (fun s e =>
    if (s.getDma e).holder = some i then (s.dmaAbort e).setBit Reg.nocEvt 4 true else s)
  if i = 5 ∧ s.host.staging then s.loadAbort.setBit Reg.spdEvt 2 true else s

/-- The function resets (R50, R366, R369): the DMA engines abort, which ends their rings and the leases they hold (R378); the host's leases are revoked, since no isolation
reaches it (R380); MSI-X, the BAR assignment, the power state and GLB_BAR4_WIN are at reset values. `down` says that the link is down. -/
def State.functionReset (s : State) (down : Bool) : State :=
  let revoked := s.host.dma.any (fun p => p.2.holder.isSome)
  let up := s.host.linkUp && !down
  let s : State := { s with host := { s.host with linkUp := false } }
  let s := [0, 1].foldl (fun s e =>
    (List.range 8).foldl (fun s j => s.wr (Reg.glbDmaCtl e + 4 * j) (regReset (Reg.glbDmaCtl e + 4 * j))) ((s.dmaAbort e).revoke (1 + e))) s
  let s := s.revoke 0
  let s := if revoked then s.setBit Reg.nocEvt 4 true else s
  let s := (s.wr Reg.glbBar4Win 0).setBit Reg.glbResetCause 7 true
  { s with host := { s.host with
    dma := [], msixEnable := false, msixFuncMask := false, msixMask := BitVec.allOnes 64, pba := 0, linkUp := up
    pci := {} } }

/-- The interface of requester `i` is isolated; the host endpoint's never is. -/
def State.isolate (s : State) (i : Nat) : State :=
  if i = 0 then s else ((s.setBit Reg.nocIsoStat i true).setBit Reg.nocEvt 3 true).revoke i

/-- A release by NOC_ISO_CMD; the control processor's interface is released only as its core leaves reset. -/
def State.isoRelease (s : State) (i : Nat) : State := if i = 3 then s else s.setBit Reg.nocIsoStat i false

/-- A write of NOC_ISO_CMD (R373, R380). -/
def State.isoCmd (s : State) (req : Requester) (v : Word) (keyed : Bool) : State :=
  if !keyed then s.keyRefused req.toNat Reg.nocIsoCmd
  else if v.getLsbD 5 then s.isoRelease (fldOf v 0 5)
  else s.isolate (fldOf v 0 5)

/-! ### Packets and statistics (R370, R373) -/

def State.getLive (s : State) (i : Nat) : NocLive := Sparse.get (fun _ => {}) s.host.live i
def State.setLiveCnt (s : State) (i : Nat) (x : NocLive) : State :=
  { s with host := { s.host with live := Sparse.set (fun _ => {}) s.host.live i x } }

/-- The latency bin of a number of bc (R373). -/
def latencyBin (n : Nat) : Nat := ((List.range 7).filter (fun j => decide (2 ^ (6 + j) ≤ n))).length

def NocLive.count (x : NocLive) (bytes latency : Nat) : NocLive :=
  { bytes := min (x.bytes + bytes) (2 ^ 64 - 1), packets := min (x.packets + 1) (2 ^ 32 - 1)
    bins := x.bins.mapIdx (fun i c => if i = latencyBin latency then min (c + 1) (2 ^ 32 - 1) else c) }

/-- A service request of `req` with the reserve attribute takes or renews the reservation of its row; one with release ends it; any other
request of the holder leaves it (R377). -/
def State.reserveRow (s : State) (req a attr : Nat) : State :=
  let (v, r) := s.locate a
  match attr with
  | 1 =>
    if s.bufferHeld v req || (s.rowRefused v r).isSome then s
    else s.modVault v (fun x => { x with reserve := some (req, r) })
  | 2 => if (s.getVault v).reserve.any (fun h => h.1 == req) then s.modVault v (fun x => { x with reserve := none }) else s
  | _ => s

/-- A packet of requester `req` has arrived: its CRC check failed `fails` times. A request that fails twice completes with an error:
a read of the host as Completer Abort, and a write, which does not come to its target, counts in the key window of its requester (R16). -/
def State.nocPacket (s : State) (req : Requester) (fails : Nat) (malformed : Bool) (ask : NocAsk) (bytes latency : Nat) : State :=
  let i := req.toNat
  if malformed then (s.setBit Reg.nocEvt 2 true).isolate i
  else
    let s := s.setLiveCnt i ((s.getLive i).count bytes latency)
    let s := if 1 ≤ fails then (s.setBit Reg.nocEvt 0 true).satAdd Reg.nocCrcCnt 0 32 1 else s
    if 2 ≤ fails then
      let s := if ask = .read then { s with cpl := { status := .ca } } else s
      let s := if ask = .write ∨ i = 3 then s.txn i else s
      (s.setBit Reg.nocEvt 1 true).safEvent 0x07 i
    else match ask with
      | .service a attr => s.reserveRow i a.toNat attr.toNat
      | _ => s

/-- NOC_STAT_CTL.snap: every counter goes to its snapshot and starts again. -/
def State.nocSnap (s : State) : State :=
  let s := s.forAll (List.range 32) (fun s i =>
    let x := s.getLive i
    let s := (s.wr64 (Reg.nocStat i 0) x.bytes).wr (Reg.nocStat i 2) (BitVec.ofNat 32 x.packets)
    s.forAll (List.range 8) (fun s n => s.wr (Reg.nocStat i (4 + n)) (BitVec.ofNat 32 (x.bins.getD n 0))))
  { s with host := { s.host with live := [] } }

/-! ### Interrupts (R366) -/

/-- A write of GLB_IRQ_EOI: the message is sent again while the OR is still 1. -/
def State.irqEoi (s : State) (v : Nat) : State := if s.irqOr v then s.sendMsg v else s

/-- Every vector is evaluated: an unmasked one whose OR is 1, or whose pending bit is set, has its message sent; a masked one whose OR is 1
sets its pending bit. -/
def State.msixEval (s : State) : State :=
  s.forAll (List.range 41) (fun s v =>
    if s.irqOr v || (!s.host.msixMask.getLsbD v && s.host.pba.getLsbD v) then
      ({ s with host := { s.host with pba := s.host.pba &&& ~~~BitVec.ofNat 64 (2 ^ v) } } : State).sendMsg v
    else s)

/-- The host writes the BARs and the power state. What a function in D3hot does with requests the spec leaves to PCI Express: nothing else
changes with it (log entry 113). -/
def State.pciSet (s : State) (c : Option PciConf) : State :=
  match c with
  | some c => { s with host := { s.host with pci := { s.host.pci with conf := c } } }
  | none => s

/-- A TLP arrives poisoned or with a wrong ECRC: AER records it (R356). One with a wrong ECRC is discarded; whether the data of a poisoned one
is taken is open. The Bool says that the request goes on. DESIGN CHOICE (log entry 113). -/
def State.tlpTaken (s : State) (t : Tlp) : State × Bool :=
  let aer (b : Word) : State := { s with host := { s.host with pci := { s.host.pci with aer := s.host.pci.aer ||| b } } }
  match t with
  | .good => (s, true)
  | .poisoned => ((aer 0x1000#32).tickFree, Config.freeBit s.free)
  | .badEcrc => (aer 0x80000#32, false)

/-- The host sets the MSI-X enable, the function mask and the masks of the vectors. -/
def State.msixSet (s : State) (enable funcMask : Bool) (mask : BitVec 64) : State :=
  let open0 := s.host.msixEnable && !s.host.msixFuncMask
  let opened := (s.host.msixMask &&& ~~~mask) != 0
  let s := { s with host := { s.host with msixEnable := enable, msixFuncMask := funcMask, msixMask := mask } }
  if enable && !funcMask && (!open0 || opened) then s.msixEval else s

/-! ### BAR4 (R358, R359) -/

/-- The physical address of BAR4 offset `off` at the BAR size of 2^z × 64 GiB that the host has set; none outside the BAR. -/
def State.bar4Addr (s : State) (off : Nat) : Option Nat :=
  let z := s.host.pci.conf.size.val
  if 2 ^ (36 + z) ≤ off then none
  else some (s.fld Reg.glbBar4Win 0 5 / 2 ^ z * 2 ^ z * 2 ^ 36 + off)

end Sys2Proof.Machine
end

