-- ==== Sys2Proof/Machine/FlashOps.lean ====
section
/-! DEFINITION. Shared operations of the embedded flash (13): sectors and pages, the key table, signed images, and what a reset leaves of
a flash command in progress. -/

namespace Sys2Proof.Machine

/-! ### Partitions (R383) -/

/-- Where slot A or slot B begins. -/
def slotBase (b : Bool) : Nat := if b then 0x100000 else 0
def keyTable : Nat := 0x200000
def profilePart : Nat := 0x220000
def userPart : Nat := 0x280000

def State.keyBytes (s : State) : List Byte := s.flashBytes keyTable 2048

/-! ### Erasing and programming (R383) -/

/-- Write `l` at flash offset `o`, sector by sector and in a sector page by page: a sector is erased, and its bytes outside the range are
programmed again with it. `fail` is the page of the range, counted from 0, whose programming fails: the pages before it hold their data, it
and the rest of its sector hold open values, and later sectors are untouched. The status of CPU_FWCMD comes with it. Log entry 94. -/
def State.program (s : State) (o : Nat) (l : List Byte) (fail : Option Nat) : State × Nat :=
  match fail with
  | none => (s.flashPut o l, 1)
  | some n =>
    if l.isEmpty then (s, 1)
    else
      let page := o / 256 + min n ((o % 256 + l.length - 1) / 256)
      let s := s.flashPut o (l.take (page * 256 - o))
      let rest := (page / 16 + 1) * 4096 - page * 256
      (s.tickFree.flashPut (page * 256) ((List.range rest).map (fun i => Config.freeByte (s.free * 2 ^ 48 + i))), 4)

/-! ### Keys and signatures (R385, R387) -/

/-- The public keys of the valid, unrevoked entries of the key table that have a flag: bit 2 image key, bit 3 firmware key (R385). -/
def State.keysWith (s : State) (flag : Nat) : List (List Byte) :=
  (List.range 16).filterMap (fun i =>
    let e := s.flashBytes (keyTable + 128 * i) 128
    let f := (e.getD 2 0).toNat
    if f.testBit 0 ∧ !f.testBit 1 ∧ f.testBit flag then some ((e.drop 32).take 96) else none)

/-- A message is signed by a valid, unrevoked firmware key of the table. -/
def State.firmwareSigned (s : State) (message signature : List Byte) : Bool :=
  (s.keysWith 3).any (fun key => Config.signatureValid key message signature)

/-- The version of a firmware image whose format and signature are good. -/
def State.imageVersion (s : State) (image : List Byte) : Option (BitVec 16) :=
  match Config.firmwareImage image with
  | some (v, message, signature) => if s.firmwareSigned message signature then some v else none
  | none => none

/-- The version of a slot; none where it is not valid: it was left part-written by a reset, it fails its signature, or its version is below
the anti-rollback counter (R387). -/
def State.slotVersion (s : State) (b : Bool) : Option (BitVec 16) :=
  if s.aon.slotCut.contains b then none
  else match s.imageVersion (s.flashBytes (slotBase b) 0x100000) with
    | some v => if Config.antiRollback s.production ≤ v.toNat then some v else none
    | none => none

/-- A new entry of the key table as R385 lays it out: valid, not revoked, an image key or a firmware key, the reserved bytes 0. -/
def keyEntryOk (e : List Byte) : Bool :=
  e.length == 128 && (e.getD 2 0 == 5#8 || e.getD 2 0 == 9#8 || e.getD 2 0 == 13#8) && zeroAt e 3 29

/-- Entry `i` of the table, and the first that holds no key. -/
def State.keyEntry (s : State) (i : Nat) : List Byte := s.flashBytes (keyTable + 128 * i) 128
def State.keyHeld (s : State) (i : Nat) : Bool := ((s.keyEntry i).getD 2 0).getLsbD 0
def State.freeKey (s : State) : Option Nat := (List.range 16).find? (fun i => !s.keyHeld i)

/-- The table holds a key of this number. -/
def State.keyKnown (s : State) (id : Nat) : Bool := (List.range 16).any (fun i => s.keyHeld i && leAt (s.keyEntry i) 0 2 == id)

/-- Entry `i` is set revoked; where its page fails, it is revoked or it is not (R385). -/
def State.revokeKey (s : State) (i : Nat) (fail : Option Nat) : State :=
  let f := (s.keyEntry i).getD 2 0
  let put (s : State) := s.flashPut (keyTable + 128 * i + 2) [f ||| 2#8]
  if fail.isNone then put s else if Config.freeBit s.free then put s.tickFree else s.tickFree

/-- A signed update of the key table (R385): one entry added, or the entries of one key revoked, and nothing else; a key that the table
holds is not added again. Log entry 95. -/
def State.applyKeyUpdate (s : State) (rec : List Byte) (fail : Option Nat) : State × Nat :=
  let status := if fail.isNone then 1 else 4
  match Config.keyRecord rec with
  | none => (s, 3)
  | some (act, message, signature) =>
    if !s.firmwareSigned message signature then (s, 3)
    else match act with
      | .inr id => (((List.range 16).filter (fun i => s.keyHeld i && leAt (s.keyEntry i) 0 2 == id)).foldl
          (fun s i => s.revokeKey i fail) s, status)
      | .inl entry =>
        if !keyEntryOk entry || s.keyKnown (leAt entry 0 2) then (s, 3)
        else match s.freeKey with
          | none => (s, 3)
          | some i =>
            if fail.isNone then (s.flashPut (keyTable + 128 * i) entry, status)
            else (s.tickFree.flashPut (keyTable + 128 * i) ((List.range 128).map (fun j => Config.freeByte (s.free * 2 ^ 48 + j))), status)

/-! ### Flash commands in progress (R387, R389) -/

def fwSlotB : Nat := 3

/-- The slot that a command programs. -/
def State.jobSlot (s : State) (cmd : Nat) : Bool := cmd == 1 && s.fld Reg.cpuStatus 29 3 != fwSlotB

/-- Where a command programs its staged bytes; none for those that program none. -/
def State.jobTarget (s : State) (j : FwJob) : Option Nat :=
  match j.cmd with
  | 1 => some (slotBase (s.jobSlot 1))
  | 2 => some profilePart
  | 4 => some (userPart + j.part)
  | 6 => some (slotBase false)
  | _ => none

/-- A signed image goes into a slot, which then counts as written whole. -/
def State.programSlot (s : State) (j : FwJob) (staged : List Byte) (fail : Option Nat) : State × Nat :=
  if (s.imageVersion staged).isNone then (s, 3)
  else
    let b := s.jobSlot j.cmd
    let (t, c) := s.program (slotBase b) staged fail
    ({ t with aon := { t.aon with slotCut := if c = 1 then t.aon.slotCut.filter (· != b) else t.aon.slotCut } }, c)

/-- A reset in the middle of a flash command (R387, R389): how far it has come is open. A slot part-written so fails its signature. -/
def State.jobCut (s : State) : State :=
  match s.cpu.job with
  | none => s
  | some j =>
    let staged := s.spdBytes j.off j.len
    let begun := Config.freeBit s.free
    let fail := some ((Config.freeWord (s.free + 1)).toNat % (j.len / 256 + 1))
    let s := s.tickFree.tickFree
    if !begun then s
    else if j.cmd = 1 ∨ j.cmd = 6 then
      if (s.imageVersion staged).isNone then s
      else
        let b := s.jobSlot j.cmd
        let t := (s.program (slotBase b) staged fail).1
        { t with aon := { t.aon with slotCut := b :: t.aon.slotCut.filter (· != b) } }
    else if j.cmd = 3 then (s.applyKeyUpdate staged fail).1
    else match s.jobTarget j with
      | some o => (s.program o staged fail).1
      | none => s

end Sys2Proof.Machine
end

