-- ==== Sys2Proof/Machine/Loader.lean ====
section
/-! DEFINITION. The commands of the configuration controller (10): the image sink and the load, the internal configuration
ports, the scrub and its reloads, and the registers CFG_CTL and CFG_RELEASE. One definition for each command. -/

namespace Sys2Proof.Machine

/-! ### Internal configuration ports -/

/-- A WRITE, or a reserved op, of the port of region `k` is taken (R314, R315, R317). -/
def execIcpWrite (k : SiteIx) (s : State) : Res := fin s (s.icpTake k [1, 6, 7])

def execIcpIsolate (k : SiteIx) (s : State) : Res := fin s (s.icpTake k [2])
def execIcpRelease (k : SiteIx) (s : State) : Res := fin s (s.icpTake k [3])
def execIcpUse (k : SiteIx) (s : State) : Res := fin s (s.icpTake k [4])
def execIcpUnuse (k : SiteIx) (s : State) : Res := fin s (s.icpTake k [5])

/-- The port command that ends first completes (R316). -/
def execIcpCommandDone (k : SiteIx) (s : State) : Res := fin s (s.icpDone k)

/-! ### The image sink (R306, R307) -/

def execSinkWrite (off : BitVec 28) (data : List Byte) (s : State) : Res := fin s (s.sinkWrite off.toNat data)

/-- Discard the configuration: nothing valid, every region held, its state in CFG_REGION as given, and nothing left for a restore lap to
check or to release (R309 step 1, R57). A forced isolation stays (R317). Boost is a sub-state of READY and ends (R32). -/
def State.discard (s : State) (st : Nat) : State :=
  let s := (s.boostEnd.setBit Reg.glbMode 5 false).setMode modeLOAD
  let s := { s with ctl := { s.ctl with restore := false, release := none } }
  s.forAll sites (fun s k =>
    let s := (s.holdRegion k []).modFab k (fun f =>
      { f with park := [], win := [], winReads := [], winLast := [], trips := [], busOff := [] })
    let s := s.modSite k (fun x => { x with reconf := false, icpSession := false, isoIncomplete := false, isoGolden := false })
    ((s.wr (Reg.cfgRegion k) (BitVec.ofNat 32 (st * 2 ^ 29))).showBusOff k).followSite k)

/-- An accepted header starts its load (R309, R311 to R313); no calibration item of its regions runs on (R470). -/
def State.headerAccepted (s : State) (h : ImgHdr) (raw : List Byte) : State :=
  let s := s.calCutOf (fun i => sites.any (fun k => (h.full || h.regions.getLsbD k) && calOf k i))
  let ty := if h.full then 1 else if h.staged then 2 else 3
  let s := s.wr Reg.cfgStatus (BitVec.ofNat 32 (ldSections * 2 ^ 28 + ty * 2 ^ 26 + h.regions.toNat))
  let s := ((s.wr Reg.cfgProgress 0).wr Reg.cfgBadIndex 0).wr Reg.cfgBadAddr 0
  let s := (s.setBit Reg.cfgSig 30 h.signed).setFld Reg.cfgSig 0 16 h.key.toNat
  let s := s.modLoad (fun l => { l with hdr := some h, buf := l.buf.drop 4096, msg := raw.take 0xE00 })
  if h.full then (s.discard regLoading).forAll sites (fun s k => s.cancelInject k)
  else if h.staged then { s with host := { s.host with staging := true } }.spdPut h.stage raw
  else s.holdPartial h

/-- The 4,096th header byte is here: the header is checked, and accepted or refused (R308). -/
def execImageHeader (s : State) : Res :=
  fin s (
    if s.loadState ≠ ldHeader ∨ s.ctl.load.buf.length < 4096 ∨ !s.cfgReaches then s
    else
      let raw := s.ctl.load.buf.take 4096
      match s.headerCode raw with
      | some c => s.loadReject c
      | none => s.headerAccepted (s.parseHeader raw) raw)

/-- The next section of the body is here whole: it is checked and kept (R302, R309 step 2). The ports of a full load drive their park values
from the park section on (log entry 87); a partial load takes them over at its completion (R311). -/
def execImageSection (s : State) : Res :=
  fin s (
    match s.ctl.load.hdr with
    | none => s
    | some h =>
      if s.loadState ≠ ldSections ∨ (h.staged ∧ !s.cfgReaches) then s
      else match h.sections[s.ctl.load.sec]? with
        | none => s
        | some (t, _, n) =>
          if t = 7 then s.setLoadState ldFrames
          else if s.ctl.load.buf.length < n then s
          else
            let b := s.ctl.load.buf.take n
            if sectionBad t h.regionList b then s.loadReject 0x11
            else
              let s := (s.takeBody n).modLoad (fun l => { l.keep t h.regionList b with sec := l.sec + 1 })
              let s := if t = 4 && h.full then
                  h.regionList.foldl (fun s k => s.modFab k (fun f =>
                    { f with park := parkCodes (s.ctl.load.cfgOf k).park })) s
                else s
              match h.sections[s.ctl.load.sec]? with
              | some (7, _, _) => s.setLoadState ldFrames
              | _ => s)

/-- The next frame record is here: it is checked, and written or staged (R303, R309 step 3, R312, R313, R323). -/
def execFrameRecord (s : State) : Res :=
  fin s (
    match s.ctl.load.hdr with
    | none => s
    | some h =>
      if s.loadState ≠ ldFrames ∨ s.ctl.load.buf.length < 520 ∨ !s.cfgReaches then s
      else
        let r := s.ctl.load.buf.take 520
        match s.frameCode h r with
        | some c =>
          let s := s.wr Reg.cfgBadIndex (BitVec.ofNat 32 (2 ^ 31 + s.ctl.load.done.length % 2 ^ 20))
          (s.wr Reg.cfgBadAddr (BitVec.ofNat 32 (leAt r 0 4))).loadReject c
        | none =>
          let f := (frameIndex (leAt r 0 4)).getD 0
          let rel := s.ctl.load.rel.headD 0
          let s := s.takeBody 520
          let s := if h.staged then s else s.writeFrame f (bytesVec 4096 (r.drop 8)) rel h.full
          let s := s.modLoad (fun l => { l with
            last := some (leAt r 0 4), done := f :: l.done, rel := if h.staged then l.rel else l.rel.drop 1 })
          s.wr Reg.cfgProgress (BitVec.ofNat 32 (s.ctl.load.done.length % 2 ^ 20)))

/-- After the last body byte the body CRC is compared; a signed image is then verified (R309 step 4). -/
def execBodyCheck (s : State) : Res :=
  fin s (
    match s.ctl.load.hdr with
    | none => s
    | some h =>
      if s.loadState ≠ ldFrames ∨ s.ctl.load.done.length ≠ h.frames ∨ s.ctl.load.buf ≠ [] then s
      else if s.ctl.load.crc ≠ h.bodyCrc then s.loadReject 0x0B
      else
        if h.signed && !s.variantE then s.setLoadState ldBody else s.bodyAccepted h)

/-- Signature verification ends (R309 step 4, R300). -/
def execSignatureVerified (s : State) : Res :=
  fin s (
    match s.ctl.load.hdr with
    | none => s
    | some h =>
      if s.loadState ≠ ldBody then s
      else match s.keyOf h.key.toNat 2 with
        | some key => if Config.signatureValid key s.ctl.load.msg h.sig then s.bodyAccepted h else s.loadReject 0x0A
        | none => s.loadReject 0x0A)

/-- 64 fc after the body was accepted, or the restore lap passed, every user flip-flop is released on one edge, every lane changes from
PARK to IDLE frames, and the device enters READY (R48, R52). A region that was INCOMPLETE stays held. In SAFE, taken before the lap ended,
the regions are released and the mode stays (log entry 85). The release of a restore lap is the lap's own: an image refused meanwhile
leaves it, and an accepted full header ends it. -/
def execStartUpRelease (s : State) : Res :=
  fin s (
    match (s.ctl.load.accepted.map (· + 64)) <|> s.ctl.release with
    | none => s
    | some f =>
      if !s.clocksRun ∨ (s.mode ≠ modeLOAD ∧ s.mode ≠ modeSAFE) then s
      else
        let load := s.ctl.load.accepted.isSome
        let s := s.runTo f
        let s := if s.mode = modeLOAD then (s.setMode modeREADY).setBit Reg.glbMode 3 false else s
        let s := if s.fld Reg.cfgScrub 0 20 = 0 then { s with ctl := { s.ctl with lapStart := s.tsc.toNat } } else s
        let s := s.forAll sites (fun s k =>
          let s := s.modSite k (fun x => { x with parkReason := 0 })
          if load then s.releaseRegion k
          else if (s.getSite k).isoIncomplete then (s.showRegion k).followSite k
          else ((s.modFab k (fun x => ({ x with held := false } : Fabric).restart)).showRegion k).followSite k)
        if load then s.loadComplete else { s with ctl := { s.ctl with release := none } })

/-- The staged write phase writes its next frame; with the last one the regions are released (R311, R312). What the checks
of the staged words report (R374) is a free value. -/
def execPartialFrameWrite (s : State) : Res :=
  fin s (
    match s.ctl.load.hdr with
    | none => s
    | some h =>
      if s.loadState ≠ ldWrite ∨ !s.cfgReaches then s
      else
        let l := s.ctl.load
        let f := l.done.getD (l.done.length - 1 - l.written) 0
        let o := s.freeObs 512
        let d := bytesVec 4096 (flipBytes o (s.stagedFrame h f))
        let s := ((s.tickFree.spdChecked o).writeFrame f d (l.rel.getD l.written 0)).modLoad (fun l => { l with written := l.written + 1 })
        if s.ctl.load.written < h.frames then s else s.partialRelease h)

/-- CFG_CTL.abort (R325). -/
def execCfgAbort (req : Requester) (s : State) : Res := fin s (s.onWrite req State.loadAbort)

/-- CFG_CTL.sink_reset: a load in progress is aborted, the stream position is 0 and dropping ends (R307). -/
def State.sinkReset (s : State) : State :=
  let s := s.loadAbort
  (if s.loadState = ldDrop then s.setLoadState ldIdle else s).modLoad (fun _ => {})

def execCfgSinkReset (req : Requester) (s : State) : Res := fin s (s.onWrite req State.sinkReset)

/-- CFG_RELEASE: end forced isolations and ICP sessions of the regions of the mask; protected (R317, R324). -/
def State.cfgRelease (s : State) (req : Requester) (mask : BitVec 16) (keyed : Bool) : State :=
  if !keyed then s.keyRefused req.toNat Reg.cfgRelease
  else s.forAll (members mask) (fun s k =>
    if (s.getSite k).icpSession || (s.getSite k).isoForced then s.endIsolation k true else s)

def execCfgRelease (req : Requester) (mask : BitVec 16) (s : State) : Res :=
  fin s (s.onKeyed req (fun keyed s => s.cfgRelease req mask keyed))

/-- 100 ms without a sink write: the staged load is aborted and its lease ends (R377). -/
def execStagingLeaseTimeout (s : State) : Res :=
  fin s (
    match s.ctl.load.hdr with
    | none => s
    | some h =>
      if h.staged && s.host.staging && (s.loadState == ldSections || s.loadState == ldFrames)
          && decide (s.ctl.load.lastWrite + 160000000 ≤ s.tsc.toNat) then
        (s.loadReject 0x15).setBit Reg.spdEvt 2 true
      else s)

/-! ### The upset scrub (R320 to R322) -/

/-- Frames of region `k` are skipped: it is loading, or in the write phase of a load (R320). -/
def State.scrubSkips (s : State) (k : Nat) : Bool := s.regState k == regLoading

/-- The scrub pointer moves on; after the last frame the lap ends, and with it what a STANDBY exit left unverified (R39). -/
def State.cfgScrubNext (s : State) : State :=
  let a := Reg.cfgScrub
  let f := s.fld a 0 20
  if f + 1 < 524288 then s.setFld a 0 20 (f + 1)
  else
    let s := (s.setFld a 0 20 0).satAdd a 20 12 1
    let s := s.wr Reg.cfgScrubLap (BitVec.ofNat 32 ((s.tsc.toNat - s.ctl.lapStart) / 1600))
    let s := { s with ctl := { s.ctl with lapStart := s.tsc.toNat } }
    s.forAll sites (fun s k => s.modSite k (fun x => { x with cfgUnverified := false }))

/-- A port WRITE or a reload is writing frame `f`, and the scrub waits (R320). -/
def State.frameBusy (s : State) (f : Nat) : Bool :=
  s.ctl.reloads.any (fun r => r.frame == f)
    || s.ctl.icp.any (fun p => p.2.jobs.any (fun j => j.code == 0 && icpOp j.word == 1 && icpFrame j.word == f))

/-- The scrub port reads its next frame. `errs` are the codewords of the frame with an error, true for a double-bit error. -/
def execConfigScrub (errs : List (BitVec 6 × Bool)) (s : State) : Res :=
  fin s (
    let f := s.fld Reg.cfgScrub 0 20
    if !s.cfgValid || !s.busUp || s.ctl.gated || s.ctl.restore || s.frameBusy f then s
    else if s.scrubSkips (f / 32768) then s.cfgScrubNext
    else
      let s := s.satAdd Reg.cfgUpsetSgl 0 32 (errs.filter (fun e => !e.2)).length
      let s := (errs.filter (fun e => e.2)).foldl (fun s e => s.upsetFound f e.1.toNat false) s
      s.cfgScrubNext)

/-- The reload of a queued frame ends; `poisoned` says that it finds the golden row beyond repair (R277, R320, R322). It waits for the
per-cycle requests of the row's vault and for the frames queued before it there (R268), and while that is in self-refresh. -/
def execFrameReload (f : Fin 524288) (poisoned : Bool) (s : State) : Res :=
  fin s (
    let v := (goldenRow f).1
    if s.waitRank v == 3 && (s.reloadsIn [v]).head? == some f.val then s.reloadFrame f poisoned else s)

/-- The golden rows that the restore lap reads and that are poisoned: one frame of each. -/
def State.poisonedGolden (s : State) : List Nat :=
  (List.range 16).flatMap (fun j => ((s.getVault (240 + j)).goldenBad.map (fun r => 64 * (r - 4177920) + 4 * j)).filter
    (fun f => s.goldenValid (f / 32768)))

/-- The restore lap after a warm reset completes (R52 steps 6 and 7, R277, R322): every frame of a region with a golden copy is as
the copy has it, and so are masks, park values and initial values. A golden row that is poisoned, or that the lap finds beyond repair at
frame `bad`, or a vault that cannot be reached, leaves LOAD with nothing valid. -/
def execRestoreLapDone (bad : Option (Fin 524288)) (s : State) : Res :=
  fin s (
    if !s.ctl.restore ∨ !s.clocksRun ∨ !s.cfgReaches ∨ (s.mode ≠ modeLOAD ∧ s.mode ≠ modeSAFE) then s
    else
      let s := { s with ctl := { s.ctl with restore := false } }
      let old := s.poisonedGolden
      let s1 := old.foldl (fun s f => (s.goldenRead f false).1) s
      let (s2, hit) := match bad with
        | some f => if s.goldenValid (f.val / 32768) then s1.goldenRead f true else (s1, false)
        | none => (s1, false)
      if hit || !old.isEmpty || (List.range 16).any (fun j => s.vltState (240 + j) != 2) then
        (s2.setBit Reg.glbMode 5 false).startFail 6
      else
        let s := s2.forAll (sites.filter s2.goldenValid) (fun s k =>
          let c := Sparse.get (fun _ => ({} : RegionCfg)) s.ctl.goldenCfg k
          let keep := s.ctl.frames.filter (fun p : Nat × BitVec 4096 => p.1 / 32768 != k)
          let s := { s with ctl := { s.ctl with frames :=
            (s.ctl.golden.filter (fun (p : Nat × BitVec 4096) => p.1 / 32768 == k)).foldl (fun m (p : Nat × BitVec 4096) => Sparse.set (fun _ => 0) m p.1 p.2) keep } }
          (s.setInuse k c.inuse.toNat).installRegion k c)
        { s with ctl := { s.ctl with release := some (s.fc + 64) } })

end Sys2Proof.Machine
end

