-- ==== Sys2Proof/Machine/VaultOps.lean ====
section
/-! DEFINITION. Shared operations of the vaults (09): owner, scrub state, self-refresh, and column-group repair. -/

namespace Sys2Proof.Machine

/-- VLT_STAT.scrub_active: the vault is ready and scrubbing is enabled (R279). -/
def State.showScrub (s : State) (v : Nat) : State :=
  s.setBit (Reg.vltStat v) 24 (s.vltState v == 2 && s.bit Reg.vltCfg 0)

def State.setVltState (s : State) (v c : Nat) : State := (s.setFld (Reg.vltStat v) 29 3 c).showScrub v

/-- How long the scrub lap in progress of vault `v` has lasted, in bc: without the time it paused (log entry 89). -/
def State.lapTime (s : State) (v : Nat) : Nat :=
  let x := s.getVault v
  x.lapPast + (if s.vltState v = 2 then s.tsc.toNat - x.lapStart else 0)

/-- The scrub pointer moves on; after the last row the lap ends (R279, R280). -/
def State.scrubNext (s : State) (v : Nat) : State :=
  let a := Reg.vltScrub v
  let r := s.fld a 0 22
  if r + 1 < 2 ^ 22 then s.setFld a 0 22 (r + 1)
  else
    let ms := s.lapTime v / 1600000
    let s := (s.setFld a 0 22 0).satAdd a 22 10 1
    let s := (s.wr (Reg.vltLap v) (BitVec.ofNat 32 ms)).setBit (Reg.vltStat v) 25 false
    s.modVault v (fun x => { x with lapStart := s.tsc.toNat, lapPast := 0, fixedLast := x.fixedNow, fixedNow := [] })

/-! ### Column groups (R282, R283) -/

/-- The locations of bank `q` of vault `v` that hold a listed cell. -/
def State.bankLocs (s : State) (v q : Nat) : List Nat :=
  distinctLocs (s.dram.filterMap (fun p =>
    let loc := p.1 / 8192 % 2 ^ 23
    let bank := if loc < 0x400000 then loc % 128 else (loc - 0x400000) / 64
    if p.1 / 8192 / 2 ^ 23 = v ∧ bank = q then some loc else none))
where
  /-- distinct members of a rising list -/
  distinctLocs : List Nat → List Nat
    | [] => []
    | [x] => [x]
    | x :: y :: l => if x = y then distinctLocs (y :: l) else x :: distinctLocs (y :: l)

/-- Move group `g` of every listed row of bank `q` from where the repairs of `s` put it to where those of `t` put it. -/
def State.moveGroup (s t : State) (v q g : Nat) : State :=
  let old := s.colMap v q
  let new := t.colMap v q
  (s.bankLocs v q).foldl (fun t loc =>
    (t.setRawAt new v loc (8 * g) (s.rawAt old v loc (8 * g) 8)).setRawAt new v loc (2048 + 2 * g)
      (s.rawAt old v loc (2048 + 2 * g) 2)) t

/-- Activate every listed user row of bank `q`, as a copy of a group does (R283, R285); the rows that this poisons. -/
def State.activateBank (s : State) (v q : Nat) : State × List Nat :=
  ((s.bankLocs v q).filterMap (s.userRow v)).foldl (fun (p : State × List Nat) r =>
    let a := p.1.activateRow v r srcMaint
    (a.st, if a.fresh then r :: p.2 else p.2)) (s, [])

/-- SREP_COL: soft-repair group `g` of bank `q`; none without a free entry and spare group. -/
def State.softRepairCol (s : State) (v q g : Nat) : Option State :=
  match s.freeEntry v, s.freeSpareCol v q with
  | some i, some n =>
    let (s, fresh) := s.activateBank v q
    let old := (s.softEntries v).filter (fun p => repIsCol p.2 && repBank p.2 == q && repTarget p.2 % 256 == g)
    let t := s.forAll (old.map Prod.fst) (fun s j => s.wr (Reg.vltSrep v j) 0)
    let t := t.wr (Reg.vltSrep v i) (repEntry true q g n)
    some (((s.moveGroup t v q g).mirrorSrep v).forAll fresh (fun s r => s.autoSrep v r))
  | _, _ => none

/-- SREP_FREE: copy the data of soft entry `i` back and invalidate it. -/
def State.freeSoft (s : State) (v i : Nat) : State :=
  let e := s.rd (Reg.vltSrep v i)
  if !e.getLsbD 31 then s
  else if repIsCol e then
    let (s, fresh) := s.activateBank v (repBank e)
    let t := s.wr (Reg.vltSrep v i) 0
    ((s.moveGroup t v (repBank e) (repTarget e % 256)).mirrorSrep v).forAll fresh (fun s r => s.autoSrep v r)
  else
    let r := repTarget e * 128 + repBank e
    let a := s.activateRow v r srcMaint
    let t := ((a.st.wr (Reg.vltSrep v i) 0).setRawRow v r 0 (a.st.rawRow v r 0 2592)).mirrorSrep v
    if a.fresh then t.autoSrep v r else t

/-! ### Maintenance commands (R285, R294) -/

/-- The stored index of raw word `w` (R285). -/
def rawIndex (w : Nat) : Nat := 8 * w

/-- What an accepted maintenance command does. -/
def State.mntRun (s : State) (v : Nat) (j : MntJob) : State × Nat :=
  let lo := Reg.vltMntDataLo v
  let s := (s.svcSync v j.row).rowEnds v
  match j.cmd.toNat with
  | 1 => (s.wr64 lo (ofLe (s.rawRow v j.row (rawIndex j.word) 8)), 1)
  | 2 => ((s.svcDrop v j.row).setRawRow v j.row (rawIndex j.word) (leBytes 8 (s.rd64 lo)), 1)
  | 3 => match s.softRepairRow v j.row with
    | some t => (t, 1)
    | none => (s, 4)
  | 4 => match (s.svcFlush v).softRepairCol v (j.row % 128) j.word with
    | some t => (t, 1)
    | none => (s, 4)
  | _ => ((s.svcFlush v).freeSoft v (j.row % 256), 1)

/-- The maintenance command in progress ends with status `c`, and busy clears (R294). -/
def State.mntEnd (s : State) (v c : Nat) : State :=
  ((s.modVault v (fun x => { x with mnt := none })).setBit (Reg.vltMntCmd v) 31 false).setFld (Reg.vltMntCmd v) 28 3 c

/-- The maintenance command in progress completes: its effect and its status. -/
def State.mntFinish (s : State) (v : Nat) : State :=
  match (s.getVault v).mnt with
  | some j => let (t, c) := s.mntRun v j; t.mntEnd v c
  | none => s

/-! ### Self-refresh (R289) -/

/-- Self-refresh entry: the maintenance command in progress is finished, the service buffer written back, and the scrub lap pauses; `c` is
3 for self-refresh, 4 for a disabled tile. -/
def State.vaultSleep (s : State) (v c : Nat) : State :=
  if s.vltState v = 2 then
    let s := (s.mntFinish v).svcFlush v
    let past := s.lapTime v
    ((s.modVault v (fun x => { x with svc := {}, lapPast := past })).rowEnds v).setVltState v c
  else s

/-- Self-refresh exit: scrubbing resumes at the row where it paused. -/
def State.vaultWake (s : State) (v : Nat) : State :=
  if s.vltState v = 3 ∨ s.vltState v = 4 then
    (s.modVault v (fun x => { x with lapStart := s.tsc.toNat })).setVltState v 2
  else s

/-- Every vault that is ready enters self-refresh. -/
def State.allSleep (s : State) : State := s.forAll vaults (fun s v => s.vaultSleep v 3)

end Sys2Proof.Machine
end

