-- ==== Sys2Proof/Machine/WfeOps.lean ====
section
/-! DEFINITION. Shared operations of the waveform engines (11): memories, pointers, the instruction frame with its faults, the
stream ring and DRAM transfers. -/

namespace Sys2Proof.Machine

/-! ### Engine state (R335, R353) -/

/-- The state code of WFE_STATUS: 0 halted, 1 running, 2 in WAITS, 3 in XFER or WAITX, 4 faulted. -/
def State.wfeState (s : State) (k : Nat) : Nat := s.fld (Reg.wfeStatus k) 0 3
def State.setWfeState (s : State) (k c : Nat) : State := s.setFld (Reg.wfeStatus k) 0 3 c
def State.wfePc (s : State) (k : Nat) : Nat := s.fld (Reg.wfePc k) 0 14
def State.wfeCmd (s : State) (k c : Nat) : State := s.setFld (Reg.wfeStatus k) 28 4 c

/-- The WCLK of engine `k` runs (R32, R432). -/
def State.wclkOn (s : State) (k : Nat) : Bool :=
  s.clockOn (16 + k)

def Wfe.dreg (w : Wfe) (i : Nat) : Word := w.d.extractLsb' (32 * i) 32

def Wfe.setD (w : Wfe) (i : Nat) (v : Word) : Wfe :=
  { w with d := w.d ^^^ ((w.dreg i ^^^ v).setWidth 256 <<< (32 * i)) }

def Wfe.acc (w : Wfe) (a : Bool) : Acc := if a then w.a1 else w.a0
def Wfe.setAcc (w : Wfe) (a : Bool) (v : Acc) : Wfe := if a then { w with a1 := v } else { w with a0 := v }

/-! ### Memories (R333) -/

def wfeXSize : Nat := 32768
def wfeYSize : Nat := 8192

def wfeGet (m : List (Nat × Word)) (a : Nat) : Word := Sparse.get (fun _ => 0) m a
def wfePut (m : List (Nat × Word)) (a : Nat) (v : Word) : List (Nat × Word) := Sparse.set (fun _ => 0) m a v

def State.putX (s : State) (k a : Nat) (v : Word) : State := s.modWfe k (fun x => { x with x := wfePut x.x a v })
def State.putY (s : State) (k a : Nat) (v : Word) : State := s.modWfe k (fun x => { x with y := wfePut x.y a v })

/-- What the check of a word read from X or Y does: a correction is counted; an uncorrectable word is marked. -/
def State.wfeCheck (s : State) (k : Nat) (e : Ecc) : State :=
  match e with
  | .ok => s
  | .single => s.satAdd (Reg.wfeEcc k) 0 16 1
  | .double => s.setBit (Reg.wfeStatus k) 9 true

/-- The word as read: an uncorrectable one is delivered with its errors. -/
def delivered (e : Ecc) (flip v : Word) : Word := if e = .double then v ^^^ flip else v

/-! ### Pointers (R335, R336) -/

/-- Pointer `i` (0 to 3 in X, 4 to 7 in Y). The base and length of px3 are those of the active ring. -/
def State.wfePtr (s : State) (k i : Nat) : Ptr :=
  let q := Sparse.get (fun _ => ({} : Ptr)) (s.getWfe k).ptr i
  if i = 3 then { q with base := s.fldAct (Reg.wfeStrRing k) 0 15, len := s.fldAct (Reg.wfeStrRing k) 16 16 } else q

def State.setPtr (s : State) (k i : Nat) (f : Ptr → Ptr) : State :=
  s.modWfe k (fun x => { x with ptr := Sparse.set (fun _ => {}) x.ptr i (f (Sparse.get (fun _ => {}) x.ptr i)) })

/-- The value of a pointer modified by `m`: it wraps at the memory's size, or in its circular buffer. -/
def Ptr.plus (q : Ptr) (size : Nat) (m : Int) : Nat :=
  if q.len = 0 then ((q.p + m) % size).toNat else q.base + ((q.p - q.base + m) % q.len).toNat

/-- The value of a pointer after modify code `code`. -/
def Ptr.after (q : Ptr) (size code : Nat) : Nat :=
  match code with
  | 0 => q.p
  | 1 => q.plus size 1
  | 2 => q.plus size (-1)
  | _ => q.plus size q.step.toInt

def ptrSize (i : Nat) : Nat := if i < 4 then wfeXSize else wfeYSize

def State.movePtr (s : State) (k i code : Nat) : State :=
  let n := (s.wfePtr k i).after (ptrSize i) code
  s.setPtr k i (fun q => { q with p := n })

/-- Base and length obey R336. -/
def ptrOk (i base len : Nat) : Bool := base % 4 == 0 && len % 4 == 0 && decide (base + len ≤ ptrSize i)

/-! ### Arithmetic (R337) -/

/-- A half of a complex word as a signed number. -/
def half (w : Word) (i : Nat) : Int := (w.extractLsb' (16 * i) 16).toInt

/-- A value cut to [−2^(n−1), 2^(n−1) − 1], and whether it was outside. -/
def satTo (n : Nat) (v : Int) : Int × Bool :=
  let hi : Int := 2 ^ (n - 1) - 1
  let lo : Int := -2 ^ (n - 1)
  if hi < v then (hi, true) else if v < lo then (lo, true) else (v, false)

/-- The complex product of X and Y, with Y conjugated or not. -/
def cmulParts (x y : Word) (conj : Bool) : Int × Int :=
  let yi := if conj then -(half y 1) else half y 1
  (half x 0 * half y 0 - half x 1 * yi, half x 0 * yi + half x 1 * half y 0)

/-- Add to an accumulator; the Bool says whether a half saturated. -/
def Acc.add (a : Acc) (re im : Int) : Acc × Bool :=
  let r := satTo 40 (a.re.toInt + re)
  let i := satTo 40 (a.im.toInt + im)
  ({ re := BitVec.ofInt 40 r.1, im := BitVec.ofInt 40 i.1 }, r.2 || i.2)

/-- The rounded and saturated half that STA stores. -/
def staHalf (a : BitVec 40) (sh : Nat) : Int × Bool := satTo 16 ((a.toInt + 2 ^ (14 + sh)) / 2 ^ (15 + sh))

/-- A complex word of two halves. -/
def complexWord (re im : Int) : Word := BitVec.ofInt 16 im ++ BitVec.ofInt 16 re

/-! ### Instruction words (R338, R339) -/

def wOp (w : Word) : Nat := fldOf w 26 6
def wD (w : Word) : Nat := fldOf w 23 3
def wS (w : Word) : Nat := fldOf w 20 3
def wPx (w : Word) : Nat := fldOf w 18 2
def wXm (w : Word) : Nat := fldOf w 16 2
def wPy (w : Word) : Nat := 4 + fldOf w 14 2
def wYm (w : Word) : Nat := fldOf w 12 2
def wA (w : Word) : Bool := w.getLsbD 11
def wSub (w : Word) : Nat := fldOf w 8 3
def wAux (w : Word) (lo len : Nat) : Nat := fldOf w (16 + lo) len
def wImm (w : Word) : Nat := fldOf w 0 16

/-- The bits that must be 0 in the words of an opcode; none for a code not listed. -/
def wMustBeZero (op : Nat) : Option Nat :=
  match op with
  | 0x00 => some 0x03FFFFFF
  | 0x01 => some 0x03F004FF
  | 0x02 => some 0x03F006FF
  | 0x03 => some 0x03F004FF
  | 0x04 => some 0x03FFF7FF
  | 0x05 => some 0x03F0F7F0
  | 0x06 => some 0x0070FFFF
  | 0x07 => some 0x0380FFFF
  | 0x08 => some 0x007F0FFF
  | 0x09 => some 0x000FF8FF
  | 0x0A => some 0x000FF8E0
  | 0x0B => some 0x0383FEE0
  | 0x20 => some 0x007E0000
  | 0x21 => some 0x0003FFFF
  | 0x22 => some 0x03FFC000
  | 0x23 => some 0x007EC000
  | 0x24 => some 0x0002C000
  | 0x25 => some 0x00600000
  | 0x26 => some 0x03FF0000
  | 0x27 => some 0x03FFE000
  | 0x28 => some 0x03FFFFFF
  | 0x29 => some 0x03FFFF00
  | 0x2A => some 0x03FFFFFF
  | _ => none

/-- The row of the opcode table a word belongs to: 8 times the opcode, plus the sub-operation of ALU and SHIFT. A code or
sub-operation that is not listed belongs to no row and counts as the illegal case of NOP. -/
def wRow (w : Word) : Nat :=
  let op := wOp w
  if (wMustBeZero op).isNone then 0
  else if op = 0x09 then (if wSub w ≤ 6 then 8 * op + wSub w else 0)
  else if op = 0x0A then (if wSub w ≤ 2 then 8 * op + wSub w else 0)
  else 8 * op

/-- What SETP would leave of pointer `i` (R339). -/
def Ptr.setItem (q : Ptr) (i item : Nat) (v : Word) : Ptr :=
  let n := v.toNat % ptrSize i
  match item with
  | 0 => { q with p := n }
  | 1 => { q with step := v.setWidth 16 }
  | 2 => { q with base := n }
  | _ => { q with len := n }

def setpPtr (w : Word) : Nat := 4 * wAux w 9 1 + wAux w 7 2

/-- The word is legal in this state (R338, R339). -/
def State.wfeLegal (s : State) (k : Nat) (w : Word) : Bool :=
  let op := wOp w
  match wMustBeZero op with
  | none => false
  | some m =>
    (w &&& BitVec.ofNat 32 m) == 0 && (op != 0x09 || decide (wSub w ≤ 6)) && (op != 0x0A || decide (wSub w ≤ 2))
      && (op != 0x0B || (s.wfePtr k (wPx w)).len != 0)
      && (op != 0x21 ||
        (let i := setpPtr w
         let item := wAux w 5 2
         let q := (s.wfePtr k i).setItem i item ((s.getWfe k).dreg (wAux w 2 3))
         decide (item < 2) || (i != 3 && ptrOk i q.base q.len)))

/-! ### Execution (R340 to R342) -/

/-- A fault (R342): the engine is halted with the code; WFE_PC keeps the PC. -/
def State.wfeFault (s : State) (k c : Nat) : State :=
  ((s.modWfe k (fun x => { x with wait := .none, haltReq := false })).setWfeState k 4).setFld (Reg.wfeStatus k) 24 4 c

/-- Continue at `n`. -/
def State.wfeGoTo (s : State) (k n : Nat) : State :=
  let s := s.setFld (Reg.wfePc k) 0 14 n
  if n < 2 ^ 14 then s else s.wfeFault k 7

/-- The instruction at PC is done: the next one, or the repeat's next pass (R340). -/
def State.wfeNext (s : State) (k : Nat) : State :=
  let n := s.wfePc k + 1
  match (s.getWfe k).rep with
  | none => s.wfeGoTo k n
  | some r =>
    if n < r.first + r.len then s.wfeGoTo k n
    else if 1 < r.left then (s.modWfe k (fun x => { x with rep := some { r with left := r.left - 1 } })).wfeGoTo k r.first
    else (s.modWfe k (fun x => { x with rep := none })).wfeGoTo k n

/-- A wait ends: the engine goes on, or halts where a halt was written (R352). -/
def State.wfeResume (s : State) (k : Nat) : State :=
  let h := (s.getWfe k).haltReq
  let s := (s.modWfe k (fun x => { x with wait := .none, haltReq := false })).setWfeState k (if h then 0 else 1)
  s

/-- The word that engine `k` executes next, and whether it comes from the repeat cache, as in every pass of a repeat but its first
(R340). -/
def State.wfeFetch (s : State) (k : Nat) : Word × Bool :=
  let pc := s.wfePc k
  let p := wfeGet (s.getWfe k).p pc
  match (s.getWfe k).rep with
  | some r => if r.cache.length < r.len then (p, false) else (r.cache.getD (pc - r.first) p, true)
  | none => (p, false)

/-- The first pass of a repeat loads its words into the repeat cache (R340). -/
def State.wfeCache (s : State) (k : Nat) (w : Word) : State :=
  s.modWfe k (fun x => { x with rep := x.rep.map (fun r => { r with cache := if r.cache.length < r.len then r.cache ++ [w] else r.cache }) })

/-- Engine `k` executes the word at PC, which belongs to `row`; `f` is its action, with the PC's advance. A word from the repeat cache has
no check. -/
def State.wfeExec (s : State) (k : SiteIx) (w : Word) (o : WfeObs) (row : Nat) (f : State → State) : State :=
  let (at1, cached) := s.wfeFetch k
  if !s.wclkOn k || s.wfeState k != 1 || at1 != w then s
  else if o.p = .double ∧ !cached then s.wfeFault k 2
  else if wRow w ≠ row then s
  else
    let s := if cached then s else s.wfeCheck k o.p
    if !s.wfeLegal k w then s.wfeFault k 1
    else if (s.getWfe k).rep.isSome ∧ 0x20 ≤ wOp w then s.wfeFault k 3
    else f ((s.wfeCache k w).satAdd (Reg.wfeStall k) 0 32 o.stall)

/-- The sample at px and the coefficient at py, as delivered, with what their checks do. -/
def State.wfeOperands (s : State) (k : Nat) (w : Word) (o : WfeObs) : State × Word × Word :=
  let x := s.getWfe k
  ((s.wfeCheck k o.x).wfeCheck k o.y,
    delivered o.x o.flipX (wfeGet x.x (s.wfePtr k (wPx w)).p), delivered o.y o.flipY (wfeGet x.y (s.wfePtr k (wPy w)).p))

/-- CMAC and the accumulation of FTM (R337, R339): the accumulator, and modify px and py. -/
def State.wfeMac (s : State) (k : Nat) (w xv yv : Word) : State :=
  let (re, im) := cmulParts xv yv (w.getLsbD 8)
  let (re, im) := if w.getLsbD 9 then (-re, -im) else (re, im)
  let (a, sat) := ((s.getWfe k).acc (wA w)).add re im
  let s := s.modWfe k (fun x => x.setAcc (wA w) a)
  let s := if sat then s.setBit (Reg.wfeStatus k) 8 true else s
  (s.movePtr k (wPx w) (wXm w)).movePtr k (wPy w) (wYm w)

/-- Write a data register and go on. -/
def State.wfeWriteD (s : State) (k i : Nat) (v : Word) : State := (s.modWfe k (fun x => x.setD i v)).wfeNext k

/-- An ALU or SHIFT instruction: d from d and s. -/
def State.wfeAlu (s : State) (k : SiteIx) (w : Word) (o : WfeObs) (row : Nat) (f : Word → Word → Word) : State :=
  s.wfeExec k w o row (fun s =>
    let x := s.getWfe k
    s.wfeWriteD k (wD w) (f (x.dreg (wD w)) (x.dreg (wS w))))

/-- A jump taken or not. -/
def State.wfeJump (s : State) (k : Nat) (w : Word) (taken : Bool) : State :=
  if taken then s.wfeGoTo k (fldOf w 0 14) else s.wfeNext k

/-- One half of CADD or CSUB: saturating (R339). -/
def satHalves (f : Int → Int → Int) (a b : Word) : Word :=
  complexWord (satTo 16 (f (half a 0) (half b 0))).1 (satTo 16 (f (half a 1) (half b 1))).1

/-! ### The stream ring (R344 to R348) -/

/-- Words available (R348). -/
def State.strAvail (s : State) (k : Nat) : Nat :=
  let len := s.fldAct (Reg.wfeStrRing k) 16 16
  if len = 0 then 0 else ((((s.getWfe k).wp : Int) - (s.wfePtr k 3).p) % len).toNat

/-- The port writes one word, or drops it where the ring is full (R348). -/
def State.strWord (s : State) (k : Nat) (cyc : Nat) (v : Word) : State :=
  if !s.bit (Reg.wfeStatus k) 4 then s
  else
    let x := s.getWfe k
    let q := s.wfePtr k 3
    let n := { q with p := x.wp }.plus wfeXSize 1
    if q.len = 0 ∨ n = q.p then
      let s := (s.satAdd (Reg.wfeStrDrop k) 0 32 1).setBit (Reg.wfeStatus k) 6 true
      if s.strTrig k && s.seqRuns k then s.integ k 34 cyc 0 else s
    else
      let s := (s.setWfe k { x with x := wfePut x.x x.wp v, wp := n }).satAdd (Reg.wfeStrCnt k) 0 32 1
      let len := (s.rd (Reg.wfeStrLen k)).toNat
      if len ≠ 0 ∧ len ≤ (s.rd (Reg.wfeStrCnt k)).toNat then s.strEnd k else s

/-- The bytes of a frame as the mode takes them: those of a gap frame are 0x80 each, or empty records (R345). -/
def SideFrame.data (f : SideFrame) (mode : Nat) : BitVec 64 :=
  let want : BitVec 2 := if mode = 3 then 2 else 1
  if f.bad || f.kind != want then (if mode = 3 then 0 else 0x8080808080808080#64) else f.bytes

/-- A gap frame is counted (R345). -/
def State.strGap (s : State) (k : Nat) (f : SideFrame) (mode : Nat) : State :=
  if f.bad || f.kind != (if mode = 3 then 2 else 1 : BitVec 2) then
    let s := (s.satAdd (Reg.wfeStrGap k) 0 32 1).setBit (Reg.wfeStatus k) 5 true
    if s.strTrig k && s.seqRuns k then s.integ k 33 (f.cycle.getD noCycle) 0 else s
  else s

/-- The words that frames, one for each lane in order, give (R344). -/
def frameWords (mode : Nat) (fs : List SideFrame) : List Word :=
  let d := fs.map (fun f => f.data mode)
  if mode = 2 then
    (List.range 8).map (fun p =>
      ((d.getD 1 0).extractLsb' (8 * p) 8 ++ (0 : BitVec 8) ++ (d.getD 0 0).extractLsb' (8 * p) 8 ++ (0 : BitVec 8)))
  else (List.range 2).flatMap (fun h => d.map (fun b => b.extractLsb' (32 * h) 32))

/-- The lowest frame that every lane of the stream has delivered. -/
def State.strFrame (s : State) (k : Nat) : Option Nat :=
  let x := s.getWfe k
  let full := (x.sides.map (fun e => e.frame)).filter (fun f =>
    (s.strLanes k).all (fun l => x.sides.any (fun e => e.lane == l && e.frame == f)))
  full.foldl (fun b f => some (min f (b.getD f))) none

/-- The stream port writes the words of one frame (R344, R347). -/
def State.streamWord (s : State) (k : Nat) : State :=
  match s.bit (Reg.wfeStatus k) 4, s.strFrame k with
  | true, some f =>
    if (s.strLast k).any (fun n => decide (n < f)) then s.strEnd k
    else
      let mode := s.fldAct (Reg.wfeStrCfg k) 28 2
      let x := s.getWfe k
      let fs := (s.strLanes k).filterMap (fun l => x.sides.find? (fun e => e.lane == l && e.frame == f))
      let s := s.setWfe k { x with sides := x.sides.filter (fun e => decide (f < e.frame)) }
      let s := fs.foldl (fun s e => s.strGap k e mode) s
      let cyc := ((fs.filterMap (fun e => e.cycle)).head?).getD noCycle
      let s := (frameWords mode fs).foldl (fun s v => s.strWord k cyc v) s
      if (s.strLast k).any (fun n => decide (n ≤ f)) then s.strEnd k else s
  | _, _ => s

/-- WFE_STR_CTL (R346, R347, R354): bit 0 go, bit 1 stop. -/
def State.strCtl (s : State) (k : Nat) (go stop : Bool) : State :=
  match go, stop with
  | true, true => s.wfeCmd k 2
  | true, false =>
    if s.bit (Reg.wfeStatus k) 4 then s.wfeCmd k 2
    else
      let base := s.fldAct (Reg.wfeStrRing k) 0 15
      let s := (s.modWfe k (fun x => { x with wp := base, sides := [], from0 := none, goFrame := s.fc / 8 })).setPtr k 3 (fun q => { q with p := base })
      (((s.wr (Reg.wfeStrCnt k) 0).setBit (Reg.wfeStatus k) 4 true)).wfeCmd k 1
  | false, true => (s.strEnd k).wfeCmd k 1
  | false, false => s

/-! ### Transfers (R349, R350) -/

/-- The descriptor of four words, where it is valid. -/
def State.wfeDescriptor (s : State) (k : Nat) (y : List Word) : Option WfeXfer :=
  let w1 := y.getD 1 0
  let w2 := y.getD 2 0
  let addr := (y.getD 0 0).toNat + fldOf w1 0 9 * 2 ^ 32
  let words := fldOf w2 16 16 + 1
  let at0 := fldOf w2 0 16
  let inY := w1.getLsbD 30
  if fldOf w1 9 21 = 0 ∧ y.getD 3 0 = 0 ∧ words ≤ 32768 ∧ addr % 4 = 0 ∧ s.areaInSite k addr (4 * words)
      ∧ at0 + words ≤ (if inY then wfeYSize else wfeXSize) then
    some { addr := addr, out := w1.getLsbD 31, inY := inY, words := words, at0 := at0 }
  else none

/-- What the checks of a list of words do (R333). -/
def State.wfeCheckAll (s : State) (k : Nat) (l : List (Ecc × Word)) : State := l.foldl (fun s e => s.wfeCheck k e.1) s

/-- XFER starts the transfer of its descriptor (R350), or faults. The four words are read with their checks (R333). -/
def State.wfeStartXfer (s : State) (k : Nat) (w : Word) (o : WfeObs) : State :=
  let a := fldOf w 0 13
  let es := (List.range 4).map (fun i => ((o.y, o.flipY) :: o.desc).getD i (.ok, 0))
  let ys := es.mapIdx (fun i e => delivered e.1 e.2 (wfeGet (s.getWfe k).y ((a + i) % wfeYSize)))
  let s := s.wfeCheckAll k es
  match s.wfeDescriptor k ys with
  | none => s.wfeFault k 5
  | some j => ((s.modWfe k (fun x => { x with job := some j })).setBit (Reg.wfeStatus k) 3 true).wfeNext k

/-- Little-endian words of a list of bytes. -/
def wordsOf : List Byte → List Word
  | a :: b :: c :: d :: l => (d ++ c ++ b ++ a) :: wordsOf l
  | _ => []

/-- The check of word `i` of a transfer to DRAM. -/
def wfeWordObs (o : WfeObs) (i : Nat) : Ecc × Word := ((o.moved.find? (fun p => p.1 == i)).map (fun p => p.2)).getD (.ok, 0)

/-- Move the part of a transfer that lies in one row through the vault's service buffer (R349): `c` is its address, offset in bytes and length.
A reserved row, a vault that cannot be reached, or a poisoned row moves nothing; the Bool says so. -/
def State.wfeMovePart (s : State) (k : Nat) (j : WfeXfer) (o : WfeObs) (c : Nat × Nat × Nat) : State × Bool :=
  let first := c.2.1 / 4
  match s.bufRead c.1 c.2.2 (16 + k) with
  | (t, .ok bs false) =>
    if j.out then
      let es := (List.range (c.2.2 / 4)).map (fun i => wfeWordObs o (first + i))
      let x := s.getWfe k
      let out := es.mapIdx (fun i e => leBytes 4 (delivered e.1 e.2 (wfeGet (if j.inY then x.y else x.x) (j.at0 + first + i))).toNat)
      let (u, ok) := (t.wfeCheckAll k es).bufWrite c.1 out.flatten (16 + k)
      (u, !ok)
    else
      ((wordsOf bs).foldl (fun (acc : State × Nat) v =>
        (if j.inY then acc.1.putY k acc.2 v else acc.1.putX k acc.2 v, acc.2 + 1)) (t, j.at0 + first) |>.1, false)
  | (t, _) => (t, true)

/-- Move a whole transfer, row by row, up to the first row that stops it. The per-cycle requests that wait in its vaults go first (R268). -/
def State.wfeMove (s : State) (k : Nat) (j : WfeXfer) (o : WfeObs) : State × Bool :=
  (rowCuts j.addr (4 * j.words)).foldl (fun (acc : State × Bool) c => if acc.2 then acc else acc.1.wfeMovePart k j o c)
    (s.serveFirst j.addr (4 * j.words), false)

/-! ### WFE_CTL (R352) and memory access (R351) -/

/-- A write of WFE_CTL: bits start, halt, clr_fault. -/
def State.wfeCtl (s : State) (k : Nat) (v : Word) : State :=
  let st := s.wfeState k
  match fldOf v 0 3 with
  | 0 => s
  | 1 =>
    if st = 0 ∧ s.wclkOn k then
      let s := (s.setFld (Reg.wfeStatus k) 5 5 0).setFld (Reg.wfePc k) 0 14 (s.fld (Reg.wfeStart k) 0 14)
      ((s.modWfe k (fun x => { x with rep := none, wait := .none, haltReq := false })).setWfeState k 1).wfeCmd k 1
    else s.wfeCmd k 2
  | 2 =>
    if st = 1 then (s.setWfeState k 0).wfeCmd k 1
    else if st = 2 ∨ st = 3 then (s.modWfe k (fun x => { x with haltReq := true })).wfeCmd k 1
    else s.wfeCmd k 2
  | 4 => if st = 4 then (s.setWfeState k 0).wfeCmd k 1 else s.wfeCmd k 2
  | _ => s.wfeCmd k 2

/-- The engine runs: it is neither halted nor faulted. -/
def State.wfeRuns (s : State) (k : Nat) : Bool := decide (1 ≤ s.wfeState k) && decide (s.wfeState k ≤ 3)

/-- The word at WFE_MEM_ADDR: none where no memory has it. -/
def State.wfeMemPeek (s : State) (k : Nat) : Option Word :=
  let a := s.fld (Reg.wfeMemAddr k) 0 15
  let x := s.getWfe k
  match s.fld (Reg.wfeMemAddr k) 30 2 with
  | 0 => if a < 2 ^ 14 then some (wfeGet x.p a) else none
  | 1 => some (wfeGet x.x a)
  | 2 => if a < wfeYSize then some (wfeGet x.y a) else none
  | _ => none

/-- The address moves on where auto-increment is set. -/
def State.wfeMemStep (s : State) (k : Nat) : State :=
  if s.bit (Reg.wfeMemAddr k) 29 then s.setFld (Reg.wfeMemAddr k) 0 15 (s.fld (Reg.wfeMemAddr k) 0 15 + 1) else s

/-- A write of WFE_MEM_DATA. -/
def State.wfeMemWrite (s : State) (k : Nat) (v : Word) : State :=
  let a := s.fld (Reg.wfeMemAddr k) 0 15
  let s :=
    if (s.wfeMemPeek k).isNone then s
    else match s.fld (Reg.wfeMemAddr k) 30 2 with
      | 0 => if s.wfeRuns k then s.wfeCmd k 3 else s.modWfe k (fun x => { x with p := wfePut x.p a v })
      | 1 => s.putX k a v
      | _ => s.putY k a v
  s.wfeMemStep k

/-- An ordinary read of WFE_MEM_DATA with what the check of the word reports: the value it returns. A place without memory
returns a free value. -/
def State.wfeMemRead (s : State) (k : Nat) (e : Ecc) (flip : Word) : State × Word :=
  match s.wfeMemPeek k with
  | none => (s.tickFree.wfeMemStep k, Config.freeWord s.free)
  | some v =>
    let s := if s.fld (Reg.wfeMemAddr k) 30 2 = 0 ∧ e = .double then s.wfeFault k 2 else s.wfeCheck k e
    (s.wfeMemStep k, delivered e flip v)

end Sys2Proof.Machine
end

