-- ==== Sys2Proof/Machine/ModeOps.lean ====
section
/-! DEFINITION. Modes, SAFE, boost, standby and the reset domains (02, R457, R458). -/

namespace Sys2Proof.Machine

/-! ### Mode bookkeeping (R34, R56) -/

def State.modeStatus (s : State) (c : Nat) : State := s.setFld Reg.glbMode 24 4 c
def State.modeBusy (s : State) : Bool := s.bit Reg.glbMode 3
def State.setBusy (s : State) (b : Bool) : State := s.setBit Reg.glbMode 3 b

/-- A timed transition to mode `m` begins. -/
def State.beginTo (s : State) (m : Nat) : State := { s.setBusy true with aon := { s.aon with target := some m } }

/-- No transition is in progress any more. -/
def State.endTrans (s : State) : State := { s.setBusy false with aon := { s.aon with target := none } }

def State.safeLive (s : State) : Nat := s.fld Reg.glbMode 8 8

/-- The live bit of a SAFE cause. -/
def State.setLive (s : State) (code : Nat) (b : Bool) : State := s.setBit Reg.glbMode (8 + code) b

/-- Every site is stopped or isolated (R38). -/
def State.sitesQuiet (s : State) : Bool := sites.all (fun k => s.siteState k == 0 || s.siteState k == 3)

def State.followSites (s : State) : State := s.forAll sites (fun s k => s.followSite k)

/-! ### The rails (R420, R422, R423) -/

def State.fclkSel (s : State) : Nat := s.fld Reg.clkStat 4 2

/-- The floor step of region `k` for the current FCLK select. -/
def State.floorStep (s : State) (k : Nat) : Nat := Sparse.get (fun _ => 0) s.aon.floors (3 * k + s.fclkSel)

/-- Setpoint of rail `r` in mV while it is on (R422); VDD_F at its floor. -/
def State.railSetpoint (s : State) (r : Nat) : Nat :=
  match r with
  | 16 => 750
  | 17 => 750
  | 18 => 850
  | 19 => 1200
  | 20 => 1050
  | 21 => 1800
  | 22 => 800
  | _ => min 850 (700 + 5 * s.floorStep r)

/-- The place of rail `r` in the order in which the rails turn on. -/
def railOrder (r : Nat) : Nat :=
  match r with
  | 22 => 0
  | 17 => 1
  | 16 => 2
  | 21 => 3
  | 20 => 4
  | 19 => 5
  | 18 => 6
  | _ => 7

def rails : List Nat := List.range 23

/-- The step of start-up in progress is `n`. -/
def State.atStep (s : State) (n : Nat) : Bool := s.aon.up && s.aon.step == n

/-- The rails are being turned on in their order (R42, R418). -/
def State.sequencing (s : State) : Bool := s.atStep 4 && s.aon.vinOk

/-- Rail `r` is on: it has entered its window, or it is its turn to (R422). -/
def State.railOn (s : State) (r : Nat) : Bool := decide (railOrder r < s.aon.railsIn + (if s.sequencing then 1 else 0))

/-- The setpoint of rail `r` now: 0 while it is off; in STANDBY the fabric is off and the context layer in retention. -/
def State.railTarget (s : State) (r : Nat) : Nat :=
  if !s.railOn r then 0
  else if s.ctl.gated then (if r < 16 then 0 else if r = 16 then 600 else s.railSetpoint r)
  else s.railSetpoint r

def State.setRail (s : State) (r mv : Nat) : State := s.setFld (Reg.pmuRailV r) 16 16 mv

/-- Every rail at its setpoint. -/
def State.showRails (s : State) : State := s.forAll rails (fun s r => s.setRail r (s.railTarget r))

/-- The rails of the first `n` places of the order are on. -/
def State.railsTo (s : State) (n : Nat) : State := State.showRails { s with aon := { s.aon with railsIn := n } }

/-- The floor of VDD_Fk takes effect while its site does not run (R423). -/
def State.applyFloor (s : State) (k : Nat) : State :=
  let wait (s : State) (b : Bool) : State :=
    let m : BitVec 16 := BitVec.ofNat 16 (2 ^ k)
    { s with aon := { s.aon with floorWait := if b then s.aon.floorWait ||| m else s.aon.floorWait &&& ~~~m } }
  if s.siteBusy k then wait s true else wait (s.setRail k (s.railTarget k)) false

/-! ### Unrepairable planes (R467) -/

def planeN (p : Bool) : Nat := if p then 1 else 0

/-- Site `k` is isolated for an unrepairable plane unless accepted: at once if it is stopped, else when its drain ends. A slice of an
isolated site aborts (R462). -/
def State.planeIso (s : State) (k : Nat) : State :=
  let bad := (s.bit (Reg.safFault k) 7 || s.bit (Reg.safFault k) 15) && !s.bit Reg.safFaultAccept k
  if bad && s.siteBusy k then s
  else ((if bad then s.abortSlice k else s).modSite k (fun x => { x with isoPlane := bad })).followSite k

/-! ### Stops (R36, R52, R102) -/

/-- Site `k` has drained, or its drain is abandoned: drained = 1, its power is released, the window of the integrity word closes, and what
has waited for the site to stop happens: a new floor, and the isolation for an unrepairable plane (R102, R423, R426, R454, R467). -/
def State.siteDrained (s : State) (k : Nat) : State :=
  let s := (((s.setSeqState k 0).setBit (Reg.seqStatus k) 3 true).release k).modSite k (fun x => { x with
    window := false, restorePending := false, slicesLeft := 0 })
  let s := if s.aon.floorWait.getLsbD k then s.applyFloor k else s
  (if (s.getSite k).isoPlane then s else s.planeIso k).followSite k

/-- The drain of site `k` is abandoned at once. -/
def State.abandonDrain (s : State) (k : Nat) : State := if s.seqState k = 5 then (s.abortSlice k).siteDrained k else s

/-- Every running sequencer stops at this fc with a reason of R100, and so does one that stops in this fc for a reason of lower rank
(R35, R101); `abandon` ends every drain at once. -/
def State.stopAll (s : State) (reason : Nat) (abandon : Bool) : State :=
  s.forAll sites (fun s k =>
    let s := s.dueStop k
    let s := if s.canStop k reason then s.cutTo k (s.nowCyc k) else s
    let s := if s.canStop k reason then s.seqStop k reason (s.lastCycle k) else s
    if abandon then s.abandonDrain k else s)

/-! ### Analysis boost (R38, R426) -/

/-- BOOST_ON: admitted if no layer is at cap reduction and the allocation with the boost term fits the budget (R427, R440). DESIGN CHOICE
(log entry 107): while boost is on it is accepted again and changes nothing, which R38 leaves open. -/
def State.boostOn (s : State) : State :=
  if s.mode ≠ modeREADY ∨ !s.sitesQuiet then s.modeStatus 2
  else if s.boost then s.modeStatus 1
  else if s.rd Reg.thmCapred ≠ 0 then (s.modeStatus 5).powerRefused
  else if s.allocForce + s.pmuForce.boostW ≤ s.pmuForce.budget then (s.showBoost true).modeStatus 1
  else (s.modeStatus 5).powerRefused

/-! ### SAFE (R34, R36, R457) -/

/-- Every sequencer halts and every analysis aborts. After a clock cause the drains are abandoned, which ends them: an analysis that starts by
it aborts with the others (R102, R241, R243). -/
def State.haltAll (s : State) (abandon : Bool) : State :=
  let busy := sites.filter s.siteBusy
  let s := s.stopAll 5 abandon
  let s := (busy.filter (fun k => !s.siteBusy k)).foldl State.rpaAuto s
  s.forAll sites (fun s k => s.rpaAbort k 5)

/-- The device enters SAFE with a first cause: every sequencer halts, loads and analyses abort, boost ends, no calibration item runs on
(R470), and the lanes that STANDBY had turned off come up to send PARK. -/
def State.enterSafe (s : State) (code : Nat) : State :=
  let s := s.haltAll (code == 1)
  let s := (s.loadAbort.boostEnd.endTrans.calCut).setMode modeSAFE
  (s.setFld Reg.glbMode 16 8 code).followSites.resumeLanes

/-- A SAFE cause arrives: its SAF event, its live bit (a host request is never live), and SAFE where the mode has the
transition. In SAFE a live cause ends an exit in progress, and a clock cause abandons the drains that go on (R55, R458). -/
def State.safeArrive (s : State) (code : Nat) : State :=
  let s := s.safEvent 0x12 code
  let s := if code = 5 then s else s.setLive code true
  let s : State :=
    if s.mode = modeRESET then s
    else if s.mode = modeSAFE then
      let s := if code = 5 then s else s.endTrans
      if code = 1 then s.haltAll true else s
    else s.enterSafe code
  if code = 1 ∨ code = 2 then s.idleLanes else s

/-- The lowest live cause. -/
def State.lowestLive (s : State) : Option Nat := (List.range 8).find? (fun c => s.bit Reg.glbMode (8 + c))

/-! ### Standby (R32, R37 to R39, R422) -/

/-- Refusal of a vault's queued requests: the vaults of the mask dropped some with aborted status (R288, R289). -/
def State.dropRequests (s : State) (dropped : BitVec 256) : State :=
  s.forAll (vaults.filter dropped.getLsbD) (fun s v => s.setBit (Reg.vltEvt v) 6 true)

/-- The device is in STANDBY: the lanes are off, the fabric is power-gated with any slice in it aborted, the context layer at its retention
voltage, and no calibration item runs (R470). -/
def State.standbyDone (s : State) : State :=
  let s := { s.setMode modeSTANDBY with ctl := { s.ctl with gated := true } }
  let s := ((s.forAll sites (fun s k => s.abortSlice k)).calCut).showRails
  s.forAll (List.range 512) (fun s w => s.laneRestart w)

/-- The standby exit steps (R39): the fabric powers up at its initial values, the lanes come up again, scrubbing restarts at
frame 0, and until its first lap the configuration is unverified. -/
def State.standbyExit (s : State) : State :=
  let s := { s with ctl := { s.ctl with gated := false, lapStart := s.tsc.toNat } }
  let s := (s.setFld Reg.cfgScrub 0 20 0).showRails
  let s := s.forAll sites (fun s k =>
    (s.modFab k (fun f => if f.held then f else f.restart)).modSite k (fun x => { x with cfgUnverified := true }))
  s.forAll (List.range 512) (fun s w => s.laneRestart w)

/-- The transition in progress completes (R34). -/
def State.transDone (s : State) : State :=
  match s.aon.target with
  | none => s
  | some m =>
    let wasSafe := s.mode == modeSAFE
    let s := s.endTrans
    if m = modeSTANDBY then s.standbyDone
    else
      let s := s.setMode m
      let s := if wasSafe then s.setFld Reg.glbMode 16 8 0 else s
      (if s.ctl.gated then s.standbyExit else s).followSites

/-! ### Commands of GLB_MODE_CMD (R57, R458) -/

/-- The restore lap after a warm reset, or the release that follows it, is still to come (R52). -/
def State.restoring (s : State) : Bool := s.ctl.restore || s.ctl.release.isSome

/-- A write of GLB_MODE_CMD. `lost` says that a trigger of a higher kind came in the same hc (R35), `dropped` which vaults drop
queued requests where they enter self-refresh. DESIGN CHOICE (log entry 84): a value that R57 ignores is ignored while busy = 1 too. A
SAFE_ACK before the restore lap has ended goes to LOAD (log entry 85). -/
def State.modeCmd (s : State) (cmd : Nat) (lost : Bool) (dropped : BitVec 256) : State :=
  if cmd = 5 then (s.modeStatus 1).safeArrive 5
  else if cmd = 0 ∨ 7 < cmd then s
  else if lost then s.modeStatus 3
  else if s.modeBusy then s.modeStatus 2
  else match cmd with
    | 1 =>
      if s.mode = modeREADY ∧ s.sitesQuiet ∧ !s.loading ∧ !s.boost then
        (((s.modeStatus 1).dropRequests dropped).allSleep).beginTo modeSTANDBY
      else s.modeStatus 2
    | 2 => if s.mode = modeSTANDBY then (s.modeStatus 1).beginTo modeREADY else s.modeStatus 2
    | 3 => s.boostOn
    | 4 => (s.boostEnd).modeStatus 1
    | 6 =>
      if s.mode ≠ modeSAFE then s.modeStatus 2
      else if s.safeLive ≠ 0 then s.modeStatus 4
      else (s.modeStatus 1).beginTo (if s.cfgValid && !s.restoring then modeREADY else modeLOAD)
    | _ =>
      if s.mode = modeREADY ∧ !s.anyRuns then ((s.loadAbort).discard 0).modeStatus 1 else s.modeStatus 2

/-! ### Reset domains (R50) -/

/-- A register of the AON domain. -/
def inAon (a : Nat) : Bool :=
  a == 0x4 || (decide (0x100 ≤ a) && decide (a < 0x120)) || (decide (0x2000 ≤ a) && decide (a < 0x6000))
    || (decide (0x100000 ≤ a) && decide (a < 0x180000))
    || (decide (0x200000 ≤ a) && decide (a < 0x300000) && a != Reg.safRepairCmd && a != Reg.safFaultAccept)

/-- A register that a warm reset keeps: AON, the clock block, the vault island, and of the context domain the state of the
golden copies and the column repairs (R50, R52, R465). -/
def keptWarm (a : Nat) : Bool :=
  inAon a || (decide (0x180000 ≤ a) && decide (a < 0x200000)) || (decide (0x2000000 ≤ a) && decide (a < 0x2200000))
    || (decide (Reg.cfgRegion 0 ≤ a) && decide (a ≤ Reg.cfgRegion 15))
    || (decide (Reg.fabColmap 0 ≤ a) && decide (a ≤ Reg.fabColmap 15))

/-- The column repairs that fuses hold (R171, R465). -/
def fusedColmap (w : Word) : Word :=
  (if w.getLsbD 16 then w &&& 0x000100FF#32 else 0) ||| (if w.getLsbD 17 then w &&& 0x0002FF00#32 else 0)

/-- Keep the registers and queues of a set of addresses; every other is at its reset value. -/
def State.keepRegs (s : State) (keep : Nat → Bool) : State :=
  { s with regs := s.regs.filter (fun p : Nat × Word => keep p.1), queues := s.queues.filter (fun p : Nat × Queue => keep p.1) }

/-- The base domain and those below it reset; `full` resets every domain but AON. DESIGN CHOICE (log entry 107): the rails that STANDBY has
turned off or lowered come back with a reset taken from there, warm or full; R52 and R53 speak of no such rail. -/
def State.resetBase (s : State) (full : Bool) : State :=
  let s := s.jobCut
  let fused := sites.map (fun k => (Reg.fabColmap k, fusedColmap (s.rd (Reg.fabColmap k))))
  let resets := s.fld Reg.cpuStatus 0 8
  let s := s.keepRegs (fun a => if full then inAon a else keptWarm a)
  let s := if full then fused.foldl (fun s p => s.wr p.1 p.2) s else s
  let s := (s.setFld Reg.cpuStatus 0 8 resets).setBit Reg.cfgSig 31 (s.bit Reg.glbVariant 4)
  let keepSite (x : Site) : Site :=
    if full then
      { seen := x.seen, isoVault := x.isoVault, isoPlane := x.isoPlane }
    else
      { seen := x.seen, isoVault := x.isoVault, isoPlane := x.isoPlane, isoIncomplete := x.isoIncomplete
        isoGolden := x.isoGolden, pclass := x.pclass, unsync := x.unsync, lmap := x.lmap }
  let c := s.ctl
  let ctl : CtxLayer :=
    if full then {} else { frames := c.frames, golden := c.golden, relev := c.relev, goldenCfg := c.goldenCfg }
  let s := { s with
    site := s.site.map (fun (p : Nat × Site) => (p.1, keepSite p.2)), lane := [], wfe := [], xflags := [], expo := [], cpu := {}, burn := none,
    commits := if full then [] else s.commits.filter (fun p : Nat × PendingCommit => p.1 == Reg.vltCommit),
    host := { msgs := s.host.msgs, toHost := s.host.toHost, toHostEp := s.host.toHostEp, spd := if full then [] else s.host.spd },
    glint := { s.glint with inFrame := false, waiting := [] },
    bist := s.bist.map (fun (p : Nat × Bist) => (p.1, { p.2 with run := none, repair := none })),
    ctl := ctl }
  let s := s.calCut.showRails
  s.forAll sites (fun s k =>
    let s := s.modFab k (fun f => if full then {} else ({ f with
      held := true, parked := true, parkFrom := 0, slice := none, winReads := [], busOff := f.busOff.filter (fun o => o.permanent) } : Fabric).restart)
    let s := s.showBusOff k
    if s.bit (Reg.safFault k) 7 || s.bit (Reg.safFault k) 15 then s.modSite k (fun x => { x with isoPlane := true }) else s)

/-- RESET is entered (R56, R62), which ends boost and keeps what AON holds, the outcome of the last command among it (R50): `startup` are the bits of GLB_STARTUP whose steps are repeated. -/
def State.enterReset (s : State) (kind : ResetKind) (startup : Word) (valid : Bool) : State :=
  let s := s.boostEnd
  let live := s.fld Reg.glbMode 8 8
  let status := s.fld Reg.glbMode 24 4
  let s := s.wr Reg.glbStartup (s.rd Reg.glbStartup &&& ~~~startup)
  let ready := s.bit Reg.glbStartup 7
  let s := s.wr Reg.glbMode (BitVec.ofNat 32 (8 + (if valid then 32 else 0) + (if ready then 64 else 0) + live * 256 + status * 2 ^ 24))
  let s := { s with aon := { s.aon with kind := kind, target := none } }
  s.followSites

/-- A warm reset (R52): `dropped` says which vaults drop queued requests. Window reads that were accepted complete (R161, R288). -/
def State.warmReset (s : State) (dropped : BitVec 256) : State :=
  let valid := s.cfgValid
  let s := s.stopAll 6 true
  let s := s.loadAbort
  let valid := valid && s.cfgValid
  let s := s.forAll sites (fun s k => s.landDue k ((s.getFab k).now + 63))
  let s := (s.forAll vaults (fun s v => s.svcFlush v)).dropRequests dropped
  (s.resetBase false).enterReset .warm 0x170#32 valid

/-- A full reset (R53): every vault sleeps and must be trained again; a vault that had failed holds undefined data (R287). -/
def State.fullReset (s : State) (dropped : BitVec 256) : State :=
  let s := s.stopAll 6 true
  let s := (s.allSleep).dropRequests dropped
  let s := s.forAll (vaults.filter (fun v => s.vltState v == 5)) (fun s v =>
    s.tickFree.modVault v (fun x => { x with lost := some (s.free * 2 ^ 48), known := [] }))
  let s := s.resetBase true
  let s := { s with vault := s.vault.map (fun p : Nat × Vault => (p.1,
    { fuses := p.2.fuses, mirror := p.2.mirror, lost := p.2.lost, known := p.2.known, goldenBad := p.2.goldenBad })) }
  let s := { s with aon := { s.aon with step := 1, trainFull := true } }
  let s := (s.enterReset .full 0x1F7#32 false).forAll sites (fun s k => (s.modSite k (fun x => { x with isoVault := false })).followSite k)
  s.setBit Reg.clkStat 6 true

/-- A POR-kind reset (R51, R419): all but what fuses and flash hold is lost. DEDUCED (log entry 99): the voltage floors stay, since none
is ever lowered (R474). -/
def State.porReset (s : State) : State :=
  let s := s.jobCut
  let fused := sites.map (fun k => (Reg.fabColmap k, fusedColmap (s.rd (Reg.fabColmap k))))
  let rec0 := s.rd Reg.pmuResetRec
  let variant := s.rd Reg.glbVariant
  let t : State := { pending := s.pending, free := s.free, flash := s.flash, glintLock := s.glintLock, cpl := s.cpl
                     vault := (s.vault.map (fun p : Nat × Vault => (p.1, ({ fuses := p.2.fuses } : Vault)))).filter
                       (fun p => decide (p.2 ≠ {}))
                     host := { msgs := s.host.msgs, toHost := s.host.toHost, toHostEp := s.host.toHostEp }
                     aon := { perst := s.aon.perst, vio := s.aon.vio, strap := s.aon.strap
                              hours := s.aon.hours, logPos := s.aon.logPos, logQueue := s.aon.logQueue
                              slotCut := s.aon.slotCut, floors := s.aon.floors } }
  let t := fused.foldl (fun t p => t.wr p.1 p.2) ((t.wr Reg.pmuResetRec rec0).wr Reg.glbVariant variant)
  let t := t.setBit Reg.cfgSig 31 (variant.getLsbD 4)
  t

/-- A reset source of a kind arrives while RESET lasts (R53): it restarts a reset of the same or a smaller kind, or replaces it;
one of a larger kind in progress goes on. -/
def ResetKind.rank : ResetKind → Nat
  | .warm => 1
  | .full => 2
  | .por => 3

def State.resetTakes (s : State) (kind : ResetKind) : Bool := s.mode != modeRESET || decide (s.aon.kind.rank ≤ kind.rank)

/-- RESET ends (R54, R34, R437, R457): after POR the thermal model starts from the sensors; the epoch counts, the TSC and the frames start again, the lanes come up, and the device is in LOAD,
or at once in SAFE where a cause is live. After a warm reset of a valid configuration the restore lap starts. -/
def State.leaveReset (s : State) : State :=
  let s := s.satAdd Reg.glbEpoch 0 16 1
  let restore := s.aon.kind == .warm && s.cfgValid
  let por := s.aon.kind == .por
  let hats := if por then s.aon.therm.map (fun p => (p.1, { p.2 with hat := p.2.mean })) else s.aon.therm
  let s := if por then hats.foldl (fun s (p : Nat × Therm) => s.setFld (Reg.thmModel p.1) 0 12 (BitVec.ofInt 12 p.2.hat.floor).toNat) s
    else s
  let s := s.forAll vaults (fun s v =>
    let past := s.lapTime v
    s.modVault v (fun x => { x with lapStart := 0, lapPast := past }))
  let s := s.forAll sites (fun s k => s.modBist k (fun b => { b with past := b.past + (s.tsc - b.since).toNat, since := 0 }))
  let s := { s.restartFc with tsc := 0, ctl := { s.ctl with restore := restore, lapStart := 0 }, aon := { s.aon with therm := hats, pmuBefore := none } }
  let s := (s.setMode modeLOAD).endTrans
  let s := s.forAll (List.range 512) (fun s w => s.laneRestart w)
  let s := s.followSites
  match s.lowestLive with
  | some c => s.enterSafe c
  | none => s

/-- DRAM training starts once PERST_N is deasserted and the rails are up, after POR or a full reset (R42, R286). -/
def State.maybeTrain (s : State) : State :=
  if s.mode = modeRESET ∧ s.aon.step = 5 ∧ !s.aon.perst ∧ !s.bit Reg.glbStartup 7 then
    s.forAll (vaults.filter (fun v => s.vltState v == 0)) (fun s v => s.setVltState v 1)
  else s

/-! ### Loss of the root clocks (R55, R430) -/

/-- REFCLK or the PLL fails: SAFE cause 0x01, the vaults sleep, the clocks stop, the link goes down, and the judgement is
repeated. -/
def State.clockLoss (s : State) (unlock : Bool) (dropped : BitVec 256) : State :=
  let s := s.safeArrive 1
  let s := (s.dropRequests dropped).allSleep
  let s := if s.mode = modeRESET then s else s.functionReset true
  let s := (s.setFld Reg.clkStat 0 3 0).setBit Reg.clkStat 6 true
  let s := if unlock then s.setBit Reg.clkStat 3 true else s
  { s with aon := { s.aon with step := 1 }, glint := { s.glint with inFrame := false } }

end Sys2Proof.Machine
end

