-- ==== Sys2Proof/Machine/HealthOps.lean ====
section
/-! DEFINITION. Shared operations of calibration, margins, the ageing log, self-test slices and column repair (15). -/

namespace Sys2Proof.Machine

/-- A signed field of a register. -/
def State.sfld (s : State) (a lo len : Nat) : Int := (BitVec.ofNat len (s.fld a lo len)).toInt

/-- The acted-on temperature of a layer in 1/8 °C (R439, R449). -/
def State.acted (s : State) (l : Nat) : Int := s.sfld (Reg.thmLayer l) 0 12

/-- The greatest of a list, `d` where it is empty. -/
def maxOf (d : Int) (l : List Int) : Int := l.foldl max (l.headD d)
def minOf (d : Int) (l : List Int) : Int := l.foldl min (l.headD d)

/-! ### Calibration (R468 to R472) -/

/-- The reference layers of an instance. -/
def calLayers (i : Nat) : List Nat :=
  if i < 256 then List.range 17 else if i < 272 then List.range 18 else if i < 528 then [0] else List.range 20

/-- The sites an instance belongs to; the clock spine belongs to every site. -/
def calSites (i : Nat) : List Nat :=
  if i < 256 then [i / 16] else if i < 272 then [i - 256] else if i < 528 then [(i - 272) / 16] else sites

def State.calTemp (s : State) (i : Nat) : Int := maxOf 0 ((calLayers i).map s.acted)

/-- cal_dt in 1/8 K. -/
def State.calStep (s : State) : Int := 8 * s.fld Reg.safCalCfg 0 5

def State.calFlag (s : State) (i b : Nat) : Bool := s.bit (Reg.safCalStat i) b
def State.setCal (s : State) (i b : Nat) (v : Bool) : State := s.setBit (Reg.safCalStat i) b v
def calRunning : Nat := 31
def calPending : Nat := 30
def calOverdue : Nat := 29

/-- SAF_CAL_OVERDUE: the sites with an overdue item. -/
def State.showOverdue (s : State) : State :=
  let hit (k : Nat) : Bool := (List.range 529).any (fun i => s.calFlag i calOverdue && (calSites i).contains k)
  s.wr Reg.safCalOverdue (BitVec.ofNat 32 ((sites.map (fun k => if hit k then 2 ^ k else 0)).sum))

/-- How far the temperature of an item has moved since its last accepted run, in 1/8 K. -/
def State.calMoved (s : State) (i : Nat) : Nat := (s.calTemp i - s.sfld (Reg.safCalStat i) 0 12).natAbs

/-- Judge the movement of an instance's temperature: pending at cal_dt, overdue at twice that (R469, R472). -/
def State.calTrack (s : State) (i : Nat) : State :=
  let moved := s.calMoved i
  let s := if s.calStep ≤ moved then s.setCal i calPending true else s
  if 2 * s.calStep ≤ moved ∧ !s.calFlag i calOverdue then
    (calSites i).foldl (fun s k => s.integ k 28 noCycle i) (s.setCal i calOverdue true)
  else s

def State.calTrackAll (s : State) : State := (s.forAll (List.range 529) (fun s i => s.calTrack i)).showOverdue

/-- The interruption of an item in fc at the current FCLK (R468). -/
def State.calLength (s : State) (i : Nat) : Nat :=
  (if i < 256 then 4 else if i < 272 then 8 else if i < 528 then 16 else 2) * 16000 / s.fdiv

/-- A load of region `k` is in progress. -/
def State.loadsRegion (s : State) (k : Nat) : Bool :=
  s.loading && (match s.ctl.load.hdr with
    | some h => h.full || h.regions.getLsbD k
    | none => false)

/-- An item that starts in fc `t` lies within a CALWIN of site `k` (R88, R470). -/
def State.inCalwin (s : State) (k i t : Nat) : Bool :=
  match s.seqState k, (s.getSite k).wait with
  | 4, .calwin first len =>
    let u := (s.getSite k).fc0 + first
    let from0 := u + (s.getSite k).hUse + (if i < 256 then 640 else 0)
    decide (from0 ≤ t) && decide (t + s.calLength i ≤ u + len - 64)
  | _, _ => false

/-- Item `i` is asked for: by SAF_CAL_CMD, or by a re-plan (R469). A request made while the item runs stands after the run. -/
def State.calAsk (s : State) (i : Nat) : State :=
  let s := s.setCal i calPending true
  if s.calFlag i calRunning then { s with aon := { s.aon with calAsked := i :: s.aon.calAsked.erase i } } else s

/-- A pending item may run from fc `t` on (R470). DEDUCED (log entry 100): in RUN an item of a site that does not run waits too. -/
def State.calMayRun (s : State) (i t : Nat) : Bool :=
  if i = 528 then (s.mode == modeLOAD || s.mode == modeREADY) && !s.anyBusy && !s.loading
  else if s.mode = modeRUN then (calSites i).all (fun k => s.inCalwin k i t)
  else (s.mode == modeLOAD || s.mode == modeREADY) && (calSites i).all (fun k => !s.siteBusy k && !s.loadsRegion k)

/-- No other item that is pending and may run from fc `t` on is more overdue: the one whose temperature has moved most goes first (R469).
DEDUCED (log entry 111). -/
def State.calFirst (s : State) (i t : Nat) : Bool :=
  (List.range 529).all (fun j => !(s.calFlag j calPending && !s.calFlag j calRunning && decide (s.calMoved i < s.calMoved j)
    && s.calMayRun j t))

/-- Two measurements, in taps from the production value, are accepted (R471). -/
def calAccepted (t1 t2 : Int) : Bool := decide ((t1 - t2).natAbs ≤ 1) && decide (t1.natAbs ≤ 12) && decide (t2.natAbs ≤ 12)

/-- A run ends with two measurements in taps from the production value (R471). Which redundant channels or comparator an accepted run of a
region's or a lane's item selects, the spec leaves to what it measured (R19, R468): a free value, Config.redundant. -/
def State.calDone (s : State) (i : Nat) (t1 t2 : Int) : State :=
  let asked := s.aon.calAsked.contains i
  let s := s.setCal i calRunning false
  let s := { s with aon := { s.aon with calAsked := s.aon.calAsked.erase i } }
  let a := Reg.safCalStat i
  if calAccepted t1 t2 then
    let s := { s with aon := { s.aon with taps := Sparse.set (fun _ => 0) s.aon.taps i (BitVec.ofInt 8 (min t1 t2)) } }
    let s : State := if 256 ≤ i ∧ i < 528 then
        { s.tickFree with aon := { s.aon with spares := Sparse.set (fun _ => 0) s.aon.spares i (s.free + 1) } }
      else s
    let s := ((s.satAdd (Reg.safCalCount i) 0 32 1).wr64 (Reg.safCalTscLo i) s.tsc.toNat).setFld a 0 12
      (BitVec.ofInt 12 (s.calTemp i)).toNat
    (((s.setFld a 12 4 0).setCal i calPending asked).setCal i calOverdue false).showOverdue
  else
    let s := (s.satAdd a 16 8 1).satAdd a 12 4 1
    if s.fld a 12 4 = 3 then s.safEvent 0x0C i else s

/-! ### The ageing log (R477) -/

def ageBase : Nat := 0x230000

/-- Queue a record: type, layer or region byte, the voltage in mV, the slack, the temperature, and bytes 12 on. -/
def State.ageQueue (s : State) (type index mv slack temp : Nat) (more : List Byte) : State :=
  let r := leBytes 1 type ++ leBytes 1 index ++ leBytes 2 mv ++ leBytes 1 slack ++ leBytes 1 (s.fld Reg.clkStat 4 2)
    ++ leBytes 2 temp ++ more
  { s with aon := { s.aon with logQueue := s.aon.logQueue ++ [r ++ List.replicate (28 - r.length) 0] } }

/-- The firmware writes the oldest queued record at the ring's next place, with the powered hours so far. -/
def State.ageWrite (s : State) : State :=
  match s.aon.logQueue with
  | [] => s
  | r :: rs =>
    let s := s.flashPut (ageBase + 32 * s.aon.logPos) (leBytes 4 s.aon.hours ++ r)
    { s with aon := { s.aon with logQueue := rs, logPos := (s.aon.logPos + 1) % 8192 } }

/-- The records of the log. -/
def State.ageRecords (s : State) : List (List Byte) := (List.range 8192).map (fun i => s.flashBytes (ageBase + 32 * i) 32)

/-! ### Margins (R473 to R476) -/

/-- Steps by which a region's floor of the current select rose over the last 2,000 powered hours, by the log. -/
def State.floorRise (s : State) (k : Nat) : Nat :=
  let age (r : List Byte) : Nat := s.aon.hours - getLe r 0 4
  (s.ageRecords.filter (fun r => getLe r 4 1 == 1 && getLe r 5 1 == 0x20 + k && getLe r 9 1 == s.fclkSel
    && decide (age r ≤ 32000))).length
    + (s.aon.logQueue.filter (fun r => getLe r 0 1 == 1 && getLe r 1 1 == 0x20 + k && getLe r 5 1 == s.fclkSel)).length

/-- The projected powered hours until the floor step reaches 30 (R476). -/
def State.floorHours (s : State) (k : Nat) : Nat :=
  let rise := s.floorRise k
  if rise = 0 then 0xFFFF else min 0xFFFF ((30 - s.floorStep k) * 2000 / rise)

/-- The slack in SAF_MARGIN of region `k`. -/
def State.showMargin (s : State) (k : Nat) (slack : Int) : State :=
  s.setFld (Reg.safMargin k) 0 8 (BitVec.ofInt 8 (min slack 127)).toNat

/-- SAF_MARGIN of region `k` (R476): the last slack, and the floor step and its projection now. -/
def State.marginNow (s : State) (k : Nat) : Word :=
  BitVec.ofNat 32 (s.fld (Reg.safMargin k) 0 8 + s.floorStep k * 2 ^ 8 + s.floorHours k * 2 ^ 16)

/-- The offer of SAF_MARGIN_STAT: the next slower select while anything is exhausted. -/
def State.showOffer (s : State) : State :=
  let any := s.fld Reg.safMarginStat 0 17 != 0
  s.setFld Reg.safMarginStat 18 2 (if any ∧ s.fclkSel < 2 then s.fclkSel + 1 else 0)

/-- MARGIN_EXHAUSTED is declared: event, class 35 for the sites, a record. -/
def State.declareExhausted (s : State) (detail index : Nat) (l : List Nat) (mv : Nat) (slack temp : Int) : State :=
  let s := l.foldl (fun s k => s.integ k 35 noCycle 0) (s.safEvent 0x11 detail)
  s.ageQueue 2 index mv (BitVec.ofInt 8 slack).toNat (BitVec.ofInt 12 temp).toNat []

/-- The monitors of region `k` are read: a floor below 30 steps rises by one and the region's through-stack item is requested. -/
def State.marginRegion (s : State) (k : Nat) (slack : Int) : State :=
  let n := s.floorStep k
  let temp := s.acted 17
  let s :=
    if slack < 25 ∧ n < 30 then
      let s := { s with aon := { s.aon with floors := Sparse.set (fun _ => 0) s.aon.floors (3 * k + s.fclkSel) (n + 1) } }
      ((s.calAsk (256 + k)).applyFloor k).ageQueue 1 (0x20 + k) (700 + 5 * (n + 1)) (BitVec.ofInt 8 slack).toNat
        (BitVec.ofInt 12 temp).toNat []
    else s
  let ex := decide (slack < 25) && n == 30
  let s := if ex && !s.bit Reg.safMarginStat k then s.declareExhausted (0x1F + k * 32) (0x20 + k) [k] 850 slack temp else s
  ((s.setBit Reg.safMarginStat k ex).showMargin k slack).showOffer

/-- Layer index under R435 of fixed-rail layer `l` (B, M0 to M15, C). -/
def fixedLayer (l : Nat) : Nat := if l = 17 then 18 else l

/-- The monitors of a fixed-rail layer are read. -/
def State.marginLayer (s : State) (l : Nat) (slack : Int) : State :=
  let ex := decide (slack < 25)
  let i := fixedLayer l
  let s := if ex && !s.aon.exhausted.getLsbD l then s.declareExhausted i i sites 0 slack (s.acted i) else s
  let m : BitVec 18 := BitVec.ofNat 18 (2 ^ l)
  let s := { s with aon := { s.aon with exhausted := if ex then s.aon.exhausted ||| m else s.aon.exhausted &&& ~~~m } }
  let s := s.wr (Reg.safLmargin l) (BitVec.ofNat 32 (BitVec.ofInt 8 (min slack 127)).toNat)
  (s.setBit Reg.safMarginStat 16 (s.aon.exhausted != 0)).showOffer

/-- The monitors of a region (0 to 15) or of a fixed-rail layer (16 to 33: B, M0 to M15, C) measure these slacks in ps; the smallest
counts. -/
def State.marginRead (s : State) (m : Nat) (slacks : List (BitVec 8)) : State :=
  match slacks.map BitVec.toInt with
  | [] => s
  | x :: l =>
    let low := minOf x (x :: l)
    if m < 16 then s.marginRegion m low else s.marginLayer (m - 16) low

/-- The units with margin monitors that an item references (R468, R473): the layers M0 to M15 and B, with a region's item the region too; B;
all. -/
def calMonitors (i : Nat) : List Nat :=
  let stack := (List.range 17).map (fun l => 16 + l)
  if i < 256 then stack else if i < 272 then (i - 256) :: stack else if i < 528 then [16] else stack ++ [33]

/-- A run ends, and an accepted one reads the margin monitors of the layers it references (R473). -/
def State.calEnd (s : State) (i : Nat) (t1 t2 : Int) (slacks : List (List (BitVec 8))) : State :=
  let s := s.calDone i t1 t2
  if calAccepted t1 t2 then ((calMonitors i).zip slacks).foldl (fun s q => s.marginRead q.1 q.2) s else s

/-! ### Unrepairable planes (R467) -/

def State.unrepairable (s : State) (k : Nat) (p : Bool) : State :=
  ((s.setBit (Reg.safFault k) (7 + 8 * planeN p) true).safEvent 0x10 (k + planeN p * 16)).planeIso k

/-! ### Slices (R460 to R464) -/

def State.sliceColumn (s : State) (k p : Nat) : Nat := s.fld (Reg.safFault k) (8 * p) 7

/-- A column queued by a residue mismatch and not yet confirmed (R464). -/
def State.queuedSlice (s : State) (k : Nat) : Option Slice :=
  ([0, 1].find? (fun p => s.sliceColumn k p != 0x7F && !(s.getBist k).confirmed.getLsbD p)).map
    (fun p => { col := 65 * p + s.sliceColumn k p, lap := false })

/-- The slice of region `k` that runs next. -/
def State.nextSlice (s : State) (k : Nat) : Slice :=
  match (s.getBist k).suspect with
  | some x => x
  | none => (s.queuedSlice k).getD { col := (s.getBist k).pos, lap := true }

/-- A slice may start in region `k` (R89, R462): in a BISTWIN, after its save and before its restore, up to the number its length allows;
or while the site is stopped and automatic slices are on. -/
def State.sliceMay (s : State) (k : Nat) : Bool :=
  let x := s.getSite k
  let win := (match s.seqState k, x.wait with
    | 4, .bistwin _ _ => true
    | _, _ => false) && x.restorePending && decide (x.bistEdge ≤ s.fc) && decide (0 < x.slicesLeft)
  (s.getBist k).run.isNone && s.fabRuns k && (win || (s.siteState k == 0 && !s.siteBusy k && !s.loadsRegion k
    && s.bit Reg.safBistCfg 0))


/-- A slice of the lap has passed, or its column is dealt with: the lap moves on, and ends with its signature (R461). -/
def State.lapNext (s : State) (k : Nat) (sig : Word) (pass : Bool) : State :=
  let b := s.getBist k
  let sg := b.sig ^^^ sig.rotateLeft b.pos
  let clean := b.clean && pass
  if b.pos + 1 < 130 then
    (s.setBist k { b with pos := b.pos + 1, sig := sg, clean := clean }).setBit Reg.safBistStat (16 + k) true
  else
    let s := (s.setBist k { b with pos := 0, sig := 0, clean := true }).setBit Reg.safBistStat (16 + k) false
    if clean && sg != Config.goldenLap k s.production then s.safEvent 0x0F k
    else s.satAdd (Reg.safBistDebt k) 16 16 1

/-- A column has a permanent fault (R464): marked, reported, and queued for repair; a plane without a spare for it is
unrepairable (R467). -/
def State.permanentFault (s : State) (k col : Nat) : State :=
  let p := col / 65
  let c := col % 65
  let named := s.fld (Reg.safFault k) (8 * p) 7
  let s := if named = 0x7F ∨ named = c then s else s.modBist k (fun b => { b with queued := (p, named) :: b.queued.erase (p, c) })
  let s := s.setFld (Reg.safFault k) (8 * p) 7 c
  let s := (s.safEvent 0x0D (k * 2 ^ 20 + p * 2 ^ 19 + c * 2 ^ 12)).integ k 30 noCycle 0
  let s := s.modBist k (fun b => { b with confirmed := b.confirmed ||| BitVec.ofNat 2 (2 ^ p) })
  if s.planeRepaired k p || c == 64 then s.unrepairable k (p == 1) else s

/-- A slice ends with its signature (R460 to R464). -/
def State.sliceDone (s : State) (k : Nat) (sig : Word) : State :=
  match (s.getBist k).run with
  | none => s
  | some x =>
    let pass := sig == Config.goldenSlice s.production
    let s := (s.modBist k (fun b => { b with run := none, suspect := none })).modFab k (fun f => { f with slice := none })
    let s := (s.debtClear k).setBit Reg.safBistStat k false
    if pass then
      let s := if x.again then s.satAdd Reg.safBistTrans 0 32 1 else s
      if x.lap then s.lapNext k sig true else s.nextColumn k (x.col / 65)
    else if !x.again then s.modBist k (fun b => { b with suspect := some { x with again := true } })
    else
      let s := s.permanentFault k x.col
      if x.lap then s.lapNext k sig false else s

/-! ### Repair of columns (R465, R466, R479) -/

def State.repairing (s : State) : Bool := s.burn.isSome || sites.any (fun k => (s.getBist k).repair.isSome)

def State.showRepair (s : State) : State := s.setBit Reg.safRepairCmd 31 s.repairing

def State.repairStatus (s : State) (c : Nat) : State := s.setFld Reg.safRepairCmd 28 3 c

/-- A confirmed column of the plane waits, and the plane holds no repair. -/
def State.repairable (s : State) (k : Nat) (p : Bool) : Bool :=
  (s.getBist k).confirmed.getLsbD (planeN p) && !s.planeRepaired k (planeN p)
    && !s.bit (Reg.safFault k) (7 + 8 * planeN p)

def State.repairStart (s : State) (k : Nat) (p cmd : Bool) : State :=
  (s.modBist k (fun b => { b with repair := some (p, cmd) })).showRepair

/-- A write of SAF_REPAIR_CMD: bit 9 fuse, bit 8 repair; `keyed` says that a key window is open. -/
def State.repairCmd (s : State) (req : Requester) (v : Word) (keyed : Bool) : State :=
  let k := fldOf v 0 4
  let p := v.getLsbD 4
  let fuse := v.getLsbD 9
  let s := if fuse && !keyed then s.keyRefused req.toNat Reg.safRepairCmd else s
  let fuse := fuse && keyed
  let s := (s.setFld Reg.safRepairCmd 0 4 k).setBit Reg.safRepairCmd 4 p
  if v.getLsbD 8 && fuse then s.repairStatus 2
  else if v.getLsbD 8 then
    if s.repairing || s.siteState k != 0 || s.siteBusy k then s.repairStatus 2
    else if !s.repairable k p then s.repairStatus 3
    else s.repairStart k p true
  else if fuse then
    if s.fld Reg.pmuVin 0 16 < 3000 then s.repairStatus 4
    else if s.repairing || s.siteBusy k || s.bit Reg.vltFuseCmd 31 then s.repairStatus 2
    else if !s.planeRepaired k (planeN p) || s.bit (Reg.fabColmap k) (16 + planeN p) then s.repairStatus 5
    else ({ s with burn := some (k, p) } : State).showRepair
  else s

/-- A repair ends with its confirming slice. The site is stopped while the repair runs (R145): of a site that has been started meanwhile
the repair goes on, and the multiplexers switch, only once it has stopped again. DEDUCED (log entry 110). -/
def State.repairDone (s : State) (k : Nat) (pass : Bool) : State :=
  match (s.getBist k).repair with
  | none => s
  | some (p, cmd) =>
    if s.siteBusy k then s
    else
    let n := planeN p
    let col := s.sliceColumn k n
    let s := (s.modBist k (fun b => { b with repair := none })).showRepair
    let s := (s.setFld (Reg.fabColmap k) (8 * n) 6 col).setBit (Reg.fabColmap k) (7 + 8 * n) true
    let s := if cmd then s.repairStatus (if pass then 1 else 7) else s
    let s := s.ageQueue 3 (0x20 + k) (700 + 5 * s.floorStep k) (s.fld (Reg.safMargin k) 0 8) (s.fld (Reg.thmLayer 17) 0 12)
      (leBytes 1 n ++ leBytes 1 col)
    if pass then
      (s.nextColumn k n).modBist k (fun b => { b with confirmed := b.confirmed &&& ~~~BitVec.ofNat 2 (2 ^ n) })
    else s.unrepairable k p

/-- A column fuse burn ends (R466). -/
def State.burnDone (s : State) (ok : Bool) : State :=
  match s.burn with
  | none => s
  | some (k, p) =>
    let s := ({ s with burn := none } : State).showRepair
    if ok then
      ((s.setBit (Reg.fabColmap k) (16 + planeN p) true).repairStatus 1).ageQueue 4 (0x20 + k) (700 + 5 * s.floorStep k)
        (s.fld (Reg.safMargin k) 0 8) (s.fld (Reg.thmLayer 17) 0 12) []
    else s.repairStatus 6

/-- A write of GLB_INTEG_CLR: refused for a site whose window is open (R455). -/
def State.integClr (s : State) (mask : BitVec 16) : State :=
  s.forAll (members mask) (fun s k => if (s.getSite k).window then s else s.integClear k)

end Sys2Proof.Machine
end

