-- ==== Sys2Proof/Machine/StartOps.lean ====
section
/-! DEFINITION. Shared operations of start-up, supply and clocks (02, 14): steps that pass or fail, telemetry, the budget, FCLK
changes and the frequency counter. -/

namespace Sys2Proof.Machine

def State.setAon (s : State) (f : Aon → Aon) : State := { s with aon := f s.aon }

def State.setStep (s : State) (n : Nat) : State := s.setAon (fun a => { a with step := n })

/-- A step fails (R41): everything from the REFCLK judgement onward is repeated. Until the PLL locks again the monitor oscillator clocks
AON (R431). -/
def State.stepFails (s : State) (n : Nat) : State :=
  (((s.startFail n).setFld Reg.clkStat 0 3 0).setBit Reg.clkStat 6 true).setStep 1

/-- A step passes: its bits of GLB_STARTUP and CLK_STAT. -/
def State.stepPasses (s : State) (n next : Nat) : State :=
  ((s.setBit Reg.glbStartup (n - 1) true).setBit Reg.clkStat (n - 1) true).setStep next

/-- The steps behind the clock follow (R42, R53 step 5): the rails where they are not up, else those behind PERST_N. Outside RESET
the clocks restart next (R55). -/
def State.afterRatio (s : State) : State :=
  if s.mode ≠ modeRESET then s.setStep 0
  else if s.bit Reg.glbStartup 3 then (s.setStep 5).maybeTrain
  else (s.setStep 4).showRails

/-- During rail sequencing, the rails whose turn it is have entered their window where this measurement shows all of them within 8 % of
their setpoints; the last ones are in with RAIL_SEQUENCING_DONE. DESIGN CHOICE (log entry 109). -/
def State.railsEnter (s : State) (railV : List Nat) : State :=
  let turn := rails.filter (fun r => railOrder r == s.aon.railsIn)
  let inside (r : Nat) : Bool :=
    let set := s.railSetpoint r
    decide (92 * set ≤ 100 * railV.getD r 0) && decide (100 * railV.getD r 0 ≤ 108 * set)
  if s.sequencing && decide (s.aon.railsIn < 7) && turn.all inside then s.railsTo (s.aon.railsIn + 1) else s

/-! ### Telemetry and budget (R424, R425) -/

def addLists (a b : List Nat) : List Nat :=
  (List.range (max a.length b.length)).map (fun i => a.getD i 0 + b.getD i 0)

/-- One measurement; the tenth publishes the averages of 100 µs. -/
def State.teleSample (s : State) (vin iin : Nat) (railV railI : List Nat) : State :=
  let s := s.railsEnter railV
  let t := s.aon.tele
  let n := t.n + 1
  let v := t.vin + vin
  let i := t.iin + iin
  let rv := addLists t.railV railV
  let ri := addLists t.railI railI
  if n < 10 then s.setAon (fun a => { a with tele := { t with n := n, vin := v, iin := i, railV := rv, railI := ri } })
  else
    let s := s.setAon (fun a => { a with tele := { hist := (v :: t.hist).take 10 } })
    let s := (s.setFld Reg.pmuVin 0 16 (v / 10)).setFld Reg.pmuIin 0 16 (i / 10)
    let s := s.setFld Reg.pmuPin 0 16 (min 0xFFFF (v / 10 * (i / 10) / 10000))
    s.forAll rails (fun s r =>
      (s.setFld (Reg.pmuRailV r) 0 16 (rv.getD r 0 / 10)).setFld (Reg.pmuRailI r) 0 20 (ri.getD r 0 / 10))

/-- The average of VIN in mV over published averages, each the sum of ten samples. -/
def vinAverage (h : List Nat) : Rat := (h.sum : Rat) / (10 * h.length)

/-- The budget of the last 1 ms of VIN; budget_low where it falls below the allocation. -/
def State.budgetUpdate (s : State) : State :=
  match s.aon.tele.hist with
  | [] => s
  | h =>
    let b := s.budgetNow (vinAverage h)
    let low := decide (b < s.allocation) && decide (s.allocation ≤ s.budget)
    let s := (s.holdPmu.setFld Reg.pmuStat 0 12 b).setBit Reg.pmuStat 24 (s.rd Reg.thmCapred != 0)
    if low then s.setBit Reg.pmuEvt 0 true else s

/-! ### FCLK (R433, R446) -/

/-- Why a write of CLK_FSEL is refused, as its status. -/
def State.fselRefused (s : State) (sel : Nat) : Option Nat :=
  if s.mode ≠ modeLOAD ∧ s.mode ≠ modeREADY ∧ !s.anyRuns then some 2
  else if sites.any (fun k => s.siteBusy k || s.siteState k == 1 || s.siteState k == 2) then some 3
  else if s.loading ∨ s.boost then some 2
  else if sel = 3 then some 4
  else none

/-- A write of CLK_FSEL; while a change is in progress it has no effect. -/
def State.fselWrite (s : State) (req : Requester) (sel : Nat) (keyed : Bool) : State :=
  if !keyed then (s.setFld Reg.clkFsel 28 3 5).keyRefused req.toNat Reg.clkFsel
  else if s.bit Reg.clkFsel 31 then s
  else match s.fselRefused sel with
    | some c => s.setFld Reg.clkFsel 28 3 c
    | none => ((s.setFld Reg.clkFsel 0 2 sel).setFld Reg.clkFsel 28 3 0).setBit Reg.clkFsel 31 true

/-- FCLK restarts on the new divider: frames restart, every PRX lane searches again, no horizon is valid, and each region takes its floor
of the new select. -/
def State.fselDone (s : State) : State :=
  if !s.bit Reg.clkFsel 31 then s
  else
    let s := ((s.setFld Reg.clkStat 4 2 (s.fld Reg.clkFsel 0 2)).setBit Reg.clkFsel 31 false).setFld Reg.clkFsel 28 3 1
    let s := (s.forAll sites (fun s k => s.landDue k ((s.getFab k).now + 63))).restartFc
    let s := s.forAll (List.range 256) (fun s l =>
      let c := s.fld (Reg.lnkStat (prxWin l)) 29 3
      if c = 4 ∨ c = 5 ∨ c = 6 then s.loseLane l 2 3 else s)
    s.forAll sites (fun s k => (s.horizonOff k).applyFloor k)

/-! ### The frequency counter (R434, R447) -/

/-- A write of CLK_FMEAS_CTL: the fields are stored, and a go is refused while a count or the ratio confirmation runs. -/
def State.fmeasWrite (s : State) (v : Word) : State :=
  let a := Reg.clkFmeasCtl
  let refused := s.bit a 31 || s.atStep 3
  let s := ((s.setFld a 24 3 (fldOf v 24 3)).setFld a 20 3 (fldOf v 20 3)).setFld a 8 8 (fldOf v 8 8)
  if !v.getLsbD 30 then s
  else if refused then s.setBit a 29 true
  else ((s.setBit a 29 false).setBit a 31 true).setAon (fun x => { x with
    count := (fldOf v 24 3, fldOf v 20 3, max 8 (min 24 (fldOf v 8 8))) })

/-- The period of a clock in root ticks by its code (R447; 00_scope, Clocks); the monitor oscillator is none of the root's. -/
def State.clockTicks (s : State) (c : Nat) : Nat := [s.fdiv, 10, 10, 20, 20, 160, 160].getD c 0

/-- The clock of a code runs: FCLK, WCLK and VCLK may be gated (R432); WCLK runs where that of some waveform engine does. -/
def State.clockGoes (s : State) (c : Nat) : Bool :=
  match c with
  | 0 => s.clockOn 0
  | 2 => (List.range 4).any (fun k => s.clockOn (16 + k))
  | 3 => s.clockOn 3
  | 6 => true
  | 7 => s.aon.up
  | _ => s.busUp

/-- The edges of clock `m` in 2^n edges of clock `r` (R434). Where the periods do not divide, one more or less may fall into the window: a
free value. With the monitor oscillator the count is what is measured, `result`; 2^n of itself. -/
def State.clockCount (s : State) (m r n : Nat) (result : Word) : Nat :=
  if !s.clockGoes m then 0
  else if m = r then 2 ^ n
  else if m = 7 ∨ r = 7 then result.toNat
  else
    let t := 2 ^ n * s.clockTicks r
    t / s.clockTicks m + (if t % s.clockTicks m = 0 then 0 else bitN (Config.freeBit s.free))

/-- The count ends with its result, saturating. A window whose clock does not run never ends. -/
def State.fmeasEnd (s : State) (result : Word) : State :=
  let (m, r, n) := s.aon.count
  if !s.bit Reg.clkFmeasCtl 31 || !s.clockGoes r then s
  else (s.tickFree.wr Reg.clkFmeasRes (BitVec.ofNat 32 (min 0xFFFFFFFF (s.clockCount m r n result)))).setBit Reg.clkFmeasCtl 31 false

end Sys2Proof.Machine
end

