-- ==== Sys2Proof/Machine/VaultState.lean ====
section
/-! DEFINITION. The end of training, the failure of a vault, and the isolation of its site (09, R33, R46, R286, R287). -/

namespace Sys2Proof.Machine

/-- Site `k` has lost DRAM (R33): a vault of it has failed, its tile is disabled, or the global map gives its DRAM to another site. -/
def State.dramLost (s : State) (k : Nat) : Bool :=
  if s.globalMap then s.mapOwner != k || vaults.any (fun v => s.vltState v == 5)
  else !s.tileEnabled k || (List.range 16).any (fun j => s.vltState (16 * k + j) == 5)

/-- The isolation of every site follows its vaults. -/
def State.isolateVaults (s : State) : State :=
  s.forAll sites (fun s k =>
    let lost := s.dramLost k
    (s.modSite k (fun x => { x with isoVault := lost })).followHeld k)

/-- A vault of V240 to V255 is not ready any more: a load whose header has been accepted ends with code 0x17 (R323). -/
def State.goldenLost (s : State) : State :=
  if s.loading && s.ctl.load.hdr.isSome && (List.range 16).any (fun j => s.vltState (240 + j) == 5 || !s.tileEnabled 15) then
    s.loadReject 0x17
  else s

/-- Vault `v` fails with a cause of VLT_STAT (R286, R287): vault_lost stops a running site with fault 0x09, its window reads 0, and
the site is isolated. -/
def State.vaultFails (s : State) (v cause : Nat) : State :=
  let s := ((s.setVltState v 5).setFld (Reg.vltStat v) 26 3 cause).setBit (Reg.vltFailed (v / 32)) (v % 32) true
  let s := (s.setBit (Reg.vltEvt v) 8 true).safEvent 0x06 (v * 2 ^ 16)
  let s := if (s.getVault v).mnt.isSome then s.mntEnd v 5 else s
  let s := (s.modVault v (fun x => { x with svc := {}, reserve := none })).rowEnds v
  let k := s.vaultOwner v
  let s := s.dueStop k
  let s := if s.canStop k 7 then
      let pc := s.pcNow k
      let s := s.cutTo k (s.nowCyc k + 1)
      if s.canStop k 7 then s.seqFaultAt k 0x09 pc (s.lastCycle k) else s
    else s
  let s := s.winFill (v / 16) (v % 16) (List.replicate 2048 0)
  s.isolateVaults.goldenLost

/-- Soft repairs of start-up BIST: (column group, bank, row of the bank or group); none where spares or the table run out. -/
def State.bistRepairs (s : State) (v : Nat) : List (Bool × BitVec 7 × BitVec 15) → Option State
  | [] => some s
  | (col, q, t) :: l =>
    match (if col then s.softRepairCol v q.toNat (t.toNat % 256) else s.softRepairRow v (t.toNat * 128 + q.toNat)) with
    | some s1 => s1.bistRepairs v l
    | none => none

/-- GLB_STARTUP.dram_trained once no vault is untrained or training (R46). -/
def State.showTrained (s : State) : State :=
  if vaults.any (fun v => s.vltState v == 0 || s.vltState v == 1) then s
  else (s.setBit Reg.glbStartup 7 true).setBit Reg.glbMode 6 true

/-- The self-check of a vault's controller trips (R287); one that was the last to train has finished (R46). -/
def execVaultFail (v : VaultIx) (s : State) : Res :=
  fin s (if s.vltState v = 0 ∨ s.vltState v = 5 then s
    else if s.vltState v = 1 then (s.vaultFails v 3).showTrained
    else s.vaultFails v 3)

/-- Vault `v` finishes training and start-up BIST (R286): `outcome` 0, or the fail_cause 1, 2 or 4; `faulty` are the rows and groups
that BIST found faulty after POR. After a full reset the table comes from its mirror. A vault of a disabled tile goes on to state 4 (R289). -/
def execDramTrainingDone (v : VaultIx) (outcome : BitVec 3) (faulty : List (Bool × BitVec 7 × BitVec 15)) (s : State) : Res :=
  fin s (if s.vltState v = 1 then
    let ready (s : State) : State :=
      (s.modVault v (fun x => { x with lapStart := s.tsc.toNat })).setVltState v (if s.tileEnabled (v / 16) then 2 else 4)
    let s :=
      if outcome = 1 ∨ outcome = 2 ∨ outcome = 4 then s.vaultFails v outcome.toNat
      else if s.aon.trainFull then
        ready (((s.getVault v).mirror.foldl (fun s (p : Nat × Word) => s.wr (Reg.vltSrep v p.1) p.2) s).mirrorSrep v)
      else match s.bistRepairs v faulty with
        | some t => ready t
        | none => s.vaultFails v 2
    s.showTrained
  else s)

end Sys2Proof.Machine
end

