-- ==== Sys2Proof/Machine/CommitOps.lean ====
section
/-! DEFINITION. Commit registers (R12 to R15, R361): their groups, consistency checks, safe points, and what takes effect. -/

namespace Sys2Proof.Machine

/-! ### The registers -/

def commitAddr : CommitReg → Nat
  | .seq k => Reg.seqCommit k
  | .lnk w => Reg.lnkCommit w
  | .cap k => Reg.capCommit k
  | .rpa k => Reg.rpaCommit k
  | .vlt => Reg.vltCommit
  | .cfg => Reg.cfgCommit
  | .wfe k => Reg.wfeCommit k
  | .pmu => Reg.pmuCommit
  | .noc => Reg.nocCommit
  | .spd => Reg.spdCommit

/-- The commit register at BAR0 address `a`, if it is one. -/
def commitAt (a : Nat) : Option CommitReg :=
  let win (base n step off : Nat) : Option Nat :=
    if base ≤ a ∧ a < base + n * step ∧ (a - base) % step = off then some ((a - base) / step) else none
  match win (Reg.seqCtl 0) 16 0x10000 0x10 with
  | some k => some (.seq (Fin.ofNat 16 k))
  | none =>
  match win (Reg.lnkCfg 0) 512 0x400 4 with
  | some w => some (.lnk (Fin.ofNat 512 w))
  | none =>
  match win (Reg.capCtl 0) 16 0x10000 0xC with
  | some k => some (.cap (Fin.ofNat 16 k))
  | none =>
  match win (Reg.rpaCtl 0) 16 0x10000 0xC with
  | some k => some (.rpa (Fin.ofNat 16 k))
  | none =>
  match win (Reg.wfeCtl 0) 16 0x10000 0x24 with
  | some k => some (.wfe (Fin.ofNat 16 k))
  | none =>
    if a = Reg.vltCommit then some .vlt
    else if a = Reg.cfgCommit then some .cfg
    else if a = Reg.pmuCommit then some .pmu
    else if a = Reg.nocCommit then some .noc
    else if a = Reg.spdCommit then some .spd else none

/-- The shadow registers of each group (R110, R200, R239, R262, R299, R331, R355, R373, R376, R444). -/
def commitGroups : CommitReg → List (List Nat)
  | .seq k => [[Reg.seqSvmask k 0, Reg.seqSvmask k 1, Reg.seqCmask k 0, Reg.seqCmask k 1],
      [Reg.seqTopoMask k 0, Reg.seqTopoMask k 1, Reg.seqTopoRsel k, Reg.seqTopoCsel k], [Reg.seqCfg k]]
  | .lnk w => [[Reg.lnkCfg w]]
  | .cap k => [[Reg.capGeom k, Reg.capNblk k, Reg.capMapBase k 0, Reg.capMapBase k 1, Reg.capCtrBase k 0, Reg.capCtrBase k 1,
      Reg.capSpare k], [Reg.capCfg k, Reg.capCmpmask k 0, Reg.capCmpmask k 1] ++ (List.range 32).map (Reg.capChmap k ·),
      [Reg.capLogBase k 0, Reg.capLogBase k 1, Reg.capLogLen k]]
  | .rpa k => [[Reg.rpaCfg k, Reg.rpaSolBase k 0, Reg.rpaSolBase k 1, Reg.rpaNodeLimit k, Reg.rpaRange k]]
  | .vlt => [[Reg.vltMap, Reg.vltTileen]]
  | .cfg => [[Reg.cfgCfg, Reg.cfgStageBase, Reg.cfgStageLen], sites.map (Reg.cfgIcpGrant ·)]
  | .wfe k => [[Reg.wfeStrCfg k, Reg.wfeStrRing k]]
  | .pmu => [[Reg.pmuCap, Reg.pmuBase, Reg.pmuBoostW] ++ sites.map (Reg.pmuClassW ·)]
  | .noc => [(List.range 63).map (Reg.nocSlot ·) ++ [Reg.nocCtl]]
  | .spd => [(List.range 32).flatMap (fun i => (List.range 8).map (Reg.spdRegion i ·))]

/-- The distance of an active copy from its shadow (R12, R376). -/
def activeOff : CommitReg → Nat
  | .spd => 0x1000
  | _ => 0x200

/-! ### Consistency (each block's commit-group table) -/

/-- The value a check sees: the shadow where the go write commits the group, the active copy otherwise (R239). -/
def State.commitVal (s : State) (own : Bool) (a : Nat) : Word := if own then s.rd a else s.rdAct a

def State.commitPair (s : State) (own : Bool) (a : Nat) : Nat :=
  (s.commitVal own a).toNat + (s.commitVal own (a + 4)).toNat * 2 ^ 32

/-- Every set bit of a 64-bit mask, given by its two registers, names a mapped channel (R110, R239). -/
def State.maskMapped (s : State) (k a : Nat) : Bool :=
  let m := (s.rd a).toNat + (s.rd (a + 4)).toNat * 2 ^ 32
  (List.range 64).all (fun c => !m.testBit c || ((s.getSite k).mapOf c).isSome)

/-- The 16 bytes of profile `e` of LNK_EQTAB (R175). -/
def State.eqEntry (s : State) (e : Nat) : List Byte :=
  (List.range 4).flatMap (fun j => leBytes 4 (s.rd (Reg.lnkEqtab e j)).toNat)

/-- A profile is valid, its check is correct, and its rate is `rate` (R175, R200). -/
def profileOk (b : List Byte) (rate : Bool) : Bool :=
  (b.getD 9 0).getLsbD 7 && (b.getD 9 0).getLsbD 0 == rate
    && crc16 (bitsOf (ofLe (b.take 14)) 0 112) == ofLe ((b.drop 14).take 2)

def seqChecks (s : State) (k : Nat) : List (Nat × Nat × Bool) :=
  [(0, 1, s.maskMapped k (Reg.seqSvmask k 0)), (0, 2, s.maskMapped k (Reg.seqCmask k 0)),
    (1, 3, s.maskMapped k (Reg.seqTopoMask k 0)), (1, 4, s.fld (Reg.seqTopoRsel k) 20 12 == 0),
    (1, 5, s.fld (Reg.seqTopoCsel k) 16 16 == 0)]

def lnkChecks (s : State) (w : Nat) : List (Nat × Nat × Bool) :=
  let cfg := s.rd (Reg.lnkCfg w)
  [(0, 1, profileOk (s.eqEntry (fldOf cfg 0 5)) (cfg.getLsbD 7)), (0, 2, !cfg.getLsbD 7 || fldOf cfg 8 4 != 0),
    (0, 3, decide (fldOf cfg 8 4 ≤ 4))]

/-- The geometry the checks of CAP_COMMIT see. -/
def State.capGeomFor (s : State) (k go : Nat) : CapGeom :=
  let g0 := go.testBit 0
  let g2 := go.testBit 2
  .ofRegs (s.commitVal g0 (Reg.capGeom k)) (s.commitVal g0 (Reg.capNblk k)) (s.commitVal g0 (Reg.capSpare k))
    (s.commitVal g2 (Reg.capLogLen k)) (s.commitPair g0 (Reg.capMapBase k 0)) (s.commitPair g0 (Reg.capCtrBase k 0))
    (s.commitPair g2 (Reg.capLogBase k 0))

/-- An extent lies within the site (R239); an empty one does. -/
def State.extInSite (s : State) (k : Nat) (e : Nat × Nat) : Bool := e.2 == 0 || s.areaInSite k e.1 e.2

/-- Channel entry `c` of the shadow CAP_CHMAP suits the geometry. -/
def State.chanFits (s : State) (k c : Nat) (g : CapGeom) : Bool :=
  let e := s.fld (Reg.capChmap k (c / 2)) (16 * (c % 2)) 16
  !e.testBit 15 || (decide (e % 64 < 2 ^ g.wbits) && decide (e / 256 % 16 < g.nblk))

def capChecks (s : State) (k go : Nat) : List (Nat × Nat × Bool) :=
  let g := s.capGeomFor k go
  let raw := s.commitVal (go.testBit 0) (Reg.capGeom k)
  [(0, 1, decide (g.wbits ≤ 6) && decide (fldOf raw 20 5 ≤ 16)),
    (0, 3, g.mapBase % 2048 == 0 && s.extInSite k g.mapExt),
    (0, 4, g.ctrBase % 2048 == 0 && s.extInSite k g.ctrExt && !overlaps g.ctrExt g.mapExt && !overlaps g.ctrExt g.logExt),
    (0, 5, decide (g.spareRows ≤ 32) && decide (g.spareCols ≤ 32)),
    (1, 6, s.fld (Reg.capCfg k) 0 2 != 3), (1, 7, s.maskMapped k (Reg.capCmpmask k 0)),
    (1, 8, (List.range 64).all (fun c => s.chanFits k c g)),
    (2, 9, g.logBase % 2048 == 0 && s.extInSite k g.logExt && !overlaps g.logExt g.mapExt && !overlaps g.logExt g.ctrExt),
    (2, 10, decide (g.logLen ≤ 0x100000))]

def rpaChecks (s : State) (k : Nat) : List (Nat × Nat × Bool) :=
  let g := s.capGeomOf k
  let range := s.rd (Reg.rpaRange k)
  let base := s.rd64 (Reg.rpaSolBase k 0)
  let sol := solExt base (fldOf range 0 8) (fldOf range 8 8)
  [(0, 2, base % 2048 == 0 && s.extInSite k sol && !([g.mapExt, g.ctrExt, g.logExt].any (overlaps sol))),
    (0, 4, decide (fldOf range 0 8 ≤ fldOf range 8 8) && decide (fldOf range 8 8 < g.nblk))]

def vltChecks (s : State) : List (Nat × Nat × Bool) :=
  [(0, 1, !s.bit Reg.vltMap 4 || s.fld Reg.vltTileen 0 16 == 0xFFFF)]

def cfgChecks (s : State) : List (Nat × Nat × Bool) :=
  let base := (s.rd Reg.cfgStageBase).toNat
  let len := (s.rd Reg.cfgStageLen).toNat
  [(0, 3, decide (4096 ≤ len) && decide (base + len ≤ 2 ^ 26)),
    (1, 4, sites.all (fun p => decide (s.fld (Reg.cfgIcpGrant p) 16 6 ≤ s.fld (Reg.cfgIcpGrant p) 22 6)))]

def wfeChecks (s : State) (k : Nat) : List (Nat × Nat × Bool) :=
  let c := s.rd (Reg.wfeStrCfg k)
  let ls := (List.range (fldOf c 24 2 + 1)).map (fun i => fldOf c (4 * i) 4)
  let base := s.fld (Reg.wfeStrRing k) 0 15
  let len := s.fld (Reg.wfeStrRing k) 16 16
  [(0, 1, fldOf c 28 2 != 0 && (fldOf c 28 2 != 2 || fldOf c 24 2 == 1) && decide ls.Nodup),
    (0, 2, base % 4 == 0 && len % 4 == 0 && decide (64 ≤ len) && decide (base + len ≤ 32768))]

def pmuChecks (s : State) : List (Nat × Nat × Bool) :=
  let cap := s.fld Reg.pmuCap 0 12
  let base := s.fld Reg.pmuBase 0 12
  let cls (c : Nat) : Nat := s.fld (Reg.pmuClassW c) 0 8
  [(0, 1, decide (0x190 ≤ cap) && decide (cap ≤ 0x820)), (0, 2, decide (0x140 ≤ base) && decide (base < cap)),
    (0, 3, decide (base + s.fld Reg.pmuBoostW 0 12 ≤ cap))] ++
  sites.map (fun c => (0, 4 + c, decide (1 ≤ cls c) && (c == 0 || decide (cls (c - 1) ≤ cls c)) && decide (base + cls c ≤ cap)))

/-! ### The wheel (R370, R372, R373) -/

/-- The numbers from `a` to `b`, `a` left out, one step at a time. -/
def stepsTo (a b : Nat) : List Nat :=
  if a ≤ b then (List.range (b - a)).map (fun i => a + 1 + i) else (List.range (a - b)).map (fun i => a - 1 - i)

/-- The routers of a route, first along x, then along y (R370). -/
def nocRoute (src dst : Nat) : List Nat :=
  src :: ((stepsTo (src % 8) (dst % 8)).map (fun x => 8 * (src / 8) + x)
    ++ (stepsTo (src / 8) (dst / 8)).map (fun y => 8 * y + dst % 8))

def dist (a b : Nat) : Nat := (a - b) + (b - a)

/-- What the entry of slot `n` uses: each link by its two routers, and the ejection port of its destination, with the slot of
each (R372). -/
def slotUses (n : Nat) (e : Word) : List (Nat × Nat × Nat) :=
  let r := nocRoute (fldOf e 24 6) (fldOf e 16 6)
  (r.zip r.tail).zipIdx.map (fun q => (q.1.1, q.1.2, (n + q.2 + 1) % 64)) ++ [(fldOf e 16 6, 64, (n + r.length) % 64)]

/-- Entry `n` of the shadow table is consistent (R373). -/
def State.slotOk (s : State) (n : Nat) : Bool :=
  let ent (i : Nat) : Word := s.rd (Reg.nocSlot (i - 1))
  let e := ent n
  let src := fldOf e 24 6
  let dst := fldOf e 16 6
  fldOf e 8 6 == dist (src % 8) (dst % 8) + dist (src / 8) (dst / 8)
    && (!e.getLsbD 31 || ((List.range n).drop 1).all (fun m =>
      !(ent m).getLsbD 31 || (slotUses n e).all (fun u => !(slotUses m (ent m)).contains u)))

def nocChecks (s : State) : List (Nat × Nat × Bool) := (List.range 63).map (fun i => (0, i + 1, s.slotOk (i + 1)))

def spdChecks (s : State) : List (Nat × Nat × Bool) :=
  (List.range 32).flatMap (fun i => (List.range 8).map (fun r =>
    (0, 32 * i + r + 1, decide (s.fld (Reg.spdRegion i r) 0 14 ≤ s.fld (Reg.spdRegion i r) 14 14))))

/-- (group, identifier, consistent) of every field with a check, in the order of the owning chapter's table; `go` are the groups
requested. -/
def State.commitChecks (s : State) (go : Nat) : CommitReg → List (Nat × Nat × Bool)
  | .seq k => seqChecks s k
  | .lnk w => lnkChecks s w
  | .cap k => capChecks s k go
  | .rpa k => rpaChecks s k
  | .vlt => vltChecks s
  | .cfg => cfgChecks s
  | .wfe k => wfeChecks s k
  | .pmu => pmuChecks s
  | .noc => nocChecks s
  | .spd => spdChecks s

/-- The first offending field of the requested groups (R14). -/
def State.badField (s : State) (c : CommitReg) (go : Nat) : Option Nat :=
  ((s.commitChecks go c).find? (fun q => go.testBit q.1 && !q.2.2)).map (fun q => q.2.1)

/-! ### Safe points -/

/-- The safe point of the groups is reached (R12, and each block's table). -/
def State.commitReady (s : State) (c : CommitReg) (go : Nat) : Bool :=
  match c with
  | .seq k => !go.testBit 2 || !s.siteBusy k
  | .lnk w => !s.siteBusy (w % 256 / 16)
  | .cap k => !s.siteBusy k
  | .rpa k => !s.bit (Reg.rpaStatus k) 0
  | .vlt => !s.anyBusy
  | .cfg => !go.testBit 0 || (!s.loading && (!go.testBit 1 || sites.all (fun p => (s.getIcp p).jobs.isEmpty)))
  | .wfe k => !s.bit (Reg.wfeStatus k) 4
  | .pmu => true
  | .noc => true
  | .spd => true

/-- A block whose safe point, once it may be reached, is the moment of the go write itself. The others wait for a frame boundary
(R200), for the end of a change (R299), for a wheel boundary (R373), or for the next bc (R376). -/
def commitImmediate : CommitReg → Bool
  | .lnk _ => false
  | .vlt => false
  | .noc => false
  | .spd => false
  | _ => true

/-- Register `a` of a snapshot can take effect now: a grant waits for its own port to hold no command (R331). -/
def State.fieldFree (s : State) (a : Nat) : Bool :=
  sites.all (fun p => a != Reg.cfgIcpGrant p || (s.getIcp p).jobs.isEmpty)

/-! ### What takes effect -/

/-- The tiles that VLT_TILEEN enables and disables (R289), and what follows for sites and loads (R265, R299). -/
def State.tilesChanged (s : State) : State :=
  let s := s.forAll vaults (fun s v =>
    if !s.tileEnabled (v / 16) then (if s.vltState v = 3 then s.setVltState v 4 else s.vaultSleep v 4)
    else if s.vltState v = 4 then (if s.mode = modeSTANDBY ∨ s.aon.target = some modeSTANDBY then s.setVltState v 3 else s.vaultWake v)
    else s)
  s.isolateVaults.goldenLost

/-- Before the active copies change: a waiting sequencer has issued the cycles of the fc that have passed with the old ones (R110), and
admission in this bc goes by the old ones (R427). -/
def State.commitBefore (s : State) (c : CommitReg) : State :=
  match c with
  | .seq k => s.catchUp k
  | .pmu => s.holdPmu
  | _ => s

/-- What follows once the active copies have changed. -/
def State.commitEffect (s : State) (c : CommitReg) : State :=
  match c with
  | .seq k => s.splitSpan k
  | .lnk w => s.laneCommit w (BitVec.ofNat 128 (ofLe (s.eqEntry (s.fldAct (Reg.lnkCfg w) 0 5))))
  | .vlt => s.tilesChanged
  | .pmu => if s.fldAct Reg.pmuCap 0 12 < s.allocation then s.showAlloc.setBit Reg.pmuEvt 0 true else s.showAlloc
  | _ => s

/-- Copy a snapshot to the active copies. -/
def State.activateCopies (s : State) (off : Nat) (snap : List (Nat × Word)) : State :=
  snap.foldl (fun s (p : Nat × Word) => s.wr (p.1 + off) p.2) s

def State.getCommit (s : State) (a : Nat) : Option PendingCommit := (s.commits.find? (fun p => p.1 == a)).map (fun p => p.2)

def State.setCommit (s : State) (a : Nat) (p : Option PendingCommit) : State :=
  let rest := s.commits.filter (fun q => q.1 != a)
  { s with commits := match p with
    | some x => (a, x) :: rest
    | none => rest }

/-- The safe point of a pending commit: what may take effect does, and pending falls when nothing is left. -/
def State.commitApply (s : State) (c : CommitReg) : State :=
  let a := commitAddr c
  match s.getCommit a with
  | none => s
  | some p =>
    if !s.commitReady c p.groups.toNat then s
    else
      let now := p.snap.filter (fun q => s.fieldFree q.1)
      let later := p.snap.filter (fun q => !s.fieldFree q.1)
      let s := (s.commitBefore c).activateCopies (activeOff c) now
      let s :=
        if later.isEmpty then (s.setCommit a none).setBit a 31 false
        else s.setCommit a (some { p with snap := later })
      s.commitEffect c

/-- The status of a go write (R13): bits 30:28, and bad_field. -/
def State.commitStatus (s : State) (a st bad : Nat) : State := (s.setFld a 28 3 st).setFld a 16 12 bad

/-- A write of a commit register with go = `go` (R13 to R15); `keyed` says that it falls in the requester's key window. -/
def State.commitGo (s : State) (c : CommitReg) (req : Requester) (go : BitVec 8) (keyed : Bool) : State :=
  let a := commitAddr c
  let prot := c == .noc || c == .spd
  let s := if prot && !keyed then s.keyRefused req.toNat a else s
  let g := go.toNat
  let groups := commitGroups c
  if g = 0 then s
  else if prot && !keyed then s.commitStatus a 4 0
  else if s.bit a 31 then s.commitStatus a 3 0
  else if 2 ^ groups.length ≤ g then s.commitStatus a 6 0
  else if (match c with | .cap k => s.bit (Reg.capStatus k) 17 | _ => false) then s.commitStatus a 5 0
  else match s.badField c g with
    | some id => s.commitStatus a 2 id
    | none =>
      let snap := (groups.zipIdx.filter (fun q => g.testBit q.2)).flatMap (fun q => q.1.map (fun r => (r, s.rd r)))
      let s := ((s.commitStatus a 1 0).setBit a 31 true).setCommit a (some { groups := go, snap := snap })
      if commitImmediate c then s.commitApply c else s

end Sys2Proof.Machine
end

