-- ==== Sys2Proof/Machine/Health.lean ====
section
/-! DEFINITION. The commands of self-test, column repair, calibration, margins, the ageing log and the integrity words (15). -/

namespace Sys2Proof.Machine

/-! ### Self-test (R459 to R464) -/

/-- A self-test slice starts in region `k`: it holds its physical column (R460, R462), and a lap is in progress with its first (R461). -/
def execSliceStart (k : SiteIx) (s : State) : Res :=
  fin s (if s.sliceMay k then
    let x := s.nextSlice k
    let s := if x.lap then s.setBit Reg.safBistStat (16 + k) true else s
    let s := s.modSite k (fun y => { y with slicesLeft := if y.restorePending then y.slicesLeft - 1 else y.slicesLeft })
    (s.modBist k (fun b => { b with run := some x })).modFab k (fun f => { f with slice := some (decide (65 ≤ x.col), x.col % 65) })
  else s)

/-- A slice ends with signature `sig`. -/
def execSelftestSliceDone (k : SiteIx) (sig : Word) (s : State) : Res := fin s (s.sliceDone k sig)

/-- The self-test debt of region `k` is at least `ms` (R463). -/
def State.debtAtLeast (s : State) (k ms : Nat) : State :=
  s.setFld (Reg.safBistDebt k) 0 16 (max (s.fld (Reg.safBistDebt k) 0 16) ms)

/-- The debt of region `k` reaches 10 ms: debt_warn, and a SAF event (R463). -/
def execSelftestDebtWarn (k : SiteIx) (s : State) : Res :=
  fin s (if s.bit Reg.safBistStat k then s.debtAtLeast k 10
    else ((s.debtAtLeast k 10).setBit Reg.safBistStat k true).safEvent 0x0E k)

/-- The debt of region `k` reaches 50 ms: class 29, at once if the window is open (R463). -/
def execSelftestDebt (k : SiteIx) (s : State) : Res := fin s ((s.debtAtLeast k 50).integ k 29 noCycle 0)

/-! ### Spare column repair (R465, R466, R479) -/

/-- A queued column is repaired automatically (R465). -/
def execSpareRepair (k : SiteIx) (plane : Bool) (s : State) : Res :=
  fin s (if s.bit Reg.safRepairCfg 0 && s.repairable k plane && s.siteState k == 0 && !s.siteBusy k && !s.repairing then
    s.repairStart k plane false
  else s)

/-- A write of SAF_REPAIR_CMD with the repair bit. -/
def execRepairCmd (req : Requester) (k : SiteIx) (plane : Bool) (s : State) : Res :=
  fin s (s.onKeyed req (fun keyed s => s.repairCmd req (BitVec.ofNat 32 (k.val + 16 * planeN plane + 2 ^ 8)) keyed))

/-- A write of SAF_REPAIR_CMD with the fuse bit. -/
def execFuseCmd (req : Requester) (k : SiteIx) (plane : Bool) (s : State) : Res :=
  fin s (s.onKeyed req (fun keyed s => s.repairCmd req (BitVec.ofNat 32 (k.val + 16 * planeN plane + 2 ^ 9)) keyed))

/-- The repair in region `k` ends with its confirming slice (R465, R467). -/
def execSpareRepairDone (k : SiteIx) (pass : Bool) (s : State) : Res := fin s (s.repairDone k pass)

/-- A column fuse burn ends; `ok` says that VIN held and the fuse verified (R466). -/
def execFuseBurnDone (ok : Bool) (s : State) : Res := fin s (s.burnDone ok)

/-! ### Calibration (R468 to R472) -/

/-- A write of SAF_CAL_CMD makes instance `i` pending; 529 and above are refused (R469, R478). -/
def State.calCmd (s : State) (i : Nat) : State := if i < 529 then s.calAsk i else s

def execSafCalCmd (req : Requester) (i : BitVec 10) (s : State) : Res := fin s (s.onWrite req (fun s => s.calCmd i.toNat))

/-- A pending item starts in fc `start` (R470), the most overdue first (R469). -/
def execCalibrationStart (i : Fin 529) (start : Nat) (s : State) : Res :=
  fin s (if s.calFlag i calPending && !s.calFlag i calRunning && s.calMayRun i start && s.calFirst i start then s.setCal i calRunning true
  else s)

/-- A running item ends with its two measurements, in taps from the production value (R471), and with the slacks of the margin monitors of
the layers it references, unit for unit (R473). -/
def execCalibrationRunDone (i : Fin 529) (t : CalTaps) (slacks : List (List (BitVec 8))) (s : State) : Res :=
  fin s (if s.calFlag i calRunning then s.calEnd i t.t1.toInt t.t2.toInt slacks else s)

/-! ### Margins and the ageing log (R473 to R477) -/

/-- The margin monitors of a region (0 to 15) or of a fixed-rail layer (16 to 33: B, M0 to M15, C) measure these slacks in ps (R473). -/
def execMarginMeasure (m : Fin 34) (slack : List (BitVec 8)) (s : State) : Res := fin s (s.marginRead m slack)

def State.fwRunning (s : State) : Bool := s.bit Reg.glbMode 7

/-- The firmware writes the oldest record that waits, `elapsed` sixteenths of a powered hour after the last one (R477). -/
def execAgeingRecord (elapsed : Nat) (s : State) : Res :=
  fin s (
    let s := { s with aon := { s.aon with hours := s.aon.hours + elapsed } }
    if s.fwRunning then s.ageWrite else s)

/-- Another 24 powered hours are complete: the summary, with the smallest slack of each region, waits to be written (R477). -/
def execAgeingSummary (s : State) : Res :=
  fin s (
    let s := { s with aon := { s.aon with hours := (s.aon.hours / 384 + 1) * 384 } }
    s.ageQueue 5 0 0 0 0 (sites.map (fun k => BitVec.ofNat 8 (s.fld (Reg.safMargin k) 0 8))))

/-! ### Integrity words (R455) -/

/-- A write of GLB_INTEG_CLR. -/
def execGlbIntegClr (req : Requester) (mask : BitVec 16) (s : State) : Res := fin s (s.onWrite req (fun s => s.integClr mask))

end Sys2Proof.Machine
end

