-- ==== Sys2Proof/Machine/ThermOps.lean ====
section
/-! DEFINITION. Shared operations of the sensors and the thermal model (14, R435 to R440). Temperatures are in 1/8 °C. -/

namespace Sys2Proof.Machine

def layers : List Nat := List.range 20

/-- Warn, cap reduction and SAFE levels of a layer (R435). -/
def thermLevels (l : Nat) : Int × Int × Int :=
  if 1 ≤ l ∧ l ≤ 16 then (85 * 8, 90 * 8, 100 * 8) else (95 * 8, 100 * 8, 110 * 8)

/-- The limit of a layer (R435). -/
def thermLimit (l : Nat) : Int := if 1 ≤ l ∧ l ≤ 16 then 95 * 8 else 105 * 8

def State.getTherm (s : State) (l : Nat) : Therm := Sparse.get (fun _ => {}) s.aon.therm l
def State.setTherm (s : State) (l : Nat) (t : Therm) : State :=
  s.setAon (fun a => { a with therm := Sparse.set (fun _ => {}) a.therm l t })

def State.inService (s : State) (l i : Nat) : Bool := s.bit (Reg.thmSensor l i) 12

/-- The readings of the in-service sensors of a layer. -/
def State.readings (s : State) (l : Nat) : List Int :=
  ((List.range 16).filter (s.inService l)).map (fun i => s.sfld (Reg.thmSensor l i) 0 12)

/-- The element of rank `i` of a list, from 0 at the least. -/
def rankOf (l : List Int) (i : Nat) : Option Int :=
  l.find? (fun x => decide (l.countP (fun y => decide (y < x)) ≤ i) && decide (i < l.countP (fun y => decide (y ≤ x))))

/-- Twice the median of a list; of an even number of values the mean of the middle two. DESIGN CHOICE (log entry 102). -/
def median2 (l : List Int) : Option Int :=
  match rankOf l ((l.length - 1) / 2), rankOf l (l.length / 2) with
  | some a, some b => some (a + b)
  | _, _ => none

/-- How far sensor `i` of a layer reads from the median of the layer's other in-service sensors, in 1/16 K (R436). -/
def State.offMedian (s : State) (l i : Nat) : Option Nat :=
  let others := ((List.range 16).filter (fun j => j != i && s.inService l j)).map (fun j => s.sfld (Reg.thmSensor l j) 0 12)
  (median2 others).map (fun m => (2 * s.sfld (Reg.thmSensor l i) 0 12 - m).natAbs)

/-- A sensor is out of line: it reports a conversion fault, or reads more than 15 K from the median (R436). -/
def State.sensorBad (s : State) (l i : Nat) : Bool := s.bit (Reg.thmSensor l i) 13 || (s.offMedian l i).any (fun d => decide (240 < d))

/-- A sensor is in line again: it reads within 10 K of the median (R436). -/
def State.sensorGood (s : State) (l i : Nat) : Bool := !s.bit (Reg.thmSensor l i) 13 && (s.offMedian l i).any (fun d => decide (d ≤ 160))

def State.suspect (s : State) (l : Nat) : Bool := s.bit Reg.thmSuspect l

/-- The sensor reading, the sensor mean and the count of a layer follow its sensors (R436). With none in service the last reading
and mean stay. -/
def State.showSensors (s : State) (l : Nat) : State :=
  let r := s.readings l
  let s := s.setFld (Reg.thmLayer l) 24 5 r.length
  if r.isEmpty then s
  else
    let mean : Rat := (r.sum : Rat) / r.length
    let s := s.setTherm l { s.getTherm l with mean := mean }
    (s.setFld (Reg.thmLayer l) 12 12 (BitVec.ofInt 12 (maxOf 0 r)).toNat).setFld (Reg.thmModel l) 12 12
      (BitVec.ofInt 12 mean.floor).toNat

/-- A layer becomes suspect (R439). -/
def State.markSuspect (s : State) (l : Nat) : State :=
  if s.suspect l then s
  else
    let s := ((s.setBit Reg.thmSuspect l true).setBit (Reg.thmLayer l) 29 true).setBit Reg.thmEvt 1 true
    (s.setTherm l { s.getTherm l with mayClear := false }).safEvent 0x0A l

/-- Sensor `i` of a layer goes out of service; a layer left with fewer than 4 is suspect (R436). -/
def State.sensorOut (s : State) (l i : Nat) : State :=
  let s := ((s.setBit (Reg.thmSensor l i) 12 false).setBit Reg.thmEvt 4 true).showSensors l
  if s.fld (Reg.thmLayer l) 24 5 < 4 then s.markSuspect l else s

/-- What a neighbour anchors on: the sensor mean, or the acted-on temperature of a suspect layer (R437). -/
def State.neighbour (s : State) (l : Nat) : Rat := if s.suspect l then (s.acted l : Rat) else (s.getTherm l).mean

def State.anchor (s : State) (i : Nat) : Rat :=
  if i = 0 then s.neighbour 1
  else if i = 19 then s.neighbour 18
  else Config.thermA i * s.neighbour (i - 1) + (1 - Config.thermA i) * s.neighbour (i + 1)

/-- The sensor reading of a layer less its T̂, in 1/8 K (R439). -/
def State.offModel (s : State) (l : Nat) : Rat := (s.sfld (Reg.thmLayer l) 12 12 : Rat) - (s.getTherm l).hat

/-- The measured power of rail `r` in µW (R424). -/
def State.railPower (s : State) (r : Nat) : Nat := s.fld (Reg.pmuRailV r) 0 16 * s.fld (Reg.pmuRailI r) 0 20

/-- The part of `n` that count `i` of `counts` has; equal parts where nothing was counted. DESIGN CHOICE (log entry 98). -/
def shareOf (n : Nat) (counts : List Nat) (i : Nat) : Rat :=
  if counts.sum = 0 then (n : Rat) / counts.length else (n : Rat) * counts.getD i 0 / counts.sum

/-- The power of layer `j` in µW (R424): `counts` are the activation and refresh counts of M0 to M15, then for each region the activity of its
plane F0 and of its plane F1. -/
def State.layerPower (s : State) (counts : List Nat) (j : Nat) : Rat :=
  let c (i : Nat) : Nat := counts.getD i 0
  let plane (p : Nat) : Rat := (sites.map (fun k => shareOf (s.railPower k) [c (16 + 2 * k), c (17 + 2 * k)] p)).sum
  match j with
  | 0 =>
    let losses := s.fld Reg.pmuPin 0 16 * 100000 - (rails.map s.railPower).sum
    (s.railPower 17 + s.railPower 18 + s.railPower 19 + s.railPower 22 + losses : Nat)
  | 17 => plane 0
  | 18 => (s.railPower 16 : Nat)
  | 19 => plane 1
  | j => shareOf (s.railPower 20 + s.railPower 21) ((List.range 16).map c) (j - 1)

/-- The rise of layer `i` in 1/8 K for k = 1 (R437). -/
def State.riseOf (s : State) (counts : List Nat) (i : Nat) : Rat :=
  (layers.map (fun j => Config.thermR i j * s.layerPower counts j / 125000)).sum

/-- The refined correction factor: toward the value that makes T̂ equal the sensor mean, by at most 0.5 % per second, within 0.90 to
1.10 (R438). -/
def refineK (l : Nat) (t : Therm) (anchor rise : Rat) : Rat :=
  if rise = 0 then t.k
  else
    let want := (t.mean - anchor) / rise
    let lim := (max 0 (min 1 (Config.thermStep l))) * t.k / 400000
    max (9 / 10) (min (11 / 10) (t.k + max (-lim) (min lim (want - t.k))))

/-- The power of layer `l` has changed by less than 5 % over the last 100 ms (R438): of the 201 model updates that the 100 ms hold, the least
power is above 95 % of the largest. DESIGN CHOICE (log entry 111). -/
def State.steady (s : State) (l : Nat) : Bool :=
  let p := (s.aon.powers.take 201).map (fun x => x.getD l 0)
  let top := p.foldl max (p.headD 0)
  let low := p.foldl min (p.headD 0)
  decide (p.length = 201) && (decide (top * 95 / 100 < low) || p.all (fun x => x == top))

/-- The next model state of layer `l`. -/
def State.nextTherm (s : State) (counts : List Nat) (l : Nat) : Therm :=
  let t := s.getTherm l
  let a := s.anchor l
  let r := s.riseOf counts l
  let t := { t with hat := t.hat + (a + t.k * r - t.hat) * Config.thermGain l }
  if !s.suspect l && decide (8 ≤ s.fld (Reg.thmLayer l) 24 5) && s.steady l then { t with k := refineK l t a r } else t

/-- The acted-on temperature of layer `l` from its model state. -/
def State.actNow (s : State) (l : Nat) : Int :=
  let hat := (s.getTherm l).hat.floor
  if s.suspect l then hat else max hat (s.sfld (Reg.thmLayer l) 12 12)

/-- The levels of layer `l` follow its acted-on temperature, and entering one has its action (R440): the SAFE level is left when the
cause of SAFE clears (R457). Boost ends and SAFE is entered by the caller. -/
def State.showLevel (s : State) (l : Nat) : State :=
  let t := s.acted l
  let (w, c, f) := thermLevels l
  let warn := decide (w ≤ t) || (s.bit Reg.thmLevel l && decide (w - 16 < t))
  let cap := decide (c ≤ t) || (s.bit Reg.thmCapred l && decide (c - 16 < t))
  let safe := decide (f ≤ t) || (s.fld (Reg.thmLayer l) 30 2 == 3 && s.bit Reg.glbMode 11)
  let warn := safe || warn
  let cap := safe || cap
  let level := if safe then 3 else if cap then 2 else if warn then 1 else 0
  let evt (s : State) (b : Nat) (on : Bool) : State := if on then s.setBit Reg.thmEvt b true else s
  let s := evt s 0 (warn && !s.bit Reg.thmLevel l)
  let s := evt s 2 (cap && !s.bit Reg.thmCapred l)
  let s := evt s 5 (safe && s.fld (Reg.thmLayer l) 30 2 != 3)
  ((s.setFld (Reg.thmLayer l) 30 2 level).setBit Reg.thmLevel l warn).setBit Reg.thmCapred l cap

/-- Refresh of M layer `m` doubles above 85 °C (R281). -/
def State.showHot (s : State) (m : Nat) : State :=
  if 680 < s.acted (m + 1) then s.setBit Reg.vltRefresh m true else s

/-- One update of the model (R437 to R440), 500 µs after the last: `counts` as in layerPower. -/
def State.modelUpdate (s : State) (counts : List Nat) : State :=
  let s := { s with aon := { s.aon with powers := (layers.map (s.layerPower counts) :: s.aon.powers).take 201 } }
  let next := layers.map (fun l => (l, s.nextTherm counts l))
  let s := next.foldl (fun s (q : Nat × Therm) =>
    let s := s.setTherm q.1 q.2
    (s.setFld (Reg.thmModel q.1) 0 12 (BitVec.ofInt 12 q.2.hat.floor).toNat).setFld (Reg.thmK q.1) 0 16
      (q.2.k * 16384).floor.toNat) s
  let s := s.forAll layers (fun s l => s.setFld (Reg.thmLayer l) 0 12 (BitVec.ofInt 12 (s.actNow l)).toNat)
  let s := s.forAll layers (fun s l => s.showLevel l)
  let s := s.forAll sites (fun s m => s.showHot m)
  let s := s.calTrackAll
  let s := if s.rd Reg.thmCapred != 0 then s.boostEnd else s
  if layers.any (fun l => s.fld (Reg.thmLayer l) 30 2 == 3) && !s.bit Reg.glbMode 11 then s.safeArrive 3 else s

end Sys2Proof.Machine
end

