-- ==== Sys2Proof/Machine/Modes.lean ====
section
/-! DEFINITION. The commands of the modes, of SAFE and of the reset sources (02, R457, R458). -/

namespace Sys2Proof.Machine

/-! ### GLB_MODE_CMD (R57) -/

/-- Requests queued in the vaults of `dropped` are dropped where the vaults enter self-refresh (R289); `lost` is R35. -/
def execEnterStandby (req : Requester) (lost : Bool) (dropped : BitVec 256) (s : State) : Res :=
  fin s (s.onWrite req (fun s => s.modeCmd 1 lost dropped))

def execExitStandby (req : Requester) (lost : Bool) (s : State) : Res := fin s (s.onWrite req (fun s => s.modeCmd 2 lost 0))
def execBoostOn (req : Requester) (lost : Bool) (s : State) : Res := fin s (s.onWrite req (fun s => s.modeCmd 3 lost 0))
def execBoostOff (req : Requester) (lost : Bool) (s : State) : Res := fin s (s.onWrite req (fun s => s.modeCmd 4 lost 0))
def execSafeEnter (req : Requester) (s : State) : Res := fin s (s.onWrite req (fun s => s.modeCmd 5 false 0))
def execSafeAck (req : Requester) (lost : Bool) (s : State) : Res := fin s (s.onWrite req (fun s => s.modeCmd 6 lost 0))
def execUnload (req : Requester) (lost : Bool) (s : State) : Res := fin s (s.onWrite req (fun s => s.modeCmd 7 lost 0))

/-- A timed transition completes (R34). -/
def execModeTransitionDone (s : State) : Res := fin s s.transDone

/-- The clearing condition of SAFE causes 1 to 3 (R457); cause 4 ends by the write of CPU_DBG_CTL.mask_swdt alone. -/
def State.causeGone (s : State) (code : Nat) : Bool :=
  match code with
  | 1 => s.fld Reg.clkStat 0 3 == 7
  | 2 => !s.bit Reg.pmuStat 25
  | _ => layers.all (fun l => decide (s.acted l ≤ thermLimit l))

/-- The condition has held long enough: the live bit clears (R457), and with the thermal cause the layers leave the SAFE level (R440). -/
def execSafeCauseCleared (code : BitVec 3) (s : State) : Res :=
  fin s (if 1 ≤ code.toNat ∧ code.toNat ≤ 3 ∧ s.causeGone code.toNat then
    let s := (s.setLive code.toNat false).resumeLanes
    if code = 3 then s.forAll layers (fun s l => s.showLevel l) else s
  else s)

/-! ### Reset sources (R51 to R53, R59) -/

/-- A write of GLB_RESET_CTL. -/
def State.resetCtl (s : State) (req : Requester) (kind : Nat) (keyed : Bool) (dropped : BitVec 256) : State :=
  if !keyed then s.keyRefused req.toNat Reg.glbResetCtl
  else match kind with
    | 1 => (s.setBit Reg.glbResetCause 4 true).warmReset dropped
    | 2 => (s.setBit Reg.glbResetCause 2 true).fullReset dropped
    | _ => s

def execWarmResetCmd (req : Requester) (dropped : BitVec 256) (s : State) : Res :=
  fin s (s.onKeyed req (fun keyed s => s.resetCtl req 1 keyed dropped))

def execFullResetCmd (req : Requester) (dropped : BitVec 256) (s : State) : Res :=
  fin s (s.onKeyed req (fun keyed s => s.resetCtl req 2 keyed dropped))

/-- A low pulse on RSTDBG of `width` µs (R51): from 150 µs a full reset, below 50 µs none, between them either. -/
def execRstdbgReset (width : Nat) (dropped : BitVec 256) (s : State) : Res :=
  fin s (
    let go := decide (150 ≤ width) || (decide (50 ≤ width) && Config.freeBit s.free)
    let s := if 50 ≤ width ∧ width < 150 then s.tickFree else s
    if s.aon.up && s.aon.vio && go then
      let s := s.setBit Reg.glbResetCause 1 true
      if s.resetTakes .full then s.fullReset dropped else s
    else s)

/-- PERST_N is asserted (R51, R52); a larger reset in progress goes on, but the core does not run (R42). -/
def execPerstNAssert (dropped : BitVec 256) (s : State) : Res :=
  fin s (if s.aon.perst then s
    else
      let s := s.setAon (fun a => { a with perst := true })
      if !s.aon.up then s
      else
        let s := s.setBit Reg.glbResetCause 3 true
        if s.resetTakes .warm then s.warmReset dropped else { s with cpu := { s.cpu with started := false } })

/-- PERST_N is deasserted: the ROM and DRAM training may start (R42). -/
def execPerstNDeassert (s : State) : Res := fin s ((s.setAon (fun a => { a with perst := false })).maybeTrain)

/-- PCIe hot reset, FLR, or link down (R50). -/
def execFunctionReset (down : Bool) (s : State) : Res := fin s (if s.mode = modeRESET then s else s.functionReset down)

end Sys2Proof.Machine
end

