-- ==== Sys2Proof/Machine/CpuOps.lean ====
section
/-! DEFINITION. Shared operations of the control processor (13): flash and TCM, authentication, the board profile, user code, flash
commands, watchdogs and the debug monitor. -/

namespace Sys2Proof.Machine

def State.modCpu (s : State) (f : Cpu → Cpu) : State := { s with cpu := f s.cpu }

/-! ### TCM and flash (R382, R383, R386) -/

def State.tcmBytes (s : State) (o n : Nat) : List Byte := Sparse.getList (fun _ => 0) s.cpu.tcm o n

def State.tcmPut (s : State) (req o : Nat) (l : List Byte) : State :=
  (s.modCpu (fun c => { c with tcm := Sparse.setList (fun _ => 0) c.tcm o l })).breakResv req (0x10000000 + o) l.length

/-- Flash as the core reads it: an enabled patch unit delivers its 32 bytes in place of its line (R386). -/
def State.coreFlash (s : State) (o n : Nat) : List Byte :=
  (s.flashBytes o n).mapIdx (fun j b =>
    let a := o + j
    match (List.range 16).find? (fun i => s.bit (Reg.cpuPatch i) 31 && s.fld (Reg.cpuPatch i) 5 17 == a / 32) with
    | some i => (Sparse.get (fun _ => []) s.cpu.patch i).getD (a % 32) b
    | none => b)

/-- The slot the ROM starts: the valid one with the higher version, slot A of two equal ones (R387). -/
def State.bestSlot (s : State) : Option (Bool × BitVec 16) :=
  match s.slotVersion false, s.slotVersion true with
  | some a, some b => if a.ult b then some (true, b) else some (false, a)
  | some a, none => some (false, a)
  | none, some b => some (true, b)
  | none, none => none

/-! ### The core's address map (R382) -/

/-- What a core address names: the boot ROM, the TCM, the flash, BAR0 and the scratchpad by offset, or a physical address of the DRAM. -/
inductive CoreMem where
  | rom (o : Nat)
  | tcm (o : Nat)
  | flash (o : Nat)
  | bar0 (o : Nat)
  | spd (o : Nat)
  | dram (a : Nat)
  deriving DecidableEq, Repr

/-- What the core does there. -/
inductive CoreUse where
  | load
  | store
  | fetch
  | atomic
  deriving DecidableEq, Repr

inductive CoreTrap where
  | misaligned
  | accessFault
  deriving DecidableEq, Repr

/-- The range that holds `n` bytes from core address `a`; the DRAM window is placed by CPU_DWIN. -/
def State.coreMap (s : State) (a n : Nat) : Option CoreMem :=
  let within (base size : Nat) : Bool := decide (base ≤ a) && decide (a + n ≤ base + size)
  if within 0 0x10000 then some (.rom a)
  else if within 0x10000000 0x80000 then some (.tcm (a - 0x10000000))
  else if within 0x20000000 0x400000 then some (.flash (a - 0x20000000))
  else if within 0x40000000 0x4000000 then some (.bar0 (a - 0x40000000))
  else if within 0x60000000 0x4000000 then some (.spd (a - 0x60000000))
  else if within 0x80000000 0x80000000 then some (.dram (s.fld Reg.cpuDwin 0 10 * 2 ^ 31 + (a - 0x80000000)))
  else none

/-- The Access column of R382; `n` is the size of the access. -/
def CoreMem.allows (m : CoreMem) (use : CoreUse) (n : Nat) : Bool :=
  match m, use with
  | .rom _, .load => true
  | .rom _, .fetch => true
  | .tcm _, _ => true
  | .flash _, .load => true
  | .flash _, .fetch => true
  | .bar0 _, .load => n == 4
  | .bar0 _, .store => n == 4
  | .spd _, .fetch => false
  | .spd _, _ => true
  | .dram _, .load => true
  | .dram _, .store => true
  | _, _ => false

/-- What user code reaches (R383, R388): its part of the TCM, and the user partition for read and execute. -/
def CoreMem.userMay (m : CoreMem) : Bool :=
  match m with
  | .tcm o => decide (0x40000 ≤ o)
  | .flash o => decide (userPart ≤ o)
  | _ => false

/-- The exception that an access of the hart raises, if any: `n` is its size in bytes, a power of two. -/
def State.coreTrap (s : State) (user : Bool) (use : CoreUse) (a n : Nat) : Option CoreTrap :=
  if a % n ≠ 0 ∧ use ≠ .fetch then some .misaligned
  else match s.coreMap a n with
    | some m => if m.allows use n && (!user || m.userMay) then none else some .accessFault
    | none => some .accessFault

/-- The hart takes an exception: the reservation of an LR is lost (R382), and machine mode goes on at mtvec, with mepc, mcause, mtval and
mstatus as the privileged architecture of RISC-V has them. PRESUMED (log entry 114). -/
def State.takeTrap (s : State) (t : CoreTrap) (use : CoreUse) (a : Nat) : State :=
  let h := s.cpu.hart
  let csr (n : Nat) : Word := Sparse.get (fun _ => 0) h.csr n
  let cause := match t, use with
    | .misaligned, .load => 4
    | .misaligned, _ => 6
    | .accessFault, .fetch => 1
    | .accessFault, .load => 5
    | .accessFault, _ => 7
  let st := csr 0x300
  let status := setFldOf (setFldOf (setFldOf st 3 1 0) 7 1 (fldOf st 3 1)) 11 2 (if h.user then 0 else 3)
  let l := [(0x300, status), (0x341, h.pc), (0x342, BitVec.ofNat 32 cause), (0x343, BitVec.ofNat 32 a)]
  s.modCpu (fun c => { c with resv := none, hart := { h with
    pc := csr 0x305 &&& 0xFFFFFFFC#32, user := false
    csr := l.foldl (fun m p => Sparse.set (fun _ => 0) m p.1 p.2) h.csr } })

/-- What an AMO leaves of the old word and its operand. PRESUMED (log entry 114). -/
def amoResult (op : AmoOp) (x y : Word) : Word :=
  match op with
  | .swap => y
  | .add => x + y
  | .xor => x ^^^ y
  | .and => x &&& y
  | .or => x ||| y
  | .min => if x.slt y then x else y
  | .max => if x.slt y then y else x
  | .minu => if x.ult y then x else y
  | .maxu => if x.ult y then y else x

/-! ### The start of the core (R386, R387, R394) -/

def fwRom : Nat := 0
def fwAuthenticating : Nat := 1
def fwSlotA : Nat := 2
def fwRecovery : Nat := 4
def fwInReset : Nat := 5

def State.fwState (s : State) : Nat := s.fld Reg.cpuStatus 29 3
def State.setFwState (s : State) (c : Nat) : State := s.setFld Reg.cpuStatus 29 3 c

def State.inMonitor (s : State) : Bool := s.bit Reg.cpuDbgStat 0

/-- The patch units are loaded for a firmware version, or disabled. -/
def State.loadPatches (s : State) (version : Option (BitVec 16)) : State :=
  let units := match version with
    | some v => match Config.patchTable s.production with
      | some (w, units, message, signature) => if w = v ∧ s.firmwareSigned message signature then some units else none
      | none => none
    | none => none
  let l := units.getD []
  let s := s.forAll (List.range 16) (fun s i =>
    s.wr (Reg.cpuPatch i) (((l[i]?).map (fun u => (u.1 ||| 0x80000000#32) &&& 0x803FFFE0#32)).getD 0))
  (s.setBit Reg.cpuStatus 26 units.isSome).modCpu (fun c =>
    { c with patch := ((l.take 16).zipIdx.map (fun q => (q.2, q.1.2))).filter (fun p => decide (p.2 ≠ [])) })

/-- The core may start: it has not since its last reset, and it is out of reset, or RESET has come to its steps behind PERST_N (R42). -/
def State.coreMayStart (s : State) : Bool :=
  !s.cpu.started && s.clocksRun && !s.aon.perst && (if s.mode = modeRESET then s.atStep 5 else s.fwState == fwInReset)

/-- The ROM starts: the interface of the core is released, both watchdogs restart, and the patch units are loaded for the slot that will
run (R380, R386, R387, R413). -/
def State.coreStart (s : State) : State :=
  let s := (s.setFwState fwAuthenticating).setBit Reg.nocIsoStat 3 false
  let s := s.modCpu (fun c => { c with started := true, cwdt := s.rd Reg.cpuCwdtCfg, nmi := false })
  s.loadPatches (s.bestSlot.map (fun q => q.2))

/-- The physical column that the latest soft repair of a plane in the ageing log names (R465, R477). -/
def State.loggedRepair (s : State) (k p : Nat) : Option Nat :=
  let r := s.ageRecords
  ((r.drop s.aon.logPos ++ r.take s.aon.logPos).reverse.find? (fun b =>
    getLe b 4 1 == 3 && getLe b 5 1 == 0x20 + k && getLe b 12 1 == p)).map (fun b => getLe b 13 1)

/-- The firmware applies the soft repairs that the ageing log records to the planes that hold none (R465).
DEDUCED (log entry 105). -/
def State.applyRepairs (s : State) : State :=
  s.forAll sites (fun s k => s.forAll [0, 1] (fun s p =>
    match s.loggedRepair k p with
    | some col =>
      if s.planeRepaired k p then s
      else (s.setFld (Reg.fabColmap k) (8 * p) 6 col).setBit (Reg.fabColmap k) (7 + 8 * p) true
    | none => s))

/-- Authentication ends: firmware starts, or the recovery service (R45, R387). RESET ends in either case; the firmware has applied the
column repairs before (R44, R465). -/
def State.authEnds (s : State) : State :=
  let s := match s.bestSlot with
    | some (b, v) =>
      let s := if s.mode = modeRESET then s.applyRepairs else s
      (((s.setFwState (if b then fwSlotB else fwSlotA)).setFld Reg.cpuStatus 8 16 v.toNat).setBit Reg.glbStartup 4 true).setBit
        Reg.glbStartup 8 false
    | none =>
      let s := ((s.setFwState fwRecovery).setBit Reg.glbStartup 8 true).startFail 5
      { s with host := { s.host with linkUp := true } }
  if s.mode = modeRESET then s.leaveReset else s

/-! ### The board profile and user code (R175, R384, R388) -/

/-- The board profile, if it is good: 1,024 bytes. -/
def State.boardProfile (s : State) : Option (List Byte) :=
  let b := s.coreFlash 0x220000 0x408
  if crc32c (b.take 0x400 ++ (b.drop 0x404).take 4) = leAt b 0x400 4 ∧ leAt b 0x404 4 = 1 then some (b.take 0x400) else none

/-- The hart writes LNK_CFG of a window and commits it; a site that is not busy has its change at once. -/
def State.laneProfile (s : State) (w : Nat) (v : Word) : State :=
  let c := CommitReg.lnk (Fin.ofNat 512 w)
  ((s.wr (Reg.lnkCfg w) v).commitGo c 3 1 true).commitApply c

/-- The firmware applies the profile, or disables every lane (R384). -/
def State.applyProfile (s : State) : State :=
  match s.boardProfile with
  | some b =>
    let s := s.forAll (List.range 128) (fun s i => s.wr (Reg.lnkEqtab (i / 4) (i % 4)) (BitVec.ofNat 32 (leAt b (4 * i) 4)))
    let s := s.forAll (List.range 512) (fun s w =>
      let e := (b.getD (512 + w) 0).toNat
      s.laneProfile w (BitVec.ofNat 32 (e % 32 + e / 128 * 64)))
    s.setBit Reg.cpuStatus 28 false
  | none =>
    let s := s.forAll (List.range 512) (fun s w => s.laneProfile w (s.rd (Reg.lnkCfg w) ||| 0x40#32))
    s.setBit Reg.cpuStatus 28 true

/-- The firmware copies the user image into user TCM and starts it in user mode at the entry offset from there;
without a good header no user code runs (R388). DEDUCED (log entry 114): the offset counts from the copy of the image body. -/
def State.userStart (s : State) : State :=
  let h := s.coreFlash userPart 12
  let n := leAt h 4 4
  let body := s.coreFlash (userPart + 12) n
  if n ≤ 0x40000 ∧ crc32c body = leAt h 8 4 then
    ((s.tcmPut 3 0x40000 body).setBit Reg.cpuStatus 27 false).modCpu (fun c => { c with
      user := some (BitVec.ofNat 32 (leAt h 0 4)), hart := { c.hart with pc := BitVec.ofNat 32 (0x10040000 + leAt h 0 4), user := true } })
  else (s.setBit Reg.cpuStatus 27 true).modCpu (fun c => { c with user := none })

/-- The firmware finishes its start-up steps: profile_applied, then pcie_ready, then fw_running (R43, R387). -/
def State.profileEnds (s : State) : State :=
  let s := ((s.applyProfile.setBit Reg.glbStartup 6 true).setBit Reg.glbStartup 5 true).userStart
  { s.setBit Reg.glbMode 7 true with host := { s.host with linkUp := true } }

/-! ### Flash commands (R389, R390, R414) -/

/-- The staged area, or the range it is written to, is out of range. -/
def fwRangeBad (cmd off len part : Nat) : Bool :=
  if cmd = 7 ∨ cmd = 8 then false
  else decide (2 ^ 26 < off + len) || (match cmd with
    | 1 => len == 0 || decide (0x100000 < len)
    | 6 => len == 0 || decide (0x100000 < len)
    | 2 => len == 0 || decide (0x10000 < len)
    | 4 => len == 0 || decide (0x180000 < part + len)
    | _ => len == 0)

/-- Why a command is refused, as the status of CPU_FWCMD. -/
def State.fwRefused (s : State) (cmd : Nat) : Option Nat :=
  if s.bit Reg.cpuFwcmd 31 then some 2
  else if cmd = 6 then (if s.fwState = fwRecovery then none else some 2)
  else if !s.fwRunning then some 2
  else if cmd = 8 then
    if s.variantE || s.bit Reg.glbVariant 4 || s.loading then some 2
    else if s.fld Reg.pmuVin 0 16 < 3000 then some 4 else none
  else none

/-- A write of CPU_FWCMD. -/
def State.fwCmd (s : State) (req : Requester) (cmd : Nat) (keyed : Bool) : State :=
  let a := Reg.cpuFwcmd
  if !keyed then s.keyRefused req.toNat a
  else if cmd = 0 ∨ 8 < cmd then s
  else
    let off := (s.rd (Reg.cpuFwarg 0)).toNat
    let len := (s.rd (Reg.cpuFwarg 1)).toNat
    let part := (s.rd (Reg.cpuFwarg 2)).toNat
    match s.fwRefused cmd with
    | some c => s.setFld a 28 3 c
    | none =>
      if fwRangeBad cmd off len part then s.setFld a 28 3 5
      else ((s.setFld a 28 3 0).setBit a 31 true).modCpu (fun c => { c with job := some { cmd := cmd, off := off, len := len, part := part } })

/-- What a command does with the staged bytes: the new state and its status. -/
def State.fwRun (s : State) (j : FwJob) (staged : List Byte) (fail : Option Nat) : State × Nat :=
  match j.cmd with
  | 1 => s.programSlot j staged fail
  | 2 => s.program profilePart staged fail
  | 3 => s.applyKeyUpdate staged fail
  | 4 => s.program (userPart + j.part) staged fail
  | 5 =>
    let (t, may) := if s.reaches 3 then s.spdWrite 3 j.off (s.coreFlash 0x230000 (min j.len 0x40000)) else (s, false)
    (t, if may then 1 else 5)
  | 6 => s.programSlot j staged fail
  | 7 => (s.userStart, 1)
  | _ => if fail.isNone then ((s.setBit Reg.glbVariant 4 true).setBit Reg.cfgSig 31 true, 1) else (s, 4)

/-- A flash command completes: its effect, busy clears, and vector 40 (R414). `o` is what the checks of the staged words report (R374). An
isolated core interface reaches no staged byte (R380). -/
def State.fwDone (s : State) (fail : Option Nat) (o : SpdObs) : State :=
  match s.cpu.job with
  | none => s
  | some j =>
    let s := s.modCpu (fun c => { c with job := none })
    let reads := j.cmd ≠ 5 ∧ j.cmd ≠ 7 ∧ j.cmd ≠ 8
    let (s, staged) := if reads then (match (if s.reaches 3 then s.spdRead 3 j.off j.len else (s, none)) with
        | (t, some l) => (t.spdChecked o, some (flipBytes o l))
        | (t, none) => (t, none))
      else (s, some [])
    let (s, c) := match staged with
      | some l => s.fwRun j l fail
      | none => (s, 5)
    ((s.setBit Reg.cpuFwcmd 31 false).setFld Reg.cpuFwcmd 28 3 c).sendMsg 40

/-! ### Core reset and watchdogs (R392 to R395) -/

/-- The registers through which the debugger sees the halted program. -/
def monitorRegs : List Nat := [Reg.cpuDbgPc, Reg.cpuDbgCsrAddr, Reg.cpuDbgCsrData] ++ (List.range 31).map (Reg.cpuDbgGpr ·)

/-- An expiry of the safety or the core watchdog (R394). The PCIe function keeps its state, as the reset of kind core leaves it (R51, R394), though
R50's row Function can be read to include the watchdogs: DEDUCED, log entry 86. -/
def State.coreReset (s : State) (safety : Bool) : State :=
  let s := (s.safEvent 0x0B (bitN safety)).jobCut.isolate 3
  let s := { s with pulse := { s.pulse with resets := s.pulse.resets + 1 } }
  let s := monitorRegs.foldl (fun s a => s.wr a 0) s
  let s := s.setBit Reg.glbResetCause (if safety then 5 else 6) true
  let s := s.forAll (sites.filter s.seqRuns) (fun s k => s.integ k 32 noCycle 0)
  let seen := s.inMonitor || s.bit Reg.cpuDbgStat 3
  let resets := min 255 (s.fld Reg.cpuStatus 0 8 + 1)
  let s := (s.wr Reg.cpuStatus (BitVec.ofNat 32 (fwInReset * 2 ^ 29 + resets))).wr Reg.cpuDbgStat (if seen then 8 else 0)
  let s := (s.setBit Reg.glbMode 7 false).wr Reg.cpuFwcmd 0
  let s := s.wr Reg.glbStartup (s.rd Reg.glbStartup &&& ~~~0x150#32)
  let s := s.forAll (List.range 16) (fun s i => s.wr (Reg.cpuPatch i) 0)
  let s := s.setKey 3 0
  { s with cpu := { cwdt := s.cpu.cwdt }, host := { s.host with keyBroken := false } }

/-- The core executes. -/
def State.coreRuns (s : State) : Bool := s.cpu.started && s.clocksRun

/-- The core watchdog counts: a period is set, and it does not pause for the monitor (R392, R413). -/
def State.cwdtCounts (s : State) : Bool :=
  s.coreRuns && fldOf s.cpu.cwdt 0 16 != 0 && !(s.inMonitor && s.cpu.cwdt.getLsbD 16)

def State.cwdtRestart (s : State) : State := s.modCpu (fun c => { c with cwdt := s.rd Reg.cpuCwdtCfg })

def State.swdtMasked (s : State) : Bool := s.bit Reg.cpuDbgCtl 4

/-- The safety watchdog counts (R393, R395). -/
def State.swdtCounts (s : State) : Bool := s.coreRuns && !s.swdtMasked

/-- A challenge that differs from the last one (R393); which, the spec leaves open. -/
def State.newChallenge (s : State) : State :=
  let old := s.fld Reg.cpuSwdtChal 0 16
  s.tickFree.wr Reg.cpuSwdtChal (BitVec.ofNat 32 ((old + 1 + (Config.freeWord s.free).toNat % 65535) % 2 ^ 16))

/-- A write of CPU_SWDT_SVC: only the hart's counts; in the first half of the period, or with a wrong value, the watchdog expires at
once (R393). -/
def State.swdtService (s : State) (req : Requester) (v : Word) : State :=
  if req ≠ 3 ∨ !s.swdtCounts then s
  else if s.cpu.nmi ∧ fldOf v 0 16 = 65535 - s.fld Reg.cpuSwdtChal 0 16 then
    s.newChallenge.modCpu (fun c => { c with nmi := false })
  else s.coreReset true

/-! ### The debug monitor (R396 to R398, R411, R412) -/

/-- CPU_DBG_CTL.mask_swdt is written (R395): the safety watchdog is masked, which is SAFE cause 4, or no longer, which ends the cause
(R457). -/
def State.dbgMask (s : State) (on : Bool) : State :=
  if on && !s.swdtMasked then ((s.setBit Reg.cpuDbgCtl 4 true).modCpu (fun c => { c with nmi := false })).safeArrive 4
  else if !on && s.swdtMasked then ((s.setBit Reg.cpuDbgCtl 4 false).setLive 4 false).modCpu (fun c => { c with nmi := false })
  else if !on then s.setLive 4 false
  else s

def State.dbgHalt (s : State) : State :=
  if s.inMonitor then s
  else
    (s.setBit Reg.cpuDbgStat 3 false).modCpu (fun c => { c with haltReq := true })

def State.dbgForce (s : State) : State := if s.inMonitor then s else s.modCpu (fun c => { c with forceReq := true })

/-- The state of the halted program as the debugger has left it (R398). -/
def State.debugged (s : State) : Hart :=
  { s.cpu.hart with pc := s.rd Reg.cpuDbgPc, x := (List.range 31).map (fun i => s.rd (Reg.cpuDbgGpr i)), csr := s.cpu.csr }

/-- The program goes on at CPU_DBG_PC with what the debugger has written (R398); the core watchdog that paused has a full period (R392). -/
def State.dbgResume (s : State) : State :=
  if !s.inMonitor then s
  else
    let s := s.modCpu (fun c => { c with hart := s.debugged })
    let s := (s.setBit Reg.cpuDbgStat 0 false).setBit Reg.cpuDbgStat 2 false
    let s := if s.cpu.cwdt.getLsbD 16 then s.cwdtRestart else s
    (monitorRegs.foldl (fun s a => s.wr a 0) s).modCpu (fun c => { c with csr := [] })

def State.dbgStep (s : State) : State := if s.inMonitor then s.dbgResume.dbgHalt else s

/-- A write of CPU_DBG_CTL (R411). -/
def State.dbgCtl (s : State) (req : Requester) (v : Word) (keyed : Bool) : State :=
  if !keyed then s.keyRefused req.toNat Reg.cpuDbgCtl
  else if 1 < popCount (BitVec.ofNat 4 (fldOf v 0 4)) then s
  else
    let s := s.dbgMask (v.getLsbD 4)
    match fldOf v 0 4 with
    | 1 => s.dbgHalt
    | 2 => s.dbgForce
    | 4 => s.dbgResume
    | 8 => s.dbgStep
    | _ => s

/-- The core enters the monitor at an instruction boundary: forced, or once the hart's key window is closed; `pc`, `gprs` (x1 to x31)
and `csrs` are the state of the halted program, and `instrs` how many instructions the hart has executed since its last access, which count in
its window (R16). -/
def State.monitorEntry (s : State) (pc : Word) (gprs : List Word) (csrs : List (BitVec 12 × Word)) (instrs : Nat) : State :=
  let force := s.cpu.forceReq
  let s := if s.coreRuns && !s.inMonitor then s.setKey 3 (s.keyLeft 3 - instrs) else s
  if !s.coreRuns || s.inMonitor || !(force || (s.cpu.haltReq && s.keyLeft 3 == 0)) then s
  else
    let s := if 0 < s.keyLeft 3 then { s.setKey 3 0 with host := { (s.setKey 3 0).host with keyBroken := true } } else s
    let s := (s.setFld Reg.cpuDbgStat 0 3 (1 + 4 * bitN force)).wr Reg.cpuDbgPc pc
    let s := s.forAll (List.range 31) (fun s i => s.wr (Reg.cpuDbgGpr i) (gprs.getD i 0))
    let csr := csrs.foldl (fun m p => Sparse.set (fun _ => 0) m p.1.toNat p.2) []
    let x := (List.range 31).map (fun i => gprs.getD i 0)
    s.modCpu (fun c => { c with
      resv := none, haltReq := false, forceReq := false, csr := csr, hart := { c.hart with pc := pc, x := x, csr := csr } })

/-- CPU_DBG_CSR_DATA: the CSR that CPU_DBG_CSR_ADDR names. -/
def State.csrRead (s : State) : Word := Sparse.get (fun _ => 0) s.cpu.csr (s.fld Reg.cpuDbgCsrAddr 0 12)

def State.csrWrite (s : State) (v : Word) : State :=
  s.modCpu (fun c => { c with csr := Sparse.set (fun _ => 0) c.csr (s.fld Reg.cpuDbgCsrAddr 0 12) v })

/-! ### The mailbox (R391) -/

/-- A write of CPU_MBOX_STAT: in_full W1S, out_full W1C. -/
def State.mboxStat (s : State) (v : Word) : State :=
  s.wr Reg.cpuMboxStat ((s.rd Reg.cpuMboxStat ||| (v &&& 1#32)) &&& ~~~(v &&& 2#32))

/-! ### Key windows (R16, R362) -/

/-- A write of GLB_KEY opens or closes the requester's window; the hart's ends its broken-window mark (R397). -/
def State.keyWrite (s : State) (req : Requester) (v : Word) : State :=
  let s := s.setKey req.toNat (if v = 0xA5C3#32 then 8 else 0)
  if req = 3 then { s with host := { s.host with keyBroken := false } } else s

end Sys2Proof.Machine
end

