-- ==== Sys2Proof/Machine/ExpOps.lean ====
section
/-! DEFINITION. Shared operations of Exposure and develop (13, R404 to R407). -/

namespace Sys2Proof.Machine

/-- The bytes of a record (R406). -/
def recordLen : Nat := 0x101000

/-- Edge `e` begins fc e (R93): it ends the cycle issued at fc e − 3. A write of FAB_EXP_CTL.snap exposes at the edge that ends the 16th
fc after it. -/
def State.expSnap (s : State) (mask : BitVec 16) : State :=
  (members mask).foldl (fun s k =>
    let x := s.getExpo k
    s.setExpo k { x with host := x.host ++ [s.fc + 17] }) s

/-- What triggers an Exposure of region `k` at edge `e`: bit 0 an EXPOSE instruction, bit 1 the host. -/
def State.expTrigger (s : State) (k e : Nat) : Nat :=
  let x := s.getSite k
  (if x.exposeAt.any (fun n => x.fc0 + n + 3 == e) then 1 else 0) + (if (s.getExpo k).host.contains e then 2 else 0)

/-- The number of the cycle that ends at edge `e`, and its context. -/
def State.expCycle (s : State) (k e : Nat) : Nat × Nat :=
  match s.cycleAt k (e - 3) with
  | some (n, sp) => (n, sp.ctx.toNat)
  | none => ((s.getSite k).lastIssued.toNat, 0)

/-- The TSC at edge `e`, which begins fc e: bc edges lie ten root ticks apart (R5, R433). -/
def State.tscAt (s : State) (e : Nat) : Nat :=
  ((s.tsc.toNat : Int) + (((e : Int) - s.fc) * s.fdiv - s.fcPhase) / 10).toNat

/-- The first 196 bytes of the record (R406): every value is that of edge `e` (R407), of the sequencer as the cycle that ends there left
it. -/
def State.expHeader (s : State) (k e trigger : Nat) : List Byte :=
  let (n, ctx) := s.expCycle k e
  let flag (b : Bool) (v : Nat) : Nat := if b then v else 0
  let x := s.getSite k
  let seq := match x.exposeRegs.find? (fun p => p.1 == e) with
    | some p => p.2
    | none => s.seqImage k (e - x.fc0 - 2)
  leBytes 8 (s.tscAt e) ++ leBytes 6 n ++ leBytes 1 ctx ++ leBytes 1 trigger ++ leBytes 2 (s.fld Reg.glbEpoch 0 16)
    ++ leBytes 1 k
    ++ leBytes 1 (flag (s.seqRuns k) 1 + flag (s.siteState k == 3) 2 + flag (s.rd (Reg.fabWclkCells k) != 0) 4)
    ++ seq.take 110 ++ leBytes 1 (s.getFab k).outputs.flags.toNat ++ leBytes 1 0 ++ seq.drop 110

/-- The cells of a region as they are at the edge that ends the cycle in effect. -/
def Fabric.atEdge (f : Fabric) : List (Nat × Cell) :=
  f.next.foldl (fun m p => Sparse.set (fun _ => {}) m p.1 p.2.cell) f.cells

/-- The address the record goes to. -/
def State.devBase (s : State) (k : Nat) : Nat := s.rd64 (Reg.fabDevBase k 0)

/-- An Exposure of region `k` is refused (R405). -/
def State.expRefused (s : State) (k : Nat) : Bool :=
  (s.getExpo k).latent.isSome || s.devBase k % 2048 != 0 || !s.areaInSite k (s.devBase k) recordLen

/-- The triggers of edge `e` are spent. -/
def State.expSpend (s : State) (k e : Nat) : State :=
  let x := s.getExpo k
  (s.modSite k (fun x => { x with
    exposeAt := x.exposeAt.filter (fun n => x.fc0 + n + 3 != e), exposeRegs := x.exposeRegs.filter (fun p => decide (e < p.1)) })).setExpo k
    { x with host := x.host.filter (fun h => h != e) }

/-- Edge `e` of region `k`: an Exposure is captured into the latent copy, or refused (R404, R405). -/
def State.expose (s : State) (k e : Nat) : State :=
  let t := s.expTrigger k e
  if t = 0 then s
  else
    let s0 := s.expSpend k e
    if s.expRefused k then s0.satAdd (Reg.fabExpMiss k) 0 16 1
    else
      let l : Latent := { base := s.devBase k, header := s.expHeader k e t, cells := (s.getFab k).atEdge, wclk := s.wireClocked k }
      (s0.setExpo k { s0.getExpo k with latent := some l }).setBit Reg.fabExpStat (16 + k) true

/-- Cell entry of the record: 128 bytes (R406); a wire-clocked o0 has no residue check (R137). -/
def cellEntry (c : Cell) (wclk : Bool) : List Byte :=
  (List.range 18).flatMap (fun i => leBytes 4 (c.item i).toNat) ++ leBytes 4 c.flags.toNat
    ++ leBytes 1 ((if wclk then 1 else 0)
      + (if (List.range 18).any (fun i => !(wclk && i == 16) && c.code i != (c.item i).toNat % 3) then 2 else 0)) ++ List.replicate 51 0

/-- Row `r` of the record, r = 0 to 513. -/
def Latent.row (l : Latent) (r : Nat) : List Byte :=
  if r = 0 then l.header ++ List.replicate (2048 - l.header.length) 0
  else if r = 1 then List.replicate 2048 0
  else (List.range 16).flatMap (fun j =>
    let i := 16 * (r - 2) + j
    let c := cellKey (i / 4096) (i % 64) (i / 64 % 64)
    cellEntry (Sparse.get (fun _ => {}) l.cells c) (l.wclk.contains c))

/-- The debug master writes the record, and the latent copy is free. It waits while its interface is isolated or the rows are reserved for
another requester (R377, R380, R403); its write transactions end its own key window (R16). DEDUCED (log entry 103). -/
def State.develop (s : State) (k : Nat) : State :=
  match (s.getExpo k).latent with
  | none => s
  | some l =>
    if !s.reaches 4 || s.accessWaits 4 l.base recordLen then s else
    let s := s.serveFirst l.base recordLen
    let s := (List.range 514).foldl (fun s r => (s.writeAt (l.base + 2048 * r) (l.row r)).1) s
    (((s.setKey 4 0).setExpo k { s.getExpo k with latent := none }).setBit Reg.fabExpStat (16 + k) false).setBit Reg.fabExpStat k true

end Sys2Proof.Machine
end

