-- ==== Sys2Proof/Machine/Fabric.lean ====
section
/-! DEFINITION. The commands of the fabric (04, 05): the read of a context, every cell instruction, shift-register contexts,
wire-clock edges, residue injection and row windows. One definition for each command. `k` is the region, `plane` false for
F0 and true for F1, (x, y) the logical cell, `i` its instruction in the context in effect, `err` the result bits a fault of
the ALU inverts. -/

namespace Sys2Proof.Machine

/-! ### What the ALU computes (R120 to R127) -/

/-- The shift amount B[4:0]. -/
def AluIn.amount (i : AluIn) : Nat := i.b.toNat % 32

/-- A rotation by `k`: c is the last bit rotated out, and the residue is multiplied by 2^k or its inverse. -/
def AluIn.rotated (i : AluIn) (r : Word) (k : Nat) (right : Bool) : Alu :=
  { r := r, c := decide (0 < k) && (if right then r.msb else r.getLsbD 0)
    pred := some (if k % 2 = 0 then i.ra % 3 else i.ra * 2 % 3) }

/-- MINMAX: c says that A was selected (R128). -/
def AluIn.pick (i : AluIn) (selA : Bool) : Alu := { r := if selA then i.a else i.b, c := selA }

/-- The low `m` bits reversed. -/
def bitRev (m : Nat) (a : Word) : Word :=
  BitVec.ofNat 32 (((List.range m).map (fun j => if a.getLsbD (m - 1 - j) then 2 ^ j else 0)).sum)

/-- Galois steps: the state and the last bit out (R122). -/
def lfsrSteps (mask : Word) : Nat → Word × Bool → Word × Bool
  | 0, p => p
  | n + 1, p =>
    let out := p.1.getLsbD 0
    let t := p.1 >>> 1
    lfsrSteps mask n (if out then t ^^^ mask else t, out)

def toGray (a : Word) : Word := a ^^^ (a >>> 1)

/-- Bit j is the XOR of bits 31 down to j. -/
def ofGray (a : Word) : Word :=
  BitVec.ofNat 32 (((List.range 32).map (fun j => if parityOf (a >>> j) then 2 ^ j else 0)).sum)

/-- The 32-bit product of two halves, and the residue predicted from theirs (R124, R130). -/
def mulAlu (sgn : Bool) (a b : BitVec 16) : Alu :=
  let p : Int := if sgn then a.toInt * b.toInt else (a.toNat * b.toNat : Nat)
  let ra := ((if sgn then a.toInt else a.toNat) % 3).toNat
  let rb := ((if sgn then b.toInt else b.toNat) % 3).toNat
  { r := BitVec.ofInt 32 p, pred := some ((ra * rb + (if p < 0 then 1 else 0)) % 3) }

/-- Positions where `m` is 1, rising. -/
def onesOf (m : Word) : List Nat := (List.range 32).filter m.getLsbD

def gather (a m : Word) : Word :=
  BitVec.ofNat 32 (((onesOf m).zipIdx.map (fun p => if a.getLsbD p.1 then 2 ^ p.2 else 0)).sum)

def scatter (a m : Word) : Word :=
  BitVec.ofNat 32 (((onesOf m).zipIdx.map (fun p => if a.getLsbD p.2 then 2 ^ p.1 else 0)).sum)

/-- Ones in bits p + w − 1 : p. -/
def fieldMask (p w : Nat) : Word := BitVec.ofNat 32 ((2 ^ w - 1) * 2 ^ p)

/-- Eight 4-bit symbols. -/
def symbols8 (f : Nat → Nat) : Word := BitVec.ofNat 32 (((List.range 8).map (fun j => f j % 16 * 16 ^ j)).sum)

/-! ### Contexts -/

/-- The context of the cycle issued at fc `u` is read in region `k` and comes into effect, and the cycle before it ends (R114,
R115, R151, R163 to R165). `ups` are the errors the check of context words found, `strays` enables decoded in error, `flips`
upsets of cell registers. -/
def execContextRead (k : SiteIx) (u : Nat) (ups : List CtxUpset) (strays : List StrayDrive) (flips : List RegFlip) (s : State) :
    Res :=
  fin s (if s.fabRuns k && (!(s.getFab k).live || decide ((s.getFab k).now < u)) then s.contextRead k u ups strays flips else s)

/-- The frames of the strips that enabled a tripped Z-bus are reloaded from the golden copy and, once all are rewritten, the bus resumes,
unless it is off for good (R154). `poison` says that the reads find the golden rows beyond repair. -/
def execZbusReloadDone (k : SiteIx) (block : BitVec 8) (bus : BitVec 2) (poison : Bool) (s : State) : Res :=
  fin s (
    let b := 4 * block.toNat + bus.toNat
    match (s.getFab k).busOff.find? (fun o => o.bus == b && !o.permanent && !s.bit Reg.nocIsoStat 5) with
    | none => s
    | some o =>
      let (s, ok) := o.frames.foldl (fun (p : State × Bool) f =>
        let (t, ok) := p.1.fromGolden f poison
        if ok then (t, p.2) else (t.reloadFailed f false, false)) (s, true)
      if ok then (s.modFab k (fun f => { f with busOff := f.busOff.filter (fun q => q != o) })).showBusOff k else s)

/-! ### Cell instructions -/

/-- NOP, and every illegal instruction (R120, R129). -/
def execCellNop (k : SiteIx) (plane : Bool) (x y : BitVec 6) (i : BitVec 48) (s : State) : Res :=
  fin s (s.cellNop k plane x y i)

/-- A + B (R120). -/
def aluAdd (i : AluIn) : Alu :=
    addc i.a i.b false i.ra i.rb

def execCellAdd (k : SiteIx) (plane : Bool) (x y : BitVec 6) (ins : BitVec 48) (err : Word) (s : State) : Res :=
  fin s (s.cellExec k plane x y ins err 0x01 (some 0) aluAdd)

/-- A + B + c (R120). -/
def aluAdc (i : AluIn) : Alu :=
    addc i.a i.b i.c i.ra i.rb

def execCellAdc (k : SiteIx) (plane : Bool) (x y : BitVec 6) (ins : BitVec 48) (err : Word) (s : State) : Res :=
  fin s (s.cellExec k plane x y ins err 0x02 (some 0) aluAdc)

/-- A − B (R120). -/
def aluSub (i : AluIn) : Alu :=
    subc i.a i.b true i.ra i.rb

def execCellSub (k : SiteIx) (plane : Bool) (x y : BitVec 6) (ins : BitVec 48) (err : Word) (s : State) : Res :=
  fin s (s.cellExec k plane x y ins err 0x03 (some 0) aluSub)

/-- A + NOT B + c (R120). -/
def aluSbc (i : AluIn) : Alu :=
    subc i.a i.b i.c i.ra i.rb

def execCellSbc (k : SiteIx) (plane : Bool) (x y : BitVec 6) (ins : BitVec 48) (err : Word) (s : State) : Res :=
  fin s (s.cellExec k plane x y ins err 0x04 (some 0) aluSbc)

/-- LOGIC AND. -/
def aluAnd (i : AluIn) : Alu :=
    { r := i.a &&& i.b }

def execCellAnd (k : SiteIx) (plane : Bool) (x y : BitVec 6) (ins : BitVec 48) (err : Word) (s : State) : Res :=
  fin s (s.cellExec k plane x y ins err 0x05 (some 0) aluAnd)

/-- LOGIC OR. -/
def aluOr (i : AluIn) : Alu :=
    { r := i.a ||| i.b }

def execCellOr (k : SiteIx) (plane : Bool) (x y : BitVec 6) (ins : BitVec 48) (err : Word) (s : State) : Res :=
  fin s (s.cellExec k plane x y ins err 0x05 (some 1) aluOr)

/-- LOGIC XOR. -/
def aluXor (i : AluIn) : Alu :=
    { r := i.a ^^^ i.b }

def execCellXor (k : SiteIx) (plane : Bool) (x y : BitVec 6) (ins : BitVec 48) (err : Word) (s : State) : Res :=
  fin s (s.cellExec k plane x y ins err 0x05 (some 2) aluXor)

/-- LOGIC ANDN: A AND NOT B. -/
def aluAndn (i : AluIn) : Alu :=
    { r := i.a &&& ~~~i.b }

def execCellAndn (k : SiteIx) (plane : Bool) (x y : BitVec 6) (ins : BitVec 48) (err : Word) (s : State) : Res :=
  fin s (s.cellExec k plane x y ins err 0x05 (some 3) aluAndn)

/-- LOGIC ORN: A OR NOT B. -/
def aluOrn (i : AluIn) : Alu :=
    { r := i.a ||| ~~~i.b }

def execCellOrn (k : SiteIx) (plane : Bool) (x y : BitVec 6) (ins : BitVec 48) (err : Word) (s : State) : Res :=
  fin s (s.cellExec k plane x y ins err 0x05 (some 4) aluOrn)

/-- LOGIC XNOR. -/
def aluXnor (i : AluIn) : Alu :=
    { r := ~~~(i.a ^^^ i.b) }

def execCellXnor (k : SiteIx) (plane : Bool) (x y : BitVec 6) (ins : BitVec 48) (err : Word) (s : State) : Res :=
  fin s (s.cellExec k plane x y ins err 0x05 (some 5) aluXnor)

/-- LOGIC NOT: NOT A. -/
def aluNot (i : AluIn) : Alu :=
    { r := ~~~i.a }

def execCellNot (k : SiteIx) (plane : Bool) (x y : BitVec 6) (ins : BitVec 48) (err : Word) (s : State) : Res :=
  fin s (s.cellExec k plane x y ins err 0x05 (some 6) aluNot)

/-- LOGIC MOV: A, with a result check (R130). -/
def aluMov (i : AluIn) : Alu :=
    { r := i.a, pred := some (i.ra % 3) }

def execCellMov (k : SiteIx) (plane : Bool) (x y : BitVec 6) (ins : BitVec 48) (err : Word) (s : State) : Res :=
  fin s (s.cellExec k plane x y ins err 0x05 (some 7) aluMov)

/-- Shift left, zeros in (R121). -/
def aluShl (i : AluIn) : Alu :=
    { r := i.a <<< i.amount, c := decide (0 < i.amount) && i.a.getLsbD (32 - i.amount) }

def execCellShl (k : SiteIx) (plane : Bool) (x y : BitVec 6) (ins : BitVec 48) (err : Word) (s : State) : Res :=
  fin s (s.cellExec k plane x y ins err 0x06 (some 0) aluShl)

/-- Logical shift right (R121). -/
def aluShr (i : AluIn) : Alu :=
    { r := i.a >>> i.amount, c := decide (0 < i.amount) && i.a.getLsbD (i.amount - 1) }

def execCellShr (k : SiteIx) (plane : Bool) (x y : BitVec 6) (ins : BitVec 48) (err : Word) (s : State) : Res :=
  fin s (s.cellExec k plane x y ins err 0x06 (some 1) aluShr)

/-- Arithmetic shift right (R121). -/
def aluSar (i : AluIn) : Alu :=
    { r := i.a.sshiftRight i.amount, c := decide (0 < i.amount) && i.a.getLsbD (i.amount - 1) }

def execCellSar (k : SiteIx) (plane : Bool) (x y : BitVec 6) (ins : BitVec 48) (err : Word) (s : State) : Res :=
  fin s (s.cellExec k plane x y ins err 0x06 (some 2) aluSar)

/-- Rotate left (R121); the residue moves by 2^k (R130). -/
def aluRol (i : AluIn) : Alu :=
    i.rotated (i.a.rotateLeft i.amount) i.amount false

def execCellRol (k : SiteIx) (plane : Bool) (x y : BitVec 6) (ins : BitVec 48) (err : Word) (s : State) : Res :=
  fin s (s.cellExec k plane x y ins err 0x06 (some 3) aluRol)

/-- Rotate right (R121). -/
def aluRor (i : AluIn) : Alu :=
    i.rotated (i.a.rotateRight i.amount) i.amount true

def execCellRor (k : SiteIx) (plane : Bool) (x y : BitVec 6) (ins : BitVec 48) (err : Word) (s : State) : Res :=
  fin s (s.cellExec k plane x y ins err 0x06 (some 4) aluRor)

/-- Compare equal. -/
def aluCmpEq (i : AluIn) : Alu :=
    cmpAlu i (i.a == i.b)

def execCellCmpEq (k : SiteIx) (plane : Bool) (x y : BitVec 6) (ins : BitVec 48) (err : Word) (s : State) : Res :=
  fin s (s.cellExec k plane x y ins err 0x07 (some 0) aluCmpEq)

/-- Compare not equal. -/
def aluCmpNe (i : AluIn) : Alu :=
    cmpAlu i (i.a != i.b)

def execCellCmpNe (k : SiteIx) (plane : Bool) (x y : BitVec 6) (ins : BitVec 48) (err : Word) (s : State) : Res :=
  fin s (s.cellExec k plane x y ins err 0x07 (some 1) aluCmpNe)

/-- Compare unsigned less than. -/
def aluCmpLtu (i : AluIn) : Alu :=
    cmpAlu i (i.a.ult i.b)

def execCellCmpLtu (k : SiteIx) (plane : Bool) (x y : BitVec 6) (ins : BitVec 48) (err : Word) (s : State) : Res :=
  fin s (s.cellExec k plane x y ins err 0x07 (some 2) aluCmpLtu)

/-- Compare unsigned greater or equal. -/
def aluCmpGeu (i : AluIn) : Alu :=
    cmpAlu i (!i.a.ult i.b)

def execCellCmpGeu (k : SiteIx) (plane : Bool) (x y : BitVec 6) (ins : BitVec 48) (err : Word) (s : State) : Res :=
  fin s (s.cellExec k plane x y ins err 0x07 (some 3) aluCmpGeu)

/-- Compare signed less than. -/
def aluCmpLt (i : AluIn) : Alu :=
    cmpAlu i (i.a.slt i.b)

def execCellCmpLt (k : SiteIx) (plane : Bool) (x y : BitVec 6) (ins : BitVec 48) (err : Word) (s : State) : Res :=
  fin s (s.cellExec k plane x y ins err 0x07 (some 4) aluCmpLt)

/-- Compare signed greater or equal. -/
def aluCmpGe (i : AluIn) : Alu :=
    cmpAlu i (!i.a.slt i.b)

def execCellCmpGe (k : SiteIx) (plane : Bool) (x y : BitVec 6) (ins : BitVec 48) (err : Word) (s : State) : Res :=
  fin s (s.cellExec k plane x y ins err 0x07 (some 5) aluCmpGe)

/-- Compare unsigned less or equal. -/
def aluCmpLeu (i : AluIn) : Alu :=
    cmpAlu i (!i.b.ult i.a)

def execCellCmpLeu (k : SiteIx) (plane : Bool) (x y : BitVec 6) (ins : BitVec 48) (err : Word) (s : State) : Res :=
  fin s (s.cellExec k plane x y ins err 0x07 (some 6) aluCmpLeu)

/-- Compare unsigned greater than. -/
def aluCmpGtu (i : AluIn) : Alu :=
    cmpAlu i (i.b.ult i.a)

def execCellCmpGtu (k : SiteIx) (plane : Bool) (x y : BitVec 6) (ins : BitVec 48) (err : Word) (s : State) : Res :=
  fin s (s.cellExec k plane x y ins err 0x07 (some 7) aluCmpGtu)

/-- A where the selected flag, inverted under sub[2], is 1, else B (R120). -/
def aluSel (ins : BitVec 48) (i : AluIn) : Alu :=
    { r := if xor (i.flag (cellSub ins % 4)) (decide (4 ≤ cellSub ins)) then i.a else i.b
      pred := some ((if xor (i.flag (cellSub ins % 4)) (decide (4 ≤ cellSub ins)) then i.ra else i.rb) % 3) }

def execCellSel (k : SiteIx) (plane : Bool) (x y : BitVec 6) (ins : BitVec 48) (err : Word) (s : State) : Res :=
  fin s (s.cellExec k plane x y ins err 0x08 none (fun i => aluSel ins i))

/-- The smaller, unsigned; on equality A counts as selected (R128). -/
def aluMinu (i : AluIn) : Alu :=
    i.pick (!i.b.ult i.a)

def execCellMinu (k : SiteIx) (plane : Bool) (x y : BitVec 6) (ins : BitVec 48) (err : Word) (s : State) : Res :=
  fin s (s.cellExec k plane x y ins err 0x09 (some 0) aluMinu)

/-- The larger, unsigned. -/
def aluMaxu (i : AluIn) : Alu :=
    i.pick (!i.a.ult i.b)

def execCellMaxu (k : SiteIx) (plane : Bool) (x y : BitVec 6) (ins : BitVec 48) (err : Word) (s : State) : Res :=
  fin s (s.cellExec k plane x y ins err 0x09 (some 1) aluMaxu)

/-- The smaller, signed. -/
def aluMin (i : AluIn) : Alu :=
    i.pick (!i.b.slt i.a)

def execCellMin (k : SiteIx) (plane : Bool) (x y : BitVec 6) (ins : BitVec 48) (err : Word) (s : State) : Res :=
  fin s (s.cellExec k plane x y ins err 0x09 (some 2) aluMin)

/-- The larger, signed. -/
def aluMax (i : AluIn) : Alu :=
    i.pick (!i.a.slt i.b)

def execCellMax (k : SiteIx) (plane : Bool) (x y : BitVec 6) (ins : BitVec 48) (err : Word) (s : State) : Res :=
  fin s (s.cellExec k plane x y ins err 0x09 (some 3) aluMax)

/-- The number of 1 bits of A. -/
def aluPopc (i : AluIn) : Alu :=
    { r := BitVec.ofNat 32 (popCount i.a) }

def execCellPopc (k : SiteIx) (plane : Bool) (x y : BitVec 6) (ins : BitVec 48) (err : Word) (s : State) : Res :=
  fin s (s.cellExec k plane x y ins err 0x0A (some 0) aluPopc)

/-- The low m = imm16[5:0] bits of A in reverse order. -/
def aluBrev (i : AluIn) : Alu :=
    { r := bitRev (i.imm % 64) i.a }

def execCellBrev (k : SiteIx) (plane : Bool) (x y : BitVec 6) (ins : BitVec 48) (err : Word) (s : State) : Res :=
  fin s (s.cellExec k plane x y ins err 0x0B (some 0) aluBrev)

/-- sub + 1 Galois steps with tap mask B; c takes the last bit out (R122). -/
def aluLfsr (ins : BitVec 48) (i : AluIn) : Alu :=
    { r := (lfsrSteps i.b (cellSub ins + 1) (i.a, false)).1, c := (lfsrSteps i.b (cellSub ins + 1) (i.a, false)).2 }

def execCellLfsr (k : SiteIx) (plane : Bool) (x y : BitVec 6) (ins : BitVec 48) (err : Word) (s : State) : Res :=
  fin s (s.cellExec k plane x y ins err 0x0C none (fun i => aluLfsr ins i))

/-- Binary to Gray (R123). -/
def aluB2g (i : AluIn) : Alu :=
    { r := toGray i.a }

def execCellB2g (k : SiteIx) (plane : Bool) (x y : BitVec 6) (ins : BitVec 48) (err : Word) (s : State) : Res :=
  fin s (s.cellExec k plane x y ins err 0x0D (some 0) aluB2g)

/-- Gray to binary: the prefix XOR (R123). -/
def aluG2b (i : AluIn) : Alu :=
    { r := ofGray i.a }

def execCellG2b (k : SiteIx) (plane : Bool) (x y : BitVec 6) (ins : BitVec 48) (err : Word) (s : State) : Res :=
  fin s (s.cellExec k plane x y ins err 0x0D (some 1) aluG2b)

/-- Gray increment; c on a wrap (R123). -/
def aluGinc (i : AluIn) : Alu :=
    { r := toGray (ofGray i.a + 1), c := ofGray i.a == 0xFFFFFFFF }

def execCellGinc (k : SiteIx) (plane : Bool) (x y : BitVec 6) (ins : BitVec 48) (err : Word) (s : State) : Res :=
  fin s (s.cellExec k plane x y ins err 0x0D (some 2) aluGinc)

/-- Gray decrement; c on a wrap (R123). -/
def aluGdec (i : AluIn) : Alu :=
    { r := toGray (ofGray i.a - 1), c := ofGray i.a == 0 }

def execCellGdec (k : SiteIx) (plane : Bool) (x y : BitVec 6) (ins : BitVec 48) (err : Word) (s : State) : Res :=
  fin s (s.cellExec k plane x y ins err 0x0D (some 3) aluGdec)

/-- A[15:0] × B[15:0], unsigned (R124). -/
def aluMulu (i : AluIn) : Alu :=
    mulAlu false (i.a.extractLsb' 0 16) (i.b.extractLsb' 0 16)

def execCellMulu (k : SiteIx) (plane : Bool) (x y : BitVec 6) (ins : BitVec 48) (err : Word) (s : State) : Res :=
  fin s (s.cellExec k plane x y ins err 0x0E (some 0) aluMulu)

/-- A[15:0] × B[15:0], signed (R124). -/
def aluMuls (i : AluIn) : Alu :=
    mulAlu true (i.a.extractLsb' 0 16) (i.b.extractLsb' 0 16)

def execCellMuls (k : SiteIx) (plane : Bool) (x y : BitVec 6) (ins : BitVec 48) (err : Word) (s : State) : Res :=
  fin s (s.cellExec k plane x y ins err 0x0E (some 1) aluMuls)

/-- A[31:16] × B[31:16], unsigned (R124). -/
def aluMulhu (i : AluIn) : Alu :=
    mulAlu false (i.a.extractLsb' 16 16) (i.b.extractLsb' 16 16)

def execCellMulhu (k : SiteIx) (plane : Bool) (x y : BitVec 6) (ins : BitVec 48) (err : Word) (s : State) : Res :=
  fin s (s.cellExec k plane x y ins err 0x0E (some 2) aluMulhu)

/-- A[31:16] × B[31:16], signed (R124). -/
def aluMulhs (i : AluIn) : Alu :=
    mulAlu true (i.a.extractLsb' 16 16) (i.b.extractLsb' 16 16)

def execCellMulhs (k : SiteIx) (plane : Bool) (x y : BitVec 6) (ins : BitVec 48) (err : Word) (s : State) : Res :=
  fin s (s.cellExec k plane x y ins err 0x0E (some 3) aluMulhs)

/-- Counting up to the terminal value B in steps of imm16 (R125). -/
def aluCntUp (i : AluIn) : Alu :=
    if i.a == i.b then { r := 0, c := true, pred := some 0 }
    else { addc i.a (BitVec.ofNat 32 i.imm) false i.ra (i.imm % 3) with c := false, v := false }

def execCellCntUp (k : SiteIx) (plane : Bool) (x y : BitVec 6) (ins : BitVec 48) (err : Word) (s : State) : Res :=
  fin s (s.cellExec k plane x y ins err 0x0F (some 0) aluCntUp)

/-- Counting down in steps of imm16, reloading B from 0 (R125). -/
def aluCntDown (i : AluIn) : Alu :=
    if i.a == 0 then { r := i.b, c := true, pred := some (i.rb % 3) }
    else { subc i.a (BitVec.ofNat 32 i.imm) true i.ra (i.imm % 3) with c := false, v := false }

def execCellCntDown (k : SiteIx) (plane : Bool) (x y : BitVec 6) (ins : BitVec 48) (err : Word) (s : State) : Res :=
  fin s (s.cellExec k plane x y ins err 0x0F (some 1) aluCntDown)

/-- Bit p of A XORed with the parity of A AND B (R126). -/
def aluXpar (i : AluIn) : Alu :=
    { r := if parityOf (i.a &&& i.b) then i.a ^^^ (1 <<< (i.imm % 32)) else i.a }

def execCellXpar (k : SiteIx) (plane : Bool) (x y : BitVec 6) (ins : BitVec 48) (err : Word) (s : State) : Res :=
  fin s (s.cellExec k plane x y ins err 0x10 (some 0) aluXpar)

/-- The bits of A where B is 1, gathered low (R126). -/
def aluPext (i : AluIn) : Alu :=
    { r := gather i.a i.b }

def execCellPext (k : SiteIx) (plane : Bool) (x y : BitVec 6) (ins : BitVec 48) (err : Word) (s : State) : Res :=
  fin s (s.cellExec k plane x y ins err 0x10 (some 1) aluPext)

/-- The low bits of A placed where B is 1 (R126). -/
def aluPdep (i : AluIn) : Alu :=
    { r := scatter i.a i.b }

def execCellPdep (k : SiteIx) (plane : Bool) (x y : BitVec 6) (ins : BitVec 48) (err : Word) (s : State) : Res :=
  fin s (s.cellExec k plane x y ins err 0x10 (some 2) aluPdep)

/-- Field extract: w = imm16[9:5] + 1 bits from p = imm16[4:0] (R126). -/
def aluBfx (i : AluIn) : Alu :=
    { r := (i.a >>> (i.imm % 32)) &&& fieldMask 0 (i.imm / 32 % 32 + 1) }

def execCellBfx (k : SiteIx) (plane : Bool) (x y : BitVec 6) (ins : BitVec 48) (err : Word) (s : State) : Res :=
  fin s (s.cellExec k plane x y ins err 0x10 (some 3) aluBfx)

/-- Field insert: B with the field replaced by the low bits of A (R126). -/
def aluBfi (i : AluIn) : Alu :=
    { r := (i.b &&& ~~~fieldMask (i.imm % 32) (i.imm / 32 % 32 + 1)) |||
    ((i.a <<< (i.imm % 32)) &&& fieldMask (i.imm % 32) (i.imm / 32 % 32 + 1)) }

def execCellBfi (k : SiteIx) (plane : Bool) (x y : BitVec 6) (ins : BitVec 48) (err : Word) (s : State) : Res :=
  fin s (s.cellExec k plane x y ins err 0x10 (some 4) aluBfi)

/-- B with nibble imm16[2:0] replaced by A[3:0] (R127). -/
def aluPsym (i : AluIn) : Alu :=
    { r := (i.b &&& ~~~fieldMask (4 * (i.imm % 8)) 4) ||| ((i.a &&& 0xF) <<< (4 * (i.imm % 8))) }

def execCellPsym (k : SiteIx) (plane : Bool) (x y : BitVec 6) (ins : BitVec 48) (err : Word) (s : State) : Res :=
  fin s (s.cellExec k plane x y ins err 0x11 (some 0) aluPsym)

/-- Byte imm16[9:8] of A as eight symbols: imm16[7:4] for 1, imm16[3:0] for 0 (R127). -/
def aluPbit (i : AluIn) : Alu :=
    { r := symbols8 (fun j => if i.a.getLsbD (8 * (i.imm / 256 % 4) + j) then i.imm / 16 else i.imm) }

def execCellPbit (k : SiteIx) (plane : Bool) (x y : BitVec 6) (ins : BitVec 48) (err : Word) (s : State) : Res :=
  fin s (s.cellExec k plane x y ins err 0x11 (some 1) aluPbit)

/-- As PBIT, with imm16[15:12] where B[j] = 0 (R127). -/
def aluPbitz (i : AluIn) : Alu :=
    { r := symbols8 (fun j => if !i.b.getLsbD j then i.imm / 4096
    else if i.a.getLsbD (8 * (i.imm / 256 % 4) + j) then i.imm / 16 else i.imm) }

def execCellPbitz (k : SiteIx) (plane : Bool) (x y : BitVec 6) (ins : BitVec 48) (err : Word) (s : State) : Res :=
  fin s (s.cellExec k plane x y ins err 0x11 (some 2) aluPbitz)

/-! ### Shift-register and wire-clock modes -/

/-- A cycle of a shift-register context in word mode (R133, R134, R135). -/
def execSrWordShift (k : SiteIx) (plane : Bool) (x y : BitVec 6) (i : BitVec 48) (s : State) : Res :=
  fin s (s.cellShift k plane x y i false)

/-- A cycle of a shift-register context in bit mode (R133, R134, R135). -/
def execSrBitShift (k : SiteIx) (plane : Bool) (x y : BitVec 6) (i : BitVec 48) (s : State) : Res :=
  fin s (s.cellShift k plane x y i true)

/-- An edge on the clocking wire of a cell whose context has wclk = 1, within the cycle in effect (R132, R136, R137): where bit 0 of the
port wsrc has made an edge of the kind wedge, o0 loads a value the device does not vouch for; it is free (log entry 5). An edge of the
other kind, or under wclk = 0, loads nothing. -/
def execWireClockEdge (k : SiteIx) (plane : Bool) (x y : BitVec 6) (s : State) : Res :=
  fin s (
    let c := cellKey (if plane then 1 else 0) x.toNat y.toNat
    if s.fabRuns k && (s.getFab k).live && s.wireEdge k c then s.wireLoad k c
    else s)

/-! ### Residue injection (R142) -/

/-- A write of FAB_RES_INJECT. DESIGN CHOICE (log entry 107): a write with go = 0 stores the address fields while pending = 1 too, and so
moves the cell that the pending injection addresses; R142 leaves open whether it does. -/
def State.resInject (s : State) (req : Requester) (v : Word) (keyed : Bool) : State :=
  let a := Reg.fabResInject
  if !keyed then s.keyRefused req.toNat a
  else if s.bit a 31 && v.getLsbD 30 then s
  else
    let s := s.wr a ((s.rd a &&& 0x80000000#32) ||| (v &&& 0x007FFFE0#32))
    if v.getLsbD 30 && decide (fldOf v 11 7 ≤ 64) then s.setBit a 31 true else s

/-- FAB_RES_INJECT.go for a cell by its physical column. -/
def execResidueInject (req : Requester) (k : SiteIx) (plane : Bool) (col : BitVec 7) (row : BitVec 6) (s : State) : Res :=
  fin s (s.onKeyed req (fun keyed s => s.resInject req (BitVec.ofNat 32 (2 ^ 30 + k * 2 ^ 19
    + (if plane then 2 ^ 18 else 0) + col.toNat * 2 ^ 11 + row.toNat * 2 ^ 5)) keyed))

/-! ### Row windows -/

/-- The control cell of vault `v` requests a row read into its window (R159 to R161). -/
def execRwReadRequest (v : VaultIx) (s : State) : Res := fin s (s.winCommand v 1)

/-- The control cell of vault `v` requests the write-back of a snapshot of its window (R159 to R161). -/
def execRwWriteRequest (v : VaultIx) (s : State) : Res := fin s (s.winCommand v 2)

/-- The row read lands in the window at the end of cycle t + 63 (R160). -/
def execRwReadLand (v : VaultIx) (s : State) : Res := fin s (s.winLand v)

end Sys2Proof.Machine
end

