-- ==== Sys2Proof/Machine/Sequencer.lean ====
section
/-! DEFINITION. The sequencer instructions and the commands of SEQ_CTL and its shared registers (03). One definition for
each command. `w` is the instruction word the sequencer fetches at PC, `ecc` what the check of instruction memory
reported. -/

namespace Sys2Proof.Machine

def State.setClear (s : State) (k n : Nat) : State := (s.modSite k (fun x => { x with clearPt := n })).showFacc k

/-- The clear point moves to the next cycle when aux[1] = 1 (R78). -/
def State.clrAcc (s : State) (k : Nat) (w : BitVec 64) : State :=
  if (seqAux w).testBit 1 then s.setClear k (s.getSite k).cycle else s

def State.lc (s : State) (k n : Nat) : Nat := (s.rd (Reg.seqLc k n)).toNat
def State.setLc (s : State) (k n v : Nat) : State := s.wr (Reg.seqLc k n) (BitVec.ofNat 32 v)

/-- VEC (R69): one cycle, which may consume a stored vector or move the clear point. Also the step in which an illegal
instruction stops the sequencer (R68). -/
def execVec (k : SiteIx) (w : BitVec 64) (ecc : Ecc) (s : State) : Res :=
  fin s (s.seqExec k w ecc 0 (fun s => (s.clrAcc k w).oneCycle k w (s.seqPc k + 1) ((seqAux w).testBit 0)))

/-- RPT (R74): imm cycles with identical fields. -/
def execRpt (k : SiteIx) (w : BitVec 64) (ecc : Ecc) (s : State) : Res :=
  fin s (s.seqExec k w ecc 1 (fun s =>
    let (t, stopped) := (s.clrAcc k w).issueUpTo k w (seqImm w) false ((seqAux w).testBit 0)
    if stopped then t else t.goTo k (s.seqPc k + 1)))

/-- LOOP (R82): LCn ← imm if imm ≠ 0. -/
def execLoop (k : SiteIx) (w : BitVec 64) (ecc : Ecc) (s : State) : Res :=
  fin s (s.seqExec k w ecc 2 (fun s =>
    (if seqImm w = 0 then s else s.setLc k (seqAux w) (seqImm w)).oneCycle k w (s.seqPc k + 1)))

/-- ENDL (R69): fall through with LCn = 0 when LCn ≤ 1, else count down and branch. -/
def execEndl (k : SiteIx) (w : BitVec 64) (ecc : Ecc) (s : State) : Res :=
  fin s (s.seqExec k w ecc 3 (fun s =>
    let n := seqAux w
    if s.lc k n ≤ 1 then (s.setLc k n 0).oneCycle k w (s.seqPc k + 1)
    else (s.setLc k n (s.lc k n - 1)).oneCycle k w (seqImm w)))

/-- JMP (R69). -/
def execJmp (k : SiteIx) (w : BitVec 64) (ecc : Ecc) (s : State) : Res :=
  fin s (s.seqExec k w ecc 4 (fun s => s.oneCycle k w (seqImm w)))

/-- JCC (R76). -/
def execJcc (k : SiteIx) (w : BitVec 64) (ecc : Ecc) (s : State) : Res :=
  fin s (s.seqExec k w ecc 5 (fun s =>
    s.oneCycle k w (if s.seqCond k w (s.getSite k).cycle then seqImm w else s.seqPc k + 1)))

/-- CALL (R83): push PC + 1 and go to the target; a taken CALL with SP = 16 is fault 0x04 and does not issue. DESIGN CHOICE (log entry
76): at address 0x7FFF the 15 bits pushed are 0, and that is no fault. -/
def execCall (k : SiteIx) (w : BitVec 64) (ecc : Ecc) (s : State) : Res :=
  fin s (s.seqExec k w ecc 6 (fun s =>
    if s.seqCond k w (s.getSite k).cycle then
      let sp := s.fld (Reg.seqSp k) 0 5
      ((s.wr (Reg.seqStack k sp) (BitVec.ofNat 32 ((s.seqPc k + 1) % 2 ^ 15))).setFld (Reg.seqSp k) 0 5
        (sp + 1)).oneCycle k w (seqImm w)
    else s.oneCycle k w (s.seqPc k + 1))
    (fun s => if s.seqCond k w (s.getSite k).cycle ∧ 16 ≤ s.fld (Reg.seqSp k) 0 5 then some (s, 0x04) else none))

/-- RET (R83): pop and go there; a taken RET with SP = 0 is fault 0x05 and does not issue. -/
def execRet (k : SiteIx) (w : BitVec 64) (ecc : Ecc) (s : State) : Res :=
  fin s (s.seqExec k w ecc 7 (fun s =>
    if s.seqCond k w (s.getSite k).cycle then
      let sp := s.fld (Reg.seqSp k) 0 5
      (s.setFld (Reg.seqSp k) 0 5 (sp - 1)).oneCycle k w (s.fld (Reg.seqStack k (sp - 1)) 0 15)
    else s.oneCycle k w (s.seqPc k + 1))
    (fun s => if s.seqCond k w (s.getSite k).cycle ∧ s.fld (Reg.seqSp k) 0 5 = 0 then some (s, 0x05) else none))

/-- MATCH (R84): its H − 1 cycles issue; the decision falls in the last of them. -/
def execMatchLoop (k : SiteIx) (w : BitVec 64) (ecc : Ecc) (s : State) : Res :=
  fin s (s.seqExec k w ecc 8 (fun s =>
    let t := (s.issueUpTo k w ((s.getSite k).hUse - 1)).1
    if t.seqRuns k then (t.setSeqState k 4).modSite k (fun x => { x with wait := .matching w }) else t))

/-- The decision of a MATCH in its last fc (R84): exit with MX = 0, retry, or give up with MX = 1; a MATCH that a planned stop cuts comes to
that stop. DESIGN CHOICE (log entry 106): the clear point moves to the next cycle also where MATCH gives up. -/
def execMatchDecision (k : SiteIx) (s : State) : Res :=
  fin s (match s.seqState k, (s.getSite k).wait with
    | 4, .matching w =>
      if (s.getSite k).after = .cut then (s.runTo ((s.getSite k).fc0 + (s.getSite k).cycle)).stopNow k else
      let c := (s.getSite k).cycle
      let n := seqAux w % 8
      let s := s.noteEdges k (c - 1)
      let t := ((s.setSeqState k 3).modSite k (fun x => { x with wait := .none })).runTo ((s.getSite k).fc0 + c)
      if s.seqCond k w (c - 1) then ((t.setBit (Reg.seqStatus k) 5 false).setClear k c).goTo k (s.seqPc k + 1)
      else if 1 < s.lc k n then ((t.setLc k n (s.lc k n - 1)).setClear k c).goTo k (seqImm w)
      else (((t.setLc k n 0).setBit (Reg.seqStatus k) 5 true).setClear k c).goTo k (s.seqPc k + 1)
    | _, _ => s)

/-- The instruction issues its cycle and, if its condition holds, stops the sequencer there (R100). -/
def State.haltWith (s : State) (k : Nat) (w : BitVec 64) (reason : Nat) : State :=
  let c := (s.getSite k).cycle
  if s.seqCond k w c then
    (((s.issue k w 1).setFld (Reg.seqStatus k) 12 4 (seqAux w % 16)).setFld (Reg.seqPc k) 0 15 (s.seqPc k)).seqStop k
      reason c
  else s.oneCycle k w (s.seqPc k + 1)

/-- HALT (R100). -/
def execSeqHalt (k : SiteIx) (w : BitVec 64) (ecc : Ecc) (s : State) : Res :=
  fin s (s.seqExec k w ecc 9 (fun s => s.haltWith k w 1))

/-- PARK (R100): as HALT, with the site parked. -/
def execSeqPark (k : SiteIx) (w : BitVec 64) (ecc : Ecc) (s : State) : Res :=
  fin s (s.seqExec k w ecc 10 (fun s => s.haltWith k w 2))

/-- SYNC (R86): its first cycle issues and the sequencer waits for the barrier. -/
def execSync (k : SiteIx) (w : BitVec 64) (ecc : Ecc) (s : State) : Res :=
  fin s (s.seqExec k w ecc 11 (fun s =>
    let c := (s.getSite k).cycle
    let (t, stopped) := s.issueUpTo k w 1
    if stopped then t
    else (t.setSeqState k 4).modSite k (fun x =>
      { x with wait := .sync (BitVec.ofNat 16 (seqImm w)) (BitVec.ofNat 4 (seqAux w)) c })))

/-- The fc in which member `k` issued its SYNC of this mask and id, if it waits in it. -/
def State.syncSince (s : State) (mask : BitVec 16) (id : BitVec 4) (k : Nat) : Option Nat :=
  match s.seqState k, (s.getSite k).wait with
  | 4, .sync m i c => if m = mask ∧ i = id then some ((s.getSite k).fc0 + c) else none
  | _, _ => none

/-- The limit of one wait in fc, 0 for none (R87). -/
def State.waitLimit (s : State) (k : Nat) : Nat := s.fldAct (Reg.seqCfg k) 8 8 * 2 ^ 20

/-- A wait of sequencer `k` that began in fc `since` and ends before fc `upto` stays within its limit (R87). DESIGN CHOICE (log entry 106): a
wait that ends with the last fc of its limit has completed. -/
def State.inLimit (s : State) (k since upto : Nat) : Bool := s.waitLimit k == 0 || decide (upto - since ≤ s.waitLimit k)

/-- Issue the waiting cycles of sequencer `k` before fc `upto`; the Bool says that a planned stop came. -/
def State.waitTo (s : State) (k upto : Nat) : State × Bool :=
  let x := s.getSite k
  let n := upto - (x.fc0 + x.cycle)
  let (t, cut) := if n = 0 then (s, false) else s.issueUpTo k (s.imemWord k) n
  if cut then ((t.runTo (x.fc0 + (t.getSite k).cycle)).stopNow k, true) else (t.runTo upto, false)

/-- Let waiting sequencer `k` occupy every fc up to `upto` (exclusive) and take its next instruction there. -/
def State.endWait (s : State) (k upto : Nat) : State :=
  let pc := s.seqPc k
  let (t, stopped) := s.waitTo k upto
  if stopped then t
  else
    let t := t.noteEdges k ((t.getSite k).cycle - 1)
    ((t.setSeqState k 3).modSite k (fun x => { x with wait := .none })).goTo k (pc + 1)

/-- A wait that began in fc `since` reaches its limit: its last waiting cycle issues, and the sequencer stops with reason timeout (R87,
R100). -/
def State.timeOut (s : State) (k since : Nat) : State :=
  let (t, stopped) := s.waitTo k (since + s.waitLimit k)
  if stopped then t else t.seqStop k 8 (t.lastCycle k)

/-- Member `k` of a barrier waits in fc `u`: that fc lies within its limit, and no planned stop has come. -/
def State.waitsIn (s : State) (k since u : Nat) : Bool :=
  s.inLimit k since (u + 1) && (s.getSite k).stopAt.all (fun p => decide (u < (s.getSite k).fc0 + p.1))

/-- The fc in which the last member of a barrier began to wait, if every member waits there (R86). A stop or timeout of one
releases no other (R87). -/
def State.barrier (s : State) (mask : BitVec 16) (id : BitVec 4) : Option Nat :=
  let l := (members mask).map (fun k => (k, s.syncSince mask id k))
  if l.isEmpty || l.any (fun p => p.2.isNone) then none
  else
    let last := (l.filterMap (fun p => p.2)).foldl max 0
    if l.all (fun p => s.waitsIn p.1 (p.2.getD 0) last) then some last else none

/-- The barrier forms when every member waits in a SYNC with the same mask and id: each issues its next instruction at
s + 6, where s is the fc of the last of them (R86); one whose limit comes before that stops (R87). -/
def execSyncRelease (mask : BitVec 16) (id : BitVec 4) (s : State) : Res :=
  fin s (match s.barrier mask id with
    | some last => s.forAll (members mask) (fun t k =>
        let since := (s.syncSince mask id k).getD 0
        if s.inLimit k since (last + 6) then t.endWait k (last + 6) else t.timeOut k since)
    | none => s)

/-- SETF (R85): write a flag in the cycle it issues. -/
def execSetf (k : SiteIx) (w : BitVec 64) (ecc : Ecc) (s : State) : Res :=
  fin s (s.seqExec k w ecc 12 (fun s =>
    let x := s.getSite k
    let f : BitVec 16 := bvBit 16 (seqAux w % 16)
    let v := (seqAux w).testBit 4
    (s.writeFlags (x.fc0 + x.cycle) (if v then f else 0) (if v then 0 else f)).oneCycle k w (s.seqPc k + 1)))

/-- WAITF (R85): complete at once if the flag is seen at the awaited value, else wait. -/
def execWaitf (k : SiteIx) (w : BitVec 64) (ecc : Ecc) (s : State) : Res :=
  fin s (s.seqExec k w ecc 13 (fun s =>
    let x := s.getSite k
    let f := seqAux w % 16
    let v := (seqAux w).testBit 4
    if s.flagSeen f (x.fc0 + x.cycle) == v then s.oneCycle k w (s.seqPc k + 1)
    else
      let (t, stopped) := s.issueUpTo k w 1
      if stopped then t
      else (t.setSeqState k 4).modSite k (fun y => { y with wait := .waitf (BitVec.ofNat 4 f) v x.cycle })))

/-- The first fc from `u` on in which a conditional instruction sees flag `f` at value `v`, by the writes so far. -/
def State.flagFc (s : State) (f u : Nat) (v : Bool) : Option Nat :=
  ((u :: s.xflags.map (fun e => e.1 + 3)).filter (fun e => decide (u ≤ e) && s.flagSeen f e == v)).min?

/-- A waiting WAITF that began in cycle `since` sees its flag in this fc, within its limit (R85, R87). -/
def State.waitfEnd (s : State) (k : Nat) (f : BitVec 4) (v : Bool) (since : Nat) : Option Nat :=
  let u := (s.getSite k).fc0 + since
  (s.flagFc f.toNat u v).filter (fun e => s.inLimit k u (e + 1))

/-- A waiting WAITF completes in the first fc in which it sees the awaited value, within the limit (R85, R87). -/
def execWaitfComplete (k : SiteIx) (s : State) : Res :=
  fin s (match s.seqState k, (s.getSite k).wait with
    | 4, .waitf f v since =>
      match s.waitfEnd k f v since with
      | some e => s.endWait k (e + 1)
      | none => s
    | _, _ => s)

/-- A WAITF or SYNC has occupied its limit, and neither its flag nor its barrier came within it: it issues its last waiting cycle and
stops with reason timeout (R87, R100). -/
def execWaitTimeout (k : SiteIx) (s : State) : Res :=
  fin s (
    let x := s.getSite k
    if s.waitLimit k = 0 then s
    else match s.seqState k, x.wait with
      | 4, .waitf f v since => if (s.waitfEnd k f v since).isSome then s else s.timeOut k (x.fc0 + since)
      | 4, .sync m i since =>
        if (s.barrier m i).any (fun last => s.inLimit k (x.fc0 + since) (last + 6)) then s else s.timeOut k (x.fc0 + since)
      | _, _ => s)

/-- LDLC (R69). -/
def execLdlc (k : SiteIx) (w : BitVec 64) (ecc : Ecc) (s : State) : Res :=
  fin s (s.seqExec k w ecc 14 (fun s => (s.setLc k (seqAux w) (seqImm w)).oneCycle k w (s.seqPc k + 1)))

/-- A write of Xn by an instruction; a write of X15 is a seek, after which a cycle 64 later is in time (R72). -/
def State.writeX (s : State) (k n : Nat) (v : Word) : State :=
  let s := s.wr (Reg.seqX k n) v
  if n = 15 then s.modSite k (fun x => { x with inTime := x.cycle + 64, gen := x.gen + 1 }) else s

/-- LDX (R72). -/
def execSeqLdx (k : SiteIx) (w : BitVec 64) (ecc : Ecc) (s : State) : Res :=
  fin s (s.seqExec k w ecc 15 (fun s =>
    (s.writeX k (seqAux w) (BitVec.ofNat 32 (seqImm w))).oneCycle k w (s.seqPc k + 1)))

/-- ADDX (R69), modulo 2^32. -/
def execAddx (k : SiteIx) (w : BitVec 64) (ecc : Ecc) (s : State) : Res :=
  fin s (s.seqExec k w ecc 16 (fun s =>
    (s.writeX k (seqAux w) (s.rd (Reg.seqX k (seqAux w)) + BitVec.ofNat 32 (seqImm w))).oneCycle k w (s.seqPc k + 1)))

/-- The value SWW writes (R92). -/
def State.swwValue (s : State) (k : Nat) (w : BitVec 64) : Word :=
  let imm := BitVec.ofNat 32 (seqImm w)
  let x := s.rd (Reg.seqX k (seqAux w / 16))
  match seqAux w / 2 % 4 with
  | 0 => imm
  | 1 => x
  | 2 => x + imm
  | _ => s.rd (Reg.seqSw k (seqAux w % 2)) + imm

/-- SWW (R92): its own cycle already carries the new value. -/
def execSww (k : SiteIx) (w : BitVec 64) (ecc : Ecc) (s : State) : Res :=
  fin s (s.seqExec k w ecc 17 (fun s =>
    (s.wr (Reg.seqSw k (seqAux w % 2)) (s.swwValue k w)).oneCycle k w (s.seqPc k + 1)))

/-- CALWIN (R88): imm cycles that carry no vector; the sequencer waits in it, and items may run inside its span. -/
def execCalwin (k : SiteIx) (w : BitVec 64) (ecc : Ecc) (s : State) : Res :=
  fin s (s.seqExec k w ecc 18 (fun s =>
    let c := (s.getSite k).cycle
    let pc := s.seqPc k
    let (t, cut) := s.issueUpTo k w (seqImm w) true
    let t := if cut then t else t.goTo k (pc + 1)
    if t.seqRuns k then (t.setSeqState k 4).modSite k (fun x => { x with wait := .calwin c (seqImm w) }) else t))

/-- EXPOSE (R93): its cycle issues, and an Exposure is due at the edge u + 3. -/
def execExpose (k : SiteIx) (w : BitVec 64) (ecc : Ecc) (s : State) : Res :=
  fin s (s.seqExec k w ecc 20 (fun s =>
    (s.modSite k (fun x => { x with exposeAt := x.exposeAt ++ [x.cycle] })).oneCycle k w (s.seqPc k + 1)))

/-- CAPCTL 0x0 (R96): select the capture block from its own cycle on. -/
def execCapctlSelectBlock (k : SiteIx) (w : BitVec 64) (ecc : Ecc) (s : State) : Res :=
  fin s (if seqAux w = 1 then s else s.seqExec k w ecc 21 (fun s =>
    (s.modSite k (fun x => { x with capBlock := BitVec.ofNat 8 (seqImm w) })).oneCycle k w (s.seqPc k + 1)))

/-- CAPCTL 0x1 (R96): set the capture mode from its own cycle on. -/
def execCapctlSetMode (k : SiteIx) (w : BitVec 64) (ecc : Ecc) (s : State) : Res :=
  fin s (if seqAux w = 0 then s else s.seqExec k w ecc 21 (fun s =>
    (s.modSite k (fun x => { x with capMode := BitVec.ofNat 2 (seqImm w) })).oneCycle k w (s.seqPc k + 1)))

/-- FLUSH (R94): the capture engine writes back every dirty row for the cycles through this one. -/
def execSeqFlush (k : SiteIx) (w : BitVec 64) (ecc : Ecc) (s : State) : Res :=
  fin s (s.seqExec k w ecc 22 (fun s =>
    let c := (s.getSite k).cycle
    ((s.setBit (Reg.capStatus k) 16 true).modSite k (fun x => { x with flushAt := x.flushAt ++ [c] })).oneCycle k w
      (s.seqPc k + 1)))

/-- IRQ (R95): if the condition holds, push the code into SEQ_IRQ. -/
def execSeqIrqInstr (k : SiteIx) (w : BitVec 64) (ecc : Ecc) (s : State) : Res :=
  fin s (s.seqExec k w ecc 23 (fun s =>
    (if s.seqCond k w (s.getSite k).cycle then s.pushQ (Reg.seqIrq k) 16 (BitVec.ofNat 32 (seqImm w % 256)) else s).oneCycle
      k w (s.seqPc k + 1)))

/-- Read `n` program or overlay rows from row `r`: the state after the reads and the rows, or none at the first that is
refused or poisoned, with the rows before it. -/
def State.readRows (s : State) (r : Nat) : Nat → State × List (List Byte) × Bool
  | 0 => (s, [], true)
  | n + 1 =>
    match s.readAt (r % 2 ^ 30 * 2048) srcPerCycle with
    | (t, .ok d) =>
      let (u, l, ok) := t.readRows (r + 1) n
      (u, d :: l, ok)
    | (t, _) => (t, [], false)

/-- The instruction words of a row. -/
def imemWords (d : List Byte) : List (BitVec 64) :=
  (List.range 256).map (fun i => BitVec.ofNat 64 (ofLe ((d.drop (8 * i)).take 8)))

/-- Load rows into instruction memory from address `a` on (R64, R90, R97). -/
def State.loadImem (s : State) (k a : Nat) (rows : List (List Byte)) : State :=
  s.modSite k (fun x => { x with imem := Sparse.setList (fun _ => 0) x.imem a (rows.flatMap imemWords) })

/-- Every source row of an overlay lies in the site's vaults and can be read (R91). -/
def State.ovlRowsOk (s : State) (k r n : Nat) : Bool :=
  (List.range n).all (fun i =>
    let a := (r + i) * 2048
    let (v, vr) := s.locate a
    s.inSite k a && (s.rowRefused v vr).isNone)

/-- The vaults record the source rows of the site's vaults that refuse (R267). -/
def State.ovlNotes (s : State) (k r n : Nat) : State :=
  s.forAll ((List.range n).filter (fun i => s.inSite k ((r + i) * 2048))) (fun s i =>
    let (v, vr) := s.locate ((r + i) * 2048)
    match s.rowRefused v vr with
    | some b => s.setBit (Reg.vltEvt v) b true
    | none => s)

/-- The fault of an OVL (R91): 0x06 while another load runs, 0x07 for its own bank or for rows that cannot be read, with what the check of
those rows records. -/
def State.ovlFault (s : State) (k : Nat) (w : BitVec 64) : Option (State × Nat) :=
  let n := seqAux w % 128
  let r := seqImm w
  if (s.getSite k).ovl.isSome then some (s, 0x06)
  else if (if (seqAux w).testBit 7 then 1 else 0) = s.seqPc k / 0x4000 then some (s, 0x07)
  else if !s.ovlRowsOk k r n then some (s.ovlNotes k r n, 0x07)
  else if (s.readRows r n).2.2 then none
  else some ((s.readRows r n).1, 0x07)

/-- OVL (R90, R91): start an overlay load, or stop with fault 0x06 or 0x07. -/
def execOvl (k : SiteIx) (w : BitVec 64) (ecc : Ecc) (s : State) : Res :=
  fin s (s.seqExec k w ecc 24 (fun s =>
    let n := seqAux w % 128
    let bank := (seqAux w).testBit 7
    let r := seqImm w
    let t := (s.readRows r n).1
    let t := (t.setBit (Reg.seqStatus k) 6 true).setBit (Reg.seqStatus k) 7 bank
    (t.modSite k (fun x => { x with ovl := some (bank, r, n) })).oneCycle k w (s.seqPc k + 1))
    (fun s => s.ovlFault k w))

/-- The overlay load completes: the rows are in the bank from its first address (R90). -/
def execOverlayLoadDone (k : SiteIx) (s : State) : Res :=
  fin s (match (s.getSite k).ovl with
    | some (bank, r, n) =>
      let (t, rows, _) := s.readRows r n
      let t := t.loadImem k (if bank then 0x4000 else 0) rows
      (t.modSite k (fun x => { x with ovl := none })).setBit (Reg.seqStatus k) 6 false
    | none => s)

/-- The shadow sequencer disagrees at a cycle (R64, R103): fault 0x01 of the instruction that issued it. The shadow runs 3 fc behind:
no cycle more than 3 fc after it issues. -/
def execLockstepMismatch (k : SiteIx) (cycle : BitVec 48) (s : State) : Res :=
  fin s (
    let s := s.dueStop k
    if s.canStop k 7 then
      let x := s.getSite k
      let n := cycle.toNat
      let pc := match x.spanAt n with
        | some sp => sp.pc
        | none => s.seqPc k
      let first := (x.spans.head?.map (fun sp => sp.first)).getD 0
      (s.cutTo k (max first (min (s.nowCyc k) (n + 4)))).seqFaultAt k 0x01 pc n
    else s)

/-! ### Arming -/

/-- A write of SEQ_CTL with one command bit stores hflag; the conditions see it 8 fc later (R76, R105). -/
def State.storeHflag (s : State) (k : Nat) (h : Bool) : State :=
  (s.setBit (Reg.seqCtl k) 8 h).modSite k (fun x => { x with hflags := (s.fc, h) :: x.hflags })

/-- Why an arm is refused, in the order of R97. -/
def State.armRefused (s : State) (k : Nat) : Option Nat :=
  if s.mode ≠ modeREADY ∧ s.mode ≠ modeRUN then some 5
  else if s.seqState k ≠ 0 then some 2
  else if s.siteState k ≠ 0 then some 2
  else if s.fld (Reg.seqProgLen k) 0 8 = 0 ∨ 128 < s.fld (Reg.seqProgLen k) 0 8 then some 9
  else none

/-- SEQ_CTL.arm (R97): the state becomes arming and the stream prefetch starts from X15. -/
def State.doArm (s : State) (k : Nat) : State :=
  match s.armRefused k with
  | some c => s.cmdStatus k c
  | none =>
    ((s.cmdStatus k 1).setSeqState k 1).modSite k (fun x => { x with fmt := [], gen := 0, inTime := 0, fillPtr := 0, seekFc := none })

def execSeqArm (req : Requester) (k : SiteIx) (hflag : Bool) (s : State) : Res :=
  fin s (s.onWrite req (fun s => (s.storeHflag k hflag).doArm k))

/-- Arming completes: rows 0 to 63 are in bank 0, rows 64 to 127 in bank 1, and the state is armed; or a row cannot be read,
and the state is idle with status 0x6 (R97). DESIGN CHOICE (log entry 106): SEQ_PROG_ROW and SEQ_PROG_LEN count as they are now, not as
they were when the arm was written. -/
def execArmComplete (k : SiteIx) (s : State) : Res :=
  fin s (if s.seqState k ≠ 1 then s
    else
      match s.readRows (s.fld (Reg.seqProgRow k) 0 30) (s.fld (Reg.seqProgLen k) 0 8) with
      | (t, rows, true) => (t.loadImem k 0 rows).setSeqState k 2
      | (t, rows, false) => ((t.loadImem k 0 rows).setSeqState k 0).cmdStatus k 6)

/-! ### Starting (R98) -/

/-- The requirements of a start in order, for one sequencer: each true when it holds. Admission is judged last. DESIGN CHOICE (log
entry 83): while an accepted transition out of READY is in progress, the mode counts as left. -/
def State.startReqs (s : State) (k : Nat) : List Bool :=
  [s.seqState k == 2, s.siteState k == 0, (s.mode == modeREADY || s.mode == modeRUN) && s.aon.target.isNone, !s.boost, s.cfgValid,
    s.bit (Reg.seqHorizon k) 31]

/-- The first requirement of the list some sequencer fails. -/
def State.startFails (s : State) (l : List Nat) : Option Nat :=
  (List.range 6).find? (fun i => l.any (fun k => !((s.startReqs k).getD i true)))

/-- The start-time classes of site `k`, with detail (R454). -/
def State.startClasses (s : State) (k : Nat) : List (Nat × Nat) :=
  let x := s.getSite k
  let cal := (List.range 529).find? (fun i =>
    (s.bit (Reg.safCalStat i) 29) && (i / 16 == k && decide (i < 256) || i == 256 + k
      || (decide (272 ≤ i) && decide (i < 528) && (i - 272) / 16 == k) || i == 528))
  (if x.cfgUnverified then [(26, 0)] else []) ++ (if x.unsync then [(23, 0)] else [])
    ++ (if vaults.any (fun v => s.vaultOwner v == k && s.bit (Reg.vltStat v) 25) then [(31, 0)] else [])
    ++ (match x.upset with | some a => [(24, a)] | none => [])
    ++ (match cal with | some i => [(28, i)] | none => [])
    ++ (if 50 ≤ s.debtMs k then [(29, 0)] else [])
    ++ (if (s.getBist k).confirmed != 0 || s.bit (Reg.safFault k) 7 || s.bit (Reg.safFault k) 15 then [(30, 0)] else [])
    ++ (if s.bit Reg.safMarginStat k || s.bit Reg.safMarginStat 16 then [(35, 0)] else [])

/-- What an accepted start does to site `k` (R66, R98, R213, R243, R428, R454): the recording window opens, the sequencer
takes its registers, and cycle 0 issues 32 fc later. -/
def State.startSite (s : State) (k : Nat) : State :=
  let s := ((s.calCutOf (calOf k)).integClear k).modSite k (fun x => { x with window := true })
  let s := (s.startClasses k).foldl (fun s c => s.integ k c.1 noCycle c.2 1) s
  let s := s.modSite k (fun x => { x with upset := none })
  let s := ((s.capClear k).rpaAbort k 3).abortSlice k
  let s := s.admitSite k
  let s := s.setFld (Reg.seqPc k) 0 15 (s.fldAct (Reg.seqCfg k) 16 15)
  let s := s.setFld (Reg.seqSp k) 0 5 0
  let st := fldOf (s.rd (Reg.seqStatus k)) 6 2 * 64 + fldOf (s.rd (Reg.seqStatus k)) 12 4 * 2 ^ 12
    + fldOf (s.rd (Reg.seqStatus k)) 16 4 * 2 ^ 16 + 2 ^ 20 + 3
  let s := s.wr (Reg.seqStatus k) (BitVec.ofNat 32 st)
  let mode := BitVec.ofNat 2 (s.fldAct (Reg.capCfg k) 0 2)
  let s := s.modSite k (fun x =>
    { x with
      cycle := 0, fc0 := s.fc + 32, hUse := s.fld (Reg.seqHorizon k) 0 12, clearPt := 0, wait := .none, stopAt := none, stopBy := 3,
      after := .go, spans := [], fails := [], ifc := [], acc := [], expect := [], cmpBad := false, judged := 0, parkReason := 0,
      capBlock := 0, capMode := mode, exposeAt := [], exposeRegs := [], flushAt := [], fallen := [], fillPtr := 0, early := [],
      inTime := (match x.seekFc with | some f => f + 32 - s.fc | none => 0), seekFc := none })
  let s := (s.setFld (Reg.capStatus k) 20 8 0).setFld (Reg.capStatus k) 18 2 mode.toNat
  (s.showCycle k).followSite k

/-- SEQ_CTL.start (R98): judged in order; `lost` says that a trigger of a higher kind came in the same hc (R35). -/
def State.doStart (s : State) (k : Nat) (lost : Bool) : State :=
  if lost then s.cmdStatus k 7
  else match s.startFails [k] with
    | some i => s.cmdStatus k ([2, 2, 5, 5, 8, 3].getD i 2)
    | none => if s.admits [k] then s.startSite k else (s.cmdStatus k 4).powerRefused

def execSeqStart (req : Requester) (k : SiteIx) (hflag lost : Bool) (s : State) : Res :=
  fin s (s.onWrite req (fun s => (s.storeHflag k hflag).doStart k lost))

/-- SEQ_GSTART (R98, R109): every sequencer of the mask starts on the same fc, or none. DESIGN CHOICE (log entry 77): an empty mask
does nothing and leaves gstatus as it was, and an accepted start also shows 0x1 in each sequencer's own cmd_status. -/
def State.doGstart (s : State) (mask : BitVec 16) (lost : Bool) : State :=
  let l := members mask
  let st (s : State) (c : Nat) : State := s.setFld Reg.seqGstart 28 4 c
  if l.isEmpty then s
  else if lost then st s 6
  else match s.startFails l with
    | some i => st s ([2, 2, 4, 4, 7, 5].getD i 2)
    | none => if s.admits l then s.forAll l (fun s k => s.startSite k) |> fun s => st s 1 else (st s 3).powerRefused

def execSeqGstart (req : Requester) (mask : BitVec 16) (lost : Bool) (s : State) : Res :=
  fin s (s.onWrite req (fun s => s.doGstart mask lost))

/-! ### Host stop, disarm, flags -/

/-- A host stop takes effect behind the last issued cycle, where the fc has come to it: a fault past 0x7FFF or a stop-on-fail of that fc
wins (R101). -/
def State.hostStop (s : State) (k : Nat) : State :=
  let s := s.stopNow k
  let x := s.getSite k
  if !s.seqRuns k then s
  else match x.stopAt with
    | some (e, n) => if e ≤ x.cycle then s.seqStop k x.stopBy n else s.seqStop k 4 (s.lastCycle k)
    | none => s.seqStop k 4 (s.lastCycle k)

/-- A host stop (R100): `last` chooses the last cycle, from the one before the cycle of this fc to 8 fc on, among those that the
instruction in progress issues. -/
def State.doStop (s : State) (k last : Nat) : State :=
  let s := s.dueStop k
  if s.seqRuns k then
    let n := s.nowCyc k
    let s := s.cutTo k (if n ≤ last + 1 ∧ last ≤ n + 8 then last + 1 else n)
    ((s.runTo ((s.getSite k).fc0 + (s.getSite k).cycle)).hostStop k).cmdStatus k 1
  else s.cmdStatus k 2

def execSeqStop (req : Requester) (k : SiteIx) (hflag : Bool) (last : BitVec 48) (s : State) : Res :=
  fin s (s.onWrite req (fun s => (s.storeHflag k hflag).doStop k last.toNat))

/-- SEQ_CTL.disarm (R105): armed to idle; refused in any other state. -/
def State.doDisarm (s : State) (k : Nat) : State :=
  if s.seqState k = 2 then (s.setSeqState k 0).cmdStatus k 1 else s.cmdStatus k 2

def execSeqDisarm (req : Requester) (k : SiteIx) (hflag : Bool) (s : State) : Res :=
  fin s (s.onWrite req (fun s => (s.storeHflag k hflag).doDisarm k))

/-- SEQ_GSTOP (R104): host stop of every running sequencer of the mask on one fc, the one that is now. A sequencer whose instructions
have not come as far stops when they have. DESIGN CHOICE (log entry 106): no sequencer's cmd_status changes. -/
def State.doGstop (s : State) (mask : BitVec 16) : State :=
  s.forAll (members mask) (fun s k =>
    let s := s.dueStop k
    if s.seqRuns k then
      let n := s.nowCyc k
      let s := s.cutTo k n
      if !s.seqRuns k then s
      else if n ≤ (s.getSite k).cycle then s.hostStop k
      else if (s.getSite k).stopAt.any (fun p => decide (p.1 ≤ n)) then s
      else s.modSite k (fun x => { x with stopAt := some (n, n - 1), stopBy := 4 })
    else s)

def execSeqGstop (req : Requester) (mask : BitVec 16) (s : State) : Res := fin s (s.onWrite req (fun s => s.doGstop mask))

/-- Host W1S of SEQ_XFLAGS (R85). -/
def execSeqXflagsSet (req : Requester) (flags : BitVec 16) (s : State) : Res :=
  fin s (s.onWrite req (fun s => s.writeFlags s.fc flags 0))

/-- Host W1C of SEQ_XFLAGS_CLR (R85). -/
def execSeqXflagsClr (req : Requester) (flags : BitVec 16) (s : State) : Res :=
  fin s (s.onWrite req (fun s => s.writeFlags s.fc 0 flags))

/-- A host write of SEQ_X15: while armed it is a seek and the prefetch restarts (R72); it is ignored unless the state is idle
or armed (R104). -/
def State.hostX15 (s : State) (k : Nat) (v : Word) : State :=
  if s.seqState k = 0 then s.wr (Reg.seqX k 15) v
  else if s.seqState k = 2 then
    (s.wr (Reg.seqX k 15) v).modSite k (fun x => { x with seekFc := some s.fc, gen := x.gen + 1 })
  else s

def execSvSeekHost (req : Requester) (k : SiteIx) (value : Word) (s : State) : Res :=
  fin s (s.onWrite req (fun s => s.hostX15 k value))

end Sys2Proof.Machine
end

