-- ==== Sys2Proof/Machine/Link.lean ====
section
/-! DEFINITION. The commands of the pattern link (06): frames sent and received, the events of the lanes, and the writes of
LNK_MEASURE and LNK_INJECT. One definition for each command. -/

namespace Sys2Proof.Machine

/-! ### Frames sent (R182 to R184) -/

/-- The payload of a VECTOR frame: HOLD where a position carries no cycle (R184). -/
def Site.vectorPayload (x : Site) (l : Nat) (cycles : List (Option Nat)) : Nat :=
  packNibbles (cycles.flatMap (fun c => match c with
    | some n => sentSymbols (x.laneSymbols l n)
    | none => [symHold, symHold, symHold, symHold]))

/-- The timing set of a position: 0 where it carries no cycle. -/
def Site.tsetIn (x : Site) (c : Option Nat) : Nat :=
  match c with
  | some n => (match x.spanAt n with | some sp => sp.tset.toNat | none => 0)
  | none => 0

/-- The info of a VECTOR frame: the timing sets of two positions by the lane's place in its quad (R183). -/
def Site.vectorInfo (x : Site) (l : Nat) (cycles : List (Option Nat)) : Nat :=
  let a := l % 4
  x.tsetIn (cycles.getD (2 * a) none) + 16 * x.tsetIn (cycles.getD (2 * a + 1) none)

/-- PTX lane `l` sends frame `f` as a VECTOR frame: the cycles that belong in it have issued, and the formatter has merged their vectors
(R26, R70). -/
def execPtxVectorFrame (l : LaneIx) (f : Nat) (s : State) : Res :=
  fin s (
    let k := l.val / 16
    let t := s.catchUp k
    if t.canSend l f && t.frameKind k f == kindData then
      let cycles := (t.getSite k).frameCycles f
      let s := t.buildFrame l f cycles
      let x := s.getSite k
      s.sendFrame l f kindData (x.vectorPayload l cycles) (x.vectorInfo l cycles) cycles 0
    else s)

/-- PTX lane `l` sends frame `f` as an IDLE frame. -/
def execPtxIdleFrame (l : LaneIx) (f : Nat) (s : State) : Res :=
  fin s (if s.canSend l f && s.frameKind (l.val / 16) f == kindIdle then s.sendFrame l f kindIdle 0 0 [] 0 else s)

/-- PTX lane `l` sends frame `f` as a PARK frame with the site's park reason. -/
def execPtxParkFrame (l : LaneIx) (f : Nat) (s : State) : Res :=
  fin s (if s.canSend l f && s.frameKind (l.val / 16) f == kindPark then
    s.sendFrame l f kindPark 0 (s.parkCode (l.val / 16)).toNat [] 0 else s)

/-- The payload of MARKER number `m` of lane `l` (R182). -/
def markerPayload (l m : Nat) : Nat := l % 256 + 0x5A * 2 ^ 8 + m % 4096 * 2 ^ 16

/-- A measurement of site `k` is in progress and all 16 lanes are locked: MARKERs are sent (R192). -/
def State.measuring (s : State) (k : Nat) : Bool :=
  s.bit Reg.lnkMeasure (16 + k) && (lanesOf k).all (fun l => s.lnkState (prxWin l) == 5)

/-- PTX lane `l` sends frame `f` as a MARKER in place of an IDLE or PARK frame, one in every 16, 256 in all (R192). -/
def execPtxMarkerFrame (l : LaneIx) (f : Nat) (s : State) : Res :=
  fin s (
    let k := l.val / 16
    let x := s.getLane l
    if s.canSend l f && s.frameKind k f != kindData && s.measuring k && decide (x.markSent < 256)
        && (x.markSent == 0 || decide (x.lastMark + 16 ≤ f)) then
      let m := x.markNum
      (s.sendFrame l f kindMarker (markerPayload l m) 0 [] m).modLane l (fun x => { x with
        markNum := (m + 1) % 4096, markSent := x.markSent + 1, lastMark := f })
    else s)

/-! ### Frames received (R185 to R193) -/

/-- A received frame after the descrambler. -/
structure PrxBody where
  data : Nat
  kind : Nat
  tag : Nat
  info : Nat
  crcOk : Bool
  scr : Nat

/-- Descramble a received body in lane `l`, after the lane's polarity. An armed corruption inverts bit 0 of the received CRC (R175, R179,
R197). -/
def State.prxBody (s : State) (l : Nat) (fr : PrxFrame) : PrxBody :=
  let line := (onLine (s.getLane l).rxInvert fr.body).toNat ^^^ (if s.injArmed (prxWin l) then 2 ^ 157 else 0)
  let (bits, scr) := descramble (s.getLane l).rxScr.toNat (bitsOf line 0 158)
  let d := ofBits bits
  { data := d, kind := d / 2 ^ 128 % 4, tag := d / 2 ^ 130 % 16, info := d / 2 ^ 134 % 256
    crcOk := d / 2 ^ 142 == crcField d, scr := scr }

/-- Add the result of lane `l` for one cycle to what is gathered (R207, R208). `acts` are the four actuals. -/
def CycAcc.add (a : CycAcc) (chan : Nat → Option Nat) (l : Nat) (syms acts : List Nat) (bad : Bool) (expBad : Bool)
    (dis : Nat) : CycAcc :=
  let i := l % 16
  let ch (f : Nat → Bool) : BitVec 64 :=
    BitVec.ofNat 64 (((List.range 4).map (fun j => match chan j with
      | some c => if f j then 2 ^ c else 0
      | none => 0)).sum)
  let comp := fun j => (symPass (syms.getD j 0)).isSome
  let fails := fun j => match symPass (syms.getD j 0) with
    | some p => acts.getD j 3 != p
    | none => false
  { lanes := a.lanes ||| BitVec.ofNat 16 (2 ^ i)
    fail := a.fail ||| (if bad then 0 else ch fails)
    unv := a.unv ||| (if bad then ch (fun _ => true) else 0)
    ex := a.ex ||| ch (fun j => syms.getD j 0 == 7)
    comp := a.comp ||| ch comp
    act := a.act ||| BitVec.ofNat 128 (((List.range 4).map (fun j => match chan j with | some c => acts.getD j 3 * 2 ^ (2 * c) | none => 0)).sum)
    expBad := a.expBad || expBad
    disagree := a.disagree ||| ch dis.testBit
    badLane := if bad then some (min l (a.badLane.getD l)) else a.badLane }

/-- The response of cycle `n` on lane `l`; with the sixteenth lane the cycle is judged (R190, R207). -/
def State.respond (s : State) (l n : Nat) (acts : List Nat) (bad expBad : Bool) (dis : Nat) : State :=
  let k := l / 16
  let x := s.getSite k
  let w := Sparse.get (fun _ => (0 : BitVec 16)) x.expect (n % 4096 * 16 + l % 16)
  let syms := (List.range 4).map (fun i => (w.extractLsb' (4 * i) 4).toNat)
  let a := (Sparse.get (fun _ => ({} : CycAcc)) x.acc n).add (x.chan l) l syms acts bad expBad dis
  if a.lanes = BitVec.allOnes 16 then s.deliver k n a
  else s.setSite k { x with acc := Sparse.set (fun _ => {}) x.acc n a }

/-- Every cycle of a frame's positions answers: `acts` gives the actual of position p, symbol s; `expBad` the positions whose
expectation entry cannot be corrected, `dis` the (position, symbol) pairs on which the compare units disagree. -/
def State.answerCycles (s : State) (l : Nat) (cycles : List (Option Nat)) (bad : Bool) (acts : Nat → Nat → Nat)
    (expBad : BitVec 8) (dis : BitVec 32) : State :=
  (List.range 8).foldl (fun s p => match cycles.getD p none with
    | some n => s.respond l n ((List.range 4).map (acts p)) bad (expBad.getLsbD p) (dis.toNat / 2 ^ (4 * p) % 16)
    | none => s) s

/-- A locked lane counts invalid headers, wrong tags and windows, and leaves frame lock under R189. -/
def State.lockCount (s : State) (l : Nat) (hdrBad tagBad : Bool) : State :=
  let x := s.getLane l
  let badRun := if hdrBad then x.badRun + 1 else 0
  let hist := x.hist <<< 1 ||| (if hdrBad then 1 else 0)
  let tagRun := if x.relock then x.tagRun else if tagBad then x.tagRun + 1 else 0
  let s := s.setLane l { x with badRun := badRun, hist := hist, tagRun := tagRun }
  if 4 ≤ badRun ∨ 8 ≤ popCount hist ∨ 4 ≤ tagRun then s.loseLane l 2 3 else s

/-- The number of the frame that an echoed tag names, as the signed distance from frame `f`; none where ±8 leaves it open. -/
def tagOffset (f tag : Nat) : Option Int :=
  let d := (tag + 16 - f % 16) % 16
  if d = 8 then none else if d < 8 then some d else some ((d : Int) - 16)

/-- A DATA frame in an R193 measurement: it is counted, and its round trip taken where its tag resolves. DESIGN CHOICE (log entry 107): of
the round trips that resolve among the 64 frames the largest becomes r, as among the echoes of R192; R193 leaves open which. -/
def State.relockGather (s : State) (l f tag rtt : Nat) (good : Bool) : State :=
  let x := s.getLane l
  let r : Option Nat := match tagOffset f tag with
    | some d => if good then some ((rtt : Int) - d * 8 * s.ui).toNat else none
    | none => none
  let got := x.relockGot + 1
  let hits := x.relockHits + (if r.isSome then 1 else 0)
  let top := max x.rMax (r.getD 0)
  let s := s.setLane l { x with relockGot := got, relockHits := hits, rMax := top }
  if got < 64 then s
  else if hits = 0 then s.loseLane l 2 3
  else s.relockDone l top

/-- MARKER number `m` of lane `l` belongs to the measurement in progress, not to an earlier one (R192). -/
def Lane.freshMark (x : Lane) (m : Nat) : Bool := decide ((x.markNum + 4095 - m) % 4096 < x.markSent)

/-- A MARKER echo (R192): miswired payloads restart the measurement; the 256th echo completes the lane. -/
def State.markerEcho (s : State) (l : Nat) (b : PrxBody) (rtt marker : Nat) : State :=
  if !(s.getLane l).freshMark marker then s
  else if b.data % 2 ^ 16 ≠ l % 256 + 0x5A * 2 ^ 8 then (s.lnkEvt (prxWin l) 9).measureStart (l / 16)
  else if b.data / 2 ^ 16 % 4096 ≠ marker then s
  else
    let s := s.modLane l (fun x => { x with markGot := x.markGot + 1, rMax := max x.rMax rtt })
    s.measureDone (l / 16)

/-- The last good status byte (R185, R201, R202). -/
def State.takeStatus (s : State) (l kind info : Nat) : State :=
  let w := prxWin l
  let s := s.setFld (Reg.lnkStat w) 27 2 kind
  if kind = kindMarker then s
  else
    let s := if info.testBit 0 && !s.bit (Reg.lnkStat w) 25 then s.lnkEvt w 8 else s
    (s.setBit (Reg.lnkStat w) 26 (info.testBit 1)).setBit (Reg.lnkStat w) 25 (info.testBit 0)

/-- What a received frame of lane `l` leaves behind whatever becomes of it: the descrambler has taken its bits (R179), and an armed
corruption is spent (R197). -/
def State.rxTaken (s : State) (l : Nat) (b : PrxBody) : State :=
  let w := prxWin l
  (s.setBit (Reg.lnkInject w) 31 (s.bit (Reg.lnkInject w) 31 && !s.injArmed w)).modLane l (fun x => { x with rxScr := BitVec.ofNat 58 b.scr })

/-- The receiver-offset item of PRX lane `l` is running: what it receives is discarded, while frame lock is held (R468). -/
def State.rxOffset (s : State) (l : Nat) : Bool := s.calRuns (272 + l)

/-- A frame of kind `kind` reaches locked lane `l` at the scheduled point of PTX frame `f` (R190, R191). A frame whose body
carries another kind is another command; one for which no PTX frame waits answers nothing. -/
def State.prxReceive (s : State) (l f kind : Nat) (fr : PrxFrame) (expBad : BitVec 8) (dis : BitVec 32) : State :=
  let w := prxWin l
  let x := s.getLane l
  let b := s.prxBody l fr
  if b.kind ≠ kind then s
  else if s.lnkState w = 3 then s.rxTaken l b
  else if !s.prxLocked l then s
  else match x.sent.find? (fun e => e.frame == f) with
  | none => s.rxTaken l b
  | some e =>
    if s.rxOffset l then (s.rxTaken l b).modLane l (fun x => { x with sent := x.sent.filter (fun p => p.frame != f) })
    else
    let k := l / 16
    let hdr := onLine x.rxInvert fr.hdr
    let hdrValid := hdr == 1 || hdr == 2
    let good := hdrValid && hdr.toNat == headerOf kind && b.crcOk
    let r := s.fld (Reg.lnkRtt l) 0 17
    let scheduled := s.lnkState w == 6 || x.relock
    let wander := scheduled && !(decide (r ≤ fr.rtt + 16) && decide (fr.rtt ≤ r + 8))
    let kindBad := kind != e.kind.toNat
    let tagBad := b.tag != f % 16
    let ptxBad := kind == kindData && b.info.testBit 2
    let late := e.kind == 0 && decide ((s.getSite k).hUse < x.horizon)
    let bad := !good || kindBad || tagBad || wander || ptxBad
    let s := (s.rxTaken l b).modLane l (fun x => { x with sent := x.sent.filter (fun p => p.frame != f) })
    let s := if !good then (s.lnkEvt w 3).satAdd (Reg.lnkCrcCnt l) 0 32 1 else s
    let s := if kindBad then s.lnkEvt w 5 else s
    let s := if tagBad then s.lnkEvt w 4 else s
    let s := if wander then s.lnkEvt w 6 else s
    let s := if ptxBad then s.lnkEvt w 7 else s
    let s := if good then s.takeStatus l kind b.info else s
    let s := s.takeSide l e b.data (b.info / 8 % 4) bad
    let s := if late then s.integ k 5 ((e.cycles.filterMap (fun c => c)).headD 0) 0 else s
    let s := s.answerCycles l e.cycles (bad || late) (fun p i => b.data / 2 ^ (16 * p + 2 * i) % 4) expBad dis
    let s := s.lockCount l (!hdrValid) (tagBad || wander)
    if (s.getLane l).relock && kind == kindData then s.relockGather l f b.tag fr.rtt good
    else if good && kind == kindMarker && e.kind == 3 && s.lnkState w == 5 then s.markerEcho l b fr.rtt e.marker
    else s

/-- A DATA frame (R185, R191, R207, R208). -/
def execPrxDataFrame (l : LaneIx) (f : Nat) (fr : PrxFrame) (expBad : BitVec 8) (dis : BitVec 32) (s : State) : Res :=
  fin s (s.prxReceive l f kindData fr expBad dis)

/-- An IDLE frame (R185, R191). -/
def execPrxIdleFrame (l : LaneIx) (f : Nat) (fr : PrxFrame) (s : State) : Res := fin s (s.prxReceive l f kindIdle fr 0 0)

/-- A PARKED frame (R185, R191). -/
def execPrxParkedFrame (l : LaneIx) (f : Nat) (fr : PrxFrame) (s : State) : Res :=
  fin s (s.prxReceive l f kindPark fr 0 0)

/-- A MARKER echo (R192). -/
def execPrxMarkerFrame (l : LaneIx) (f : Nat) (fr : PrxFrame) (s : State) : Res :=
  fin s (s.prxReceive l f kindMarker fr 0 0)

/-- The scheduled point of the answer to frame `f` passes with no frame (R191): the loss bit where the lane is not locked, else
wander; the frame's cycles are UNVERIFIED. Under its receiver-offset item a locked lane misses nothing (R468). -/
def execMissingAnswerFrame (l : LaneIx) (f : Nat) (s : State) : Res :=
  fin s (
    let x := s.getLane l
    match x.sent.find? (fun e => e.frame == f) with
    | none => s
    | some e =>
      let locked := s.prxLocked l
      let s := s.setLane l { x with sent := x.sent.filter (fun p => p.frame != f) }
      if locked && s.rxOffset l then s
      else
      let s := s.lnkEvt (prxWin l) (if locked then 6 else x.loss)
      let s := s.takeSide l e 0 0 true
      let s := s.answerCycles l e.cycles true (fun _ _ => 3) 0 0
      if locked then s.lockCount l false true else s)

/-! ### Events of the lanes (R188, R189, R192) -/

/-- Loss of signal (R189). -/
def execLos (l : LaneIx) (s : State) : Res :=
  fin s (let c := s.lnkState (prxWin l); if c = 2 ∨ c = 3 ∨ s.prxLocked l then s.loseLane l 0 1 else s)

/-- The signal is back (R188): LOS clears, and the CDR acquires. -/
def execLosDeasserted (l : LaneIx) (s : State) : Res :=
  fin s (if s.lnkState (prxWin l) = 1 ∧ s.busUp then s.setLnkState (prxWin l) 2 else s)

/-- The CDR locks (R188). -/
def execCdrLock (l : LaneIx) (s : State) : Res :=
  fin s (if s.lnkState (prxWin l) = 2 then s.setLnkState (prxWin l) 3 else s)

/-- The CDR loses lock (R189). -/
def execCdrLossOfLock (l : LaneIx) (s : State) : Res :=
  fin s (if s.lnkState (prxWin l) = 3 ∨ s.prxLocked l then s.loseLane l 1 2 else s)

/-- 64 consecutive valid headers (R188): frame lock. The site's horizon is measured again, by MARKERs or, while the site runs,
from its DATA frames (R192, R193). -/
def execFrameLock (l : LaneIx) (s : State) : Res :=
  fin s (
    if s.lnkState (prxWin l) = 3 then
      let s := s.setLnkState (prxWin l) 4
      if s.seqRuns (l.val / 16) then
        s.modLane l (fun x => { x with relock := true, relockGot := 0, relockHits := 0, rMax := 0 })
      else s.measureStart (l.val / 16)
    else s)

/-- An echo is missing (R192): the event, and the measurement restarts. -/
def execEchoMissing (l : LaneIx) (s : State) : Res :=
  fin s (
    let x := s.getLane l
    if s.measuring (l.val / 16) && decide (x.markGot < x.markSent) then
      (s.lnkEvt (prxWin l) 10).measureStart (l.val / 16)
    else s)

/-- A write of LNK_MEASURE (R205): each go bit of a site that neither runs nor measures. -/
def State.doMeasureGo (s : State) (mask : BitVec 16) : State :=
  s.forAll (members mask) (fun s k => if s.bit Reg.lnkMeasure (16 + k) then s else s.measureStart k)

def execLnkMeasureGo (req : Requester) (mask : BitVec 16) (s : State) : Res :=
  fin s (s.onWrite req (fun s => s.doMeasureGo mask))

/-! ### PRBS and injection (R196, R197, R204) -/

/-- A stretch of the stream that a PRX lane in PRBS mode receives, at whose end the checker is in sync (R196). -/
def execPrbsSync (r : PrbsBits) (s : State) : Res :=
  fin s (
    let t := s.prbsFeed r.lane r.bits
    if s.lnkState (prxWin r.lane) = 7 ∧ t.bit (Reg.lnkStat (prxWin r.lane)) 24 then t else s)

/-- A stretch of that stream at whose end the checker is not in sync: 16 errors among 1,024 bits have dropped it, or it has not seen 128
error-free bits yet (R196). -/
def execPrbsSyncLost (l : LaneIx) (bits : List Bool) (s : State) : Res :=
  fin s (
    let t := s.prbsFeed l bits
    if s.lnkState (prxWin l) = 7 ∧ !t.bit (Reg.lnkStat (prxWin l)) 24 then t else s)

/-- Store the kind and rate of an accepted LNK_INJECT write. -/
def State.storeInject (s : State) (w kind : Nat) (rate : BitVec 4) : State :=
  (s.setFld (Reg.lnkInject w) 28 2 kind).setFld (Reg.lnkInject w) 24 4 rate.toNat

/-- LNK_INJECT with go = 1 in window `w` (R204). An ignored write stores nothing. -/
def State.doInject (s : State) (w kind : Nat) (rate : BitVec 4) : State :=
  let pending := s.bit (Reg.lnkInject w) 31
  let l := w % 256
  match kind with
  | 3 =>
    if !pending then s
    else
      ((s.storeInject w 3 rate).setBit (Reg.lnkInject w) 31 false).modLane l (fun x =>
        if w < 256 then { x with flipTx := none } else { x with flipRx := none })
  | 2 => if pending || s.prbsMode w then s else (s.storeInject w 2 rate).setBit (Reg.lnkInject w) 31 true
  | 1 =>
    if pending || !s.prbsMode w then s
    else ((s.storeInject w 1 rate).setBit (Reg.lnkInject w) 31 true).modLane l (fun x =>
      if w < 256 then { x with flipTx := some s.fc } else { x with flipRx := some 0 })
  | _ =>
    if pending || !s.prbsMode w then s
    else (s.storeInject w 0 rate).modLane l (fun x =>
      if w < 256 then { x with flipOnce := s.fc :: x.flipOnce } else { x with flipNext := true })

def execInjectFlipBit (req : Requester) (w : Fin 512) (rate : BitVec 4) (s : State) : Res :=
  fin s (s.onWrite req (fun s => s.doInject w 0 rate))

def execInjectFlipRepeat (req : Requester) (w : Fin 512) (rate : BitVec 4) (s : State) : Res :=
  fin s (s.onWrite req (fun s => s.doInject w 1 rate))

def execInjectCorruptCrc (req : Requester) (w : Fin 512) (rate : BitVec 4) (s : State) : Res :=
  fin s (s.onWrite req (fun s => s.doInject w 2 rate))

def execInjectCancel (req : Requester) (w : Fin 512) (rate : BitVec 4) (s : State) : Res :=
  fin s (s.onWrite req (fun s => s.doInject w 3 rate))

/-- A prefetched row of the stream reaches the formatter, or is found never to arrive (R72, R277), unless its vault makes requests wait
(R289, R299). -/
def execSvRowArrive (k : SiteIx) (row : Nat) (s : State) : Res :=
  fin s (if s.seqState k = 0 ∨ s.seqState k = 5 ∨ s.waitRank (s.svVault k row) = 0 then s else (s.checkDue k).svArrive k row)

end Sys2Proof.Machine
end

