-- ==== Sys2Proof/Machine/Memory.lean ====
section
/-! DEFINITION. The commands of the vaults (09): refresh, scrub, row operations, the service buffer, maintenance commands and
the fuse burn. One definition for each command. -/

namespace Sys2Proof.Machine

/-- A refresh of one row of one bank (R281). -/
def execRefresh (v : VaultIx) (_bank : Fin 128) (s : State) : Res :=
  fin s (if s.vltState v = 2 ∨ s.vltState v = 1 then
    s.modVault v (fun x => { x with refreshed := x.refreshed + 1 })
  else s)

/-- Scrub row `r` corrected: a row corrected in two consecutive laps is soft-repaired; up to 64 are remembered (R283). -/
def State.scrubFixed (s : State) (v r : Nat) : State :=
  let s := if (s.getVault v).fixedLast.contains r then s.autoSrep v r else s
  s.modVault v (fun x => if x.fixedNow.length < 64 then { x with fixedNow := x.fixedNow ++ [r] } else x)

/-- The scrub activates its next row, and corrects, poisons or logs it (R279), where no request of another rank waits (R268). -/
def execScrubRow (v : VaultIx) (s : State) : Res :=
  fin s (if s.vltState v = 2 && s.bit Reg.vltCfg 0 && s.waitRank v == 5 then
    let r := s.fld (Reg.vltScrub v) 0 22
    let a := (s.svcSync v r).activate v r srcScrub
    (if a.corrected then a.st.scrubFixed v r else a.st).scrubNext v
  else s)

/-- The lap in progress exceeds lap_limit seconds (R280). -/
def execScrubLapAlarm (v : VaultIx) (s : State) : Res :=
  fin s (
    let limit := s.fld Reg.vltCfg 16 16
    if s.vltState v = 2 ∧ limit ≠ 0 ∧ !s.bit (Reg.vltStat v) 25
        ∧ limit * 1600000000 < s.lapTime v then
      (((s.setBit (Reg.vltEvt v) 3 true).setBit (Reg.vltStat v) 25 true).safEvent 0x04 (v.val * 2 ^ 16)).integ
        (s.vaultOwner v) 31 noCycle 0
    else s)

/-- Row `r` is activated into the row register for a request of source `src` (R267, R269, R275, R276, R293). Only the
configuration controller, source 4, reaches a reserved row. It waits for the requests of a lower rank number (R268). -/
def execRowActivate (v : VaultIx) (r : BitVec 22) (src : BitVec 3) (s : State) : Res :=
  fin s (if s.waitRank v < srcRank src.toNat then s
    else
      let ok := (s.rowRefused v r.toNat).isNone || (src == 4 && s.rowRefused v r.toNat == some 7)
      let t := (s.readRow v r.toNat src.toNat (src == 4)).1
      if ok then t.modVault v (fun x => { x with rowReg := { x.rowReg with busy := true } }) else t)

/-- The row operation that has activated its row writes it back from the row register with its codes (R269, R274, R278). Another operation of
the vault that has come between has ended it. A poisoned golden row stays as it is. -/
def execRowWriteBack (v : VaultIx) (s : State) : Res :=
  fin s (
    let b := (s.getVault v).rowReg
    if s.vltState v = 2 ∧ b.data.length = 2048 ∧ b.busy then
      if (s.getVault v).goldenBad.contains b.row then s.rowEnds v
      else ((s.svcSync v b.row).svcDrop v b.row).writeRow v b.row b.data b.poisoned
    else s)

/-- The service buffer has been idle for 64 vc: it is written back (R271), after the requests of ranks 2 and 3 (R268). -/
def execServiceBufferIdleWriteBack (v : VaultIx) (s : State) : Res :=
  fin s (if s.vltState v = 2 ∧ 4 ≤ s.waitRank v then s.svcFlush v else s)

/-- A vault leaves self-refresh (R289): not in STANDBY, its entry or RESET, not while the clocks stand, not in a disabled tile. -/
def execSelfRefreshExit (v : VaultIx) (s : State) : Res :=
  fin s (if s.busUp && s.mode != modeSTANDBY && s.aon.target != some modeSTANDBY && s.vltState v == 3 && s.tileEnabled (v / 16) then s.vaultWake v else s)

/-! ### Maintenance commands (R285, R294) -/

/-- Why a maintenance command is refused, as the status of VLT_MNT_CMD. -/
def State.mntRefused (s : State) (v cmd row word : Nat) : Option Nat :=
  let a := Reg.vltMntCmd v
  if s.bit a 31 then some 2
  else if s.vltState v ≠ 2 ∨ !s.tileEnabled (v / 16) then some 5
  else if cmd = 5 then none
  else if (cmd ≠ 4 ∧ Dram.reserved v row) ∨ ((cmd = 1 ∨ cmd = 2) ∧ 323 < word) ∨ (cmd = 4 ∧ 255 < word) then some 3
  else if cmd = 3 ∧ ((s.freeEntry v).isNone ∨ (s.freeSpareRow v (row % 128)).isNone) then some 4
  else if cmd = 4 ∧ ((s.freeEntry v).isNone ∨ (s.freeSpareCol v (row % 128)).isNone) then some 4
  else none

/-- The VLT_EVT bit of a maintenance command that is refused for its row: a failed vault, a disabled tile, a reserved row (R267). -/
def State.mntEvent (s : State) (v cmd row c : Nat) : Option Nat :=
  if c = 5 then (match s.rowRefused v row with
    | some 8 => some 8
    | some 9 => some 9
    | _ => none)
  else if c = 3 ∧ cmd ≠ 4 ∧ Dram.reserved v row then some 7
  else none

/-- A write of VLT_MNT_CMD: the command is accepted and its job held until it is done. RAW_WRITE is protected. -/
def State.mntCmd (s : State) (req : Requester) (v cmd : Nat) (keyed : Bool) : State :=
  if cmd = 0 ∨ 5 < cmd then s
  else if cmd = 2 && !keyed then s.keyRefused req.toNat (Reg.vltMntCmd v)
  else
    let row := s.fld (Reg.vltMntAddr v) 0 22
    let word := s.fld (Reg.vltMntAddr v) 22 9
    match s.mntRefused v cmd row word with
    | some c =>
      let s := match s.mntEvent v cmd row c with
        | some b => s.setBit (Reg.vltEvt v) b true
        | none => s
      s.setFld (Reg.vltMntCmd v) 28 3 c
    | none => (s.setBit (Reg.vltMntCmd v) 31 true).modVault v (fun x =>
        { x with mnt := some { cmd := BitVec.ofNat 4 cmd, row := row, word := word } })

def execRawRead (req : Requester) (v : VaultIx) (s : State) : Res :=
  fin s (s.onBlock req (Reg.vltMntCmd v) (fun k s => s.mntCmd req v 1 k))
def execRawWrite (req : Requester) (v : VaultIx) (s : State) : Res :=
  fin s (s.onBlock req (Reg.vltMntCmd v) (fun k s => s.mntCmd req v 2 k))
def execSrepRow (req : Requester) (v : VaultIx) (s : State) : Res :=
  fin s (s.onBlock req (Reg.vltMntCmd v) (fun k s => s.mntCmd req v 3 k))
def execSrepCol (req : Requester) (v : VaultIx) (s : State) : Res :=
  fin s (s.onBlock req (Reg.vltMntCmd v) (fun k s => s.mntCmd req v 4 k))
def execSrepFree (req : Requester) (v : VaultIx) (s : State) : Res :=
  fin s (s.onBlock req (Reg.vltMntCmd v) (fun k s => s.mntCmd req v 5 k))

/-- A maintenance command completes (R294), after the requests of ranks 2 and 3 (R268). -/
def execMntDone (v : VaultIx) (s : State) : Res :=
  fin s (if s.vltState v = 2 ∧ 4 ≤ s.waitRank v then s.mntFinish v else s)

/-! ### Fuse burn (R284, R298) -/

/-- A write of VLT_FUSE_CMD. -/
def State.fuseCmd (s : State) (req : Requester) (v : Nat) (go keyed : Bool) : State :=
  let a := Reg.vltFuseCmd
  let st (s : State) (c : Nat) : State := s.setFld a 28 3 c
  if !keyed then s.keyRefused req.toNat a
  else
    let s := s.setFld a 0 8 v
    if !go then s
    else if s.bit a 31 then st s 3
    else if s.fld Reg.pmuVin 0 16 < 3000 then st s 2
    else if s.seqRuns (s.vaultOwner v) || s.burn.isSome then st s 3
    else if (s.softEntries v).isEmpty then st s 4
    else (s.setBit a 31 true).modVault v (fun x => { x with burn := some ((s.softEntries v).map Prod.fst) })

def execVltFuseBurn (req : Requester) (v : VaultIx) (s : State) : Res :=
  fin s (s.onBlock req Reg.vltFuseCmd (fun keyed s => s.fuseCmd req v true keyed))

/-- The vault whose soft entries are being burnt, and the entries that still are. -/
def State.burning (s : State) : Option (Nat × List Nat) :=
  (vaults.find? (fun v => (s.getVault v).burn.isSome)).bind (fun v => (s.getVault v).burn.map (fun l => (v, l)))

/-- Of the entries that the burn still has to turn into fuses, those of `verified` are fuses now, ahead of older fuses of the same row or
group, and free (R284). -/
def State.fuseEntries (s : State) (v : Nat) (left : List Nat) (verified : BitVec 256) : State :=
  let done := (s.softEntries v).filter (fun p => verified.getLsbD p.1 && left.contains p.1)
  let s := s.modVault v (fun x => { x with
    fuses := done.map Prod.snd ++ x.fuses, burn := some (left.filter (fun i => !verified.getLsbD i)) })
  (s.forAll (done.map Prod.fst) (fun s i => s.wr (Reg.vltSrep v i) 0)).mirrorSrep v

/-- The burn reports the fuses that have verified since its last report; with `last` it ends, early where VIN fell (R284, R298). Done is a
burn that leaves none of its entries soft. -/
def execVltFuseDone (verified : BitVec 256) (e : FuseEnd) (s : State) : Res :=
  fin s (
    let a := Reg.vltFuseCmd
    match s.burning with
    | none => s
    | some (v, left) =>
      let s := s.fuseEntries v left verified
      if e = .more then s
      else
        let soft := (s.softEntries v).any (fun p => left.contains p.1)
        let s := s.modVault v (fun x => { x with burn := none })
        (s.setBit a 31 false).setFld a 28 3 (if !soft && e != .vinFell then 1 else 5))

end Sys2Proof.Machine
end

