-- ==== Sys2Proof/Machine/Thermal.lean ====
section
/-! DEFINITION. The commands of the sensors and of the thermal model (14), and the end of doubled refresh (R281). -/

namespace Sys2Proof.Machine

/-- The sensors of a layer are sampled: reading and conversion fault of each; one with a fault goes out of service (R436). -/
def execSensorSample (l : Fin 20) (readings : List (BitVec 12 × Bool)) (s : State) : Res :=
  fin s (if s.aon.up then
    let s := ((readings.take 16).zipIdx.foldl (fun s (q : (BitVec 12 × Bool) × Nat) =>
      (s.setFld (Reg.thmSensor l q.2) 0 12 q.1.1.toNat).setBit (Reg.thmSensor l q.2) 13 q.1.2) s).showSensors l
    s.forAll ((List.range 16).filter (fun i => s.inService l i && s.bit (Reg.thmSensor l i) 13)) (fun s i => s.sensorOut l i)
  else s)

/-- A sensor has disagreed with its median for 10 ms, and does so now, or reports a fault (R436). -/
def execSensorOutOfService (l : Fin 20) (i : Fin 16) (s : State) : Res :=
  fin s (if s.aon.up && s.inService l i && s.sensorBad l i then s.sensorOut l i else s)

/-- A sensor has agreed with its median for 100 ms, and does so now (R436). -/
def execSensorReturn (l : Fin 20) (i : Fin 16) (s : State) : Res :=
  fin s (if s.aon.up && !s.inService l i && s.sensorGood l i then
    (s.setBit (Reg.thmSensor l i) 12 true).showSensors l
  else s)

def execThermalModelUpdate (rows cells : List Nat) (s : State) : Res :=
  fin s (if s.aon.up then s.modelUpdate (rows ++ cells) else s)

/-- The sensors of a layer have read more than 8 K below the model for 10 ms, and do so now (R439). -/
def execLayerSuspect (l : Fin 20) (s : State) : Res := fin s (if s.aon.up && decide (s.offModel l < -64) then s.markSuspect l else s)

/-- The sensors of a layer have read more than 8 K above the model for 10 ms, and do so now (R439). -/
def execModelLow (l : Fin 20) (s : State) : Res := fin s (if s.aon.up && decide (64 < s.offModel l) then s.setBit Reg.thmEvt 3 true else s)

/-- A write of THM_SUSPECT_CLR allows the marks of the layers to clear (R439). -/
def State.suspectClr (s : State) (mask : Nat) : State :=
  s.forAll (layers.filter mask.testBit) (fun s l =>
    if s.suspect l then s.setTherm l { s.getTherm l with mayClear := true } else s)

def execThmSuspectClr (req : Requester) (mask : BitVec 20) (s : State) : Res :=
  fin s (s.onWrite req (fun s => s.suspectClr mask.toNat))

/-- After the host's write the sensors have agreed with the model within 4 K for 10 ms, and do so now, with at least 8 in service (R439). -/
def execSuspectCleared (l : Fin 20) (s : State) : Res :=
  fin s (if s.suspect l && (s.getTherm l).mayClear && decide (8 ≤ s.fld (Reg.thmLayer l) 24 5)
      && decide (-32 ≤ s.offModel l) && decide (s.offModel l ≤ 32) then
    ((s.setBit Reg.thmSuspect l false).setBit (Reg.thmLayer l) 29 false).setTherm l { s.getTherm l with mayClear := false }
  else s)

/-- The acted-on temperature of layer M`m` has been 82 °C or lower for 100 ms (R281). -/
def execRefreshRateRestore (m : Fin 16) (s : State) : Res :=
  fin s (if s.acted (m + 1) ≤ 656 then s.setBit Reg.vltRefresh m false else s)

end Sys2Proof.Machine
end

