-- ==== Sys2Proof/Machine/Wfe.lean ====
section
/-! DEFINITION. The commands of the waveform engines (11): one definition for each instruction, and for each command and event of
an engine, its memories and its stream. -/

namespace Sys2Proof.Machine

/-! ### Instructions (R336 to R342) -/

/-- NOP; also an illegal word of no listed code. -/
def execWfeNop (k : SiteIx) (w : Word) (o : WfeObs) (s : State) : Res := fin s (s.wfeExec k w o 0 (fun s => s.wfeNext k))

def execCmac (k : SiteIx) (w : Word) (o : WfeObs) (s : State) : Res :=
  fin s (s.wfeExec k w o (8 * 0x01) (fun s =>
    let (s, xv, yv) := s.wfeOperands k w o
    (s.wfeMac k w xv yv).wfeNext k))

/-- The accumulator is replaced by the product. -/
def execCmul (k : SiteIx) (w : Word) (o : WfeObs) (s : State) : Res :=
  fin s (s.wfeExec k w o (8 * 0x02) (fun s =>
    let (s, xv, yv) := s.wfeOperands k w o
    let (re, im) := cmulParts xv yv (w.getLsbD 8)
    let s := s.modWfe k (fun x => x.setAcc (wA w) ((Acc.add {} re im).1))
    ((s.movePtr k (wPx w) (wXm w)).movePtr k (wPy w) (wYm w)).wfeNext k))

/-- CMAC, and the sample moves one place on. -/
def execFtm (k : SiteIx) (w : Word) (o : WfeObs) (s : State) : Res :=
  fin s (s.wfeExec k w o (8 * 0x03) (fun s =>
    let (s, xv, yv) := s.wfeOperands k w o
    let q := (s.wfePtr k (wPx w)).plus wfeXSize 1
    ((s.putX k q xv).wfeMac k w xv yv).wfeNext k))

def execClra (k : SiteIx) (w : Word) (o : WfeObs) (s : State) : Res :=
  fin s (s.wfeExec k w o (8 * 0x04) (fun s => (s.modWfe k (fun x => x.setAcc (wA w) {})).wfeNext k))

def execSta (k : SiteIx) (w : Word) (o : WfeObs) (s : State) : Res :=
  fin s (s.wfeExec k w o (8 * 0x05) (fun s =>
    let a := (s.getWfe k).acc (wA w)
    let re := staHalf a.re (fldOf w 0 4)
    let im := staHalf a.im (fldOf w 0 4)
    let s := s.putX k (s.wfePtr k (wPx w)).p (complexWord re.1 im.1)
    let s := if re.2 || im.2 then s.setBit (Reg.wfeStatus k) 7 true else s
    (s.movePtr k (wPx w) (wXm w)).wfeNext k))

def execWfeLdx (k : SiteIx) (w : Word) (o : WfeObs) (s : State) : Res :=
  fin s (s.wfeExec k w o (8 * 0x06) (fun s =>
    let v := delivered o.x o.flipX (wfeGet (s.getWfe k).x (s.wfePtr k (wPx w)).p)
    ((s.wfeCheck k o.x).movePtr k (wPx w) (wXm w)).wfeWriteD k (wD w) v))

def execStx (k : SiteIx) (w : Word) (o : WfeObs) (s : State) : Res :=
  fin s (s.wfeExec k w o (8 * 0x07) (fun s =>
    ((s.putX k (s.wfePtr k (wPx w)).p ((s.getWfe k).dreg (wS w))).movePtr k (wPx w) (wXm w)).wfeNext k))

def execLdy (k : SiteIx) (w : Word) (o : WfeObs) (s : State) : Res :=
  fin s (s.wfeExec k w o (8 * 0x08) (fun s =>
    let v := delivered o.y o.flipY (wfeGet (s.getWfe k).y (s.wfePtr k (wPy w)).p)
    ((s.wfeCheck k o.y).movePtr k (wPy w) (wYm w)).wfeWriteD k (wD w) v))

def execWfeAdd (k : SiteIx) (w : Word) (o : WfeObs) (s : State) : Res := fin s (s.wfeAlu k w o (8 * 0x09) (fun d v => d + v))
def execWfeSub (k : SiteIx) (w : Word) (o : WfeObs) (s : State) : Res := fin s (s.wfeAlu k w o (8 * 0x09 + 1) (fun d v => d - v))
def execWfeAnd (k : SiteIx) (w : Word) (o : WfeObs) (s : State) : Res := fin s (s.wfeAlu k w o (8 * 0x09 + 2) (fun d v => d &&& v))
def execWfeOr (k : SiteIx) (w : Word) (o : WfeObs) (s : State) : Res := fin s (s.wfeAlu k w o (8 * 0x09 + 3) (fun d v => d ||| v))
def execWfeXor (k : SiteIx) (w : Word) (o : WfeObs) (s : State) : Res := fin s (s.wfeAlu k w o (8 * 0x09 + 4) (fun d v => d ^^^ v))

def execCadd (k : SiteIx) (w : Word) (o : WfeObs) (s : State) : Res :=
  fin s (s.wfeAlu k w o (8 * 0x09 + 5) (satHalves (fun a b => a + b)))

def execCsub (k : SiteIx) (w : Word) (o : WfeObs) (s : State) : Res :=
  fin s (s.wfeAlu k w o (8 * 0x09 + 6) (satHalves (fun a b => a - b)))

def execWfeShl (k : SiteIx) (w : Word) (o : WfeObs) (s : State) : Res :=
  fin s (s.wfeAlu k w o (8 * 0x0A) (fun _ v => v <<< fldOf w 0 5))

def execWfeShr (k : SiteIx) (w : Word) (o : WfeObs) (s : State) : Res :=
  fin s (s.wfeAlu k w o (8 * 0x0A + 1) (fun _ v => v >>> fldOf w 0 5))

def execWfeSar (k : SiteIx) (w : Word) (o : WfeObs) (s : State) : Res :=
  fin s (s.wfeAlu k w o (8 * 0x0A + 2) (fun _ v => v.sshiftRight (fldOf w 0 5)))

/-- A histogram bin counts, up to its top; with sub[0] only a record that holds an edge. -/
def execHist (k : SiteIx) (w : Word) (o : WfeObs) (s : State) : Res :=
  fin s (s.wfeExec k w o (8 * 0x0B) (fun s =>
    let v := (s.getWfe k).dreg (wS w)
    if w.getLsbD 8 && !v.getLsbD 31 then s.wfeNext k
    else
      let q := s.wfePtr k (wPx w)
      let a := q.base + (v.toNat / 2 ^ fldOf w 0 5) % q.len
      let b := delivered o.x o.flipX (wfeGet (s.getWfe k).x a)
      ((s.wfeCheck k o.x).putX k a (if b = BitVec.allOnes 32 then b else b + 1)).wfeNext k))

def execLdi (k : SiteIx) (w : Word) (o : WfeObs) (s : State) : Res :=
  fin s (s.wfeExec k w o (8 * 0x20) (fun s =>
    let n := wAux w 7 3
    let d := (s.getWfe k).dreg n
    let imm := w.extractLsb' 0 16
    s.wfeWriteD k n (if w.getLsbD 16 then imm ++ d.extractLsb' 0 16 else imm.signExtend 32)))

def execSetp (k : SiteIx) (w : Word) (o : WfeObs) (s : State) : Res :=
  fin s (s.wfeExec k w o (8 * 0x21) (fun s =>
    let i := setpPtr w
    let v := (s.getWfe k).dreg (wAux w 2 3)
    (s.setPtr k i (fun q => q.setItem i (wAux w 5 2) v)).wfeNext k))

def execWfeJmp (k : SiteIx) (w : Word) (o : WfeObs) (s : State) : Res :=
  fin s (s.wfeExec k w o (8 * 0x22) (fun s => s.wfeJump k w true))

def execJz (k : SiteIx) (w : Word) (o : WfeObs) (s : State) : Res :=
  fin s (s.wfeExec k w o (8 * 0x23) (fun s => s.wfeJump k w (xor ((s.getWfe k).dreg (wAux w 7 3) == 0) (w.getLsbD 16))))

def execJb (k : SiteIx) (w : Word) (o : WfeObs) (s : State) : Res :=
  fin s (s.wfeExec k w o (8 * 0x24) (fun s =>
    s.wfeJump k w (((s.getWfe k).dreg (wAux w 7 3)).getLsbD (wAux w 2 5) == w.getLsbD 16)))

/-- REP: the following aux[4:0] + 1 instructions run imm16 times, or d[15:0] times where imm16 is 0; no times skips them. -/
def execRep (k : SiteIx) (w : Word) (o : WfeObs) (s : State) : Res :=
  fin s (s.wfeExec k w o (8 * 0x25) (fun s =>
    let n := if wImm w = 0 then fldOf ((s.getWfe k).dreg (wAux w 7 3)) 0 16 else wImm w
    let len := wAux w 0 5 + 1
    let pc := s.wfePc k + 1
    if n = 0 then s.wfeGoTo k (pc + len)
    else (s.modWfe k (fun x => { x with rep := some { first := pc, len := len, left := n } })).wfeGoTo k pc))

/-- WAITS completes at once where enough words are there (R348). -/
def execWaits (k : SiteIx) (w : Word) (o : WfeObs) (s : State) : Res :=
  fin s (s.wfeExec k w o (8 * 0x26) (fun s =>
    let len := s.fldAct (Reg.wfeStrRing k) 16 16
    if len < wImm w + 1 then s.wfeFault k 4
    else if wImm w ≤ s.strAvail k then s.wfeNext k
    else (s.modWfe k (fun x => { x with wait := .words (wImm w) })).setWfeState k 2))

/-- XFER; it waits while an earlier transfer runs. -/
def execXfer (k : SiteIx) (w : Word) (o : WfeObs) (s : State) : Res :=
  fin s (s.wfeExec k w o (8 * 0x27) (fun s =>
    if (s.getWfe k).job.isSome then (s.modWfe k (fun x => { x with wait := .xfer })).setWfeState k 3
    else s.wfeStartXfer k w o))

def execWaitx (k : SiteIx) (w : Word) (o : WfeObs) (s : State) : Res :=
  fin s (s.wfeExec k w o (8 * 0x28) (fun s =>
    if (s.getWfe k).job.isSome then (s.modWfe k (fun x => { x with wait := .transfer })).setWfeState k 3
    else s.wfeNext k))

def execWfeIrqInstr (k : SiteIx) (w : Word) (o : WfeObs) (s : State) : Res :=
  fin s (s.wfeExec k w o (8 * 0x29) (fun s => (s.pushQ (Reg.wfeIrq k) 16 (BitVec.ofNat 32 (fldOf w 0 8))).wfeNext k))

/-- HALT: stop after this instruction. -/
def execWfeHaltInstr (k : SiteIx) (w : Word) (o : WfeObs) (s : State) : Res :=
  fin s (s.wfeExec k w o (8 * 0x2A) (fun s =>
    (s.setFld (Reg.wfePc k) 0 14 (s.wfePc k + 1)).setWfeState k 0))

/-! ### Ends of waits and transfers -/

/-- Enough stream words are there (R348). -/
def execWaitsComplete (k : SiteIx) (s : State) : Res :=
  fin s (match (s.getWfe k).wait with
    | .words n => if n ≤ s.strAvail k ∧ s.wclkOn k then (s.wfeResume k).wfeNext k else s
    | _ => s)

/-- No transfer runs any more. -/
def execWaitxComplete (k : SiteIx) (s : State) : Res :=
  fin s (if (s.getWfe k).wait = .transfer ∧ (s.getWfe k).job.isNone ∧ s.wclkOn k then (s.wfeResume k).wfeNext k else s)

/-- The transfer in progress ends: its words have moved, or it met a row that stops it (R342 code 6, R349). An XFER that waited
for it starts. -/
def execTransferDone (k : SiteIx) (o : WfeObs) (s : State) : Res :=
  fin s (match (s.getWfe k).job with
    | none => s
    | some j =>
      if s.accessWaits (16 + k) j.addr (4 * j.words) || !s.reaches (BitVec.ofNat 5 (16 + k)) then s else
      let (s, bad) := s.wfeMove k j o
      let s := (s.modWfe k (fun x => { x with job := none })).setBit (Reg.wfeStatus k) 3 false
      if bad then s.wfeFault k 6
      else if (s.getWfe k).wait = .xfer then
        (s.wfeResume k).wfeStartXfer k (wfeGet (s.getWfe k).p (s.wfePc k)) o
      else s)

/-! ### Commands of the host (R351 to R354) -/

def execWfeStart (req : Requester) (k : SiteIx) (s : State) : Res := fin s (s.onWrite req (fun s => s.wfeCtl k 1))
def execWfeHaltCmd (req : Requester) (k : SiteIx) (s : State) : Res := fin s (s.onWrite req (fun s => s.wfeCtl k 2))
def execWfeClrFault (req : Requester) (k : SiteIx) (s : State) : Res := fin s (s.onWrite req (fun s => s.wfeCtl k 4))

/-- An access of WFE_MEM_DATA: a write of a value, or an ordinary read with what the check of the word reports. -/
def execWfeMemAccess (req : Requester) (k : SiteIx) (wr : Option Word) (e : Ecc) (flip : Word) (s : State) : Res :=
  fin s (match wr with
    | some v => s.onWrite req (fun s => s.wfeMemWrite k v)
    | none =>
      if s.reaches req then
        let (t, v) := (s.readTxn req).wfeMemRead k e flip
        { t with cpl := { status := .ok, value := v } }
      else s)

def execStreamGo (req : Requester) (k : SiteIx) (s : State) : Res := fin s (s.onWrite req (fun s => s.strCtl k true false))
def execStreamStop (req : Requester) (k : SiteIx) (s : State) : Res := fin s (s.onWrite req (fun s => s.strCtl k false true))

/-- The stream port writes the words of the next frame (R344). -/
def execStreamWord (k : SiteIx) (s : State) : Res := fin s (s.streamWord k)

end Sys2Proof.Machine
end

