-- ==== Sys2Proof/Machine/Bus.lean ====
section
/-! DEFINITION. Register accesses of BAR0 (R6 to R11, R16, R359 to R362): what a read of an address returns and does, and what a
write of it does. -/

namespace Sys2Proof.Machine

/-! ### Lo/hi pairs (R7, R8) -/

/-- `a` is one of `n1` × `n2` registers, `s1` and `s2` bytes apart. -/
def inBank (base n1 s1 n2 s2 a : Nat) : Bool :=
  decide (base ≤ a) && decide ((a - base) / s1 < n1) && decide ((a - base) % s1 / s2 < n2) && (a - base) % s1 % s2 == 0

/-- `a` is the lo register of a pair, or of its active copy. The 64-bit tsc words of a GLB_INTEG log entry (+0x00, +0x04) are read as plain
words, without a latch: DESIGN CHOICE, log entry 78. -/
def isLo (a : Nat) : Bool :=
  inBank Reg.glbUidLo 1 8 1 8 a || inBank Reg.glbIrqPendLo 1 8 1 8 a || inBank (Reg.glbDmaRingLo 0) 2 0x40 1 8 a
    || inBank (Reg.glbIntegLo 0) 16 8 1 8 a || inBank (Reg.safCalTscLo 0) 529 16 1 8 a || inBank (Reg.nocStat 0 0) 32 0x40 1 8 a
    || inBank (Reg.seqCycleLo 0) 16 0x10000 2 8 a || inBank (Reg.seqSvmask 0 0) 16 0x10000 3 8 a
    || inBank (Reg.seqSvmask 0 0 + 0x200) 16 0x10000 3 8 a || inBank Reg.cfgBuildLo 1 8 1 8 a || inBank (Reg.cfgInuseLo 0) 16 8 1 8 a
    || inBank (Reg.capMapBase 0 0) 16 0x10000 2 8 a || inBank (Reg.capLogBase 0 0) 16 0x10000 1 8 a
    || inBank (Reg.capCmpmask 0 0) 16 0x10000 1 8 a || inBank (Reg.capMapBase 0 0 + 0x200) 16 0x10000 2 8 a
    || inBank (Reg.capLogBase 0 0 + 0x200) 16 0x10000 1 8 a || inBank (Reg.capCmpmask 0 0 + 0x200) 16 0x10000 1 8 a
    || inBank (Reg.capFcycLo 0) 16 0x10000 4 8 a || inBank (Reg.capFallbackLo 0) 16 0x10000 1 8 a
    || inBank (Reg.rpaSolBase 0 0) 16 0x10000 1 8 a || inBank (Reg.rpaSolBase 0 0 + 0x200) 16 0x10000 1 8 a
    || inBank (Reg.vltMntDataLo 0) 256 0x1000 1 8 a || inBank (Reg.wfeStrTrigLo 0) 16 0x10000 1 8 a
    || inBank (Reg.fabDevBase 0 0) 16 8 1 8 a

/-- `a` is the hi register of a pair. -/
def isHi (a : Nat) : Bool := decide (4 ≤ a) && isLo (a - 4)

/-- The index of a latch or holding register: each requester has its own for each pair. R7 gives each requester a latch of its own and does not
say that it is one for each pair: DESIGN CHOICE, log entry 78. -/
def pairKey (req : Requester) (lo : Nat) : Nat := req.toNat * 2 ^ 26 + lo

def State.setLatch (s : State) (req : Requester) (lo : Nat) (v : Word) : State :=
  { s with host := { s.host with latch := Sparse.set (fun _ => 0) s.host.latch (pairKey req lo) v } }

def State.latched (s : State) (req : Requester) (lo : Nat) : Word := Sparse.get (fun _ => 0) s.host.latch (pairKey req lo)

def State.setHold (s : State) (req : Requester) (lo : Nat) (v : Option Word) : State :=
  { s with host := { s.host with hold := Sparse.set (fun _ => none) s.host.hold (pairKey req lo) v } }

def State.held (s : State) (req : Requester) (lo : Nat) : Option Word := Sparse.get (fun _ => none) s.host.hold (pairKey req lo)

/-! ### Reads -/

/-- `a` is an RP queue (R9). -/
def isQueue (a : Nat) : Bool :=
  inBank (Reg.seqIrq 0) 16 0x10000 1 4 a || a == Reg.fabResLog || a == Reg.fabZbusLog || inBank (Reg.vltPoisonLog 0) 256 0x1000 1 4 a
    || a == Reg.cfgUpsetLog || a == Reg.safEvtLog || a == Reg.spdErrLog || inBank (Reg.wfeIrq 0) 16 0x10000 1 4 a

def isLock (a : Nat) : Bool := inBank (Reg.spdLock 0) 16 4 1 4 a
def lockIndex (a : Nat) : Nat := (a - Reg.spdLock 0) / 4
def isMemData (a : Nat) : Bool := inBank (Reg.wfeMemData 0) 16 0x10000 1 4 a
def wfeIndex (a : Nat) : Nat := (a - Reg.wfeCtl 0) / 0x10000

/-- The registers of every sequencer window that are shared (R104). -/
def sharedSeq (a : Nat) : Nat :=
  if inBank Reg.seqGstart 16 0x10000 4 4 a then Reg.seqGstart + (a - Reg.seqGstart) % 0x10000 else a

/-- The OR of each vector of one half (R366). -/
def State.irqPend (s : State) (lo : Nat) : Word :=
  BitVec.ofNat 32 ((List.range 32).foldl (fun a i => if s.irqOr (lo + i) then a + 2 ^ i else a) 0)

/-- VLT_LAP_DEV: the longest last-completed lap of the vaults that are ready now (R280, R295). -/
def State.lapDev (s : State) : Nat :=
  (vaults.filter (fun v => s.vltState v == 2)).foldl (fun m v => max m (s.rd (Reg.vltLap v)).toNat) 0

/-- What a sequencer's SEQ_CYCLE with cyc_wrap, its SEQ_X15 and SEQ_PC, the penumbra state, the longest scrub lap, the self-test debt, the margins and the wait of a monitor entry for the
hart's key window show now (R66, R104, R170, R280, R396, R463, R476), where `a` is one of them. -/
def State.liveValue (s : State) (a : Nat) : Option Word :=
  let k := (a - Reg.seqCtl 0) / 0x10000
  let n := s.cycleNow k % 2 ^ 48
  if inBank (Reg.seqCycleLo 0) 16 0x10000 1 4 a then some (BitVec.ofNat 32 n)
  else if inBank (Reg.seqCycleHi 0) 16 0x10000 1 4 a then some (BitVec.ofNat 32 (n / 2 ^ 32))
  else if inBank (Reg.seqStatus 0) 16 0x10000 1 4 a then some (setFldOf (s.rd a) 8 1 (bitN (decide (2 ^ 48 ≤ s.cycleNow k))))
  else if inBank (Reg.seqX 0 15) 16 0x10000 1 4 a then some (s.x15At k (s.cycleNow k))
  else if inBank (Reg.seqPc 0) 16 0x10000 1 4 a then some (setFldOf (s.rd a) 0 15 (s.pcNow k))
  else if a = Reg.fabPenStat then
    some (setFldOf (s.rd a) 0 16 ((sites.map (fun j => if s.penIso j then 2 ^ j else 0)).sum))
  else if a = Reg.cpuDbgStat then some (setFldOf (s.rd a) 1 1 (bitN (s.cpu.haltReq && !s.inMonitor && decide (0 < s.keyLeft 3))))
  else if a = Reg.vltLapDev then some (BitVec.ofNat 32 s.lapDev)
  else if inBank (Reg.safBistDebt 0) 16 4 1 4 a then some (setFldOf (s.rd a) 0 16 (s.debtMs ((a - Reg.safBistDebt 0) / 4)))
  else if inBank (Reg.safMargin 0) 16 4 1 4 a then some (s.marginNow ((a - Reg.safMargin 0) / 4))
  else none

/-- The current value at address `a` as requester `req` would read it, a hi register as the current upper half (R11). -/
def State.valueAt (s : State) (req : Requester) (a : Nat) : Word :=
  if isQueue a then s.headQ a
  else if isLock a then s.lockValue req.toNat (lockIndex a)
  else if isMemData a then (s.wfeMemPeek (wfeIndex a)).getD (Config.freeWord s.free)
  else if a = Reg.glbKey then BitVec.ofNat 32 (s.keyLeft req.toNat)
  else if a = Reg.glbIrqPendLo then s.irqPend 0
  else if a = Reg.glbIrqPendHi then s.irqPend 32
  else if a = Reg.cpuDbgCsrData then (if s.inMonitor then s.csrRead else 0)
  else if (regInfo a).isNone then 0
  else (s.liveValue a).getD (s.rd a)

/-- The bits that an ordinary read clears. -/
def rcBits (a : Nat) : Word := match regInfo a with
  | some r => r.rc
  | none => 0

/-- An ordinary read: the state after it, and the value returned. -/
def State.readReg (s : State) (req : Requester) (a : Nat) : State × Word :=
  let v := s.valueAt req a
  if isQueue a then (s.popQ a, v)
  else if isLock a then (s.lockAcquire req.toNat (lockIndex a), v)
  else if isMemData a then s.wfeMemRead (wfeIndex a) .ok 0
  else if isLo a then (s.setLatch req a (s.valueAt req (a + 4)), v)
  else if isHi a then (s, s.latched req (a - 4))
  else if rcBits a != 0 then (s.wr a (v &&& ~~~rcBits a), v)
  else (s, v)

/-- The access completes as Unsupported Request: `narrow` says that it is narrower than 32 bits (R6, R359). -/
def accessBad (a : BitVec 26) (narrow : Bool) : Bool := narrow || a.toNat % 4 != 0

/-- The completion of an access. -/
def State.complete (s : State) (st : CplStatus) (v : Word := 0) : State := { s with cpl := { status := st, value := v } }

/-- A read of BAR0 by `req`; a peek has no side effect (R11), and a block that is not up reads 0 (R43). -/
def State.busRead (s : State) (req : Requester) (a : BitVec 26) (narrow peek : Bool) : State :=
  if !s.reaches req then s
  else if accessBad a narrow then s.complete .ur
  else
    let n := sharedSeq a.toNat
    let s := s.readTxn req
    if !s.upFor req.toNat n then s.complete .ok 0
    else if peek then s.complete .ok (s.valueAt req n)
    else
      let (t, v) := s.readReg req n
      t.complete .ok v

/-! ### Plain writes (R8 to R10, R16) -/

/-- What a plain write of `v` leaves in a register that holds `old`. -/
def RegInfo.store (r : RegInfo) (old v : Word) : Word :=
  (((old &&& ~~~r.rw) ||| (v &&& r.rw)) &&& ~~~(v &&& r.w1c)) ||| (v &&& r.w1s)

/-- Store into the register at `a` by its access types; an address without a register ignores it. -/
def State.storeReg (s : State) (a : Nat) (v : Word) : State :=
  match regInfo a with
  | some r => s.wr a (r.store (s.rd a) v)
  | none => s

/-- A write of one half of a pair (R8): a half that a write can change waits for the other, whatever its access type. -/
def State.storePair (s : State) (req : Requester) (a : Nat) (v : Word) : State :=
  let lo := if isLo a then a else a - 4
  match regInfo lo with
  | none => s
  | some r =>
    if r.rw ||| r.w1c ||| r.w1s = 0 then s.storeReg a v
    else if isLo a then s.setHold req lo (some v)
    else match s.held req lo with
      | some l => ((s.storeReg lo l).storeReg a v).setHold req lo none
      | none => s.storeReg a v

/-- A plain write: a write of a protected register outside a key window is refused. -/
def State.plainWrite (s : State) (req : Requester) (a : Nat) (v : Word) (keyed : Bool) : State :=
  match regInfo a with
  | none => s
  | some r =>
    if r.prot != 0 && !keyed then s.keyRefused req.toNat a
    else if isLo a || isHi a then s.storePair req a v
    else s.storeReg a v

/-! ### Registers whose write does more, block by block -/

def State.writeDma (s : State) (req : Requester) (a : Nat) (v : Word) : State :=
  let e := (a - Reg.glbDmaCtl 0) / 0x40
  match (a - Reg.glbDmaCtl 0) % 0x40 with
  | 0 => s.dmaCtl req e v
  | 0x14 => s.dmaHead e (fldOf v 0 16)
  | 0x1C => s.plainWrite req a v true
  | _ => if s.dmaState e = dmaStopped then s.plainWrite req a v true else s

def State.writeGlb (s : State) (req : Requester) (a : Nat) (v : Word) (keyed : Bool) (x : WriteAux) : State :=
  if a = Reg.glbKey then s.keyWrite req v
  else if a = Reg.glbKeyErr then (if v.getLsbD 31 then s.wr a 0 else s)
  else if a = Reg.glbIrqEoi then s.irqEoi (fldOf v 0 6)
  else if a = Reg.glbModeCmd then s.modeCmd (fldOf v 0 4) x.lost x.dropped
  else if a = Reg.glbResetCtl then s.resetCtl req (fldOf v 0 2) keyed x.dropped
  else if a = Reg.glbIntegClr then s.integClr (v.setWidth 16)
  else if inBank (Reg.glbDmaCtl 0) 2 0x40 8 4 a then s.writeDma req a v
  else s.plainWrite req a v keyed

/-- A gating level: the WCLK bit of an engine that is not halted is not cleared (R432). -/
def State.writeGate (s : State) (a : Nat) (v : Word) : State :=
  s.forAll sites (fun s k => if v.getLsbD (16 + k) then s.setBit a (16 + k) true
    else if s.wfeState k = 0 then s.setBit a (16 + k) false else s)

def State.writeClk (s : State) (req : Requester) (a : Nat) (v : Word) (keyed : Bool) : State :=
  if a = Reg.clkFsel then s.fselWrite req (fldOf v 0 2) keyed
  else if a = Reg.clkGateRun ∨ a = Reg.clkGateSleep then s.writeGate a v
  else if a = Reg.clkFmeasCtl then s.fmeasWrite v
  else s.plainWrite req a v keyed

def State.writeSaf (s : State) (req : Requester) (a : Nat) (v : Word) (keyed : Bool) : State :=
  if a = Reg.safRepairCmd then s.repairCmd req v keyed
  else if a = Reg.safFaultAccept then (s.plainWrite req a v keyed).forAll sites (fun s k => s.planeIso k)
  else if a = Reg.safCalCmd then s.calCmd (fldOf v 0 10)
  else if a = Reg.safCalCfg then s.setFld a 0 5 (min 20 (max 2 (fldOf v 0 5)))
  else s.plainWrite req a v keyed

def State.writeNoc (s : State) (req : Requester) (a : Nat) (v : Word) (keyed : Bool) : State :=
  if a = Reg.nocIsoCmd then s.isoCmd req v keyed
  else if a = Reg.nocStatCtl then (if v.getLsbD 0 then s.nocSnap else s)
  else s.plainWrite req a v keyed

def State.writeCpu (s : State) (req : Requester) (a : Nat) (v : Word) (keyed : Bool) : State :=
  if a = Reg.cpuDbgCtl then s.dbgCtl req v keyed
  else if a = Reg.cpuCwdtSvc then s.cwdtRestart
  else if a = Reg.cpuSwdtCfg then
    if keyed then s.setFld a 0 10 (min 1000 (max 1 (fldOf v 0 10))) else s.keyRefused req.toNat a
  else if a = Reg.cpuSwdtSvc then s.swdtService req v
  else if a = Reg.cpuDwin then (if req = 3 then s.storeReg a v else s)
  else if a = Reg.cpuMboxStat then s.mboxStat v
  else if a = Reg.cpuFwcmd then s.fwCmd req (fldOf v 0 4) keyed
  else if monitorRegs.contains a then
    if !s.inMonitor then s else if a = Reg.cpuDbgCsrData then s.csrWrite v else s.storeReg a v
  else s.plainWrite req a v keyed

/-- LNK_INJECT without go stores kind and rate while nothing is armed; with go it acts (R204). -/
def State.writeInject (s : State) (a : Nat) (v : Word) : State :=
  let w := (a - Reg.lnkInject 0) / 0x400
  if v.getLsbD 30 then s.doInject w (fldOf v 28 2) (BitVec.ofNat 4 (fldOf v 24 4))
  else if s.bit a 31 then s else s.storeReg a v

def State.writeLnk (s : State) (req : Requester) (a : Nat) (v : Word) (keyed : Bool) : State :=
  if inBank (Reg.lnkInject 0) 512 0x400 1 4 a then s.writeInject a v
  else if a = Reg.lnkMeasure then s.doMeasureGo (v.setWidth 16)
  else s.plainWrite req a v keyed

/-- A write of SEQ_CTL (R105). -/
def State.seqCtl (s : State) (k : Nat) (v : Word) (x : WriteAux) : State :=
  let h := s.storeHflag k (v.getLsbD 8)
  match fldOf v 0 4 with
  | 0 => h
  | 1 => h.doArm k
  | 2 => h.doStart k x.lost
  | 4 => h.doStop k x.last.toNat
  | 8 => h.doDisarm k
  | _ => s.cmdStatus k 2

def State.writeSeq (s : State) (req : Requester) (a : Nat) (v : Word) (keyed : Bool) (x : WriteAux) : State :=
  let k := (a - Reg.seqCtl 0) / 0x10000
  let o := (a - Reg.seqCtl 0) % 0x10000
  let st := s.seqState k
  if a = Reg.seqGstart then s.doGstart (v.setWidth 16) x.lost
  else if a = Reg.seqGstop then s.doGstop (v.setWidth 16)
  else if a = Reg.seqXflags then s.writeFlags s.fc (v.setWidth 16) 0
  else if a = Reg.seqXflagsClr then s.writeFlags s.fc 0 (v.setWidth 16)
  else if o = 0 then s.seqCtl k v x
  else if o = 0x38 then (if 2 ≤ st ∧ st ≤ 4 then s else s.storeReg a v)
  else if o = 0x15C then s.hostX15 k v
  else if 0x100 ≤ o ∧ o < 0x1C0 then (if st = 0 ∨ st = 2 then s.storeReg a v else s)
  else s.plainWrite req a v keyed

def State.writeCfg (s : State) (req : Requester) (a : Nat) (v : Word) (keyed : Bool) : State :=
  if a = Reg.cfgCtl then (if v.getLsbD 0 then s.sinkReset else if v.getLsbD 1 then s.loadAbort else s)
  else if a = Reg.cfgRelease then s.cfgRelease req (v.setWidth 16) keyed
  else s.plainWrite req a v keyed

def State.writeVlt (s : State) (req : Requester) (a : Nat) (v : Word) (keyed : Bool) : State :=
  if inBank (Reg.vltMntCmd 0) 256 0x1000 1 4 a then s.mntCmd req ((a - Reg.vltMntCmd 0) / 0x1000) (fldOf v 0 4) keyed
  else if a = Reg.vltCfg then (s.storeReg a v).forAll vaults (fun s v => s.showScrub v)
  else if a = Reg.vltFuseCmd then s.fuseCmd req (fldOf v 0 8) (v.getLsbD 8) keyed
  else s.plainWrite req a v keyed

def State.writeWfe (s : State) (req : Requester) (a : Nat) (v : Word) (keyed : Bool) : State :=
  let k := wfeIndex a
  match (a - Reg.wfeCtl 0) % 0x10000 with
  | 0x00 => s.wfeCtl k v
  | 0x14 => s.wfeMemWrite k v
  | 0x20 => s.strCtl k (v.getLsbD 0) (v.getLsbD 1)
  | _ => s.plainWrite req a v keyed

def State.writeFab (s : State) (req : Requester) (a : Nat) (v : Word) (keyed : Bool) : State :=
  if a = Reg.fabResInject then s.resInject req v keyed
  else if a = Reg.fabExpCtl then s.expSnap (v.setWidth 16)
  else s.plainWrite req a v keyed

/-- A write of the register at `a`, by block (R360); an address without a register ignores it. -/
def State.writeReg (s : State) (req : Requester) (a : Nat) (v : Word) (keyed : Bool) (x : WriteAux) : State :=
  if (regInfo a).isNone then s
  else match commitAt a with
  | some c => s.commitGo c req (v.setWidth 8) keyed
  | none =>
    if a < 0x100000 then s.writeGlb req a v keyed x
    else if a < 0x180000 then s.plainWrite req a v keyed
    else if a < 0x200000 then s.writeClk req a v keyed
    else if a < 0x280000 then
      if a = Reg.thmSuspectClr then s.suspectClr (fldOf v 0 20) else s.plainWrite req a v keyed
    else if a < 0x300000 then s.writeSaf req a v keyed
    else if a < 0x380000 then s.writeNoc req a v keyed
    else if a < 0x400000 then
      if isLock a then s.lockRelease req.toNat (lockIndex a) else s.plainWrite req a v keyed
    else if a < 0x800000 then s.writeCpu req a v keyed
    else if a < 0xC00000 then s.writeLnk req a v keyed
    else if a < 0x1000000 then s.writeSeq req a v keyed x
    else if a < 0x1400000 then s.writeCfg req a v keyed
    else if a < 0x1800000 then
      if inBank (Reg.capCtl 0) 16 0x10000 1 4 a then s.capCtl req ((a - Reg.capCtl 0) / 0x10000) v keyed else s.plainWrite req a v keyed
    else if a < 0x2000000 then
      if inBank (Reg.rpaCtl 0) 16 0x10000 1 4 a then s.rpaCtl ((a - Reg.rpaCtl 0) / 0x10000) v else s.plainWrite req a v keyed
    else if a < 0x2800000 then s.writeVlt req a v keyed
    else if a < 0x3000000 then s.writeWfe req a v keyed
    else s.writeFab req a v keyed

/-- A write of `v` at `a` is a protected write (R16): the register is protected, or `v` sets one of its protected fields; RAW_WRITE is a
protected command (R285). -/
def protectedWrite (a : Nat) (v : Word) : Bool :=
  (match regInfo a with
    | some r => r.prot == 0xFFFFFFFF#32 || v &&& r.prot != 0
    | none => false) || (inBank (Reg.vltMntCmd 0) 256 0x1000 1 4 a && fldOf v 0 4 == 2)

/-- The W1C bits of the register at `a` that `race` sets again in the bc of the write stay set: they have not been 0 (R366). -/
def State.raceSet (s0 s1 : State) (a : Nat) (race : Word) : State :=
  match regInfo a with
  | some r => if race = 0 then s1 else s1.wr a (s1.rd a ||| (s0.rd a &&& race &&& r.w1c))
  | none => s1

/-- A write of BAR0 by `req` (R6, R16, R43, R359): one that completes as Unsupported Request, or to a block that is not up, counts in the
key window and has no effect. -/
def State.busWrite (s : State) (req : Requester) (a : BitVec 26) (v : Word) (narrow : Bool) (x : WriteAux) : State :=
  s.onKeyed req (fun keyed s =>
    if accessBad a narrow then s.complete .ur
    else
      let n := sharedSeq a.toNat
      if s.upFor req.toNat n then State.raceSet s (s.writeReg req n v keyed x) n x.race else s)

end Sys2Proof.Machine
end

