-- ==== Sys2Proof/Machine/Control.lean ====
section
/-! DEFINITION. The commands of the control processor (13): its start, the firmware services of flow extensions, the mailbox, flash
commands, watchdogs, and the debug monitor. -/

namespace Sys2Proof.Machine

/-! ### Start of the core (R42, R43, R45, R386, R387) -/

/-- The ROM starts. -/
def execCoreStart (s : State) : Res := fin s (if s.coreMayStart then s.coreStart else s)

/-- Authentication of both slots ends. -/
def execFwAuthenticated (s : State) : Res := fin s (if s.coreRuns && s.fwState == fwAuthenticating then s.authEnds else s)

/-- The firmware has applied the board profile, and runs. -/
def execProfileApplied (s : State) : Res :=
  fin s (if s.coreRuns && !s.fwRunning && (s.fwState == fwSlotA || s.fwState == fwSlotB) then s.profileEnds else s)

/-! ### Services of flow extensions (R388, R391) -/

/-- User code runs: it can call a service. -/
def State.userRuns (s : State) : Bool := s.coreRuns && s.cpu.user.isSome && s.fwRunning && !s.inMonitor

/-- A service returns to user code with a0 and a1, x10 and x11, also shown as the value and the bytes of the completion. The trap of the call has
lost a reservation (R382, R388). -/
def State.svcReturn (s : State) (a0 a1 : Word) : State :=
  { s.modCpu (fun c => { c with resv := none, hart := { c.hart with x := (c.hart.x.set 9 a0).set 10 a1, user := true } }) with
    cpl := { status := .ok, value := a0, bytes := leBytes 4 a1.toNat } }

/-- Statuses of a service. -/
def svcDone : Word := 0
def svcDenied : Word := 1
def svcBadArg : Word := 2
def svcTarget : Word := 3

/-- A word-aligned offset in BAR0. -/
def barOffset (a : Word) : Bool := a.toNat % 4 == 0 && decide (a.toNat < 2 ^ 26)

/-- `n` bytes at core address `a` lie in the TCM that user code reaches, word-aligned. -/
def State.userTcm (s : State) (a : Word) (n : Nat) : Bool :=
  a.toNat % 4 == 0 && (match s.coreMap a.toNat n with
    | some (.tcm o) => CoreMem.userMay (.tcm o)
    | _ => false)

/-- REG_READ: every register but those of the CPU block and GLB_KEY, as an ordinary read. A core interface that is isolated gives a target error
(R380, R388), here and in the services below. -/
def execRegRead (a0 : Word) (s : State) : Res :=
  fin s (if !s.userRuns then s
    else if !barOffset a0 then s.svcReturn a0 svcBadArg
    else
      let a := a0.toNat
      if (0x400000 ≤ a ∧ a < 0x800000) ∨ a = Reg.glbKey then s.svcReturn a0 svcDenied
      else
        if !s.reaches 3 then s.svcReturn a0 svcTarget
        else
          let (t, v) := (s.readTxn 3).readReg 3 (sharedSeq a)
          t.svcReturn v svcDone)

/-- The site in whose SEQ, CAP, RPA, WFE or LNK window BAR0 address `a` lies. -/
def windowSite (a : Nat) : Option Nat :=
  let bank (base : Nat) : Option Nat := if base ≤ a ∧ a < base + 0x100000 then some ((a - base) / 0x10000) else none
  if 0x800000 ≤ a ∧ a < 0x880000 then some ((a - 0x800000) / 0x400 % 256 / 16)
  else ([Reg.seqCtl 0, Reg.capCtl 0, Reg.rpaCtl 0, Reg.wfeCtl 0].filterMap bank).head?

/-- REG_WRITE may write `v` at `a`: a window of an open site, and no protected register or field. -/
def State.userMayWrite (s : State) (a : Nat) (v : Word) : Bool :=
  (match windowSite a with
    | some k => s.bit Reg.cpuUsites k
    | none => false) && (match regInfo a with
    | some r => r.prot != 0xFFFFFFFF#32 && v &&& r.prot == 0
    | none => true)

def execRegWrite (a0 a1 : Word) (x : WriteAux) (s : State) : Res :=
  fin s (if !s.userRuns then s
    else if !barOffset a0 then s.svcReturn a0 svcBadArg
    else if !s.userMayWrite a0.toNat a1 then s.svcReturn a0 svcDenied
    else if !s.reaches 3 then s.svcReturn a0 svcTarget
    else ((s.txn 3).writeReg 3 (sharedSeq a0.toNat) a1 false x).svcReturn a0 svcDone)

/-- MBOX_SEND: eight words of user TCM to the host. -/
def execMboxSend (a0 : Word) (s : State) : Res :=
  fin s (if !s.userRuns then s
    else if s.bit Reg.cpuMboxStat 1 then s.svcReturn a0 svcDenied
    else if !s.userTcm a0 32 then s.svcReturn a0 svcBadArg
    else if !s.reaches 3 then s.svcReturn a0 svcTarget
    else
      let l := s.tcmBytes (a0.toNat - 0x10000000) 32
      let s := s.forAll (List.range 8) (fun s i => s.wr (Reg.cpuMboxOut i) (BitVec.ofNat 32 (leAt l (4 * i) 4)))
      (s.setBit Reg.cpuMboxStat 1 true).svcReturn a0 svcDone)

/-- MBOX_RECV: the message of the host, if one waits. -/
def execMboxRecv (a0 : Word) (s : State) : Res :=
  fin s (if !s.userRuns then s
    else if !s.userTcm a0 32 then s.svcReturn a0 svcBadArg
    else if !s.reaches 3 then s.svcReturn a0 svcTarget
    else if !s.bit Reg.cpuMboxStat 0 then s.svcReturn 0 svcDone
    else
      let l := (List.range 8).flatMap (fun i => leBytes 4 (s.rd (Reg.cpuMboxIn i)).toNat)
      ((s.tcmPut 3 (a0.toNat - 0x10000000) l).setBit Reg.cpuMboxStat 0 false).svcReturn 1 svcDone)

/-- FLASH_USER: user TCM into the user partition; `fail` names the page whose programming fails. -/
def execFlashUser (a0 a1 a2 : Word) (fail : Option Nat) (s : State) : Res :=
  fin s (if !s.userRuns then s
    else if a0.toNat % 4096 ≠ 0 ∨ a2.toNat % 4096 ≠ 0 ∨ 0x180000 < a0.toNat + a2.toNat ∨ !s.userTcm a1 a2.toNat then
      s.svcReturn a0 svcBadArg
    else
      let (t, c) := s.program (userPart + a0.toNat) (s.tcmBytes (a1.toNat - 0x10000000) a2.toNat) fail
      t.svcReturn a0 (if c = 1 then svcDone else svcTarget))

/-- TSC: the time base in a0 and a1. -/
def execReadTsc (s : State) : Res :=
  fin s (if s.userRuns then s.svcReturn (s.tsc.setWidth 32) ((s.tsc >>> 32).setWidth 32) else s)

/-! ### The mailbox (R391) -/

def execMboxInFull (req : Requester) (s : State) : Res := fin s (s.onWrite req (fun s => s.mboxStat 1))
def execMboxOutClear (req : Requester) (s : State) : Res := fin s (s.onWrite req (fun s => s.mboxStat 2))

/-! ### Flash commands (R389, R390, R414) -/

def execFwUpdate (req : Requester) (s : State) : Res := fin s (s.onKeyed req (fun keyed s => s.fwCmd req 1 keyed))
def execProfileWrite (req : Requester) (s : State) : Res := fin s (s.onKeyed req (fun keyed s => s.fwCmd req 2 keyed))
def execKeyUpdate (req : Requester) (s : State) : Res := fin s (s.onKeyed req (fun keyed s => s.fwCmd req 3 keyed))
def execUserWrite (req : Requester) (s : State) : Res := fin s (s.onKeyed req (fun keyed s => s.fwCmd req 4 keyed))
def execLogRead (req : Requester) (s : State) : Res := fin s (s.onKeyed req (fun keyed s => s.fwCmd req 5 keyed))
def execRecover (req : Requester) (s : State) : Res := fin s (s.onKeyed req (fun keyed s => s.fwCmd req 6 keyed))
def execUserRestart (req : Requester) (s : State) : Res := fin s (s.onKeyed req (fun keyed s => s.fwCmd req 7 keyed))
def execSignEnforce (req : Requester) (s : State) : Res := fin s (s.onKeyed req (fun keyed s => s.fwCmd req 8 keyed))

/-- The command in progress completes; `fail` names the page whose programming fails, or says that the fuse has not verified. -/
def execFwcmdDone (e : FwEnd) (s : State) : Res := fin s (if s.coreRuns && !s.inMonitor then s.fwDone e.fail e.spd else s)

/-! ### Watchdogs (R392 to R395) -/

def execCwdtService (req : Requester) (s : State) : Res := fin s (s.onWrite req State.cwdtRestart)

def execCoreWatchdogExpiry (s : State) : Res := fin s (if s.cwdtCounts then s.coreReset false else s)

/-- Half the period of the safety watchdog has passed: the service interrupt. -/
def execSwdtServiceIrq (s : State) : Res := fin s (if s.swdtCounts then s.modCpu (fun c => { c with nmi := true }) else s)

def execSwdtService (req : Requester) (v : BitVec 16) (s : State) : Res :=
  fin s (s.onWrite req (fun s => s.swdtService req (v.setWidth 32)))

def execSafetyWatchdogExpiry (s : State) : Res := fin s (if s.swdtCounts then s.coreReset true else s)

/-! ### The debug monitor (R395 to R398, R411) -/

/-- A write of CPU_DBG_CTL with halt; `mask` is the value written to mask_swdt beside it. -/
def execDbgHalt (req : Requester) (mask : Bool) (s : State) : Res :=
  fin s (s.onKeyed req (fun keyed s => s.dbgCtl req (1#32 ||| (if mask then 0x10#32 else 0)) keyed))

def execDbgForce (req : Requester) (mask : Bool) (s : State) : Res :=
  fin s (s.onKeyed req (fun keyed s => s.dbgCtl req (2#32 ||| (if mask then 0x10#32 else 0)) keyed))

def execDbgResume (req : Requester) (mask : Bool) (s : State) : Res :=
  fin s (s.onKeyed req (fun keyed s => s.dbgCtl req (4#32 ||| (if mask then 0x10#32 else 0)) keyed))

def execDbgStep (req : Requester) (mask : Bool) (s : State) : Res :=
  fin s (s.onKeyed req (fun keyed s => s.dbgCtl req (8#32 ||| (if mask then 0x10#32 else 0)) keyed))

def execMaskSwdt (req : Requester) (s : State) : Res := fin s (s.onKeyed req (fun keyed s => s.dbgCtl req 0x10 keyed))
def execUnmaskSwdt (req : Requester) (s : State) : Res := fin s (s.onKeyed req (fun keyed s => s.dbgCtl req 0 keyed))

/-- The core enters the monitor with this state of the halted program. -/
def execMonitorEntry (h : HaltPoint) (gprs : List Word) (csrs : List (BitVec 12 × Word)) (s : State) : Res :=
  fin s (s.monitorEntry h.pc gprs csrs h.instrs)

end Sys2Proof.Machine
end

