-- ==== Sys2Proof/Machine/DebugOps.lean ====
section
/-! DEFINITION. Shared operations of Glint, the debug master and the SMBus target (13, R399 to R403; 16, R488, R489). -/

namespace Sys2Proof.Machine

/-! ### Glint frames (R399, R400) -/

/-- The receiver runs: AON is up, VIO is good, REFCLK is confirmed and HCLK runs (R402, R484). -/
def State.glintOn (s : State) : Bool := s.aon.up && s.aon.vio && s.clocksRun && s.bit Reg.clkStat 2

/-- CRC-8 over bits in the order sent (R400). -/
def crc8 (bits : List Bool) : Nat :=
  bits.foldl (fun c b => if (decide (128 ≤ c)) != b then (2 * c % 256) ^^^ 7 else 2 * c % 256) 0

/-- The bits of a request in the order sent: op, address, data. -/
def glintBits (op : Nat) (addr : Option (BitVec 48)) (data : Option Word) : List Bool :=
  bitsOf op 0 8 ++ (match addr with
    | some a => bitsOf a.toNat 0 48
    | none => []) ++ (match data with
    | some d => bitsOf d.toNat 0 32
    | none => [])

/-- The response of a request, which ends its frame: a start bit 0, a status, data for reads and STATUS, and the CRC over these. In the slot
of each bit the device holds the line low for 3 t for a 0 and for 1 t for a 1, the low of the probe (R399, R400). -/
def State.glintReply (s : State) (status : Nat) (data : Option Word) : State :=
  let l := bitsOf status 0 8 ++ (match data with
    | some d => bitsOf d.toNat 0 32
    | none => [])
  let bits := false :: l ++ bitsOf (crc8 l) 0 8
  { s with glint := { s.glint with
    inFrame := false, status := BitVec.ofNat 8 status, data := data, crc := BitVec.ofNat 8 (crc8 l)
    lows := bits.map (fun b => if b then s.glint.unit else 3 * s.glint.unit) } }

/-- The frame in progress ends, if there is one; an access that it has begun goes on without it (R400). -/
def State.glintEnd (s : State) : State :=
  { s with glint := { s.glint with inFrame := false, waiting := s.glint.waiting.map (fun q => { q with mine := false }) } }

/-- A sync pulse of `w` ns starts a frame with the time unit w / 16. -/
def State.glintStart (s : State) (w : Nat) : State :=
  let s := s.glintEnd
  { s with glint := { s.glint with inFrame := true, unit := w / 16 } }

/-- A low pulse of `w` ns, `gap` ns after the falling edge of the slot or sync before it, that is no slot of a request (R399). A gap above
64 t has ended the frame. Inside a frame a pulse of at most 6 t is a slot, also where it is longer than 3.5 µs: it starts no new frame.
DEDUCED (log entry 115). -/
def State.glintPulse (s : State) (w gap : Nat) : State :=
  if !s.glintOn then s
  else
    let s := if s.glint.inFrame && decide (64 * s.glint.unit < gap) then s.glintEnd else s
    if s.glint.inFrame && decide (w ≤ 6 * s.glint.unit) then s
    else if 3500 ≤ w ∧ w ≤ 36000 then s.glintStart w
    else if s.glint.inFrame then s.glintEnd
    else s

/-- A slot fits the line rules at time unit `t` (R399): it starts 4 t to 64 t after the one before it, and the probe holds the line low for
1 t or for 3 t, within 2 % of 1 t. -/
def slotFits (x : GlintSlot) (t : Nat) : Bool :=
  let near (n : Nat) : Bool := decide (100 * n * t ≤ 100 * x.low + 2 * t) && decide (100 * x.low ≤ (100 * n + 2) * t)
  decide (400 * t ≤ 100 * x.gap + 2 * t) && decide (100 * x.gap ≤ 6402 * t) && (near 1 || near 3)

/-- The bit of a slot: the line sampled 2 t after the falling edge is high for a 1. -/
def slotBit (x : GlintSlot) (t : Nat) : Bool := decide (x.low ≤ 2 * t)

/-- The slots carry these bits. -/
def State.glintCarry (s : State) (slots : List GlintSlot) (bits : List Bool) : Bool :=
  slots.all (fun x => slotFits x s.glint.unit) && slots.map (fun x => slotBit x s.glint.unit) == bits

/-- The receiver takes a request: it runs, a frame is in progress, and the slots carry the request's bits and CRC. -/
def State.glintTakes (s : State) (slots : List GlintSlot) (bits : List Bool) (crc : BitVec 8) : Bool :=
  s.glintOn && s.glint.inFrame && s.glintCarry slots (bits ++ bitsOf crc.toNat 0 8)

/-! ### Accesses of the debug master (R401, R403) -/

/-- What an access gives: the state, its Glint status, and what it read. -/
structure DbgDone where
  st : State
  status : Nat
  data : Word := 0

/-- The bytes of a core address that the debug master reads: ROM, TCM and flash. -/
def State.coreBytes (s : State) (a : Nat) : Option (List Byte) :=
  match s.coreMap a 4 with
  | some (.rom o) => some ((List.range 4).map (fun i => Config.romByte (o + i)))
  | some (.tcm o) => some (s.tcmBytes o 4)
  | some (.flash o) => some (s.coreFlash o 4)
  | _ => none

def wordOf (l : List Byte) : Word := BitVec.ofNat 32 (ofLe l)

/-- A core address in the TCM, which the debug master reaches by the TCM's own port (R382, R403). -/
def inTcm (space a : Nat) : Bool := decide (3 ≤ space) && decide (0x10000000 ≤ a % 2 ^ 32) && decide (a % 2 ^ 32 + 4 ≤ 0x10080000)

/-- The debug master can access: over the network, but for the TCM. -/
def State.dbgReaches (s : State) (space a : Nat) : Bool := s.reaches 4 || (s.busUp && inTcm space a)

/-- A read of the debug master in one of the four spaces, a peek (R11, R403): what the scratchpad denies, corrects or finds uncorrectable is
not recorded. `e` is what the check of a scratchpad word reports, `flip` the wrong bits of a double-bit error. -/
def State.dbgRead (s : State) (space a : Nat) (e : Ecc) (flip : Word) : DbgDone :=
  if !s.dbgReaches space a then { st := s, status := 3 }
  else match space with
    | 0 => { st := s, status := 0, data := s.valueAt 4 (sharedSeq (a % 2 ^ 26)) }
    | 1 =>
      let w := wordOf (s.spdBytes (a % 2 ^ 26) 4)
      if !s.spdMay 4 (a % 2 ^ 26) 4 false then { st := s, status := 3 }
      else { st := s, status := if e == .double then 4 else 0, data := if e == .double then w ^^^ flip else w }
    | 2 => match (s.serveFirst (a % 2 ^ 41) 4).readBytes (a % 2 ^ 41) 4 4 with
      | (t, l, refused, ep) => if refused then { st := t, status := 3 } else { st := t, status := if ep then 4 else 0, data := wordOf l }
    | _ => match s.coreBytes (a % 2 ^ 32) with
      | some l => { st := s, status := 0, data := wordOf l }
      | none => { st := s, status := 3 }

/-- A write of the debug master: an ordinary write that counts in its key window. -/
def State.dbgWrite (s : State) (space a : Nat) (v : Word) (x : WriteAux) : DbgDone :=
  if !s.dbgReaches space a then { st := s, status := 3 }
  else match space with
    | 0 =>
      let n := sharedSeq (a % 2 ^ 26)
      let keyed := decide (0 < s.keyLeft 4)
      { st := (s.txn 4).writeReg 4 n v keyed x, status := if protectedWrite n v && !keyed then 7 else 0 }
    | 1 => match (s.txn 4).spdWrite 4 (a % 2 ^ 26) (leBytes 4 v.toNat) with
      | (t, ok) => { st := t, status := if ok then 0 else 3 }
    | 2 => match ((s.txn 4).serveFirst (a % 2 ^ 41) 4).writeBytes (a % 2 ^ 41) (leBytes 4 v.toNat) 4 with
      | (t, refused) => { st := t, status := if refused then 3 else 0 }
    | _ =>
      let c := a % 2 ^ 32
      if inTcm space a then
        { st := (s.txn 4).tcmPut 4 (c - 0x10000000) (leBytes 4 v.toNat), status := 0 }
      else { st := s.txn 4, status := 3 }

/-- An address that no access can use (R401). -/
def glintAddrBad (a : Nat) : Bool := a % 4 != 0 || a / 2 ^ 41 % 8 != 0 || decide (4 ≤ a / 2 ^ 44)

/-- Why a request is refused before any access, as its status: a wrong CRC, base in reset, locked, a bad address. `rd0` says that the
op is a read. -/
def State.glintRefused (s : State) (rd0 : Bool) (a : Nat) (bits : List Bool) (crc : BitVec 8) : Option Nat :=
  if crc8 bits ≠ crc.toNat then some 1
  else if s.mode = modeRESET then some 5
  else if s.glintLock && !(rd0 && a / 2 ^ 44 == 0) then some 6
  else if glintAddrBad a then some 2 else none

/-- The access waits: for a row that another requester has reserved (R377), for a vault that takes no request, or for one that waits. -/
def State.glintWaits (s : State) (a : Nat) : Bool :=
  !s.glint.waiting.isEmpty || (a / 2 ^ 44 == 2 && s.accessWaits 4 (a % 2 ^ 41) 4)

def State.glintPrev (s : State) (a : BitVec 48) : State := { s with glint := { s.glint with prev := a } }

/-- An access that waits; its frame goes on, and the device answers 1 in each slot (R400). -/
def State.glintHold (s : State) (q : GlintReq) : State := { s with glint := { s.glint with waiting := s.glint.waiting ++ [q] } }

/-- The read completes, with a response if its frame is still there. What the data field of a refused read holds the spec does not say. -/
def State.glintReadNow (s : State) (a : BitVec 48) (e : Ecc) (flip : Word) (mine : Bool) : State :=
  let r := s.dbgRead (a.toNat / 2 ^ 44) (a.toNat % 2 ^ 41) e flip
  if !mine then r.st
  else if r.status = 3 then r.st.tickFree.glintReply 3 (some (Config.freeWord r.st.free))
  else r.st.glintReply r.status (some r.data)

/-- The write completes, with a response if its frame is still there. -/
def State.glintWriteNow (s : State) (a : BitVec 48) (v : Word) (x : WriteAux) (mine : Bool) : State :=
  let r := s.dbgWrite (a.toNat / 2 ^ 44) (a.toNat % 2 ^ 41) v x
  if mine then r.st.glintReply r.status none else r.st

/-- The oldest access that waits completes, as soon as it need not wait any more, whether its frame is still there or not (R400). -/
def State.glintServe (s : State) : State :=
  match s.glint.waiting with
  | [] => s
  | q :: rest =>
    let t : State := { s with glint := { s.glint with waiting := rest } }
    if !s.busUp || s.accessWaits 4 (q.addr.toNat % 2 ^ 41) 4 then s
    else match q.wr with
      | none => t.glintReadNow q.addr .ok 0 (q.mine && s.glint.inFrame)
      | some (v, x) => t.glintWriteNow q.addr v x (q.mine && s.glint.inFrame)

/-- A read request at address `a`. -/
def State.glintRead (s : State) (a : BitVec 48) (bits : List Bool) (crc : BitVec 8) (slots : List GlintSlot) (e : Ecc) (flip : Word) : State :=
  if !s.glintTakes slots bits crc then s
  else match s.glintRefused true a.toNat bits crc with
    | some 1 => s.tickFree.glintReply 1 (some (Config.freeWord s.free))
    | some c => (s.tickFree.glintPrev a).glintReply c (some (Config.freeWord s.free))
    | none =>
      if s.glintWaits a.toNat then (s.glintPrev a).glintHold { addr := a, wr := none, mine := true }
      else (s.glintPrev a).glintReadNow a e flip true

/-- A write request at address `a`. -/
def State.glintWrite (s : State) (a : BitVec 48) (v : Word) (bits : List Bool) (crc : BitVec 8) (slots : List GlintSlot) (x : WriteAux) :
    State :=
  if !s.glintTakes slots bits crc then s
  else match s.glintRefused false a.toNat bits crc with
    | some 1 => s.glintReply 1 none
    | some c => (s.glintPrev a).glintReply c none
    | none =>
      if s.glintWaits a.toNat then (s.glintPrev a).glintHold { addr := a, wr := some (v, x), mine := true }
      else (s.glintPrev a).glintWriteNow a v x true

/-- The Glint status word (R401). -/
def State.glintWord (s : State) : Word :=
  (if s.mode = modeRESET then 0 else 0x80000000#32) ||| (if s.inMonitor then 0x40000000#32 else 0)
    ||| (if s.glintLock then 0x20000000#32 else 0) ||| 0x2048#32

/-- A request without address and data: STATUS, or an op that does not exist. -/
def State.glintOp (s : State) (op : BitVec 8) (crc : BitVec 8) (slots : List GlintSlot) : State :=
  if !s.glintTakes slots (glintBits op.toNat none none) crc then s
  else if crc8 (glintBits op.toNat none none) ≠ crc.toNat then
    s.tickFree.glintReply 1 (if op = 5 then some (Config.freeWord s.free) else none)
  else if op = 5 then s.glintReply 0 (some s.glintWord)
  else if s.mode = modeRESET then s.glintReply 5 none
  else if s.glintLock then s.glintReply 6 none
  else s.glintReply 2 none

/-! ### SMBus (R488, R489) -/

/-- The target answers: AON is up and VIO is good. -/
def State.smbOn (s : State) : Bool := s.aon.up && s.aon.vio

/-- The 7-bit address (R488). -/
def State.smbAddress (s : State) : Nat := 0x5C + (s.aon.strap.getD 0).toNat

/-- An offset that reads reach. -/
def smbReadable (a : Nat) : Bool :=
  (decide (0x100 ≤ a) && decide (a < 0x120)) || (decide (0x2000 ≤ a) && decide (a < 0x2100))
    || (decide (0x4000 ≤ a) && decide (a < 0x6000)) || (decide (0x100000 ≤ a) && decide (a < 0x180000))
    || (decide (0x200000 ≤ a) && decide (a < 0x300000))

/-- A register that WRITE reaches: RW, RW/C, W1C or commit, of PMU or THM, not protected. -/
def smbWritable (a : Nat) : Bool :=
  ((decide (0x100000 ≤ a) && decide (a < 0x180000)) || (decide (0x200000 ≤ a) && decide (a < 0x280000)))
    && (match regInfo a with
      | some r => r.prot == 0 && (r.rw != 0 || r.w1c != 0 || (commitAt a).isSome)
      | none => false)

/-- The packet error code over the bytes of a transaction, most significant bit first, with the polynomial of SMBus (R488). PRESUMED: log
entry 101. -/
def smbPec (l : List Byte) : Byte := BitVec.ofNat 8 (crc8 (l.flatMap (fun b => (List.range 8).map (fun i => b.getLsbD (7 - i)))))

/-- The packet error code that the host appends to a Block Write of command `cmd`, if it appends one, is right: over address, command, count
and the four bytes (R488). One that is wrong is not acknowledged, and the command has no effect. -/
def State.smbPecOk (s : State) (cmd : Nat) (v : Word) (pec : Option (BitVec 8)) : Bool :=
  let head := [BitVec.ofNat 8 (2 * s.smbAddress), BitVec.ofNat 8 cmd, 4#8]
  match pec with
  | none => true
  | some p => p == smbPec (head ++ leBytes 4 v.toNat)

/-- A read of command `cmd` is answered with bytes, after their count in a block read, and the packet error code. -/
def State.smbAnswer (s : State) (cmd : Nat) (block : Bool) (value : Word) (l : List Byte) : State :=
  let a := 2 * s.smbAddress
  let head := [BitVec.ofNat 8 a, BitVec.ofNat 8 cmd, BitVec.ofNat 8 (a + 1)] ++ (if block then [BitVec.ofNat 8 l.length] else [])
  { s with cpl := { status := .ok, value := value, bytes := l ++ [smbPec (head ++ l)] } }

/-- READ or READ64 returns its status and bytes. -/
def State.smbReply (s : State) (status : Nat) (l : List Byte) : State :=
  s.smbAnswer (if l.length = 4 then 2 else 4) true (wordOf (l.take 4)) (BitVec.ofNat 8 status :: l)

def State.smbMove (s : State) (n : Nat) : State := { s with aon := { s.aon with smbPtr := s.aon.smbPtr + BitVec.ofNat 32 n } }

/-- READ or READ64: `n` bytes at the pointer, 4 or 8. What the bytes of a refused read are the spec does not say. -/
def State.smbRead (s : State) (n : Nat) : State :=
  let a := s.aon.smbPtr.toNat
  let c := if a % n ≠ 0 then 3 else if smbReadable a then 0 else 1
  if c = 0 then (s.smbMove n).smbReply 0 ((List.range (n / 4)).flatMap (fun i => leBytes 4 (s.valueAt 0 (a + 4 * i)).toNat))
  else s.tickFree.smbReply c ((List.range n).map (fun i => Config.freeByte (s.free * 2 ^ 48 + i)))

/-- WRITE at the pointer. -/
def State.smbWrite (s : State) (v : Word) : State :=
  let a := s.aon.smbPtr.toNat
  let c := if a % 4 ≠ 0 then 3 else if !smbReadable a then 1 else if smbWritable a then 0 else 2
  let s : State := { s with aon := { s.aon with smbStatus := BitVec.ofNat 8 c } }
  if c = 0 then
    (match commitAt a with
      | some r => s.commitGo r 0 (v.setWidth 8) false
      | none => s.plainWrite 0 a v false).smbMove 4
  else s

end Sys2Proof.Machine
end

