-- ==== Sys2Proof/Machine/Debug.lean ====
section
/-! DEFINITION. The commands of Glint (13, R399 to R403): pulses, requests with their CRC as received, the end of a frame. -/

namespace Sys2Proof.Machine

/-- A low pulse on RSTDBG of `w` ns, `gap` ns after the falling edge of the slot or sync before it, that is no slot of a request. -/
def execGlintSync (p : GlintSlot) (s : State) : Res := fin s (s.glintPulse p.low p.gap)

/-- READ32 at address `a`; `e` and `flip` say what the check of a scratchpad word reports. -/
def execGlintRead32 (a : BitVec 48) (f : GlintFrame) (e : Ecc) (flip : Word) (s : State) : Res :=
  fin s (s.glintRead a (glintBits 1 (some a) none) f.crc f.slots e flip)

def execGlintWrite32 (a : BitVec 48) (v : Word) (f : GlintFrame) (x : WriteAux) (s : State) : Res :=
  fin s (s.glintWrite a v (glintBits 2 (some a) (some v)) f.crc f.slots x)

/-- READ32 at the previous address + 4. -/
def execGlintReadNext (f : GlintFrame) (e : Ecc) (flip : Word) (s : State) : Res :=
  fin s (s.glintRead (s.glint.prev + 4) (glintBits 3 none none) f.crc f.slots e flip)

/-- WRITE32 at the previous address + 4. -/
def execGlintWriteNext (v : Word) (f : GlintFrame) (x : WriteAux) (s : State) : Res :=
  fin s (s.glintWrite (s.glint.prev + 4) v (glintBits 4 none (some v)) f.crc f.slots x)

/-- STATUS (op 0x05), or an op that the table of R401 does not list. -/
def execGlintStatus (op : BitVec 8) (f : GlintFrame) (s : State) : Res := fin s (s.glintOp op f.crc f.slots)

/-- A gap longer than 64 t, or an end pulse. -/
def execGlintFrameEnd (s : State) : Res := fin s s.glintEnd

end Sys2Proof.Machine
end

