-- ==== Sys2Proof/Machine/Drain.lean ====
section
/-! DEFINITION. Self-test windows and the end of a drain (R89, R102). -/

namespace Sys2Proof.Machine

/-- BISTWIN (R89): imm cycles that carry no vector; the region is held and isolated until it is restored. -/
def execBistwin (k : SiteIx) (w : BitVec 64) (ecc : Ecc) (s : State) : Res :=
  fin s (s.seqExec k w ecc 19 (fun s =>
    let c := (s.getSite k).cycle
    let pc := s.seqPc k
    let s := s.modSite k (fun x => { x with
      restorePending := true, bistEdge := x.fc0 + c + 3, slicesLeft := (seqImm w - 1024) / 102400 })
    let (t, cut) := s.issueUpTo k w (seqImm w) true
    let t := if cut then t else t.goTo k (pc + 1)
    (if t.seqRuns k then (t.setSeqState k 4).modSite k (fun x => { x with wait := .bistwin c (seqImm w) }) else t).followSite k))

/-- The slices of the BISTWIN of site `k` are over: each has run, or a stop has ended them (R89). -/
def State.slicesOver (s : State) (k : Nat) : Bool := (s.getSite k).slicesLeft == 0 && (s.getBist k).run.isNone

/-- Once its slices are over, the region's state is restored and its isolation ends (R89). -/
def execBistwinRestore (k : SiteIx) (s : State) : Res :=
  fin s (if (s.getSite k).restorePending && s.slicesOver k then
    (s.modSite k (fun x => { x with restorePending := false })).followSite k
  else s)

/-- Cycles issued outside windows. -/
def Site.compared (x : Site) : Nat := (x.spans.map (fun sp => if sp.window then 0 else sp.len)).sum

/-- The conditions of R102: every response is judged and any restore has finished. -/
def State.drainReady (s : State) (k : Nat) : Bool :=
  let x := s.getSite k
  s.seqState k == 5 && !x.restorePending && decide (x.compared ≤ x.judged)

/-- The drain of site `k` ends: the row cache is written back, drained = 1, the window of the integrity word closes, and what has
waited for the site to stop happens (R102, R193, R241, R423, R426, R467). -/
def State.drainEnds (s : State) (k : Nat) : State :=
  let s := (s.checkFills k (s.getSite k).cycle).drainCache k
  let s := s.siteDrained k
  let s := if (lanesOf k).any (fun l => (s.getLane l).relock) then s.measureStart k else s
  (s.rpaAuto k).followSite k

def execDrainEnd (k : SiteIx) (s : State) : Res := fin s (if s.drainReady k then s.drainEnds k else s)

end Sys2Proof.Machine
end

