-- ==== Sys2Proof/Machine/Expose.lean ====
section
/-! DEFINITION. The commands of Exposure (13): the snap of FAB_EXP_CTL, the edge, the end of develop. -/

namespace Sys2Proof.Machine

/-- A write of FAB_EXP_CTL (R404, R415). -/
def execExposureSnap (req : Requester) (mask : BitVec 16) (s : State) : Res := fin s (s.onWrite req (fun s => s.expSnap mask))

/-- Edge `e` of region `k` (R404, R405); while the region executes, the cycle that ends there is in effect. -/
def execExposureEdge (k : SiteIx) (e : Nat) (s : State) : Res :=
  fin s (if !s.fabRuns k || (s.getFab k).now + 3 == e then s.expose k e else s)

/-- Develop of region `k` completes (R406). -/
def execDevelopDone (k : SiteIx) (s : State) : Res := fin s (s.develop k)

end Sys2Proof.Machine
end

