-- ==== Sys2Proof/Machine/Host.lean ====
section
/-! DEFINITION. The commands of the host interface, the network and the scratchpad (12): BAR4, scratchpad accesses, DMA engines,
interrupts, packets, isolation, locks and leases. -/

namespace Sys2Proof.Machine

/-! ### BAR4 (R358, R359, R377) -/

/-- The host reads `n` bytes at BAR4 offset `off`; `attr` is 1 where the request reserves the service buffer and 2 where it releases it. It
waits for a row that another requester has reserved, and for a vault that takes no request. -/
def execBar4Read (off : BitVec 41) (n : BitVec 13) (attr : BitVec 2) (badEcrc : Bool) (s : State) : Res :=
  fin s (if !s.reaches 0 then s
    else if badEcrc then (s.tlpTaken .badEcrc).1
    else match s.bar4Addr off.toNat with
      | none => { s with cpl := { status := .ur } }
      | some a =>
        if s.accessWaits 0 a n.toNat then s
        else
          let (t, bs, refused, ep) := (s.serveFirst a n.toNat).readBytes a n.toNat 0
          ({ t with cpl := if refused then { status := .ca } else { status := .ok, bytes := bs, ep := ep } } : State).reserveRow 0 a
            attr.toNat)

/-- The host writes bytes at BAR4 offset `off`; a row that refuses is dropped. The write counts in the host's key window (R16), and so does
one whose TLP is not taken. -/
def execBar4Write (off : BitVec 41) (bs : List Byte) (attr : BitVec 2) (tlp : Tlp) (s : State) : Res :=
  fin s (if !s.reaches 0 then s
    else
      let (s, taken) := s.tlpTaken tlp
      if !taken then s.txn 0
      else match s.bar4Addr off.toNat with
        | none => { s.txn 0 with cpl := { status := .ur } }
        | some a =>
          if s.accessWaits 0 a bs.length then s else (((s.txn 0).serveFirst a bs.length).writeBytes a bs 0).1.reserveRow 0 a attr.toNat)

/-! ### The scratchpad (R359, R374, R375) -/

/-- What the core does by an access. -/
def coreUse (use : SpdUse) (wr : Bool) : CoreUse :=
  match use with
  | .plain => if wr then .store else .load
  | _ => .atomic

/-- The exception of the hart that an access of `n` bytes at scratchpad offset `a` raises; other requesters have none (R382, R388). -/
def State.spdTrap (s : State) (req : Requester) (a n : Nat) (wr : Bool) (use : SpdUse) (user : Bool) : Option CoreTrap :=
  if req = 3 then s.coreTrap user (coreUse use wr) (0x60000000 + a) n else none

/-- A read of `n` bytes that the scratchpad serves: the bytes as the check `o` delivers them, poisoned by a double-bit error (R374). -/
def State.spdServe (s : State) (req a n : Nat) (o : SpdObs) : State :=
  match s.spdRead req a n with
  | (t, none) => { t with cpl := { status := .ca } }
  | (t, some l) => { t.spdChecked o with cpl := { status := .ok, bytes := flipBytes o l, ep := o.double } }

/-- LR, SC and the AMOs of the hart at scratchpad offset `a` (R382); `l` are the bytes of SC or AMO. SC answers 0 where it has written, else
1, and ends the reservation. -/
def State.spdAtomic (s : State) (a : Nat) (use : SpdUse) (l : List Byte) (o : SpdObs) : State :=
  let w := 0x60000000 + a
  let old := flipBytes o (s.spdBytes a 4)
  match use with
  | .plain => s
  | .lr =>
    let t := s.spdServe 3 a 4 o
    if s.spdMay 3 a 4 false then t.modCpu (fun c => { c with resv := some w }) else t
  | .sc =>
    let s1 := s.modCpu (fun c => { c with resv := none })
    if s.cpu.resv = some w then
      let (t, ok) := s1.spdWrite 3 a l
      { t with cpl := { status := if ok then .ok else .ca, value := 0 } }
    else { s1 with cpl := { status := .ok, value := 1 } }
  | .amo op =>
    if s.spdMay 3 a 4 false && s.spdMay 3 a 4 true then
      let t := ((s.spdServe 3 a 4 o).spdWrite 3 a (leBytes 4 (amoResult op (BitVec.ofNat 32 (ofLe old)) (BitVec.ofNat 32 (ofLe l))).toNat)).1
      t
    else { s.spdDenied 3 a true with cpl := { status := .ca } }

/-- Requester `req` writes bytes at scratchpad offset `a` (for the host, BAR2 offset `a`), or reads `n` bytes. `o` is what the checks of
the words read report. A write counts in the key window of its requester (R16). Of BAR2, the upper half is the image sink, which reads 0, and
the rest beyond the scratchpad is reserved (R357, R359). An access of the hart may raise an exception instead. -/
def execSpdAccess (req : Requester) (a : BitVec 29) (wr : Option (List Byte)) (n : BitVec 13) (how : SpdHow) (o : SpdObs) (s : State) : Res :=
  fin s (if !s.reaches req then s
    else
      let sink := req == 0 && decide (2 ^ 28 ≤ a.toNat)
      let len := match wr with
        | some l => l.length
        | none => n.toNat
      let s := if req = 3 ∨ (wr.isSome && !sink) then s.txn req.toNat else s
      match s.spdTrap req a.toNat len wr.isSome how.use how.user with
      | some t => s.takeTrap t (coreUse how.use wr.isSome) (0x60000000 + a.toNat)
      | none =>
        if how.use ≠ .plain ∧ req = 3 then s.spdAtomic a.toNat how.use (wr.getD []) o
        else match wr with
          | some l =>
            if sink then s.sinkWrite (a.toNat - 2 ^ 28) l
            else if 2 ^ 26 < a.toNat + l.length then { s with cpl := { status := .ur } }
            else (s.spdWrite req.toNat a.toNat l).1
          | none =>
            if sink then { s with cpl := { status := .ok, bytes := List.replicate n.toNat 0 } }
            else if 2 ^ 26 < a.toNat + n.toNat then { s with cpl := { status := .ur } }
            else s.spdServe req.toNat a.toNat n.toNat o)

/-- An ordinary read of SPD_LOCK (R379). -/
def execSpdLockRead (req : Requester) (n : Fin 16) (s : State) : Res :=
  fin s (if s.reaches req then
    { (s.readTxn req).lockAcquire req.toNat n with cpl := { status := .ok, value := s.lockValue req.toNat n } }
  else s)

/-- A write of SPD_LOCK, of any value (R379). -/
def execSpdLockRelease (req : Requester) (n : Fin 16) (s : State) : Res :=
  fin s (s.onWrite req (fun s => s.lockRelease req.toNat n))

/-- The lease of a lock runs out (R377). -/
def execLockLeaseTimeout (n : Fin 16) (s : State) : Res := fin s (s.lockExpires n)

/-- 4 µs have passed since the holder's last request to the reserved buffer (R377). -/
def execBufferReservationTimeout (v : VaultIx) (s : State) : Res := fin s (s.reservationExpires v)

/-! ### DMA engines (R367 to R369) -/

def execDmaGo (req : Requester) (e : Fin 2) (s : State) : Res := fin s (s.onWrite req (fun s => s.dmaCtl req e 1))
def execDmaStop (req : Requester) (e : Fin 2) (s : State) : Res := fin s (s.onWrite req (fun s => s.dmaCtl req e 2))
def execDmaAbort (req : Requester) (e : Fin 2) (s : State) : Res := fin s (s.onWrite req (fun s => s.dmaCtl req e 4))
def execDmaReset (req : Requester) (e : Fin 2) (s : State) : Res := fin s (s.onWrite req (fun s => s.dmaCtl req e 8))

def execDmaHeadWrite (req : Requester) (e : Fin 2) (head : BitVec 16) (s : State) : Res :=
  fin s (s.onWrite req (fun s => s.dmaHead e head.toNat))

/-- The descriptor in progress ends: `desc` and `hostData` are what the engine read from host memory, `hostErr` says that a host access
failed, `moved` how many bytes had moved where the descriptor did not complete, `o` what the checks of the scratchpad words report. -/
def execDmaDescriptorDone (e : Fin 2) (desc hostData : List Byte) (hostErr : Bool) (moved : Nat) (o : DmaObs) (s : State) : Res :=
  fin s (if s.dmaMayEnd e desc o then s.dmaEnd e desc hostData hostErr moved o else s)

/-- Nothing has moved for GLB_DMA_TMO: code 3, and the ring's lease is revoked (R367, R377, R378). -/
def execDmaTimeout (e : Fin 2) (desc hostData : List Byte) (moved : Nat) (s : State) : Res :=
  fin s (if s.dmaBusy e && s.fld (Reg.glbDmaTmo e) 0 16 != 0 then
    (s.dmaEnd e desc hostData true moved {}).setBit Reg.nocEvt 4 true
  else s)

/-! ### Interrupts (R366) -/

def execIrqEoi (req : Requester) (v : BitVec 6) (s : State) : Res := fin s (s.onWrite req (fun s => s.irqEoi v.toNat))

/-- The host sets the MSI-X enable, the function mask and the mask bits of the table, and with `conf` the BARs and the power state in
configuration space. -/
def execMsixEnable (ctl : MsixCtl) (mask : BitVec 64) (conf : Option PciConf) (s : State) : Res :=
  fin s (if s.mode = modeRESET then s
    else (({ s with host := { s.host with linkUp := true } } : State).pciSet conf).msixSet ctl.enable ctl.funcMask mask)

/-! ### Packets, isolation, statistics (R370, R373, R380) -/

/-- A packet of requester `req` arrives: how often its CRC failed (a second failure ends it), whether it is malformed, what it asks for, its
bytes, and the latency in bc. -/
def execNocPacket (req : Requester) (fails : Fin 3) (malformed : Bool) (ask : NocAsk) (bytes latency : Nat) (s : State) : Res :=
  fin s (if s.reaches req then s.nocPacket req fails malformed ask bytes latency else s)

def execNocIsolate (req i : Requester) (s : State) : Res :=
  fin s (s.onKeyed req (fun keyed s => s.isoCmd req (i.setWidth 32) keyed))

def execNocRelease (req i : Requester) (s : State) : Res :=
  fin s (s.onKeyed req (fun keyed s => s.isoCmd req (i.setWidth 32 ||| 0x20#32) keyed))

def execNocStatSnap (req : Requester) (s : State) : Res := fin s (s.onWrite req State.nocSnap)

end Sys2Proof.Machine
end

