-- ==== Sys2Proof/Machine/Registers.lean ====
section
/-! DEFINITION. The commands of register space (R6 to R16, R359 to R362): reads and writes of BAR0 by their kinds, key windows, and
commits. A host access narrower than 32 bits carries `narrow`. -/

namespace Sys2Proof.Machine

/-- A write of GLB_KEY opens or closes the requester's key window (R16, R362). -/
def execKeyWrite (req : Requester) (v : Word) (s : State) : Res := fin s (s.onWrite req (fun s => s.keyWrite req v))

/-- A write of a register that has no command of its own: by its access types (R9), or by what the register's chapter says. -/
def execRegisterWrite (req : Requester) (a : BitVec 26) (v : Word) (narrow : Bool) (x : WriteAux) (s : State) : Res :=
  fin s (s.busWrite req a v narrow x)

/-- An ordinary read: of a lo register it latches hi for the requester; of hi it returns the latch (R7). -/
def execLoRead (req : Requester) (a : BitVec 26) (narrow : Bool) (s : State) : Res := fin s (s.busRead req a narrow false)

/-- A write of a lo register goes to the requester's holding register (R8). -/
def execLoWrite (req : Requester) (a : BitVec 26) (v : Word) (narrow : Bool) (s : State) : Res :=
  fin s (s.busWrite req a v narrow { lost := false, dropped := 0, last := 0 })

/-- A write of a hi register writes both halves after a write of lo by the same requester, else hi alone (R8). -/
def execHiWrite (req : Requester) (a : BitVec 26) (v : Word) (narrow : Bool) (s : State) : Res :=
  fin s (s.busWrite req a v narrow { lost := false, dropped := 0, last := 0 })

/-- An ordinary read of a register with RC fields returns them and clears them (R9). -/
def execReadClear (req : Requester) (a : BitVec 26) (narrow : Bool) (s : State) : Res := fin s (s.busRead req a narrow false)

/-- An ordinary read of an RP queue returns and removes its head, or returns the empty code (R9). -/
def execQueuePop (req : Requester) (a : BitVec 26) (narrow : Bool) (s : State) : Res := fin s (s.busRead req a narrow false)

/-- A read with the debug attribute, without side effect (R11). -/
def execPeek (req : Requester) (a : BitVec 26) (narrow : Bool) (s : State) : Res := fin s (s.busRead req a narrow true)

/-- A go write of a commit register (R13 to R15). -/
def execCommitGo (req : Requester) (c : CommitReg) (go : BitVec 8) (s : State) : Res :=
  fin s (s.onBlock req (commitAddr c) (fun keyed s => s.commitGo c req go keyed))

/-- The safe point of a pending commit: its snapshot becomes active (R12, R15). -/
def execCommitApply (c : CommitReg) (s : State) : Res := fin s (s.commitApply c)

end Sys2Proof.Machine
end

