-- ==== Sys2Proof/Machine/Sideband.lean ====
section
/-! DEFINITION. The commands of the SMBus target (16, R488, R489). -/

namespace Sys2Proof.Machine

/-- SET_ADDR; `pec` is the packet error code where the host appends one (R488). -/
def execSmbSetAddr (d : SmbData) (s : State) : Res :=
  fin s (if s.smbOn && s.smbPecOk 1 d.value d.pec then { s with aon := { s.aon with smbPtr := d.value } } else s)

def execSmbRead (s : State) : Res := fin s (if s.smbOn then s.smbRead 4 else s)
def execSmbWrite (d : SmbData) (s : State) : Res := fin s (if s.smbOn && s.smbPecOk 3 d.value d.pec then s.smbWrite d.value else s)
def execSmbRead64 (s : State) : Res := fin s (if s.smbOn then s.smbRead 8 else s)

/-- The status of the last WRITE. -/
def execSmbStatus (s : State) : Res :=
  fin s (if s.smbOn then s.smbAnswer 5 false 0 [s.aon.smbStatus] else s)

/-- The Alert Response Address is answered with the target's own while ALERT_N is asserted. -/
def execSmbAlertResponse (s : State) : Res :=
  fin s (if s.smbOn && s.alertAsserted then { s with cpl := { status := .ok, value := BitVec.ofNat 32 s.smbAddress } } else s)

end Sys2Proof.Machine
end

