-- ==== Sys2Proof/Machine/Start.lean ====
section
/-! DEFINITION. The commands of start-up, of the supply and of the clocks (02, 14). -/

namespace Sys2Proof.Machine

/-! ### Start-up (R40 to R42) -/

/-- VIN reaches 2.5 V: AON comes up; the straps are sampled if VIO is good (R42, R484). -/
def execAonUp (strap : BitVec 2) (s : State) : Res :=
  fin s (if s.aon.up then s
    else (s.setAon (fun a => { a with
      up := true, brown := false, step := 1, strap := if a.vio then (a.strap <|> some strap) else a.strap })).railsTo 1)

/-- The judgement window ends with `count` REFCLK edges (R40). -/
def execRefclkJudgement (count : Nat) (s : State) : Res :=
  fin s (if !s.atStep 1 then s
    else if 3072 ≤ count ∧ count ≤ 5120 then s.stepPasses 1 2
    else s.stepFails 1)

/-- The root PLL locks; in RESET the AON clock is HCLK from here on (R431), and no unlock holds over any more (R445). -/
def execPllLock (s : State) : Res :=
  fin s (if !s.atStep 2 then s
    else if s.mode = modeRESET then ((s.stepPasses 2 3).setBit Reg.clkStat 6 false).setBit Reg.clkStat 3 false
    else s.stepPasses 2 3)

/-- The root PLL does not lock within its limit (R41). -/
def execPllLockTimeout (s : State) : Res := fin s (if s.atStep 2 then s.stepFails 2 else s)

/-- The ratio confirmation ends: `count` edges of root/160 over 16,384 REFCLK edges, and the deviation of REFCLK (R40). -/
def execRatioConfirmation (count : Nat) (ppm : BitVec 16) (s : State) : Res :=
  fin s (if !s.atStep 3 then s
    else
      let s := s.wr Reg.clkRefPpm (ppm.zeroExtend 32)
      if 16376 ≤ count ∧ count ≤ 16392 then (s.stepPasses 3 0).afterRatio else s.stepFails 3)

/-- VIN has stayed above the release threshold for 100 µs (R418). -/
def execBrownoutRelease (s : State) : Res :=
  fin s (if s.aon.up then ((s.setAon (fun a => { a with vinOk := true })).setBit Reg.pmuEvt 1 false).showRails else s)

/-- The last rail enters its window (R422). -/
def execRailSequencingDone (s : State) : Res :=
  fin s (if s.sequencing then (((s.setBit Reg.glbStartup 3 true).railsTo 8).setStep 5).maybeTrain else s)

/-- Rail `r` does not enter its window within 1 ms of its turn (R420): the rails turn off again, but VAON, before the repeat (R41). One
that has entered its window cannot. -/
def execRailWindowTimeout (r : Fin 23) (s : State) : Res :=
  fin s (if s.sequencing && decide (s.aon.railsIn ≤ railOrder r) then (s.stepFails 4).railsTo 1 else s)

/-! ### The supply (R418 to R421) -/

def execBrownoutWarning (s : State) : Res := fin s (if s.aon.up then s.setBit Reg.pmuEvt 1 true else s)

def execOvervoltageWarning (s : State) : Res := fin s (if s.aon.up then s.setBit Reg.pmuEvt 2 true else s)

/-- VIN falls below 5.50 V: vin_high clears (R418). -/
def execOvervoltageWarningCleared (s : State) : Res := fin s (if s.aon.up then s.setBit Reg.pmuEvt 2 false else s)

/-- A brownout reset with its record (R419): a POR-kind reset, with PARK_N asserted. The rails that are on turn off one after the other,
the last of the order first: one in each tick (log entry 109). -/
def State.brownout (s : State) (rec0 : Nat) : State :=
  ((s.porReset).wr Reg.pmuResetRec (BitVec.ofNat 32 rec0)).setAon (fun a => { a with brown := true, railsIn := s.aon.railsIn })

/-- VIN falls below the reset threshold (R419). -/
def execBrownoutReset (s : State) : Res := fin s (if s.aon.up then s.brownout (2 ^ 31 + 2 ^ 29) else s)

/-- Rail `r` stays out of its window while it is on, once it has entered it (R420). -/
def execRailOutOfWindow (r : Fin 23) (high : Bool) (s : State) : Res :=
  fin s (if s.aon.up && decide (railOrder r < s.aon.railsIn) && s.railTarget r != 0 then
    s.brownout (2 ^ 31 + (if high then 3 else 2) * 2 ^ 29 + r.val * 2 ^ 24)
  else s)

/-- VIN falls below 1.8 V: no power is left, and PMU_RESET_REC is cleared (R419). -/
def execVinBelow1v8 (s : State) : Res :=
  fin s (((s.porReset).wr Reg.pmuResetRec 0).setAon (fun a => { a with strap := none }))

def execInputCurrentLimit (s : State) : Res :=
  fin s (if s.aon.up then (s.setBit Reg.pmuStat 25 true).setBit Reg.pmuEvt 3 true else s)

def execInputCurrentLimitReleased (s : State) : Res := fin s (s.setBit Reg.pmuStat 25 false)

/-- The limit has acted for 20 µs without a break (R421). -/
def execIlimSafe (s : State) : Res := fin s (if s.bit Reg.pmuStat 25 && !s.bit Reg.glbMode 10 then s.safeArrive 2 else s)

/-- VIO becomes good; the straps are sampled on the first occasion (R484). -/
def execVioGood (strap : BitVec 2) (s : State) : Res :=
  fin s (s.setAon (fun a => { a with vio := true, strap := if a.up then (a.strap <|> some strap) else a.strap }))

/-- VIO falls: a Glint frame in progress is lost (R484). -/
def execVioNotGood (s : State) : Res :=
  fin s { s.setAon (fun a => { a with vio := false }) with glint := { s.glint with inFrame := false } }

/-- A measurement: VIN in mV, the input current in 10 mA, each rail in mV and mA (R424). -/
def execTelemetrySample (vin iin : BitVec 16) (railV railI : List Nat) (s : State) : Res :=
  fin s (if s.aon.up then s.teleSample vin.toNat iin.toNat railV railI else s)

def execBudgetUpdate (s : State) : Res := fin s (if s.aon.up then s.budgetUpdate else s)

/-- A 10 ms window of site `k` ends with an average power in mW (R428). -/
def execSitePowerWindow (k : SiteIx) (avg : Nat) (s : State) : Res :=
  fin s (if s.admitted k then
    let s1 := s.setFld (Reg.pmuSite k) 16 8 (min 255 (avg / 250))
    if 11 * 250 * s.sitePower k < 10 * avg then (s1.setBit (Reg.pmuSite k) 13 true).setBit Reg.pmuEvt 4 true else s1
  else s)

/-! ### Clocks (R55, R430, R433, R434) -/

def execRefclkLoss (dropped : BitVec 256) (s : State) : Res :=
  fin s (if s.aon.up && s.clocksRun then s.clockLoss false dropped else s)

def execPllUnlock (dropped : BitVec 256) (s : State) : Res :=
  fin s (if s.aon.up && s.clocksRun then s.clockLoss true dropped else s)

/-- REFCLK, the PLL and the ratio are good again: the root clocks restart, and the safety watchdog with a full period (R55, R393). -/
def execClockRestart (s : State) : Res :=
  fin s (if s.aon.up && !s.clocksRun && s.aon.step == 0 && s.fld Reg.clkStat 0 3 == 7 then
    let s := ((s.setBit Reg.clkStat 6 false).setBit Reg.clkStat 3 false).setStep 5
    State.resumeLanes { s with cpu := { s.cpu with nmi := false } }
  else s)

/-- A write of CLK_FSEL. -/
def execFclkChange (req : Requester) (sel : BitVec 2) (s : State) : Res :=
  fin s (s.onKeyed req (fun keyed s => s.fselWrite req sel.toNat keyed))

def execFclkChangeDone (s : State) : Res := fin s s.fselDone

/-- A write of CLK_FMEAS_CTL with go. -/
def execFmeasGo (req : Requester) (meas ref : BitVec 3) (n : BitVec 8) (s : State) : Res :=
  fin s (s.onWrite req (fun s =>
    s.fmeasWrite (BitVec.ofNat 32 (2 ^ 30 + meas.toNat * 2 ^ 24 + ref.toNat * 2 ^ 20 + n.toNat * 2 ^ 8))))

/-- The count ends (R434); `result` is what it counts of or against the monitor oscillator. -/
def execFmeasDone (result : Word) (s : State) : Res := fin s (s.fmeasEnd result)

end Sys2Proof.Machine
end

