-- ==== Sys2Proof/Machine/Dispatch.lean ====
section
/-! DEFINITION. The meaning of every command: one arm for each constructor of Instr. -/

namespace Sys2Proof.Machine

def exec (i : Instr) (s : State) : Host.Outcome State Fault Refusal :=
  match i with
  | .vec k w ecc => Sys2Proof.Machine.execVec k w ecc s
  | .rpt k w ecc => Sys2Proof.Machine.execRpt k w ecc s
  | .loop k w ecc => Sys2Proof.Machine.execLoop k w ecc s
  | .endl k w ecc => Sys2Proof.Machine.execEndl k w ecc s
  | .jmp k w ecc => Sys2Proof.Machine.execJmp k w ecc s
  | .jcc k w ecc => Sys2Proof.Machine.execJcc k w ecc s
  | .call k w ecc => Sys2Proof.Machine.execCall k w ecc s
  | .ret k w ecc => Sys2Proof.Machine.execRet k w ecc s
  | .matchLoop k w ecc => Sys2Proof.Machine.execMatchLoop k w ecc s
  | .matchDecision k => Sys2Proof.Machine.execMatchDecision k s
  | .seqHalt k w ecc => Sys2Proof.Machine.execSeqHalt k w ecc s
  | .seqPark k w ecc => Sys2Proof.Machine.execSeqPark k w ecc s
  | .sync k w ecc => Sys2Proof.Machine.execSync k w ecc s
  | .syncRelease mask id => Sys2Proof.Machine.execSyncRelease mask id s
  | .setf k w ecc => Sys2Proof.Machine.execSetf k w ecc s
  | .waitf k w ecc => Sys2Proof.Machine.execWaitf k w ecc s
  | .waitfComplete k => Sys2Proof.Machine.execWaitfComplete k s
  | .waitTimeout k => Sys2Proof.Machine.execWaitTimeout k s
  | .ldlc k w ecc => Sys2Proof.Machine.execLdlc k w ecc s
  | .seqLdx k w ecc => Sys2Proof.Machine.execSeqLdx k w ecc s
  | .addx k w ecc => Sys2Proof.Machine.execAddx k w ecc s
  | .sww k w ecc => Sys2Proof.Machine.execSww k w ecc s
  | .calwin k w ecc => Sys2Proof.Machine.execCalwin k w ecc s
  | .bistwin k w ecc => Sys2Proof.Machine.execBistwin k w ecc s
  | .bistwinRestore k => Sys2Proof.Machine.execBistwinRestore k s
  | .expose k w ecc => Sys2Proof.Machine.execExpose k w ecc s
  | .capctlSelectBlock k w ecc => Sys2Proof.Machine.execCapctlSelectBlock k w ecc s
  | .capctlSetMode k w ecc => Sys2Proof.Machine.execCapctlSetMode k w ecc s
  | .seqFlush k w ecc => Sys2Proof.Machine.execSeqFlush k w ecc s
  | .seqIrqInstr k w ecc => Sys2Proof.Machine.execSeqIrqInstr k w ecc s
  | .ovl k w ecc => Sys2Proof.Machine.execOvl k w ecc s
  | .overlayLoadDone k => Sys2Proof.Machine.execOverlayLoadDone k s
  | .lockstepMismatch k cycle => Sys2Proof.Machine.execLockstepMismatch k cycle s
  | .drainEnd k => Sys2Proof.Machine.execDrainEnd k s
  | .seqArm req k hflag => Sys2Proof.Machine.execSeqArm req k hflag s
  | .armComplete k => Sys2Proof.Machine.execArmComplete k s
  | .seqStart req k hflag lost => Sys2Proof.Machine.execSeqStart req k hflag lost s
  | .seqStop req k hflag last => Sys2Proof.Machine.execSeqStop req k hflag last s
  | .seqDisarm req k hflag => Sys2Proof.Machine.execSeqDisarm req k hflag s
  | .seqGstart req mask lost => Sys2Proof.Machine.execSeqGstart req mask lost s
  | .seqGstop req mask => Sys2Proof.Machine.execSeqGstop req mask s
  | .seqXflagsSet req flags => Sys2Proof.Machine.execSeqXflagsSet req flags s
  | .seqXflagsClr req flags => Sys2Proof.Machine.execSeqXflagsClr req flags s
  | .svSeekHost req k value => Sys2Proof.Machine.execSvSeekHost req k value s
  | .svRowArrive k row => Sys2Proof.Machine.execSvRowArrive k row s
  | .ptxVectorFrame l f => Sys2Proof.Machine.execPtxVectorFrame l f s
  | .ptxIdleFrame l f => Sys2Proof.Machine.execPtxIdleFrame l f s
  | .ptxParkFrame l f => Sys2Proof.Machine.execPtxParkFrame l f s
  | .ptxMarkerFrame l f => Sys2Proof.Machine.execPtxMarkerFrame l f s
  | .prxDataFrame l f fr expBad dis => Sys2Proof.Machine.execPrxDataFrame l f fr expBad dis s
  | .prxIdleFrame l f fr => Sys2Proof.Machine.execPrxIdleFrame l f fr s
  | .prxParkedFrame l f fr => Sys2Proof.Machine.execPrxParkedFrame l f fr s
  | .prxMarkerFrame l f fr => Sys2Proof.Machine.execPrxMarkerFrame l f fr s
  | .los l => Sys2Proof.Machine.execLos l s
  | .cdrLock l => Sys2Proof.Machine.execCdrLock l s
  | .cdrLossOfLock l => Sys2Proof.Machine.execCdrLossOfLock l s
  | .frameLock l => Sys2Proof.Machine.execFrameLock l s
  | .echoMissing l => Sys2Proof.Machine.execEchoMissing l s
  | .lnkMeasureGo req mask => Sys2Proof.Machine.execLnkMeasureGo req mask s
  | .prbsSync r => Sys2Proof.Machine.execPrbsSync r s
  | .prbsSyncLost l bits => Sys2Proof.Machine.execPrbsSyncLost l bits s
  | .injectFlipBit req w rate => Sys2Proof.Machine.execInjectFlipBit req w rate s
  | .injectFlipRepeat req w rate => Sys2Proof.Machine.execInjectFlipRepeat req w rate s
  | .injectCorruptCrc req w rate => Sys2Proof.Machine.execInjectCorruptCrc req w rate s
  | .injectCancel req w rate => Sys2Proof.Machine.execInjectCancel req w rate s
  | .capInjectCmp req k => Sys2Proof.Machine.execCapInjectCmp req k s
  | .lineClose k => Sys2Proof.Machine.execLineClose k s
  | .failmapMerge k => Sys2Proof.Machine.execFailmapMerge k s
  | .counterUpdate k => Sys2Proof.Machine.execCounterUpdate k s
  | .counterLineLoad k => Sys2Proof.Machine.execCounterLineLoad k s
  | .capFlush req k => Sys2Proof.Machine.execCapFlush req k s
  | .capFlushDone k => Sys2Proof.Machine.execCapFlushDone k s
  | .capClearAreas req k => Sys2Proof.Machine.execCapClearAreas req k s
  | .clearAreasDone k => Sys2Proof.Machine.execClearAreasDone k s
  | .capClearRegs req k => Sys2Proof.Machine.execCapClearRegs req k s
  | .rpaStart req k => Sys2Proof.Machine.execRpaStart req k s
  | .rpaRebuild req k => Sys2Proof.Machine.execRpaRebuild req k s
  | .rpaAbort req k => Sys2Proof.Machine.execRpaAbort req k s
  | .rpaBlockDone k e => Sys2Proof.Machine.execRpaBlockDone k e s
  | .refresh v bank => Sys2Proof.Machine.execRefresh v bank s
  | .scrubRow v => Sys2Proof.Machine.execScrubRow v s
  | .scrubLapAlarm v => Sys2Proof.Machine.execScrubLapAlarm v s
  | .rowActivate v r src => Sys2Proof.Machine.execRowActivate v r src s
  | .rowWriteBack v => Sys2Proof.Machine.execRowWriteBack v s
  | .serviceBufferIdleWriteBack v => Sys2Proof.Machine.execServiceBufferIdleWriteBack v s
  | .refreshRateRestore m => Sys2Proof.Machine.execRefreshRateRestore m s
  | .vaultFail v => Sys2Proof.Machine.execVaultFail v s
  | .selfRefreshExit v => Sys2Proof.Machine.execSelfRefreshExit v s
  | .dramTrainingDone v outcome faulty => Sys2Proof.Machine.execDramTrainingDone v outcome faulty s
  | .rawRead req v => Sys2Proof.Machine.execRawRead req v s
  | .rawWrite req v => Sys2Proof.Machine.execRawWrite req v s
  | .srepRow req v => Sys2Proof.Machine.execSrepRow req v s
  | .srepCol req v => Sys2Proof.Machine.execSrepCol req v s
  | .srepFree req v => Sys2Proof.Machine.execSrepFree req v s
  | .mntDone v => Sys2Proof.Machine.execMntDone v s
  | .vltFuseBurn req v => Sys2Proof.Machine.execVltFuseBurn req v s
  | .vltFuseDone verified e => Sys2Proof.Machine.execVltFuseDone verified e s
  | .contextRead k u ups strays flips => Sys2Proof.Machine.execContextRead k u ups strays flips s
  | .zbusReloadDone k block bus poison => Sys2Proof.Machine.execZbusReloadDone k block bus poison s
  | .cellNop k plane x y n => Sys2Proof.Machine.execCellNop k plane x y n s
  | .cellAdd k plane x y ins err => Sys2Proof.Machine.execCellAdd k plane x y ins err s
  | .cellAdc k plane x y ins err => Sys2Proof.Machine.execCellAdc k plane x y ins err s
  | .cellSub k plane x y ins err => Sys2Proof.Machine.execCellSub k plane x y ins err s
  | .cellSbc k plane x y ins err => Sys2Proof.Machine.execCellSbc k plane x y ins err s
  | .cellAnd k plane x y ins err => Sys2Proof.Machine.execCellAnd k plane x y ins err s
  | .cellOr k plane x y ins err => Sys2Proof.Machine.execCellOr k plane x y ins err s
  | .cellXor k plane x y ins err => Sys2Proof.Machine.execCellXor k plane x y ins err s
  | .cellAndn k plane x y ins err => Sys2Proof.Machine.execCellAndn k plane x y ins err s
  | .cellOrn k plane x y ins err => Sys2Proof.Machine.execCellOrn k plane x y ins err s
  | .cellXnor k plane x y ins err => Sys2Proof.Machine.execCellXnor k plane x y ins err s
  | .cellNot k plane x y ins err => Sys2Proof.Machine.execCellNot k plane x y ins err s
  | .cellMov k plane x y ins err => Sys2Proof.Machine.execCellMov k plane x y ins err s
  | .cellShl k plane x y ins err => Sys2Proof.Machine.execCellShl k plane x y ins err s
  | .cellShr k plane x y ins err => Sys2Proof.Machine.execCellShr k plane x y ins err s
  | .cellSar k plane x y ins err => Sys2Proof.Machine.execCellSar k plane x y ins err s
  | .cellRol k plane x y ins err => Sys2Proof.Machine.execCellRol k plane x y ins err s
  | .cellRor k plane x y ins err => Sys2Proof.Machine.execCellRor k plane x y ins err s
  | .cellCmpEq k plane x y ins err => Sys2Proof.Machine.execCellCmpEq k plane x y ins err s
  | .cellCmpNe k plane x y ins err => Sys2Proof.Machine.execCellCmpNe k plane x y ins err s
  | .cellCmpLtu k plane x y ins err => Sys2Proof.Machine.execCellCmpLtu k plane x y ins err s
  | .cellCmpGeu k plane x y ins err => Sys2Proof.Machine.execCellCmpGeu k plane x y ins err s
  | .cellCmpLt k plane x y ins err => Sys2Proof.Machine.execCellCmpLt k plane x y ins err s
  | .cellCmpGe k plane x y ins err => Sys2Proof.Machine.execCellCmpGe k plane x y ins err s
  | .cellCmpLeu k plane x y ins err => Sys2Proof.Machine.execCellCmpLeu k plane x y ins err s
  | .cellCmpGtu k plane x y ins err => Sys2Proof.Machine.execCellCmpGtu k plane x y ins err s
  | .cellSel k plane x y ins err => Sys2Proof.Machine.execCellSel k plane x y ins err s
  | .cellMinu k plane x y ins err => Sys2Proof.Machine.execCellMinu k plane x y ins err s
  | .cellMaxu k plane x y ins err => Sys2Proof.Machine.execCellMaxu k plane x y ins err s
  | .cellMin k plane x y ins err => Sys2Proof.Machine.execCellMin k plane x y ins err s
  | .cellMax k plane x y ins err => Sys2Proof.Machine.execCellMax k plane x y ins err s
  | .cellPopc k plane x y ins err => Sys2Proof.Machine.execCellPopc k plane x y ins err s
  | .cellBrev k plane x y ins err => Sys2Proof.Machine.execCellBrev k plane x y ins err s
  | .cellLfsr k plane x y ins err => Sys2Proof.Machine.execCellLfsr k plane x y ins err s
  | .cellB2g k plane x y ins err => Sys2Proof.Machine.execCellB2g k plane x y ins err s
  | .cellG2b k plane x y ins err => Sys2Proof.Machine.execCellG2b k plane x y ins err s
  | .cellGinc k plane x y ins err => Sys2Proof.Machine.execCellGinc k plane x y ins err s
  | .cellGdec k plane x y ins err => Sys2Proof.Machine.execCellGdec k plane x y ins err s
  | .cellMulu k plane x y ins err => Sys2Proof.Machine.execCellMulu k plane x y ins err s
  | .cellMuls k plane x y ins err => Sys2Proof.Machine.execCellMuls k plane x y ins err s
  | .cellMulhu k plane x y ins err => Sys2Proof.Machine.execCellMulhu k plane x y ins err s
  | .cellMulhs k plane x y ins err => Sys2Proof.Machine.execCellMulhs k plane x y ins err s
  | .cellCntUp k plane x y ins err => Sys2Proof.Machine.execCellCntUp k plane x y ins err s
  | .cellCntDown k plane x y ins err => Sys2Proof.Machine.execCellCntDown k plane x y ins err s
  | .cellXpar k plane x y ins err => Sys2Proof.Machine.execCellXpar k plane x y ins err s
  | .cellPext k plane x y ins err => Sys2Proof.Machine.execCellPext k plane x y ins err s
  | .cellPdep k plane x y ins err => Sys2Proof.Machine.execCellPdep k plane x y ins err s
  | .cellBfx k plane x y ins err => Sys2Proof.Machine.execCellBfx k plane x y ins err s
  | .cellBfi k plane x y ins err => Sys2Proof.Machine.execCellBfi k plane x y ins err s
  | .cellPsym k plane x y ins err => Sys2Proof.Machine.execCellPsym k plane x y ins err s
  | .cellPbit k plane x y ins err => Sys2Proof.Machine.execCellPbit k plane x y ins err s
  | .cellPbitz k plane x y ins err => Sys2Proof.Machine.execCellPbitz k plane x y ins err s
  | .srWordShift k plane x y n => Sys2Proof.Machine.execSrWordShift k plane x y n s
  | .srBitShift k plane x y n => Sys2Proof.Machine.execSrBitShift k plane x y n s
  | .wireClockEdge k plane x y => Sys2Proof.Machine.execWireClockEdge k plane x y s
  | .residueInject req k plane col row => Sys2Proof.Machine.execResidueInject req k plane col row s
  | .rwReadRequest v => Sys2Proof.Machine.execRwReadRequest v s
  | .rwWriteRequest v => Sys2Proof.Machine.execRwWriteRequest v s
  | .rwReadLand v => Sys2Proof.Machine.execRwReadLand v s
  | .icpWrite k => Sys2Proof.Machine.execIcpWrite k s
  | .icpIsolate k => Sys2Proof.Machine.execIcpIsolate k s
  | .icpRelease k => Sys2Proof.Machine.execIcpRelease k s
  | .icpUse k => Sys2Proof.Machine.execIcpUse k s
  | .icpUnuse k => Sys2Proof.Machine.execIcpUnuse k s
  | .icpCommandDone k => Sys2Proof.Machine.execIcpCommandDone k s
  | .sinkWrite off data => Sys2Proof.Machine.execSinkWrite off data s
  | .imageHeader => Sys2Proof.Machine.execImageHeader s
  | .imageSection => Sys2Proof.Machine.execImageSection s
  | .frameRecord => Sys2Proof.Machine.execFrameRecord s
  | .bodyCheck => Sys2Proof.Machine.execBodyCheck s
  | .signatureVerified => Sys2Proof.Machine.execSignatureVerified s
  | .startUpRelease => Sys2Proof.Machine.execStartUpRelease s
  | .partialFrameWrite => Sys2Proof.Machine.execPartialFrameWrite s
  | .cfgAbort req => Sys2Proof.Machine.execCfgAbort req s
  | .cfgSinkReset req => Sys2Proof.Machine.execCfgSinkReset req s
  | .cfgRelease req mask => Sys2Proof.Machine.execCfgRelease req mask s
  | .stagingLeaseTimeout => Sys2Proof.Machine.execStagingLeaseTimeout s
  | .configScrub errs => Sys2Proof.Machine.execConfigScrub errs s
  | .frameReload f poisoned => Sys2Proof.Machine.execFrameReload f poisoned s
  | .restoreLapDone poisoned => Sys2Proof.Machine.execRestoreLapDone poisoned s
  | .enterStandby req lost dropped => Sys2Proof.Machine.execEnterStandby req lost dropped s
  | .exitStandby req lost => Sys2Proof.Machine.execExitStandby req lost s
  | .boostOn req lost => Sys2Proof.Machine.execBoostOn req lost s
  | .boostOff req lost => Sys2Proof.Machine.execBoostOff req lost s
  | .safeEnter req => Sys2Proof.Machine.execSafeEnter req s
  | .safeAck req lost => Sys2Proof.Machine.execSafeAck req lost s
  | .unload req lost => Sys2Proof.Machine.execUnload req lost s
  | .modeTransitionDone => Sys2Proof.Machine.execModeTransitionDone s
  | .safeCauseCleared code => Sys2Proof.Machine.execSafeCauseCleared code s
  | .warmResetCmd req dropped => Sys2Proof.Machine.execWarmResetCmd req dropped s
  | .fullResetCmd req dropped => Sys2Proof.Machine.execFullResetCmd req dropped s
  | .rstdbgReset width dropped => Sys2Proof.Machine.execRstdbgReset width dropped s
  | .perstNAssert dropped => Sys2Proof.Machine.execPerstNAssert dropped s
  | .perstNDeassert => Sys2Proof.Machine.execPerstNDeassert s
  | .functionReset down => Sys2Proof.Machine.execFunctionReset down s
  | .aonUp strap => Sys2Proof.Machine.execAonUp strap s
  | .refclkJudgement count => Sys2Proof.Machine.execRefclkJudgement count s
  | .pllLock => Sys2Proof.Machine.execPllLock s
  | .ratioConfirmation count ppm => Sys2Proof.Machine.execRatioConfirmation count ppm s
  | .brownoutRelease => Sys2Proof.Machine.execBrownoutRelease s
  | .railSequencingDone => Sys2Proof.Machine.execRailSequencingDone s
  | .fwAuthenticated => Sys2Proof.Machine.execFwAuthenticated s
  | .profileApplied => Sys2Proof.Machine.execProfileApplied s
  | .brownoutWarning => Sys2Proof.Machine.execBrownoutWarning s
  | .brownoutReset => Sys2Proof.Machine.execBrownoutReset s
  | .overvoltageWarning => Sys2Proof.Machine.execOvervoltageWarning s
  | .railOutOfWindow r high => Sys2Proof.Machine.execRailOutOfWindow r high s
  | .inputCurrentLimit => Sys2Proof.Machine.execInputCurrentLimit s
  | .ilimSafe => Sys2Proof.Machine.execIlimSafe s
  | .vioGood strap => Sys2Proof.Machine.execVioGood strap s
  | .vioNotGood => Sys2Proof.Machine.execVioNotGood s
  | .telemetrySample vin iin railV railI => Sys2Proof.Machine.execTelemetrySample vin iin railV railI s
  | .budgetUpdate => Sys2Proof.Machine.execBudgetUpdate s
  | .sitePowerWindow k avg => Sys2Proof.Machine.execSitePowerWindow k avg s
  | .refclkLoss dropped => Sys2Proof.Machine.execRefclkLoss dropped s
  | .pllUnlock dropped => Sys2Proof.Machine.execPllUnlock dropped s
  | .clockRestart => Sys2Proof.Machine.execClockRestart s
  | .fclkChange req sel => Sys2Proof.Machine.execFclkChange req sel s
  | .fmeasGo req meas ref n => Sys2Proof.Machine.execFmeasGo req meas ref n s
  | .fmeasDone result => Sys2Proof.Machine.execFmeasDone result s
  | .sensorSample l readings => Sys2Proof.Machine.execSensorSample l readings s
  | .sensorOutOfService l n => Sys2Proof.Machine.execSensorOutOfService l n s
  | .sensorReturn l n => Sys2Proof.Machine.execSensorReturn l n s
  | .thermalModelUpdate rows cells => Sys2Proof.Machine.execThermalModelUpdate rows cells s
  | .layerSuspect l => Sys2Proof.Machine.execLayerSuspect l s
  | .modelLow l => Sys2Proof.Machine.execModelLow l s
  | .thmSuspectClr req mask => Sys2Proof.Machine.execThmSuspectClr req mask s
  | .suspectCleared l => Sys2Proof.Machine.execSuspectCleared l s
  | .bar4Read off n attr badEcrc => Sys2Proof.Machine.execBar4Read off n attr badEcrc s
  | .bar4Write off bs attr tlp => Sys2Proof.Machine.execBar4Write off bs attr tlp s
  | .spdAccess req a wr n how o => Sys2Proof.Machine.execSpdAccess req a wr n how o s
  | .keyWrite req v => Sys2Proof.Machine.execKeyWrite req v s
  | .registerWrite req a v narrow x => Sys2Proof.Machine.execRegisterWrite req a v narrow x s
  | .loRead req a narrow => Sys2Proof.Machine.execLoRead req a narrow s
  | .loWrite req a v narrow => Sys2Proof.Machine.execLoWrite req a v narrow s
  | .hiWrite req a v narrow => Sys2Proof.Machine.execHiWrite req a v narrow s
  | .readClear req a narrow => Sys2Proof.Machine.execReadClear req a narrow s
  | .queuePop req a narrow => Sys2Proof.Machine.execQueuePop req a narrow s
  | .peek req a narrow => Sys2Proof.Machine.execPeek req a narrow s
  | .commitGo req c go => Sys2Proof.Machine.execCommitGo req c go s
  | .commitApply c => Sys2Proof.Machine.execCommitApply c s
  | .dmaGo req e => Sys2Proof.Machine.execDmaGo req e s
  | .dmaStop req e => Sys2Proof.Machine.execDmaStop req e s
  | .dmaAbort req e => Sys2Proof.Machine.execDmaAbort req e s
  | .dmaReset req e => Sys2Proof.Machine.execDmaReset req e s
  | .dmaHeadWrite req e head => Sys2Proof.Machine.execDmaHeadWrite req e head s
  | .dmaDescriptorDone e desc hostData hostErr moved o => Sys2Proof.Machine.execDmaDescriptorDone e desc hostData hostErr moved o s
  | .dmaTimeout e desc hostData moved => Sys2Proof.Machine.execDmaTimeout e desc hostData moved s
  | .irqEoi req v => Sys2Proof.Machine.execIrqEoi req v s
  | .msixEnable ctl mask conf => Sys2Proof.Machine.execMsixEnable ctl mask conf s
  | .nocPacket req fails malformed ask bytes latency => Sys2Proof.Machine.execNocPacket req fails malformed ask bytes latency s
  | .nocIsolate req n => Sys2Proof.Machine.execNocIsolate req n s
  | .nocRelease req n => Sys2Proof.Machine.execNocRelease req n s
  | .nocStatSnap req => Sys2Proof.Machine.execNocStatSnap req s
  | .spdLockRead req n => Sys2Proof.Machine.execSpdLockRead req n s
  | .spdLockRelease req n => Sys2Proof.Machine.execSpdLockRelease req n s
  | .lockLeaseTimeout n => Sys2Proof.Machine.execLockLeaseTimeout n s
  | .bufferReservationTimeout v => Sys2Proof.Machine.execBufferReservationTimeout v s
  | .coreStart => Sys2Proof.Machine.execCoreStart s
  | .regRead a0 => Sys2Proof.Machine.execRegRead a0 s
  | .regWrite a0 a1 x => Sys2Proof.Machine.execRegWrite a0 a1 x s
  | .mboxSend a0 => Sys2Proof.Machine.execMboxSend a0 s
  | .mboxRecv a0 => Sys2Proof.Machine.execMboxRecv a0 s
  | .flashUser a0 a1 a2 fail => Sys2Proof.Machine.execFlashUser a0 a1 a2 fail s
  | .readTsc => Sys2Proof.Machine.execReadTsc s
  | .mboxInFull req => Sys2Proof.Machine.execMboxInFull req s
  | .mboxOutClear req => Sys2Proof.Machine.execMboxOutClear req s
  | .fwUpdate req => Sys2Proof.Machine.execFwUpdate req s
  | .profileWrite req => Sys2Proof.Machine.execProfileWrite req s
  | .keyUpdate req => Sys2Proof.Machine.execKeyUpdate req s
  | .userWrite req => Sys2Proof.Machine.execUserWrite req s
  | .logRead req => Sys2Proof.Machine.execLogRead req s
  | .recover req => Sys2Proof.Machine.execRecover req s
  | .userRestart req => Sys2Proof.Machine.execUserRestart req s
  | .signEnforce req => Sys2Proof.Machine.execSignEnforce req s
  | .fwcmdDone e => Sys2Proof.Machine.execFwcmdDone e s
  | .cwdtService req => Sys2Proof.Machine.execCwdtService req s
  | .coreWatchdogExpiry => Sys2Proof.Machine.execCoreWatchdogExpiry s
  | .swdtServiceIrq => Sys2Proof.Machine.execSwdtServiceIrq s
  | .swdtService req v => Sys2Proof.Machine.execSwdtService req v s
  | .safetyWatchdogExpiry => Sys2Proof.Machine.execSafetyWatchdogExpiry s
  | .dbgHalt req mask => Sys2Proof.Machine.execDbgHalt req mask s
  | .monitorEntry h gprs csrs => Sys2Proof.Machine.execMonitorEntry h gprs csrs s
  | .dbgForce req mask => Sys2Proof.Machine.execDbgForce req mask s
  | .dbgResume req mask => Sys2Proof.Machine.execDbgResume req mask s
  | .dbgStep req mask => Sys2Proof.Machine.execDbgStep req mask s
  | .maskSwdt req => Sys2Proof.Machine.execMaskSwdt req s
  | .unmaskSwdt req => Sys2Proof.Machine.execUnmaskSwdt req s
  | .glintSync p => Sys2Proof.Machine.execGlintSync p s
  | .glintRead32 a f e flip => Sys2Proof.Machine.execGlintRead32 a f e flip s
  | .glintWrite32 a v f x => Sys2Proof.Machine.execGlintWrite32 a v f x s
  | .glintReadNext f e flip => Sys2Proof.Machine.execGlintReadNext f e flip s
  | .glintWriteNext v f x => Sys2Proof.Machine.execGlintWriteNext v f x s
  | .glintStatus op f => Sys2Proof.Machine.execGlintStatus op f s
  | .glintFrameEnd => Sys2Proof.Machine.execGlintFrameEnd s
  | .exposureSnap req mask => Sys2Proof.Machine.execExposureSnap req mask s
  | .exposureEdge k e => Sys2Proof.Machine.execExposureEdge k e s
  | .developDone k => Sys2Proof.Machine.execDevelopDone k s
  | .smbSetAddr d => Sys2Proof.Machine.execSmbSetAddr d s
  | .smbRead => Sys2Proof.Machine.execSmbRead s
  | .smbWrite d => Sys2Proof.Machine.execSmbWrite d s
  | .smbRead64 => Sys2Proof.Machine.execSmbRead64 s
  | .smbStatus => Sys2Proof.Machine.execSmbStatus s
  | .smbAlertResponse => Sys2Proof.Machine.execSmbAlertResponse s
  | .wfeNop k w o => Sys2Proof.Machine.execWfeNop k w o s
  | .cmac k w o => Sys2Proof.Machine.execCmac k w o s
  | .cmul k w o => Sys2Proof.Machine.execCmul k w o s
  | .ftm k w o => Sys2Proof.Machine.execFtm k w o s
  | .clra k w o => Sys2Proof.Machine.execClra k w o s
  | .sta k w o => Sys2Proof.Machine.execSta k w o s
  | .wfeLdx k w o => Sys2Proof.Machine.execWfeLdx k w o s
  | .stx k w o => Sys2Proof.Machine.execStx k w o s
  | .ldy k w o => Sys2Proof.Machine.execLdy k w o s
  | .wfeAdd k w o => Sys2Proof.Machine.execWfeAdd k w o s
  | .wfeSub k w o => Sys2Proof.Machine.execWfeSub k w o s
  | .wfeAnd k w o => Sys2Proof.Machine.execWfeAnd k w o s
  | .wfeOr k w o => Sys2Proof.Machine.execWfeOr k w o s
  | .wfeXor k w o => Sys2Proof.Machine.execWfeXor k w o s
  | .cadd k w o => Sys2Proof.Machine.execCadd k w o s
  | .csub k w o => Sys2Proof.Machine.execCsub k w o s
  | .wfeShl k w o => Sys2Proof.Machine.execWfeShl k w o s
  | .wfeShr k w o => Sys2Proof.Machine.execWfeShr k w o s
  | .wfeSar k w o => Sys2Proof.Machine.execWfeSar k w o s
  | .hist k w o => Sys2Proof.Machine.execHist k w o s
  | .ldi k w o => Sys2Proof.Machine.execLdi k w o s
  | .setp k w o => Sys2Proof.Machine.execSetp k w o s
  | .wfeJmp k w o => Sys2Proof.Machine.execWfeJmp k w o s
  | .jz k w o => Sys2Proof.Machine.execJz k w o s
  | .jb k w o => Sys2Proof.Machine.execJb k w o s
  | .rep k w o => Sys2Proof.Machine.execRep k w o s
  | .waits k w o => Sys2Proof.Machine.execWaits k w o s
  | .waitsComplete k => Sys2Proof.Machine.execWaitsComplete k s
  | .xfer k w o => Sys2Proof.Machine.execXfer k w o s
  | .transferDone k o => Sys2Proof.Machine.execTransferDone k o s
  | .waitx k w o => Sys2Proof.Machine.execWaitx k w o s
  | .waitxComplete k => Sys2Proof.Machine.execWaitxComplete k s
  | .wfeIrqInstr k w o => Sys2Proof.Machine.execWfeIrqInstr k w o s
  | .wfeHaltInstr k w o => Sys2Proof.Machine.execWfeHaltInstr k w o s
  | .wfeStart req k => Sys2Proof.Machine.execWfeStart req k s
  | .wfeHaltCmd req k => Sys2Proof.Machine.execWfeHaltCmd req k s
  | .wfeClrFault req k => Sys2Proof.Machine.execWfeClrFault req k s
  | .wfeMemAccess req k wr e flip => Sys2Proof.Machine.execWfeMemAccess req k wr e flip s
  | .streamGo req k => Sys2Proof.Machine.execStreamGo req k s
  | .streamStop req k => Sys2Proof.Machine.execStreamStop req k s
  | .streamWord k => Sys2Proof.Machine.execStreamWord k s
  | .sliceStart k => Sys2Proof.Machine.execSliceStart k s
  | .selftestSliceDone k sig => Sys2Proof.Machine.execSelftestSliceDone k sig s
  | .selftestDebtWarn k => Sys2Proof.Machine.execSelftestDebtWarn k s
  | .selftestDebt k => Sys2Proof.Machine.execSelftestDebt k s
  | .spareRepair k plane => Sys2Proof.Machine.execSpareRepair k plane s
  | .repairCmd req k plane => Sys2Proof.Machine.execRepairCmd req k plane s
  | .spareRepairDone k pass => Sys2Proof.Machine.execSpareRepairDone k pass s
  | .fuseCmd req k plane => Sys2Proof.Machine.execFuseCmd req k plane s
  | .fuseBurnDone ok => Sys2Proof.Machine.execFuseBurnDone ok s
  | .safCalCmd req n => Sys2Proof.Machine.execSafCalCmd req n s
  | .calibrationStart n start => Sys2Proof.Machine.execCalibrationStart n start s
  | .calibrationRunDone n t slacks => Sys2Proof.Machine.execCalibrationRunDone n t slacks s
  | .marginMeasure m slack => Sys2Proof.Machine.execMarginMeasure m slack s
  | .ageingRecord elapsed => Sys2Proof.Machine.execAgeingRecord elapsed s
  | .ageingSummary => Sys2Proof.Machine.execAgeingSummary s
  | .glbIntegClr req mask => Sys2Proof.Machine.execGlbIntegClr req mask s
  | .losDeasserted l => Sys2Proof.Machine.execLosDeasserted l s
  | .missingAnswerFrame l f => Sys2Proof.Machine.execMissingAnswerFrame l f s
  | .inputCurrentLimitReleased => Sys2Proof.Machine.execInputCurrentLimitReleased s
  | .overvoltageWarningCleared => Sys2Proof.Machine.execOvervoltageWarningCleared s
  | .railWindowTimeout r => Sys2Proof.Machine.execRailWindowTimeout r s
  | .pllLockTimeout => Sys2Proof.Machine.execPllLockTimeout s
  | .vinBelow1v8 => Sys2Proof.Machine.execVinBelow1v8 s
  | .fclkChangeDone => Sys2Proof.Machine.execFclkChangeDone s

end Sys2Proof.Machine
end

