-- ==== Sys2Proof/Machine/Tick.lean ====
section
/-! DEFINITION. One BCLK cycle in which no command comes (log entry 2). -/

namespace Sys2Proof.Machine

/-- While the hart executes, a bc may be one in which it completes an instruction other than its accesses, which the spec leaves open; each counts
in its key window (R16). DESIGN CHOICE (log entry 9). -/
def State.hartInstr (s : State) : State :=
  if s.coreRuns && !s.inMonitor && decide (0 < s.keyLeft 3) then
    s.tickFree.setKey 3 (s.keyLeft 3 - bitN (Config.freeBit s.free))
  else s

/-- The time base counts (R5); the fabric clock takes ten root ticks further (R433), but in STANDBY, where it is off (R432). The clocks run
outside RESET. What follows the last cycle of a sequencer comes when its fc has come (R65, R68, R99), and an access of the debug
master that has waited completes when it can (R400). After a brownout the next rail turns off (R419). -/
def State.tick (s : State) : State :=
  if s.aon.brown ∧ 0 < s.aon.railsIn then { s with aon := { s.aon with railsIn := s.aon.railsIn - 1 } }
  else if !s.busUp then s
  else
    let p := s.fcPhase + (if s.clockOn 0 then 10 else 0)
    let more := if s.fdiv ≤ p then 1 else 0
    let t : State := { s with tsc := s.tsc + 1, fc := s.fc + more, fcPhase := p - more * s.fdiv }
    State.settle s ((t.forAll sites (fun s k => s.dueStop k)).hartInstr.glintServe)

end Sys2Proof.Machine
end

