-- ==== Sys2Proof/Safety.lean ====
section
/-! DEFINITION. The terms that claims use: what a command may change and what it leaves alone, what a safe run is, and when a unit is
ready for a command. -/

namespace Sys2Proof.Machine

/-- What a command may change: for each bank of the state the keys, for the rest whether it may change. Nothing by default. -/
structure May where
  /-- registers by BAR0 address -/
  reg : Nat → Prop := fun _ => False
  queue : Nat → Prop := fun _ => False
  commit : Nat → Prop := fun _ => False
  site : Nat → Prop := fun _ => False
  lane : Nat → Prop := fun _ => False
  vault : Nat → Prop := fun _ => False
  fab : Nat → Prop := fun _ => False
  wfe : Nat → Prop := fun _ => False
  bist : Nat → Prop := fun _ => False
  expo : Nat → Prop := fun _ => False
  /-- bytes of the stacked DRAM by cell -/
  dram : Nat → Prop := fun _ => False
  flash : Nat → Prop := fun _ => False
  spd : Nat → Prop := fun _ => False
  /-- the key window of a requester, in which every write transaction of it counts (R16) -/
  key : Nat → Prop := fun _ => False
  /-- the time base and the fabric clock -/
  time : Prop := False
  free : Prop := False
  flags : Prop := False
  ctl : Prop := False
  /-- the host interface beyond the messages sent, the scratchpad and the key windows -/
  host : Prop := False
  aon : Prop := False
  cpu : Prop := False
  glint : Prop := False
  /-- the last completion -/
  cpl : Prop := False
  burn : Prop := False

/-- The host interface without what every command may add, the messages sent and their pending bits, and without the scratchpad and
the key windows. -/
def HostIf.quiet (h : HostIf) : HostIf := { h with msgs := [], pba := 0, spd := [], keyWin := [] }

/-- From `s` to `t` nothing changes but what `m` lists, the messages sent and the events shown. -/
structure Only (m : May) (s t : State) : Prop where
  pending : t.pending = s.pending
  glintLock : t.glintLock = s.glintLock
  reg : ∀ a, ¬ m.reg a → t.rd a = s.rd a
  queue : ∀ a, ¬ m.queue a → t.getQ a = s.getQ a
  commit : ∀ a, ¬ m.commit a → t.getCommit a = s.getCommit a
  site : ∀ k, ¬ m.site k → t.getSite k = s.getSite k
  lane : ∀ l, ¬ m.lane l → t.getLane l = s.getLane l
  vault : ∀ v, ¬ m.vault v → t.getVault v = s.getVault v
  fab : ∀ k, ¬ m.fab k → t.getFab k = s.getFab k
  wfe : ∀ k, ¬ m.wfe k → t.getWfe k = s.getWfe k
  bist : ∀ k, ¬ m.bist k → t.getBist k = s.getBist k
  expo : ∀ k, ¬ m.expo k → t.getExpo k = s.getExpo k
  dram : ∀ a, ¬ m.dram a → Sparse.get Dram.reset t.dram a = Sparse.get Dram.reset s.dram a
  flash : ∀ a, ¬ m.flash a → Sparse.get Config.factoryFlash t.flash a = Sparse.get Config.factoryFlash s.flash a
  spd : ∀ a, ¬ m.spd a → Sparse.get (fun _ => 0) t.host.spd a = Sparse.get (fun _ => 0) s.host.spd a
  key : ∀ r, ¬ m.key r → t.keyLeft r = s.keyLeft r
  time : ¬ m.time → t.tsc = s.tsc ∧ t.fc = s.fc ∧ t.fcPhase = s.fcPhase
  free : ¬ m.free → t.free = s.free
  flags : ¬ m.flags → t.xflags = s.xflags
  ctl : ¬ m.ctl → t.ctl = s.ctl
  host : ¬ m.host → t.host.quiet = s.host.quiet
  aon : ¬ m.aon → t.aon = s.aon
  cpu : ¬ m.cpu → t.cpu = s.cpu
  glint : ¬ m.glint → t.glint = s.glint
  cpl : ¬ m.cpl → t.cpl = s.cpl
  burn : ¬ m.burn → t.burn = s.burn

/-- Command `c` completes in state `s`, with a next state of which `P` holds. -/
def Answers (c : Instr) (s : State) (P : State → Prop) : Prop := ∃ t, exec c s = .next t ∧ P t

/-- A step is safe when it answers a next state. -/
def State.safeStep (s : State) : Prop := ∃ t, step s = .next t

/-- The memories keep their canonical form: the stacked DRAM, the flash, the scratchpad and the TCM. -/
structure State.Inv (s : State) : Prop where
  dram : Dram.wf s.dram = true
  flash : Sparse.wf Config.factoryFlash s.flash = true
  spd : Sparse.wf (fun _ => 0) s.host.spd = true
  tcm : Sparse.wf (fun _ => 0) s.cpu.tcm = true

/-- What the plain data of the state keeps beside that: the registers in canonical form, banks without a key twice, row numbers of 22 bits, and pending
commits that hold shadow registers of their block, each once. -/
structure State.Shape (s : State) : Prop where
  regs : Sparse.wf regReset s.regs = true
  vault : (s.vault.map Prod.fst).Pairwise (· < ·)
  locks : (s.host.locks.map Prod.fst).Pairwise (· < ·)
  golden : (s.ctl.golden.map Prod.fst).Pairwise (· < ·)
  next : ∀ k, ((s.getFab k).next.map Prod.fst).Nodup
  svc : ∀ v r, (s.getVault v).svc.row = some r → r < 2 ^ 22
  rowReg : ∀ v, (s.getVault v).rowReg.row < 2 ^ 22
  mnt : ∀ v j, (s.getVault v).mnt = some j → j.row < 2 ^ 22
  commits : ∀ c p, s.getCommit (commitAddr c) = some p → (p.snap.map Prod.fst).Nodup ∧ ∀ q ∈ p.snap, ∃ l ∈ commitGroups c, q.1 ∈ l

/-- The registers of the vaults' windows (09), and the count of SAF events. -/
def vaultRegs (a : Nat) : Prop := (0x2000000 ≤ a ∧ a < 0x2100000) ∨ a = Reg.safEvtCnt

/-- `m`, and what requests to the stacked DRAM may change: corrections and poisoning on the way, and what they count and log. -/
def May.dramToo (m : May) : May :=
  { m with
    reg := fun a => m.reg a ∨ vaultRegs a
    queue := fun a => m.queue a ∨ (∃ v, v < 256 ∧ a = Reg.vltPoisonLog v) ∨ a = Reg.safEvtLog
    vault := fun _ => True, dram := fun _ => True }

/-! ### Sequencers -/

/-- The registers of site `k`'s integrity word and log (R453, R455). -/
def integRegs (k a : Nat) : Prop :=
  a = Reg.glbIntegLo k ∨ a = Reg.glbIntegHi k ∨ a = Reg.glbIntegCnt k ∨ (Reg.glbIntegLog k 0 ≤ a ∧ a < Reg.glbIntegLog k 128)

/-- Instruction `w` of sequencer `k` is the next one, of opcode `op`, and nothing keeps its `len` cycles from issuing: it is legal, not
past 0x7FFF, its word and its bank can be used, and no stop-on-fail falls among them (R64, R68, R90, R99). -/
structure State.CanIssue (s : State) (k : SiteIx) (w : BitVec 64) (ecc : Ecc) (op len : Nat) : Prop where
  ready : s.seqReady k = true
  go : (s.getSite k).after = .go
  word : s.imemWord k = w
  op : seqOp w = op
  legal : seqLegal k w = true
  ecc : ecc ≠ .double
  bank : ∀ b r n, (s.getSite k).ovl = some (b, r, n) → (if b then 1 else 0) ≠ s.seqPc k / 0x4000
  noStop : ∀ e n, (s.getSite k).stopAt = some (e, n) → (s.getSite k).cycle + len ≤ e ∧ (s.getSite k).cycle < e

/-- The command of the instruction with opcode `op` (R69). -/
def seqInstr (k : SiteIx) (w : BitVec 64) (ecc : Ecc) : Nat → Instr
  | 1 => .rpt k w ecc | 2 => .loop k w ecc | 3 => .endl k w ecc | 4 => .jmp k w ecc | 5 => .jcc k w ecc
  | 6 => .call k w ecc | 7 => .ret k w ecc | 8 => .matchLoop k w ecc | 9 => .seqHalt k w ecc | 10 => .seqPark k w ecc
  | 11 => .sync k w ecc | 12 => .setf k w ecc | 13 => .waitf k w ecc | 14 => .ldlc k w ecc | 15 => .seqLdx k w ecc
  | 16 => .addx k w ecc | 17 => .sww k w ecc | 18 => .calwin k w ecc | 19 => .bistwin k w ecc | 20 => .expose k w ecc
  | 21 => if seqAux w = 1 then .capctlSetMode k w ecc else .capctlSelectBlock k w ecc
  | 22 => .seqFlush k w ecc | 23 => .seqIrqInstr k w ecc | 24 => .ovl k w ecc | _ => .vec k w ecc

/-- Sequencer `k` has stopped with a reason of R100: it drains, SEQ_STOP_CYC holds `cyc`. -/
structure Stopped (t : State) (k reason cyc : Nat) : Prop where
  state : t.seqState k = 5
  reason : t.fld (Reg.seqStatus k) 16 4 = reason
  cyc : t.rd64 (Reg.seqStopCycLo k) = cyc % 2 ^ 48
  wait : (t.getSite k).wait = .none
  plan : (t.getSite k).stopAt = none

/-- Sequencer `k` has stopped with a fault (R103): SEQ_FAULT holds the code and the PC of the instruction. -/
structure Faulted (t : State) (k code pc cyc : Nat) : Prop where
  fault : t.rd (Reg.seqFault k) = BitVec.ofNat 32 (code + pc % 2 ^ 15 * 2 ^ 8)
  stop : Stopped t k 7 cyc

/-- The registers of sequencer `k`'s window, of its capture block and of its repair analyser (R360). -/
def siteRegs (k a : Nat) : Prop :=
  (Reg.seqCtl k ≤ a ∧ a < Reg.seqCtl k + 0x400) ∨ (Reg.capCtl k ≤ a ∧ a < Reg.capCtl k + 0x400)
    ∨ (Reg.rpaCtl k ≤ a ∧ a < Reg.rpaCtl k + 0x400) ∨ integRegs k a

/-- The requirements of a start that R98 lists, for sequencer `k`: armed, its site stopped, a mode that allows it and that no
transition is leaving (the model's choice, log entry 83), no boost, a valid configuration, a horizon. -/
def State.CanStart (s : State) (k : Nat) : Prop :=
  s.seqState k = 2 ∧ s.siteState k = 0 ∧ (s.mode = modeREADY ∨ s.mode = modeRUN) ∧ s.aon.target = none ∧ s.boost = false
    ∧ s.cfgValid = true ∧ s.bit (Reg.seqHorizon k) 31 = true

/-- The code of a refused start of the sequencers of `l`: that of the first requirement of R98 that one of them fails, in the order of that
list, each judged for all of them before the next; the last is admission. -/
def State.startCode (s : State) (l : List Nat) (codes : List Nat) : Nat :=
  let some' (p : Nat → Bool) : Bool := l.any p
  codes.getD (if some' (fun k => s.seqState k != 2) then 0
    else if some' (fun k => s.siteState k != 0) then 1
    else if (s.mode != modeREADY && s.mode != modeRUN) || s.aon.target.isSome then 2
    else if s.boost then 3
    else if !s.cfgValid then 4
    else if some' (fun k => !s.bit (Reg.seqHorizon k) 31) then 5
    else 6) 0

/-- Site `k` has started (R66, R98, R213, R454, R470): it runs from its entry, its counters are clear, cycle 0 is due 32 fc on, and no
calibration item of its vaults, region or lanes, nor of the clock spine, runs on. -/
structure Started (s t : State) (k : Nat) : Prop where
  state : t.seqState k = 3
  pc : t.seqPc k = s.fldAct (Reg.seqCfg k) 16 15
  stack : t.fld (Reg.seqSp k) 0 5 = 0
  cycle : (t.getSite k).cycle = 0 ∧ t.rd64 (Reg.seqCycleLo k) = 0
  first : (t.getSite k).fc0 = s.fc + 32
  busy : t.siteBusy k = true
  window : (t.getSite k).window = true
  capture : t.rd64 (Reg.capFcycLo k) = 0 ∧ t.rd64 (Reg.capUnvcycLo k) = 0 ∧ t.rd (Reg.capLogPtr k) = 0
  admitted : t.admitted k = true
  items : ∀ i, i < 529 → calOf k i = true → t.bit (Reg.safCalStat i) 31 = false

/-- SAF_CAL_STAT of the calibration items that a start or a load of the sites of `l` ends (R470). -/
def calRegs (l : Nat → Prop) (a : Nat) : Prop := ∃ k i, l k ∧ i < 529 ∧ calOf k i = true ∧ a = Reg.safCalStat i

/-- What the start of the sites of `l` may change. -/
def startMay (l : Nat → Prop) : May :=
  { reg := fun a => (∃ k, l k ∧ (siteRegs k a ∨ a = Reg.pmuSite k)) ∨ a = Reg.pmuStat ∨ a = Reg.glbSiteState ∨ a = Reg.fabPenStat
      ∨ a = Reg.glbMode ∨ calRegs l a
    site := l, bist := l, fab := l }

/-- Instruction `w` has issued `len` cycles with its fields, and the sequencer goes on at `pc` (R65, R66, R74). The clock goes to the fc
after the first of them; the others pass with it (log entry 75). -/
structure Issued (s t : State) (k : SiteIx) (w : BitVec 64) (len : Nat) (window sv : Bool) (pc state : Nat) : Prop where
  pc : t.seqPc k = pc
  state : t.seqState k = state
  cycle : (t.getSite k).cycle = (s.getSite k).cycle + len
  fields : ∃ sp, (t.getSite k).spans = sp :: (s.getSite k).spans ∧ sp.first = (s.getSite k).cycle ∧ sp.len = len
    ∧ sp.ctx = seqCtx w ∧ sp.tset = seqTset w ∧ sp.cap = seqCap w ∧ sp.window = window ∧ sp.sv = sv
  counter : t.rd64 (Reg.seqCycleLo k) = ((s.getSite k).cycle + len) % 2 ^ 48
  clock : t.fc = max s.fc ((s.getSite k).fc0 + (s.getSite k).cycle + 1)

/-- The registers that issuing changes: PC, cycle counter, status, the fetch error count, the position in the stored vectors, the
capture block in effect, and the integrity word. -/
def issueRegs (k a : Nat) : Prop :=
  a = Reg.seqPc k ∨ a = Reg.seqCycleLo k ∨ a = Reg.seqCycleHi k ∨ a = Reg.seqStatus k ∨ a = Reg.seqImemEcc k
    ∨ a = Reg.seqX k 15 ∨ a = Reg.capStatus k ∨ integRegs k a

/-- The registers that a stop changes beside those of issuing. -/
def stopRegs (k a : Nat) : Prop :=
  issueRegs k a ∨ a = Reg.seqStopCycLo k ∨ a = Reg.seqStopCycHi k ∨ a = Reg.glbSiteState ∨ a = Reg.fabPenStat ∨ a = Reg.glbMode

/-- What an instruction that issues may change, beside the registers of `extra`. -/
def issueMay (k : Nat) (extra : Nat → Prop := fun _ => False) : May :=
  { reg := fun a => issueRegs k a ∨ extra a, site := fun j => j = k, time := True }

/-- What an instruction that stops the sequencer may change: a self-test slice of the region is aborted (R89). -/
def stopMay (k : Nat) (extra : Nat → Prop := fun _ => False) : May :=
  { issueMay k with reg := fun a => stopRegs k a ∨ extra a, bist := fun j => j = k, fab := fun j => j = k }

/-! ### Lanes -/

/-- The 160 bits of a frame as lane `l` sends it: the sync header, then the scrambled body (R177 to R181), with an armed corruption of
its CRC (R204), in the polarity of the lane (R175). -/
def State.frameBits (s : State) (l f kind payload info : Nat) : BitVec 160 :=
  let line := ofBits (scramble (s.getLane l).txScr.toNat (bitsOf (frameBody payload kind (f % 16) info) 0 158)).1
  onLine (s.getLane l).txInvert (BitVec.ofNat 160 (headerOf kind + (line ^^^ (if s.injArmed l then 2 ^ 157 else 0)) * 4))

/-- Lane `l` has sent frame `f`: it is the last frame on the wire, with its gap, and it awaits its answer (R174, R182 to R190). -/
structure Sent' (s t : State) (l f kind payload info : Nat) (cycles : List (Option Nat)) : Prop where
  bits : (t.getLane l).lastFrame = s.frameBits l f kind payload info
  gap : (t.getLane l).lastGap = s.gapBits.map (xor (s.getLane l).txInvert)
  next : (t.getLane l).nextFrame = f + 1
  waits : ∃ e, e ∈ (t.getLane l).sent ∧ e.frame = f ∧ e.kind.toNat = kind ∧ e.cycles = cycles
  shown : t.fld (Reg.lnkStat l) 27 2 = kind
  once : t.injArmed l = false

/-- What a frame sent on lane `l` may change. -/
def sendMay (l : Nat) : May := { reg := fun a => a = Reg.lnkStat l ∨ a = Reg.lnkInject l, lane := fun j => j = l }

/-- What a frame received at site `k` may change: its lanes, its integrity word, its capture block and areas, its sequencer, its
waveform engine. -/
def receiveMay (k : Nat) : May := May.dramToo
  { reg := fun a => siteRegs k a ∨ (∃ j ∈ lanesOf k, a = Reg.lnkStat (prxWin j) ∨ a = Reg.lnkEvt (prxWin j)
      ∨ a = Reg.lnkInject (prxWin j) ∨ a = Reg.lnkCrcCnt j ∨ a = Reg.lnkRtt j) ∨ a = Reg.lnkSkew ∨ a = Reg.lnkMeasure
      ∨ a = Reg.wfeStatus k ∨ a = Reg.glbSiteState ∨ a = Reg.fabPenStat ∨ a = Reg.glbMode
    site := fun j => j = k, lane := fun j => j ∈ lanesOf k, wfe := fun j => j = k }

/-- What a frame received on lane `l` can have told the lane (R185, R189 to R192). -/
structure Verdict where
  good : Bool
  kindBad : Bool
  tagBad : Bool
  wander : Bool
  ptxBad : Bool

/-- The checks of R191 on a frame of kind `kind` that answers `e`. -/
def State.judge (s : State) (l kind : Nat) (fr : PrxFrame) (e : Sent) : Verdict :=
  let b := s.prxBody l fr
  let r := s.fld (Reg.lnkRtt l) 0 17
  let hdr := onLine (s.getLane l).rxInvert fr.hdr
  { good := (hdr == 1 || hdr == 2) && hdr.toNat == headerOf kind && b.crcOk
    kindBad := kind != e.kind.toNat
    tagBad := b.tag != e.frame % 16
    wander := (s.lnkState (prxWin l) == 6 || (s.getLane l).relock) && !(decide (r ≤ fr.rtt + 16) && decide (fr.rtt ≤ r + 8))
    ptxBad := kind == kindData && b.info.testBit 2 }

/-- Every cycle of `cycles` is UNVERIFIED on the channels of lane `l` (R28, R190, R207): it waits for its other lanes with them marked, or
with this last lane it has been judged, and those of them that are compared have not passed. A cycle that a stop has taken back is none. -/
def Unverified (s t : State) (l : Nat) (cycles : List (Option Nat)) : Prop :=
  let k := l / 16
  let x := s.getSite k
  ∀ n j c, some n ∈ cycles.take 8 → ((cycles.take 8).filter (· == some n)).length = 1 → j < 4 → x.chan l j = some c → c < 64 →
    if (Sparse.get (fun _ => ({} : CycAcc)) x.acc n).lanes ||| BitVec.ofNat 16 (2 ^ (l % 16)) ≠ BitVec.allOnes 16 then
      (Sparse.get (fun _ => ({} : CycAcc)) (t.getSite k).acc n).unv.getLsbD c = true
    else (t.getSite k).spanAt n ≠ none → (s.pairAct (Reg.capCmpmask k 0)).testBit c = true →
      (Sparse.get (fun _ => (0 : BitVec 64)) (t.getSite k).fails n).getLsbD c = true

/-! ### Cells -/

/-- The key of cell (x, y) of a plane. -/
def cellAt (plane : Bool) (x y : BitVec 6) : Nat := cellKey (if plane then 1 else 0) x.toNat y.toNat

/-- Cell (x, y) has instruction `ins`, legal and of opcode `op` and sub-operation `sub`, to execute in the cycle in effect (R115, R120,
R129). -/
structure State.CellGo (s : State) (k : SiteIx) (plane : Bool) (x y : BitVec 6) (ins : BitVec 48) (op sub : Nat) : Prop where
  ready : s.cellReady k (cellAt plane x y) ins = true
  mode : ctxSrm (s.effWord k (cellAt plane x y)) = false
  legal : cellLegal ins = true
  op : cellOp ins = op
  sub : cellSub ins = sub

/-- The registers that cell `c` reads hold the codes of their values, and no injection waits for it: nothing for a residue check to
find in a sound ALU (R130, R142). -/
def State.CellSound (s : State) (k : SiteIx) (c : Nat) : Prop :=
  (∀ i, i < 18 → ((s.getFab k).cell c).code i = (((s.getFab k).cell c).item i).toNat % 3) ∧ s.injectedAt k c = false

/-- What cell `c` holds at the end of the cycle after an instruction with result `r`, whose flags under fctl = 0b01 are `cf`, `vf`, and z
and n from `zn` (R114, R117, R118, R128, R132, R136). -/
structure CellResult (s t : State) (k : SiteIx) (c : Nat) (ins : BitVec 48) (r : Word) (cf vf : Bool) (zn : Word) : Prop where
  regs : ∀ i, i < 16 → ((t.getFab k).after c).reg i
    = if cellExecutes ins (s.aluIn k c ins) && cellWr ins && cellDst ins == i then r else ((s.getFab k).cell c).reg i
  o0 : ((t.getFab k).after c).o0
    = if cellExecutes ins (s.aluIn k c ins) && cellO0e ins && !ctxWclk (s.effWord k c) then r else ((s.getFab k).cell c).o0
  o1 : ((t.getFab k).after c).o1 = if cellExecutes ins (s.aluIn k c ins) && cellO1e ins then
      (if ctxO1sel (s.effWord k c) then ((t.getFab k).after c).flags else r) else ((s.getFab k).cell c).o1
  flags : (((t.getFab k).after c).c, ((t.getFab k).after c).v, ((t.getFab k).after c).z, ((t.getFab k).after c).n)
    = if cellFctl ins = 1 then (cf, vf, zn == 0, zn.msb)
      else (((s.getFab k).cell c).c, ((s.getFab k).cell c).v, ((s.getFab k).cell c).z, ((s.getFab k).cell c).n)
  now : (t.getFab k).cells = (s.getFab k).cells
  others : ∀ d, d ≠ c → (t.getFab k).after d = (s.getFab k).after d

/-- What one cell's cycle may change: its region, the record of the interface of its site, and where a residue check finds something,
its report and the column it queues. -/
def cellMay (k : Nat) : May :=
  { reg := fun a => a = Reg.fabCellStat ∨ a = Reg.fabResCount k ∨ a = Reg.fabResInject ∨ a = Reg.safFault k ∨ integRegs k a
    queue := fun a => a = Reg.fabResLog, site := fun j => j = k, fab := fun j => j = k, bist := fun j => j = k }

/-! ### Loads -/

/-- The registers of region `k` that a load or an isolation of it changes (R309, R311, R313, R317). -/
def regionRegs (k a : Nat) : Prop :=
  a = Reg.cfgRegion k ∨ a = Reg.cfgInuseLo k ∨ a = Reg.cfgInuseHi k ∨ a = Reg.fabResInject ∨ a = Reg.fabZbusStat ∨ a = Reg.fabWclkCells k
    ∨ a = Reg.glbSiteState ∨ a = Reg.fabPenStat ∨ a = Reg.glbMode ∨ a = Reg.safBistDebt k

/-- The registers of the load in progress (R324). -/
def loadRegs (a : Nat) : Prop :=
  a = Reg.cfgStatus ∨ a = Reg.cfgProgress ∨ a = Reg.cfgBadIndex ∨ a = Reg.cfgBadAddr ∨ a = Reg.cfgSig ∨ a = Reg.cfgBuildLo
    ∨ a = Reg.cfgBuildHi

/-- What a load that changes the regions of `l` may change. -/
def loadMay (l : List Nat) : May :=
  { reg := fun a => loadRegs a ∨ a = Reg.glbMode ∨ ∃ k ∈ l, regionRegs k a
    site := fun k => k ∈ l, fab := fun k => k ∈ l, bist := fun k => k ∈ l, ctl := True, host := True }

/-- The load in progress has ended with code `code`, the release of a restore lap stays due, and it has left what R323 says: a full load no configuration, a partial one in its write
phase INCOMPLETE regions, any other one everything as it was. -/
structure Rejected (s t : State) (code : Nat) : Prop where
  state : t.loadState = ldDrop
  outcome : t.fld Reg.cfgStatus 24 2 = if code = 0x15 then 3 else 2
  code : t.fld Reg.cfgStatus 16 8 = code
  lease : t.host.staging = false
  lap : t.ctl.release = s.ctl.release
  full : ∀ h, s.ctl.load.hdr = some h → h.full = true → t.cfgValid = false ∧
    ∀ k ∈ h.regionList, t.goldenValid k = false ∧ t.regState k = 0 ∧ t.getSite k = s.getSite k
  untouched : ∀ h, s.ctl.load.hdr = some h → h.full = false → h.staged = true → s.loadState ≠ ldWrite →
    ∀ k, t.rd (Reg.cfgRegion k) = s.rd (Reg.cfgRegion k) ∧ t.getSite k = s.getSite k ∧ t.inuse k = s.inuse k ∧ t.siteState k = s.siteState k
  incomplete : ∀ h, s.ctl.load.hdr = some h → h.full = false → (h.staged = false ∨ s.loadState = ldWrite) →
    ∀ k ∈ h.regionList, t.goldenValid k = false ∧ t.regState k = regIncomplete ∧ (t.getSite k).isoIncomplete = true
      ∧ (s.seqRuns k = false → t.siteState k = 3)

/-- The regions of the load in progress. -/
def State.loadRegions (s : State) : List Nat := (s.ctl.load.hdr.map ImgHdr.regionList).getD []

/-! ### Waveform engines -/

/-- The instruction `w` of engine `k`, of a row of the opcode table, is the next one, and nothing keeps it from executing: the clock and the
engine run, its word is legal, and correct unless it comes from the repeat cache, and a repeated body holds only format M (R338 to R342). -/
structure State.WfeReady (s : State) (k : SiteIx) (w : Word) (o : WfeObs) (row : Nat) : Prop where
  clock : s.wclkOn k = true
  running : s.wfeState k = 1
  word : (s.wfeFetch k).1 = w
  ecc : o.p = .double → (s.wfeFetch k).2 = true
  row : wRow w = row
  legal : s.wfeLegal k w = true
  body : (s.getWfe k).rep = none ∨ wOp w < 0x20

/-- The place after an instruction at `pc` that does not jump, and the repeat that goes on: back to the body's first word while passes are left
(R340). -/
def wfeFollow (pc : Nat) (rep : Option WfeRep) : Nat × Option WfeRep :=
  match rep with
  | none => (pc + 1, none)
  | some r =>
    if pc + 1 < r.first + r.len then (pc + 1, some r)
    else if 1 < r.left then (r.first, some { r with left := r.left - 1 })
    else (pc + 1, none)

/-- The repeat of engine `k` once it has taken `w`, which a first pass loads into the repeat cache (R340). -/
def Wfe.loaded (x : Wfe) (w : Word) : Option WfeRep :=
  x.rep.map (fun r => if r.cache.length < r.len then { r with cache := r.cache ++ [w] } else r)

/-- What the check of the word at PC reports: nothing, for a word from the repeat cache. -/
def State.wfeProgCheck (s : State) (k : SiteIx) (o : WfeObs) : List Ecc := if (s.wfeFetch k).2 then [] else [o.p]

/-- The engine without its pointers, its repeat and its waiting. -/
def Wfe.still (x : Wfe) : Wfe := { x with ptr := [], rep := none, wait := .none, haltReq := false }

/-- The registers that an instruction of engine `k` changes. -/
def wfeRegs (k a : Nat) : Prop := a = Reg.wfePc k ∨ a = Reg.wfeStatus k ∨ a = Reg.wfeStall k ∨ a = Reg.wfeEcc k

/-- An instruction of engine `k` is done (R335 to R342): the words it read had `checks`, the engine goes on at `next`, its pointers are `ptr`, the rest
of it is `u`, `set` names the status bits it sets, and `irq` says that it enters a request in WFE_IRQ. An engine that leaves its program has
fault 7. -/
structure WfeStep (s t : State) (k : SiteIx) (o : WfeObs) (checks : List Ecc) (next : Nat × Option WfeRep) (ptr : Nat → Ptr) (u : Wfe)
    (set : Nat → Bool) (irq : Prop) : Prop where
  pc : t.wfePc k = next.1 % 2 ^ 14
  state : t.wfeState k = if next.1 < 2 ^ 14 then 1 else 4
  fault : 2 ^ 14 ≤ next.1 → t.fld (Reg.wfeStatus k) 24 4 = 7
  rep : (t.getWfe k).rep = next.2
  engine : (t.getWfe k).still = u.still
  ptr : ∀ i, i < 8 → t.wfePtr k i = ptr i
  stall : t.fld (Reg.wfeStall k) 0 32 = min (s.fld (Reg.wfeStall k) 0 32 + o.stall) (2 ^ 32 - 1)
  ecc : t.fld (Reg.wfeEcc k) 0 16 = min (s.fld (Reg.wfeEcc k) 0 16 + (checks.filter (· == .single)).length) 65535
  bits : ∀ i, 3 ≤ i → i ≤ 8 → t.bit (Reg.wfeStatus k) i = (s.bit (Reg.wfeStatus k) i || set i)
  bad : t.bit (Reg.wfeStatus k) 9 = (s.bit (Reg.wfeStatus k) 9 || checks.contains .double)
  only : Only { reg := wfeRegs k, queue := fun a => irq ∧ a = Reg.wfeIrq k, wfe := fun j => j = k } s t

/-- Engine `k` has stopped with fault `c` (R342) before its instruction took effect. -/
structure WfeFaulted (s t : State) (k : SiteIx) (c : Nat) : Prop where
  state : t.wfeState k = 4
  code : t.fld (Reg.wfeStatus k) 24 4 = c
  pc : t.wfePc k = s.wfePc k
  engine : (t.getWfe k).still = (s.getWfe k).still ∧ (t.getWfe k).rep = (s.getWfe k).rep ∧ (t.getWfe k).wait = .none
  ptr : ∀ i, i < 8 → t.wfePtr k i = s.wfePtr k i
  only : Only { reg := wfeRegs k, wfe := fun j => j = k } s t

/-- A value cut to [lo, hi]. -/
def clamp (lo hi v : Int) : Int := max lo (min hi v)

end Sys2Proof.Machine
end

