-- ==== Sys2Proof/Certificates/Slice0/Obligations.lean ====
section
/-! DEFINITION. The statements for the provers. -/

open Sys2Proof Sys2Proof.Machine

/-! ### Sequencer instructions -/

/-- R69, R71, R74, R78: VEC issues one cycle and RPT imm cycles with identical fields; aux[0] makes them consume stored vectors, X15
moving with them, aux[1] moves the FACC clear point to their first cycle.

R69, R72, R82, R92: the instructions that write a loop counter, an index register or a switch word issue one cycle and go on at
the next address; ENDL goes back to its target while its counter is above 1.

The clock stands in the fc after an instruction's first cycle, the model's choice (log entries 6 and 75). Falling through past 0x7FFF is
in SeqBranches. -/
def Obligations.SeqData : Prop :=
  (∀ (k : SiteIx) (w : BitVec 64) (ecc : Ecc) (s : State), s.seqPc k + 1 < 0x8000 →
  let sv := (seqAux w).testBit 0
  let after (len : Nat) (t : State) : Prop :=
    Issued s t k w len false sv (s.seqPc k + 1) 3
      ∧ t.rd (Reg.seqX k 15) = s.rd (Reg.seqX k 15) + (if sv then BitVec.ofNat 32 len else 0)
      ∧ (t.getSite k).clearPt = (if (seqAux w).testBit 1 then (s.getSite k).cycle else (s.getSite k).clearPt)
      ∧ Only (issueMay k) s t
  (s.CanIssue k w ecc 0 1 → Answers (.vec k w ecc) s (after 1))
    ∧ (s.CanIssue k w ecc 1 (seqImm w) → Answers (.rpt k w ecc) s (after (seqImm w))))
    ∧ (∀ (k : SiteIx) (w : BitVec 64) (ecc : Ecc) (s : State),
  let more := s.seqPc k + 1 < 0x8000
  let aux := seqAux w
  let imm : Word := BitVec.ofNat 32 (seqImm w)
  let lc := Reg.seqLc k aux
  let x := Reg.seqX k aux
  let sw := Reg.seqSw k (aux % 2)
  let goes (pc a : Nat) (v : Word) (t : State) : Prop :=
    Issued s t k w 1 false false pc 3 ∧ t.rd a = v ∧ Only (issueMay k (· = a)) s t
  (s.CanIssue k w ecc 2 1 → more → Answers (.loop k w ecc) s (goes (s.seqPc k + 1) lc (if imm = 0 then s.rd lc else imm)))
    ∧ (s.CanIssue k w ecc 3 1 → (1 < (s.rd lc).toNat ∨ more) → Answers (.endl k w ecc) s (if (s.rd lc).toNat ≤ 1 then goes (s.seqPc k + 1) lc 0
        else goes (seqImm w) lc (s.rd lc - 1)))
    ∧ (s.CanIssue k w ecc 14 1 → more → Answers (.ldlc k w ecc) s (goes (s.seqPc k + 1) lc imm))
    ∧ (s.CanIssue k w ecc 15 1 → more → Answers (.seqLdx k w ecc) s (goes (s.seqPc k + 1) x imm))
    ∧ (s.CanIssue k w ecc 16 1 → more → Answers (.addx k w ecc) s (goes (s.seqPc k + 1) x (s.rd x + imm)))
    ∧ (s.CanIssue k w ecc 17 1 → more → Answers (.sww k w ecc) s (fun t =>
        let v := match aux / 2 % 4 with
          | 0 => imm
          | 1 => s.rd (Reg.seqX k (aux / 16))
          | 2 => s.rd (Reg.seqX k (aux / 16)) + imm
          | _ => s.rd sw + imm
        goes (s.seqPc k + 1) sw v t ∧ (t.getSite k).spans.head?.map (fun sp => if aux % 2 = 0 then sp.sw0 else sp.sw1) = some v)))

/-- R68, R69, R76, R83: a taken branch goes to its target; CALL pushes the next address on the stack and RET pops it; a branch not taken
falls through. Each issues one cycle. A taken CALL at 0x7FFF pushes 0, and the clock stands in the fc after the cycle: the model's choices
(log entries 76 and 75).

Execution that falls through past 0x7FFF is an illegal instruction. The last instruction issues its cycles first, whatever else it
does; then the sequencer stops with fault 0x02. After a run of cycles that is not yet over, the fault comes when it is, at the sequencer's
next fetch. SEQ_FAULT shows PC 0, the model's choice (log entry 68), and so is the clock (log entry 75). -/
def Obligations.SeqBranches : Prop := (∀ (k : SiteIx) (w : BitVec 64) (ecc : Ecc) (s : State),
  let more := s.seqPc k + 1 < 0x8000
  let taken := s.seqCond k w (s.getSite k).cycle
  let sp := s.fld (Reg.seqSp k) 0 5
  let goes (pc : Nat) (t : State) : Prop := Issued s t k w 1 false false pc 3 ∧ Only (issueMay k) s t
  (s.CanIssue k w ecc 4 1 → Answers (.jmp k w ecc) s (goes (seqImm w)))
    ∧ (s.CanIssue k w ecc 5 1 → (taken = true ∨ more) → Answers (.jcc k w ecc) s (goes (if taken then seqImm w else s.seqPc k + 1)))
    ∧ (s.CanIssue k w ecc 6 1 → (taken = true ∨ more) → Answers (.call k w ecc) s (fun t =>
        if taken ∧ sp < 16 then
          Issued s t k w 1 false false (seqImm w) 3 ∧ t.fld (Reg.seqSp k) 0 5 = sp + 1
            ∧ t.rd (Reg.seqStack k sp) = BitVec.ofNat 32 ((s.seqPc k + 1) % 2 ^ 15)
            ∧ Only (issueMay k (fun a => a = Reg.seqSp k ∨ a = Reg.seqStack k sp)) s t
        else if taken then t.fld (Reg.seqFault k) 0 8 = 0x04 ∧ t.fld (Reg.seqStatus k) 16 4 = 7
          ∧ (t.getSite k).cycle = (s.getSite k).cycle
        else goes (s.seqPc k + 1) t))
    ∧ (s.CanIssue k w ecc 7 1 → (taken = true ∨ more) → Answers (.ret k w ecc) s (fun t =>
        if taken ∧ 0 < sp then
          Issued s t k w 1 false false (s.fld (Reg.seqStack k (sp - 1)) 0 15) 3 ∧ t.fld (Reg.seqSp k) 0 5 = sp - 1
            ∧ Only (issueMay k (· = Reg.seqSp k)) s t
        else if taken then t.fld (Reg.seqFault k) 0 8 = 0x05 ∧ t.fld (Reg.seqStatus k) 16 4 = 7
          ∧ (t.getSite k).cycle = (s.getSite k).cycle
        else goes (s.seqPc k + 1) t)))
    ∧ (∀ (k : SiteIx) (w : BitVec 64) (ecc : Ecc) (s : State),
  let x := s.getSite k
  let c := x.cycle
  let op := seqOp w
  let fell (n : Nat) (t : State) : Prop :=
    Faulted t k 0x02 0 (c + n + 2 ^ 48 - 1) ∧ (t.getSite k).cycle = c + n ∧ t.fc = max s.fc (x.fc0 + c + 1)
  let falls : Prop := op ∈ [0, 2, 12, 14, 15, 16, 17, 20, 21, 22, 23] ∨ (op = 3 ∧ (s.rd (Reg.seqLc k (seqAux w))).toNat ≤ 1)
    ∨ (op ∈ [5, 6, 7, 9, 10] ∧ s.seqCond k w c = false)
    ∨ (op = 13 ∧ s.flagSeen (seqAux w % 16) (x.fc0 + c) = (seqAux w).testBit 4)
  (s.CanIssue k w ecc op 1 → s.seqPc k = 0x7FFF → falls → Answers (seqInstr k w ecc op) s (fell 1))
    ∧ (s.CanIssue k w ecc 1 (seqImm w) → s.seqPc k = 0x7FFF →
        let n := seqImm w
        Answers (.rpt k w ecc) s (fun t => if c + n ≤ max s.fc (x.fc0 + c + 1) - x.fc0 then fell n t
          else (t.getSite k).after = .past ∧ t.seqState k = 3 ∧ (t.getSite k).cycle = c + n ∧ t.fc = max s.fc (x.fc0 + c + 1)
            ∧ Only (issueMay k) s t))
    ∧ (s.seqReady k = true → x.after = .past → s.imemWord k = w → Answers (seqInstr k w ecc op) s (fun t =>
        Faulted t k 0x02 0 (c + 2 ^ 48 - 1) ∧ (t.getSite k).cycle = c ∧ t.fc = max s.fc (x.fc0 + c)
          ∧ Only (stopMay k (· = Reg.seqFault k)) s t)))

/-- R85, R93 to R96: SETF, EXPOSE, CAPCTL, FLUSH and IRQ issue one cycle and go on at the next address: SETF writes a
cross-sequencer flag in the fc of its cycle, which every sequencer sees 3 fc later, EXPOSE makes an Exposure due, CAPCTL selects the capture block or mode from its own
cycle on, FLUSH asks for the write-back of its cycle's rows, IRQ pushes its code where its condition holds.
It rests on the readings and choices of log entries 6 and 75. -/
def Obligations.SeqEffects : Prop := ∀ (k : SiteIx) (w : BitVec 64) (ecc : Ecc) (s : State), s.seqPc k + 1 < 0x8000 →
  let x := s.getSite k
  let fc := x.fc0 + x.cycle
  let goes (t : State) : Prop := Issued s t k w 1 false false (s.seqPc k + 1) 3
  (s.CanIssue k w ecc 12 1 → Answers (.setf k w ecc) s (fun t =>
      let f := seqAux w % 16
      let v := (seqAux w).testBit 4
      goes t ∧ t.xflags = (fc, if v then bvBit 16 f else 0, if v then 0 else bvBit 16 f) :: s.xflags
        ∧ ((∀ e ∈ s.xflags, e.1 < fc) → ∀ u, fc + 3 ≤ u → t.flagSeen f u = v)
        ∧ (∀ g u, g ≠ f → t.flagSeen g u = s.flagSeen g u)
        ∧ Only { issueMay k (fun a => a = Reg.seqXflags ∨ a = Reg.seqXflagsClr) with flags := True } s t))
    ∧ (s.CanIssue k w ecc 20 1 → Answers (.expose k w ecc) s (fun t =>
        goes t ∧ (t.getSite k).exposeAt = x.exposeAt ++ [x.cycle] ∧ Only (issueMay k) s t))
    ∧ (s.CanIssue k w ecc 21 1 → seqAux w = 0 → Answers (.capctlSelectBlock k w ecc) s (fun t =>
        goes t ∧ (t.getSite k).capBlock.toNat = seqImm w ∧ t.fld (Reg.capStatus k) 20 8 = seqImm w ∧ Only (issueMay k) s t))
    ∧ (s.CanIssue k w ecc 21 1 → seqAux w = 1 → Answers (.capctlSetMode k w ecc) s (fun t =>
        goes t ∧ (t.getSite k).capMode.toNat = seqImm w ∧ t.fld (Reg.capStatus k) 18 2 = seqImm w ∧ Only (issueMay k) s t))
    ∧ (s.CanIssue k w ecc 22 1 → Answers (.seqFlush k w ecc) s (fun t =>
        goes t ∧ (t.getSite k).flushAt = x.flushAt ++ [x.cycle] ∧ t.bit (Reg.capStatus k) 16 = true ∧ Only (issueMay k) s t))
    ∧ (s.CanIssue k w ecc 23 1 → Answers (.seqIrqInstr k w ecc) s (fun t =>
        goes t ∧ (s.seqCond k w x.cycle = true → (s.getQ (Reg.seqIrq k)).items.length < 16 →
            (t.getQ (Reg.seqIrq k)).items = (s.getQ (Reg.seqIrq k)).items ++ [BitVec.ofNat 32 (seqImm w) ||| 0x80000000#32
              ||| (if (s.getQ (Reg.seqIrq k)).lost then 0x40000000#32 else 0)])
          ∧ (s.seqCond k w x.cycle = false → t.getQ (Reg.seqIrq k) = s.getQ (Reg.seqIrq k))
          ∧ Only { issueMay k with queue := fun a => a = Reg.seqIrq k } s t))

/-- R84 to R89: the instructions in which a sequencer waits. Each issues its own cycles first: MATCH H − 1 of them, SYNC and WAITF one,
CALWIN and BISTWIN imm cycles that carry no vector. A WAITF whose flag is already seen goes on at once; BISTWIN isolates the region from the edge 3 fc after its first cycle,
to be restored, and leaves room for one slice in every 102,400 fc beyond 1,024. It rests on the readings and choices of log entries 6 and 75. -/
def Obligations.SeqWaits : Prop := ∀ (k : SiteIx) (w : BitVec 64) (ecc : Ecc) (s : State),
  let x := s.getSite k
  let more := s.seqPc k + 1 < 0x8000
  let seen := s.flagSeen (seqAux w % 16) (x.fc0 + x.cycle)
  let holds (wait : Wait) (t : State) : Prop := (t.getSite k).wait = wait ∧ Only (issueMay k) s t
  (s.CanIssue k w ecc 8 (x.hUse - 1) → Answers (.matchLoop k w ecc) s (fun t =>
      Issued s t k w (x.hUse - 1) false false (s.seqPc k) 4 ∧ holds (.matching w) t))
    ∧ (s.CanIssue k w ecc 11 1 → Answers (.sync k w ecc) s (fun t =>
        Issued s t k w 1 false false (s.seqPc k) 4
          ∧ holds (.sync (BitVec.ofNat 16 (seqImm w)) (BitVec.ofNat 4 (seqAux w)) x.cycle) t))
    ∧ (s.CanIssue k w ecc 13 1 → seen ≠ (seqAux w).testBit 4 → Answers (.waitf k w ecc) s (fun t =>
        Issued s t k w 1 false false (s.seqPc k) 4
          ∧ holds (.waitf (BitVec.ofNat 4 (seqAux w % 16)) ((seqAux w).testBit 4) x.cycle) t))
    ∧ (s.CanIssue k w ecc 13 1 → seen = (seqAux w).testBit 4 → more → Answers (.waitf k w ecc) s (fun t =>
        Issued s t k w 1 false false (s.seqPc k + 1) 3 ∧ holds .none t))
    ∧ (s.CanIssue k w ecc 18 (seqImm w) → more → Answers (.calwin k w ecc) s (fun t =>
        Issued s t k w (seqImm w) true false (s.seqPc k + 1) 4 ∧ holds (.calwin x.cycle (seqImm w)) t))
    ∧ (s.CanIssue k w ecc 19 (seqImm w) → more → Answers (.bistwin k w ecc) s (fun t =>
        Issued s t k w (seqImm w) true false (s.seqPc k + 1) 4 ∧ (t.getSite k).restorePending = true
          ∧ (t.getSite k).wait = .bistwin x.cycle (seqImm w) ∧ (t.getSite k).slicesLeft = (seqImm w - 1024) / 102400
          ∧ (∀ f, x.fc0 + x.cycle + 3 ≤ f → t.penIsoAt k f = true)
          ∧ Only (issueMay k (fun a => a = Reg.glbSiteState ∨ a = Reg.fabPenStat ∨ a = Reg.glbMode)) s t))

/-- R84 to R87, R89: how the waits end, each completing on the state alone. The decision of a MATCH exits with MX = 0, retries while its loop
counter is above 1, or gives up with MX = 1, the clear point moving in each case (for a give-up the model's choice, log entry 106); every member of a barrier whose wait stays within its limit issues its next instruction 6 fc
after the last of them; a WAITF goes on behind the fc in which it sees its flag; a wait whose flag or barrier does not come within its
limit issues the cycles up to the limit and stops with reason 8; a BISTWIN whose slices are over is restored and no longer isolates its
region. A wait that ends with the last fc of its limit has completed, the model's choice (log entry 106). It rests on the readings and choices of log entry 75 too. -/
def Obligations.SeqWaitEnds : Prop := ∀ (k : SiteIx) (s : State),
  let x := s.getSite k
  let lastOf (mask : BitVec 16) (id : BitVec 4) : Nat := ((members mask).filterMap (s.syncSince mask id)).foldl max 0
  (∀ w, s.seqState k = 4 → x.wait = .matching w → x.after ≠ .cut → seqLegal k w = true → seqOp w = 8 → s.seqPc k + 1 < 0x8000 →
      Answers (.matchDecision k) s (fun t =>
        let lc := Reg.seqLc k (seqAux w % 8)
        t.seqState k = 3 ∧ (t.getSite k).wait = .none ∧ (t.getSite k).clearPt = x.cycle ∧ (t.getSite k).cycle = x.cycle
          ∧ t.fc = max s.fc (x.fc0 + x.cycle)
          ∧ (if s.seqCond k w (x.cycle - 1) then
              t.seqPc k = s.seqPc k + 1 ∧ t.bit (Reg.seqStatus k) 5 = false ∧ t.rd lc = s.rd lc
            else if 1 < (s.rd lc).toNat then
              t.seqPc k = seqImm w ∧ t.bit (Reg.seqStatus k) 5 = s.bit (Reg.seqStatus k) 5 ∧ t.rd lc = s.rd lc - 1
            else t.seqPc k = s.seqPc k + 1 ∧ t.bit (Reg.seqStatus k) 5 = true ∧ t.rd lc = 0)
          ∧ Only { reg := fun a => a = Reg.seqPc k ∨ a = Reg.seqStatus k ∨ a = lc, site := fun j => j = k.val, time := True } s t))
    ∧ (∀ (mask : BitVec 16) (id : BitVec 4), members mask ≠ [] →
        (∀ j ∈ members mask, (s.getSite j).stopAt = none ∧ s.seqPc j + 1 < 0x8000 ∧ ∃ since, s.syncSince mask id j = some since
          ∧ (s.waitLimit j = 0 ∨ lastOf mask id + 6 - since ≤ s.waitLimit j)) →
        Answers (.syncRelease mask id) s (fun t =>
          (∀ j ∈ members mask, t.seqState j = 3 ∧ (t.getSite j).wait = .none ∧ t.seqPc j = s.seqPc j + 1
              ∧ (t.getSite j).fc0 + (t.getSite j).cycle
                = max ((s.getSite j).fc0 + (s.getSite j).cycle) (lastOf mask id + 6))
            ∧ t.fc = max s.fc (lastOf mask id + 6)
            ∧ Only { reg := fun a => ∃ j ∈ members mask, issueRegs j a, site := fun j => j ∈ members mask, time := True } s t))
    ∧ (∀ f v since e, s.seqState k = 4 → x.wait = .waitf f v since → s.flagFc f.toNat (x.fc0 + since) v = some e →
        (s.waitLimit k = 0 ∨ e + 1 - (x.fc0 + since) ≤ s.waitLimit k) → x.stopAt = none → s.seqPc k + 1 < 0x8000 →
        Answers (.waitfComplete k) s (fun t => t.seqState k = 3 ∧ (t.getSite k).wait = .none ∧ t.seqPc k = s.seqPc k + 1
          ∧ (t.getSite k).fc0 + (t.getSite k).cycle = max (x.fc0 + x.cycle) (e + 1) ∧ t.fc = max s.fc (e + 1)
          ∧ Only (issueMay k) s t))
    ∧ (∀ since, s.seqState k = 4 → s.waitLimit k ≠ 0 → x.stopAt = none →
        ((∃ f v, x.wait = .waitf f v since
            ∧ ∀ e, s.flagFc f.toNat (x.fc0 + since) v = some e → s.waitLimit k < e + 1 - (x.fc0 + since))
          ∨ ∃ m i, x.wait = .sync m i since ∧ ∀ u, s.barrier m i = some u → s.waitLimit k < u + 6 - (x.fc0 + since)) →
        Answers (.waitTimeout k) s (fun t =>
          (t.getSite k).cycle = max x.cycle (since + s.waitLimit k) ∧ Stopped t k 8 ((t.getSite k).cycle - 1)
            ∧ Only (stopMay k) s t))
    ∧ (x.restorePending = true → s.slicesOver k = true → Answers (.bistwinRestore k) s (fun t =>
        (t.getSite k).restorePending = false ∧ t.seqState k = s.seqState k
          ∧ (∀ f, t.penIsoAt k f = t.isoHeld k f)
          ∧ Only { reg := fun a => a = Reg.glbSiteState ∨ a = Reg.fabPenStat ∨ a = Reg.glbMode, site := fun j => j = k.val } s t))

/-- R64, R68, R90, R101, R103: an instruction whose word has an uncorrectable error, whose bank is loading, or that is illegal does not
issue, and before any planned stop the sequencer stops with fault 0x03, 0x06 or 0x02 in that order; a self-test slice of its region is
aborted (R89). A disagreement of the shadow sequencer
at a cycle is fault 0x01 of the instruction of that cycle, and at most 3 cycles after it issue. SEQ_FAULT holds the code and the PC.

R99, R100, R104: HALT and PARK issue their cycle and stop there where their condition holds. A host stop of one sequencer that runs ends
it after the cycle named, from the last one to 8 fc on, with reason 4 unless a stop planned for that fc ranks above it (R101), and one of a
mask ends each in the fc that is now; the others stay as they are. A planned stop comes before the cycle it keeps from issuing, after a run
of cycles that it has cut without a fetch. GSTOP leaves cmd_status as it is: the model's choice (log entry 106).
It rests on the readings and choices of log entries 67 and 75 too. -/
def Obligations.SeqEnds : Prop :=
  (∀ (k : SiteIx) (w : BitVec 64) (ecc : Ecc) (s : State) (op : Nat),
  let x := s.getSite k
  let busy : Prop := ∃ b r n, x.ovl = some (b, r, n) ∧ (if b then 1 else 0) = s.seqPc k / 0x4000
  let faults (code pc cyc : Nat) (t : State) : Prop := Faulted t k code pc cyc ∧ Only (stopMay k (· = Reg.seqFault k)) s t
  let now (code : Nat) (t : State) : Prop := faults code (s.seqPc k) (x.cycle + 2 ^ 48 - 1) t ∧ (t.getSite k).cycle = x.cycle
  (s.seqReady k = true → x.after = .go → s.imemWord k = w → seqOp w = op →
      (ecc = .double → Answers (seqInstr k w ecc op) s (now 0x03))
        ∧ (ecc ≠ .double → busy → Answers (seqInstr k w ecc op) s (now 0x06))
        ∧ (ecc ≠ .double → ¬ busy → seqLegal k w = false → Answers (seqInstr k w ecc op) s (now 0x02)))
    ∧ (∀ cycle : BitVec 48, s.seqRuns k = true → x.stopAt = none → x.after ≠ .past →
        let first := (x.spans.head?.map (fun sp => sp.first)).getD 0
        let upto := max first (min (s.nowCyc k) (cycle.toNat + 4))
        Answers (.lockstepMismatch k cycle) s (fun t =>
          faults 0x01 (((x.spanAt cycle.toNat).map (fun sp => sp.pc)).getD (s.seqPc k)) cycle.toNat t
            ∧ (t.getSite k).cycle = (if s.inWait k then max x.cycle upto else min x.cycle upto))))
    ∧ (∀ (k : SiteIx) (w : BitVec 64) (ecc : Ecc) (req : Requester) (s : State),
  let x := s.getSite k
  let halts (reason : Nat) (t : State) : Prop :=
    if s.seqCond k w x.cycle then
      (t.getSite k).cycle = x.cycle + 1 ∧ t.seqPc k = s.seqPc k ∧ t.fld (Reg.seqStatus k) 12 4 = seqAux w % 16
        ∧ Stopped t k reason x.cycle ∧ Only (stopMay k) s t
    else Issued s t k w 1 false false (s.seqPc k + 1) 3 ∧ Only (issueMay k) s t
  (s.CanIssue k w ecc 9 1 → (s.seqCond k w x.cycle = true ∨ s.seqPc k + 1 < 0x8000) → Answers (.seqHalt k w ecc) s (halts 1))
    ∧ (s.CanIssue k w ecc 10 1 → (s.seqCond k w x.cycle = true ∨ s.seqPc k + 1 < 0x8000) →
        Answers (.seqPark k w ecc) s (halts 2))
    ∧ (∀ h (last : BitVec 48), s.reaches req = true → x.after ≠ .past → (∀ p, x.stopAt = some p → s.inWait k = false ∧ s.nowCyc k < x.cycle) →
        let n := s.nowCyc k
        let upto := if n ≤ last.toNat + 1 ∧ last.toNat ≤ n + 8 then last.toNat + 1 else n
        let cyc := if s.inWait k then max x.cycle upto else min x.cycle upto
        Answers (.seqStop req k h last) s (fun t =>
          t.bit (Reg.seqCtl k) 8 = h
            ∧ (if s.seqRuns k then
                (t.getSite k).cycle = cyc ∧ t.fld (Reg.seqStatus k) 20 4 = 1
                  ∧ (match x.stopAt with
                    | some (e, n) => if e ≤ cyc then Stopped t k x.stopBy n else Stopped t k 4 (cyc + 2 ^ 48 - 1)
                    | none => Stopped t k 4 (cyc + 2 ^ 48 - 1))
              else t.seqState k = s.seqState k ∧ t.fld (Reg.seqStatus k) 20 4 = 2)
            ∧ Only { stopMay k (· = Reg.seqCtl k) with key := fun r => r = req.toNat } s t))
    ∧ (∀ mask : BitVec 16, s.reaches req = true → (∀ j ∈ members mask, (s.getSite j).stopAt = none ∧ (s.getSite j).after ≠ .past) →
        Answers (.seqGstop req mask) s (fun t =>
          (∀ j ∈ members mask, s.seqRuns j = true →
            if s.inWait j = true ∨ s.nowCyc j ≤ (s.getSite j).cycle then
              (t.getSite j).cycle = (if s.inWait j then max (s.getSite j).cycle (s.nowCyc j) else s.nowCyc j)
                ∧ Stopped t j 4 ((t.getSite j).cycle + 2 ^ 48 - 1)
            else (t.getSite j).stopAt = some (s.nowCyc j, s.nowCyc j - 1) ∧ (t.getSite j).stopBy = 4 ∧ t.seqRuns j = true)
          ∧ (∀ j ∈ members mask, t.fld (Reg.seqStatus j) 20 4 = s.fld (Reg.seqStatus j) 20 4)
          ∧ Only { reg := fun a => ∃ j ∈ members mask, s.seqRuns j = true ∧ stopRegs j a
                   site := fun j => j ∈ members mask ∧ s.seqRuns j = true, bist := fun j => j ∈ members mask ∧ s.seqRuns j = true
                   fab := fun j => j ∈ members mask ∧ s.seqRuns j = true, key := fun r => r = req.toNat } s t))
    ∧ (∀ e n, s.seqReady k = true → s.imemWord k = w → x.stopAt = some (e, n) → e ≤ x.cycle →
        (x.after = .cut ∨ x.after = .go ∧ s.fetchFault k w ecc = none ∧
          (seqOp w = 6 → s.seqCond k w x.cycle = true → s.fld (Reg.seqSp k) 0 5 < 16) ∧
          (seqOp w = 7 → s.seqCond k w x.cycle = true → 0 < s.fld (Reg.seqSp k) 0 5) ∧ (seqOp w = 24 → s.ovlFault k w = none)) →
        Answers (seqInstr k w ecc (seqOp w)) s (fun t => Stopped t k x.stopBy n ∧ (t.getSite k).cycle = x.cycle
          ∧ Only (stopMay k) s t)))

/-! ### Commands of the sequencers -/

/-- R35, R85, R97, R98, R105, R109: arming starts where the mode, the states and the program length allow it, else the status names the first
reason; a start of one sequencer or of a mask starts every one on the same fc, or none, and the status names the first requirement of
R98 that one of them fails, or that the start has lost to a trigger of a higher kind (R35); disarm takes an armed sequencer back to idle. A
transition out of READY that is in progress fails the requirement on the mode, the model's choice (log entry 83).

R85: a host write of SEQ_XFLAGS sets the flags it names and one of SEQ_XFLAGS_CLR clears them, in the fc in which it arrives; a
conditional instruction sees the write 3 fc later, and the other flags stay. It rests on the readings and choices of log entries 11 and 77 too. -/
def Obligations.SeqControl : Prop :=
  (∀ (req : Requester) (k : SiteIx) (h : Bool) (s : State), s.reaches req = true →
  let ctl (reg : Nat → Prop) : May :=
    { reg := fun a => a = Reg.seqCtl k ∨ a = Reg.seqStatus k ∨ reg a, site := fun j => j = k.val, key := fun r => r = req.toNat }
  let none' : Nat → Prop := fun _ => False
  let status (t : State) : Nat := t.fld (Reg.seqStatus k) 20 4
  Answers (.seqArm req k h) s (fun t =>
      t.bit (Reg.seqCtl k) 8 = h
        ∧ (if (s.mode = modeREADY ∨ s.mode = modeRUN) ∧ s.seqState k = 0 ∧ s.siteState k = 0
              ∧ 1 ≤ s.fld (Reg.seqProgLen k) 0 8 ∧ s.fld (Reg.seqProgLen k) 0 8 ≤ 128 then
            t.seqState k = 1 ∧ status t = 1
          else t.seqState k = s.seqState k ∧ status t = (if s.mode ≠ modeREADY ∧ s.mode ≠ modeRUN then 5
            else if s.seqState k ≠ 0 ∨ s.siteState k ≠ 0 then 2 else 9))
        ∧ Only (ctl none') s t)
    ∧ Answers (.seqDisarm req k h) s (fun t =>
        t.seqState k = (if s.seqState k = 2 then 0 else s.seqState k) ∧ status t = (if s.seqState k = 2 then 1 else 2)
          ∧ Only (ctl none') s t)
    ∧ (s.CanStart k → s.admits [k.val] = true → Answers (.seqStart req k h false) s (fun t =>
        Started s t k ∧ status t = 1
          ∧ Only { startMay (· = k.val) with key := fun r => r = req.toNat } s t))
    ∧ ((¬ s.CanStart k ∨ s.admits [k.val] = false) → Answers (.seqStart req k h false) s (fun t =>
        status t = s.startCode [k.val] [2, 2, 5, 5, 8, 3, 4] ∧ t.seqState k = s.seqState k ∧ Only (ctl (· = Reg.pmuEvt)) s t))
    ∧ Answers (.seqStart req k h true) s (fun t => status t = 7 ∧ t.seqState k = s.seqState k ∧ Only (ctl none') s t)
    ∧ (∀ mask : BitVec 16, members mask ≠ [] → (∀ j ∈ members mask, s.CanStart j) → s.admits (members mask) = true →
        Answers (.seqGstart req mask false) s (fun t =>
          (∀ j ∈ members mask, Started s t j) ∧ t.fld Reg.seqGstart 28 4 = 1
            ∧ Only { startMay (· ∈ members mask) with
                reg := fun a => (startMay (· ∈ members mask)).reg a ∨ a = Reg.seqGstart, key := fun r => r = req.toNat } s t))
    ∧ (∀ mask : BitVec 16, members mask ≠ [] → ((∃ j ∈ members mask, ¬ s.CanStart j) ∨ s.admits (members mask) = false) →
        Answers (.seqGstart req mask false) s (fun t =>
          t.fld Reg.seqGstart 28 4 = s.startCode (members mask) [2, 2, 4, 4, 7, 5, 3]
            ∧ Only { reg := fun a => a = Reg.seqGstart ∨ a = Reg.pmuEvt, key := fun r => r = req.toNat } s t))
    ∧ (∀ mask : BitVec 16, members mask ≠ [] → Answers (.seqGstart req mask true) s (fun t => t.fld Reg.seqGstart 28 4 = 6
        ∧ Only { reg := fun a => a = Reg.seqGstart, key := fun r => r = req.toNat } s t)))
    ∧ (∀ (req : Requester) (f : BitVec 16) (s : State), s.reaches req = true →
  let seen (v : Bool) (t : State) : Prop :=
    ((∀ e ∈ s.xflags, e.1 < s.fc) → ∀ i u, s.fc + 3 ≤ u → i < 16 →
        t.flagSeen i u = (if f.getLsbD i then v else s.flagSeen i u))
      ∧ Only { reg := fun a => a = Reg.seqXflags ∨ a = Reg.seqXflagsClr, flags := True, key := fun r => r = req.toNat } s t
  Answers (.seqXflagsSet req f) s (seen true) ∧ Answers (.seqXflagsClr req f) s (seen false))

/-- R26, R64, R72, R90, R91, R97: arming completes with the program's rows in instruction memory, or idle with status 6 where a row cannot be
read; an overlay load is started by OVL in the bank that does not execute and ends with its rows in that bank; a stored-vector row
reaches the formatter, but for one that comes after its first cycle was due; a host write of X15 while armed is a seek.
It rests on the readings and choices of log entries 75 and 106. -/
def Obligations.SeqRows : Prop := ∀ (k : SiteIx) (w : BitVec 64) (ecc : Ecc) (req : Requester) (s : State),
  let x := s.getSite k
  let prog := s.readRows (s.fld (Reg.seqProgRow k) 0 30) (s.fld (Reg.seqProgLen k) 0 8)
  let imem (t : State) (a : Nat) : BitVec 64 := Sparse.get (fun _ => 0) (t.getSite k).imem a
  let put (t : State) (base : Nat) (rows : List (List Byte)) : Prop :=
    ∀ a, imem t a = if base ≤ a ∧ a < base + 256 * rows.length then
      BitVec.ofNat 64 (ofLe (((rows.getD ((a - base) / 256) []).drop (8 * ((a - base) % 256))).take 8)) else imem s a
  let may (reg : Nat → Prop) : May := May.dramToo { reg := reg, site := fun j => j = k.val }
  (s.seqState k = 1 → Answers (.armComplete k) s (fun t =>
      put t 0 prog.2.1 ∧ (if prog.2.2 then t.seqState k = 2 else t.seqState k = 0 ∧ t.fld (Reg.seqStatus k) 20 4 = 6)
        ∧ Only (may (· = Reg.seqStatus k)) s t))
    ∧ (∀ bank r n, x.ovl = some (bank, r, n) → Answers (.overlayLoadDone k) s (fun t =>
        put t (if bank then 0x4000 else 0) (s.readRows r n).2.1 ∧ (t.getSite k).ovl = none ∧ t.bit (Reg.seqStatus k) 6 = false
          ∧ Only (may (· = Reg.seqStatus k)) s t))
    ∧ (s.CanIssue k w ecc 24 1 → s.seqPc k + 1 < 0x8000 → x.ovl = none →
        (if (seqAux w).testBit 7 then 1 else 0) ≠ s.seqPc k / 0x4000 → s.ovlRowsOk k (seqImm w) (seqAux w % 128) = true →
        Answers (.ovl k w ecc) s (fun t =>
          (s.readRows (seqImm w) (seqAux w % 128)).2.2 = true → Issued s t k w 1 false false (s.seqPc k + 1) 3
            ∧ (t.getSite k).ovl = some ((seqAux w).testBit 7, seqImm w, seqAux w % 128) ∧ t.bit (Reg.seqStatus k) 6 = true
            ∧ Only (May.dramToo (issueMay k)) s t))
    ∧ (∀ v, s.reaches req = true → s.seqState k = 2 → Answers (.svSeekHost req k v) s (fun t =>
        t.rd (Reg.seqX k 15) = v ∧ (t.getSite k).seekFc = some s.fc ∧ (t.getSite k).gen = x.gen + 1
          ∧ Only { reg := fun a => a = Reg.seqX k 15, site := fun j => j = k.val, key := fun r => r = req.toNat } s t))
    ∧ (∀ row, s.seqState k ≠ 0 → s.seqState k ≠ 5 → s.waitRank (s.svVault k row) ≠ 0 → Answers (.svRowArrive k row) s (fun t =>
        let key := x.fmtKey (row % 2 ^ 26)
        let old := ((s.checkDue k).getSite k).fmtRow key
        let got := (s.checkDue k).readAt (s.svAddr k (s.fld (Reg.seqSvbaseRow k) 0 30) (64 * (row % 2 ^ 26))) srcPerCycle
        (t.getSite k).fmtRow key = (if old = .late then .late else match got.2 with
            | .ok d => .here d
            | _ => .never (old == .never true))
          ∧ Only (may (integRegs k)) s t))


/-! ### The pattern link -/

/-- R174, R177 to R186, R206: a PTX lane that can send a frame sends it, with its gap, in the kind its site's state asks for: VECTOR with the
symbols of the cycles it carries, whose fills are judged by then, and HOLD elsewhere, each cycle entered in the expectation memory; IDLE; PARK
with the park reason; or a MARKER with its number. The frame awaits its answer. A site that waits in WAITF or SYNC has issued its cycles up
to now before a VECTOR frame goes. It rests on the readings and choices of log entries 66 and 75. -/
def Obligations.PtxFrames : Prop := (∀ (l : LaneIx) (f : Nat) (s0 : State),
  let k := l.val / 16
  let s := s0.catchUp k
  let cycles := (s.getSite k).frameCycles f
  let x := (s.checkFills k (8 * f + 8 - (s.getSite k).fc0)).getSite k
  s.canSend l f = true → s.frameKind k f = kindData → Answers (.ptxVectorFrame l f) s0 (fun t =>
    Sent' s t l f kindData (x.vectorPayload l cycles) (x.vectorInfo l cycles) cycles
      ∧ (∀ n, some n ∈ cycles → (∀ j, some j ∈ cycles → j % 4096 = n % 4096 → j = n) →
          Sparse.get (fun _ => 0) (t.getSite k).expect (n % 4096 * 16 + l % 16)
            = BitVec.ofNat 16 (packNibbles (sentSymbols (x.laneSymbols l n))))
      ∧ Only { sendMay l with reg := fun a => (sendMay l).reg a ∨ a = Reg.lnkEvt l ∨ integRegs k a, site := fun j => j = k } s t))
  ∧ (∀ (l : LaneIx) (f : Nat) (s : State), s.canSend l f = true →
  let k := l.val / 16
  let m := (s.getLane l).markNum
  (s.frameKind k f = kindIdle → Answers (.ptxIdleFrame l f) s (fun t =>
        Sent' s t l f kindIdle 0 0 [] ∧ Only (sendMay l) s t))
    ∧ (s.frameKind k f = kindPark → Answers (.ptxParkFrame l f) s (fun t =>
        Sent' s t l f kindPark 0 (s.parkCode k).toNat [] ∧ Only (sendMay l) s t))
    ∧ (s.frameKind k f ≠ kindData → s.measuring k = true → (s.getLane l).markSent < 256 →
        ((s.getLane l).markSent = 0 ∨ (s.getLane l).lastMark + 16 ≤ f) → Answers (.ptxMarkerFrame l f) s (fun t =>
          Sent' s t l f kindMarker (markerPayload l m) 0 [] ∧ (t.getLane l).markNum = (m + 1) % 4096
            ∧ (t.getLane l).markSent = (s.getLane l).markSent + 1 ∧ Only (sendMay l) s t)))

/-- R175, R177 to R181: a lane pair is transparent. A receiver whose descrambler holds what the transmitter's scrambler held, and whose
polarity undoes what the transmitter's and the board's leave, reads from the frame's body its payload, kind, tag and info, with a right CRC,
and holds after it what the scrambler holds. -/
def Obligations.FrameRoundTrip : Prop := ∀ (l f kind payload info : Nat) (board : Bool) (fr : PrxFrame) (s : State),
  s.injArmed l = false → s.injArmed (prxWin l) = false → (s.getLane l).rxScr = (s.getLane l).txScr → kind < 4 →
  board = xor (s.getLane l).txInvert (s.getLane l).rxInvert →
  fr.body = onLine board ((s.frameBits l f kind payload info).extractLsb' 2 158) →
    let b := s.prxBody l fr
  b.data % 2 ^ 128 = payload % 2 ^ 128 ∧ b.kind = kind ∧ b.tag = f % 16 ∧ b.info = info % 256 ∧ b.crcOk = true
    ∧ b.scr = (scramble (s.getLane l).txScr.toNat (bitsOf (frameBody payload kind (f % 16) info) 0 158)).2

/-- R28, R179, R189 to R191, R468: a frame of its kind that reaches a locked lane answers the PTX frame it belongs to, once, and what is
wrong with it is counted or recorded in LNK_EVT: bad CRC or header in bit 3 and LNK_CRC_CNT, wrong tag in 4, wrong kind in 5, wander in 6, a
frame the pin electronics found bad in 7; the cycles of such a frame become UNVERIFIED. With the fourth invalid header in a row, the eighth
among 64 or the fourth wrong tag or round trip in a row the lane loses frame lock. A frame whose body carries another kind is another
command's. Under its receiver-offset item a lane discards what it receives and keeps its lock. The descrambler takes every frame's bits, in
frame search and where no frame awaits its answer too.

Wander is judged only in state 6 and in a new measurement, the model's choice (log entry 66).

R345, R346: a locked lane that an active stream names gives it the bytes of its frames, with what is wrong with each, from the first frame on
or, in a triggered stream, from the one that answers cycle S. -/
def Obligations.PrxFrames : Prop := ∀ (l : LaneIx) (f : Nat) (fr : PrxFrame) (expBad : BitVec 8) (dis : BitVec 32) (e : Sent) (s : State),
  let w := prxWin l
  let x := s.getLane l
  let b := s.prxBody l fr
  let taken (t : State) : Prop := (t.getLane l).rxScr = BitVec.ofNat 58 b.scr
    ∧ Only { reg := fun a => a = Reg.lnkInject w, lane := fun j => j = l.val } s t
  let hdr := onLine x.rxInvert fr.hdr
  let bad : Bool := hdr != 1 && hdr != 2
  let answered (kind : Nat) (t : State) : Prop :=
    let v := s.judge l kind fr e
    let loses : Prop := 4 ≤ (if bad then x.badRun + 1 else 0) ∨ 8 ≤ popCount (x.hist <<< 1 ||| (if bad then 1 else 0))
      ∨ 4 ≤ (if x.relock then x.tagRun else if v.tagBad || v.wander then x.tagRun + 1 else 0)
    (t.getLane l).sent = (s.getLane l).sent.filter (fun p => p.frame != f)
      ∧ (t.getLane l).rxScr = BitVec.ofNat 58 b.scr
      ∧ (v.good = false → t.bit (Reg.lnkEvt w) 3 = true)
      ∧ (t.rd (Reg.lnkCrcCnt l)).toNat = (if v.good then (s.rd (Reg.lnkCrcCnt l)).toNat
          else min ((s.rd (Reg.lnkCrcCnt l)).toNat + 1) (2 ^ 32 - 1))
      ∧ (v.tagBad = true → t.bit (Reg.lnkEvt w) 4 = true) ∧ (v.kindBad = true → t.bit (Reg.lnkEvt w) 5 = true)
      ∧ (v.wander = true → t.bit (Reg.lnkEvt w) 6 = true) ∧ (v.ptxBad = true → t.bit (Reg.lnkEvt w) 7 = true)
      ∧ (v.good = true → v.tagBad = false → v.kindBad = false → v.wander = false → v.ptxBad = false →
          ∀ i, 3 ≤ i → i ≤ 7 → t.bit (Reg.lnkEvt w) i = s.bit (Reg.lnkEvt w) i)
      ∧ ((v.good = false ∨ v.tagBad = true ∨ v.kindBad = true ∨ v.wander = true ∨ v.ptxBad = true) → Unverified s t l e.cycles)
      ∧ (loses → t.lnkState w = 3 ∧ t.bit (Reg.lnkEvt w) 2 = true ∧ t.bit (Reg.seqHorizon (l / 16)) 31 = false)
      ∧ (¬ loses → x.relock = false → t.prxLocked l = true)
      ∧ Only (receiveMay (l / 16)) s t
  let all (P : Nat → State → Prop) : Prop :=
    (b.kind = kindData → Answers (.prxDataFrame l f fr expBad dis) s (P kindData))
      ∧ (b.kind = kindIdle → Answers (.prxIdleFrame l f fr) s (P kindIdle))
      ∧ (b.kind = kindPark → Answers (.prxParkedFrame l f fr) s (P kindPark))
      ∧ (b.kind = kindMarker → Answers (.prxMarkerFrame l f fr) s (P kindMarker))
  (s.prxLocked l = true → x.sent.find? (fun p => p.frame == f) = some e → s.rxOffset l = false → all answered)
    ∧ (s.prxLocked l = true → x.sent.find? (fun p => p.frame == f) = some e → s.rxOffset l = true → all (fun _ t =>
        (t.getLane l).sent = x.sent.filter (fun p => p.frame != f) ∧ taken t))
    ∧ (s.prxLocked l = true → x.sent.find? (fun p => p.frame == f) = some e → s.rxOffset l = false → b.kind = kindData →
        let k := l.val / 16
        let y := s.getWfe k
        let v := s.judge l kindData fr e
        let starts : Bool := !s.strTrig k || (e.cycles.filterMap id).any (fun n => n % 2 ^ 48 == s.rd64 (Reg.wfeStrTrigLo k) % 2 ^ 48)
        s.bit (Reg.wfeStatus k) 4 = true → (s.strLanes k).contains (l.val % 16) = true → Answers (.prxDataFrame l f fr expBad dis) s (fun t =>
          ((y.from0 = none → starts = true) → y.from0.all (fun g => decide (g ≤ f)) = true → t.bit (Reg.wfeStatus k) 4 = true
            ∧ (t.getWfe k).from0 = some (y.from0.getD f)
            ∧ (t.getWfe k).sides.map (fun q => (q.lane, q.frame, q.kind.toNat, q.bad)) = y.sides.map (fun q => (q.lane, q.frame, q.kind.toNat, q.bad))
                ++ [(l.val % 16, f, b.info / 8 % 4, !v.good || v.tagBad || v.kindBad || v.wander || v.ptxBad)]
            ∧ ((t.getWfe k).sides.map SideFrame.bytes).dropLast = y.sides.map SideFrame.bytes
            ∧ ∀ p, p < 8 → ((((t.getWfe k).sides.map SideFrame.bytes).getLast?).getD 0).toNat / 2 ^ (8 * p) % 256 = b.data / 2 ^ (16 * p + 8) % 256)
          ∧ ((y.from0 = none ∧ starts = false ∨ y.from0.any (fun g => decide (f < g)) = true) → s.strLast k = none → t.getWfe k = y)))
    ∧ ((s.lnkState w = 3 ∨ s.prxLocked l = true ∧ x.sent.find? (fun p => p.frame == f) = none) → all (fun _ t =>
        (t.getLane l).sent = x.sent ∧ taken t))

/-- R188, R189, R191, R192, R196: the events of a lane. Loss of signal or of CDR lock takes it to the state before, records the loss and
makes the site's horizon invalid; the CDR's lock and 64 valid headers take it on; a missing answer is recorded, unless the lane's receiver-offset item
runs (R468), and its frame waits no more; a missing echo starts the measurement again. A PRBS checker that has seen nothing is in sync after the bits of its register and 128
more of the stream, without an error; in sync a wrong bit is counted, and drops sync if it is the 16th among 1,024.
It rests on the readings and choices of log entry 93. -/
def Obligations.LaneEvents : Prop := ∀ (l : LaneIx) (s : State),
  let w := prxWin l
  let k := l.val / 16
  let st := s.lnkState w
  let x := s.getLane l
  let sel := s.fldAct (Reg.lnkCfg w) 8 4
  let prbs (t : State) : Prop := Only { reg := fun a => a = Reg.lnkStat w ∨ a = Reg.lnkPrbsErr l, lane := fun j => j = l.val } s t
  let only (t : State) : Prop :=
    Only { reg := fun a => a = Reg.lnkStat w ∨ a = Reg.lnkEvt w ∨ a = Reg.seqHorizon k, lane := fun j => j = l.val } s t
  let lost (bit dest : Nat) (t : State) : Prop :=
    t.lnkState w = dest ∧ t.bit (Reg.lnkEvt w) bit = true ∧ (s.prxLocked l = true → t.bit (Reg.lnkEvt w) 2 = true)
      ∧ t.bit (Reg.seqHorizon k) 31 = false ∧ (t.getLane l).badRun = 0 ∧ (t.getLane l).tagRun = 0 ∧ only t
  ((st = 2 ∨ st = 3 ∨ s.prxLocked l = true) → Answers (.los l) s (lost 0 1))
    ∧ ((st = 3 ∨ s.prxLocked l = true) → Answers (.cdrLossOfLock l) s (lost 1 2))
    ∧ (st = 1 → s.busUp = true → Answers (.losDeasserted l) s (fun t => t.lnkState w = 2 ∧ only t))
    ∧ (st = 2 → Answers (.cdrLock l) s (fun t => t.lnkState w = 3 ∧ only t))
    ∧ (st = 3 → s.seqRuns k = true → Answers (.frameLock l) s (fun t =>
        t.lnkState w = 4 ∧ (t.getLane l).relock = true ∧ (t.getLane l).relockGot = 0 ∧ only t))
    ∧ (st = 3 → s.seqRuns k = false → Answers (.frameLock l) s (fun t =>
        t.lnkState w = 5 ∧ t.bit (Reg.seqHorizon k) 31 = false ∧ t.bit Reg.lnkMeasure (16 + k) = true
          ∧ (t.getLane l).markSent = 0 ∧ (t.getLane l).markGot = 0 ∧ Only (receiveMay k) s t))
    ∧ (s.measuring k = true → (s.getLane l).markGot < (s.getLane l).markSent → s.seqRuns k = false →
        Answers (.echoMissing l) s (fun t => t.bit (Reg.lnkEvt w) 10 = true ∧ ∀ j ∈ lanesOf k, (t.getLane j).markSent = 0
          ∧ (t.getLane j).markGot = 0 ∧ t.lnkState (prxWin j) = 5 ∧ Only (receiveMay k) s t))
    ∧ (∀ n seed, st = 7 → s.bit (Reg.lnkStat w) 24 = false → x.prbsHeld = 0 → x.prbsRun = 0 → x.flipNext = false → x.flipRx = none →
        (prbsTaps sel).1 + 128 ≤ n →
        Answers (.prbsSync ⟨l, (List.range n).map (fun i => xor (prbsBit sel seed i) x.rxInvert)⟩) s (fun t =>
          t.bit (Reg.lnkStat w) 24 = true ∧ t.rd (Reg.lnkPrbsErr l) = s.rd (Reg.lnkPrbsErr l) ∧ prbs t))
    ∧ (∀ bits, st = 7 → (s.prbsFeed l bits).bit (Reg.lnkStat w) 24 = false → Answers (.prbsSyncLost l bits) s (fun t =>
        t.bit (Reg.lnkStat w) 24 = false ∧ prbs t))
    ∧ (∀ b, st = 7 → s.bit (Reg.lnkStat w) 24 = true → x.flipNext = false → x.flipRx = none →
        xor b x.rxInvert ≠ prbsNext sel x.prbsReg →
        let counted (t : State) : Prop :=
          (t.rd (Reg.lnkPrbsErr l)).toNat = min ((s.rd (Reg.lnkPrbsErr l)).toNat + 1) (2 ^ 32 - 1) ∧ prbs t
        if 16 ≤ popCount (BitVec.ofNat 1024 (x.prbsErrs.toNat * 2 + 1)) then
          Answers (.prbsSyncLost l [b]) s (fun t => t.bit (Reg.lnkStat w) 24 = false ∧ counted t)
        else Answers (.prbsSync ⟨l, [b]⟩) s (fun t => t.bit (Reg.lnkStat w) 24 = true ∧ counted t))
    ∧ (∀ f e, (s.getLane l).sent.find? (fun p => p.frame == f) = some e → Answers (.missingAnswerFrame l f) s (fun t =>
        (t.getLane l).sent = (s.getLane l).sent.filter (fun p => p.frame != f)
          ∧ (s.prxLocked l = true → s.rxOffset l = true → Only { lane := fun j => j = l.val } s t)
          ∧ ((s.prxLocked l = true → s.rxOffset l = false → t.bit (Reg.lnkEvt w) 6 = true ∧ Unverified s t l e.cycles)
            ∧ (s.prxLocked l = false → t.bit (Reg.lnkEvt w) (s.getLane l).loss = true ∨ 32 ≤ (s.getLane l).loss))
          ∧ Only (receiveMay k) s t))

/-- R196, R197, R204, R205: a measurement starts for every site of the mask that neither runs nor measures; an injection is taken where
the lane's mode allows it and none is pending: a flip of one bit, repeating flips, or a frame with a corrupt CRC. A cancel ends a pending one,
and has no effect on any other. It rests on the readings and choices of log entries 72 and 93. -/
def Obligations.LinkCommands : Prop := ∀ (req : Requester) (mask : BitVec 16) (w : Fin 512) (rate : BitVec 4) (s : State),
  s.reaches req = true →
  let l := w.val % 256
  let a := Reg.lnkInject w
  let pending := s.bit a 31
  let kinds (kind : Nat) (t : State) : Prop := t.fld a 28 2 = kind ∧ t.fld a 24 4 = rate.toNat
  let key : Nat → Prop := fun r => r = req.toNat
  Answers (.lnkMeasureGo req mask) s (fun t =>
      (∀ k ∈ members mask, s.seqRuns k = false → s.bit Reg.lnkMeasure (16 + k) = false →
        t.bit Reg.lnkMeasure (16 + k) = true ∧ t.bit (Reg.seqHorizon k) 31 = false
          ∧ ∀ j ∈ lanesOf k, (t.getLane j).markSent = 0 ∧ (s.prxLocked j = true → t.lnkState (prxWin j) = 5))
          ∧ Only { reg := fun a => ∃ k ∈ members mask, (receiveMay k).reg a, lane := fun j => ∃ k ∈ members mask, j ∈ lanesOf k
                   key := key } s t)
    ∧ (pending = false → s.prbsMode w = true → Answers (.injectFlipBit req w rate) s (fun t =>
        kinds 0 t ∧ t.bit a 31 = false
          ∧ (if w.val < 256 then (t.getLane l).flipOnce = s.fc :: (s.getLane l).flipOnce else (t.getLane l).flipNext = true)
          ∧ Only { reg := fun b => b = a, lane := fun j => j = l, key := key } s t))
    ∧ (pending = false → s.prbsMode w = true → Answers (.injectFlipRepeat req w rate) s (fun t =>
        kinds 1 t ∧ t.bit a 31 = true
          ∧ (if w.val < 256 then (t.getLane l).flipTx = some s.fc else (t.getLane l).flipRx = some 0)
          ∧ Only { reg := fun b => b = a, lane := fun j => j = l, key := key } s t))
    ∧ (pending = false → s.prbsMode w = false → Answers (.injectCorruptCrc req w rate) s (fun t =>
        kinds 2 t ∧ t.injArmed w = true ∧ Only { reg := fun b => b = a, key := key } s t))
    ∧ (pending = true → Answers (.injectCancel req w rate) s (fun t =>
        kinds 3 t ∧ t.bit a 31 = false
          ∧ (if w.val < 256 then (t.getLane l).flipTx = none else (t.getLane l).flipRx = none)
          ∧ Only { reg := fun b => b = a, lane := fun j => j = l, key := key } s t))
    ∧ (pending = false → Answers (.injectCancel req w rate) s (fun t => Only { key := key } s t))
    ∧ (pending = true → Answers (.injectCorruptCrc req w rate) s (fun t => Only { key := key } s t))

/-! ### Compare and capture -/

/-- R210, R213, R225, R233: the commands of CAP_CTL, in a stopped site with nothing else in progress, are accepted with status 1: clear_regs
clears the counts and the sticky bits, an armed injection among them; clear_areas is under way until it is done; flush closes every open
line; inject_cmp, in a key window, arms an injection. What is refused names its status and changes nothing else: status 2 while the site
runs; 3 for clear_areas while a commit is pending or either command is under way, and for flush while clear_areas is; a flush during a flush
is accepted and changes nothing. clear_areas leaves zeros with valid codes in every cell of the map, counter and log areas that can be
written, but for the block summaries, which get their initial state, and no other cell changes; that it does so
when it is accepted is the model's choice (log entry 63). It rests on the readings and choices of log entry 62 too. -/
def Obligations.CaptureCommands : Prop := ∀ (req : Requester) (k : SiteIx) (s : State), s.reaches req = true →
  let st := Reg.capStatus k
  let status (t : State) : Nat := t.fld st 28 4
  let key : Nat → Prop := fun r => r = req.toNat
  let keyed := 0 < s.keyLeft req.toNat
  let only (t : State) : Prop := Only { reg := fun a => a = st, key := key } s t
  let g := s.capGeomOf k
  let blk (b : Nat) : Nat × Nat := s.locate (g.ctrAddr b 0 0)
  let summary (b : Nat) : Nat := (blk b).1 * 2 ^ 23 + s.rowLoc (blk b).1 (blk b).2
  (s.seqRuns k = false → Answers (.capClearRegs req k) s (fun t =>
      status t = 1 ∧ t.rd64 (Reg.capFcycLo k) = 0 ∧ t.rd64 (Reg.capUnvcycLo k) = 0 ∧ t.rd64 (Reg.capFoccLo k) = 0
        ∧ t.rd64 (Reg.capFirstLo k) = 0 ∧ t.rd (Reg.capOor k) = 0 ∧ t.rd64 (Reg.capFallbackLo k) = 0 ∧ t.rd (Reg.capLogPtr k) = 0
        ∧ t.fld st 2 9 = 0
        ∧ Only { reg := fun a => a = st ∨ (Reg.capFcycLo k ≤ a ∧ a ≤ Reg.capFallbackHi k), site := fun j => j = k.val, key := key } s t))
    ∧ (s.seqRuns k = false → s.bit (Reg.capCommit k) 31 = false → s.bit st 16 = false → s.bit st 17 = false →
        Answers (.capClearAreas req k) s (fun t => status t = 1 ∧ t.bit st 17 = true ∧ (t.getSite k).ctrLines = []
          ∧ (∀ key, (∀ b < g.nblk, key / 8192 ≠ summary b) → Sparse.get Dram.reset t.dram key =
              if s.inExtents [g.mapExt, g.ctrExt, g.logExt] key then Dram.reset key else Sparse.get Dram.reset s.dram key)
          ∧ (∀ b < g.nblk, (s.rowRefused (blk b).1 (blk b).2).isNone = true → s.colMap (blk b).1 ((blk b).2 % 128) = [] →
              (∀ b' < g.nblk, b' ≠ b → summary b' ≠ summary b) → t.rawRow (blk b).1 (blk b).2 0 2048 = initialSummary)
          ∧ (s.bit (Reg.rpaStatus k) 0 = true → t.fld (Reg.rpaStatus k) 24 4 = 4 ∧ t.bit (Reg.rpaStatus k) 0 = false)
          ∧ Only (May.dramToo { reg := fun a => a = st ∨ a = Reg.rpaStatus k ∨ a = Reg.rpaIrqStat k
                                site := fun j => j = k.val, key := key }) s t))
    ∧ (s.seqRuns k = false → s.bit st 16 = false → s.bit st 17 = false → Answers (.capFlush req k) s (fun t =>
        status t = 1 ∧ t.bit st 16 = true ∧ ((t.getSite k).mapLines.all (fun l => l.closed)) = true
          ∧ (t.getSite k).mapLines.length = (s.getSite k).mapLines.length
          ∧ Only { reg := fun a => a = st, site := fun j => j = k.val, key := key } s t))
    ∧ (s.seqRuns k = false → (s.bit (Reg.capCommit k) 31 = true ∨ s.bit st 16 = true ∨ s.bit st 17 = true) →
        Answers (.capClearAreas req k) s (fun t => status t = 3 ∧ only t))
    ∧ (s.seqRuns k = false → s.bit st 17 = true → Answers (.capFlush req k) s (fun t => status t = 3 ∧ only t))
    ∧ (s.seqRuns k = false → s.bit st 17 = false → s.bit st 16 = true →
        Answers (.capFlush req k) s (fun t => status t = 1 ∧ t.bit st 16 = true ∧ only t))
    ∧ (keyed → s.bit st 2 = false → Answers (.capInjectCmp req k) s (fun t => status t = 1 ∧ t.bit st 2 = true ∧ only t))
    ∧ (keyed → s.bit st 2 = true → Answers (.capInjectCmp req k) s (fun t => status t = 4 ∧ t.bit st 2 = true ∧ only t))
    ∧ (¬ keyed → Answers (.capInjectCmp req k) s (fun t => status t = 5 ∧ t.bit st 2 = s.bit st 2 ∧ t.bit Reg.glbKeyErr 31 = true
        ∧ Only { reg := fun a => a = st ∨ a = Reg.glbKeyErr ∨ a = Reg.glbKeyCnt, key := key } s t))
    ∧ (s.seqRuns k = true → Answers (.capClearRegs req k) s (fun t => status t = 2 ∧ only t)
        ∧ Answers (.capClearAreas req k) s (fun t => status t = 2 ∧ only t)
        ∧ Answers (.capFlush req k) s (fun t => status t = 2 ∧ only t))

/-- R102, R221, R223, R225, R228: the row cache works its contents off. The line open longest closes after 512 fc; the first closed line is
merged and gone; the head of the counter queue is applied once its rows are held, and a row it misses is loaded; a flush ends when
nothing waits, clear_areas ends, and each shows its interrupt; the end of a drain leaves the sequencer idle and drained.

R26, R207, R213: a judged cycle with a FAIL or an UNVERIFIED channel, in a capture code that reaches the verdict, counts once in
CAP_FCYC, and once in CAP_UNVCYC where a channel is UNVERIFIED; the first one is recorded with its number, and a cycle in which all
counted channels pass counts nowhere. Channels masked off are not counted, and UNVERIFIED is never a pass. It rests on the readings and choices of log entry 65. -/
def Obligations.CaptureEvents : Prop :=
  (∀ (k : SiteIx) (s : State),
  let x := s.getSite k
  let st := Reg.capStatus k
  let may : May := May.dramToo { reg := siteRegs k, site := fun j => j = k.val, free := True }
  (∀ l, x.mapLines.find? (fun m => !m.closed) = some l → l.openFc + 512 ≤ s.fc → Answers (.lineClose k) s (fun t =>
      (t.getSite k).mapLines = x.mapLines.map (fun m => if m = l then { m with closed := true } else m)
        ∧ Only { site := fun j => j = k.val } s t))
    ∧ (∀ l, x.mapLines.find? (fun m => m.closed) = some l → Answers (.failmapMerge k) s (fun t =>
        (t.getSite k).mapLines = x.mapLines.erase l ∧ Only may s t))
    ∧ (∀ u rest, x.ctrQueue = u :: rest → s.missingRow k u = none → Answers (.counterUpdate k) s (fun t =>
        (t.getSite k).ctrQueue = rest ∧ Only may s t))
    ∧ (∀ u rest a, x.ctrQueue = u :: rest → s.missingRow k u = some a → Answers (.counterLineLoad k) s (fun t =>
        (∃ l ∈ (t.getSite k).ctrLines, l.addr = a ∧ l.dirty = false) ∧ (t.getSite k).ctrQueue = x.ctrQueue
          ∧ ((t.getSite k).ctrLines.length ≤ max 128 x.ctrLines.length) ∧ Only may s t))
    ∧ (s.flushReady k = true → Answers (.capFlushDone k) s (fun t =>
        t.bit st 16 = false ∧ t.bit (Reg.capIrqStat k) 7 = true ∧ ((t.getSite k).ctrLines.all (fun l => !l.dirty)) = true
          ∧ Only may s t))
    ∧ (s.bit st 17 = true → Answers (.clearAreasDone k) s (fun t =>
        t.bit st 17 = false ∧ t.bit (Reg.capIrqStat k) 8 = true
          ∧ Only { reg := fun a => a = st ∨ a = Reg.capIrqStat k } s t))
    ∧ (s.drainReady k = true → Answers (.drainEnd k) s (fun t =>
        t.seqState k = 0 ∧ t.siteBusy k = false ∧ (t.getSite k).window = false ∧ t.admitted k = false
          ∧ ∀ j, j ≠ k.val → j < 16 → t.seqState j = s.seqState j)))
    ∧ (∀ (k n : Nat) (a : CycAcc) (sp : Span) (s : State),
  (s.getSite k).spanAt n = some sp → k < 16 → a.expBad = false → a.disagree = 0 → (s.getSite k).cmpBad = false →
  s.bit (Reg.capStatus k) 2 = false →
  let counted : BitVec 64 := BitVec.ofNat 64 (s.pairAct (Reg.capCmpmask k 0))
  let unv := a.unv &&& counted
  let bad := (a.fail ||| a.unv) &&& counted
  let v := capVerdict sp.cap.toNat
  let t := s.deliver k n a
  let count (b : Bool) (lo : Nat) : Nat := if v && b then (s.rd64 lo + 1) % 2 ^ 48 else s.rd64 lo
  t.rd64 (Reg.capFcycLo k) = count (bad != 0) (Reg.capFcycLo k)
    ∧ t.rd64 (Reg.capUnvcycLo k) = count (unv != 0) (Reg.capUnvcycLo k)
    ∧ (v = true → bad ≠ 0 → s.rd64 (Reg.capFcycLo k) = 0 → t.rd64 (Reg.capFirstLo k) = n % 2 ^ 48 + 2 ^ 63)
    ∧ (t.getSite k).failMask n = bad ∧ (t.getSite k).judged = (s.getSite k).judged + 1)


/-! ### Repair analysis -/

/-- R241 to R243, R250, R258, R260: an accepted start or rebuild snapshots the geometry and begins with the first block of RPA_RANGE; a
refused one names its status; an abort stops a running analysis with reason 2; a finished block is counted, and the last one
completes the analysis with reason 1 and its interrupt, unless an abort of the same bc wins, which gives its own reason.
It rests on the readings and choices of log entries 11 and 62. -/
def Obligations.RepairCommands : Prop := ∀ (req : Requester) (k : SiteIx) (s : State), s.reaches req = true →
  let st := Reg.rpaStatus k
  let first := s.fldAct (Reg.rpaRange k) 0 8
  let key : Nat → Prop := fun r => r = req.toNat
  let begun (rebuild : Bool) (t : State) : Prop :=
    t.fld st 28 4 = 1 ∧ t.bit st 0 = true ∧ t.bit st 1 = rebuild ∧ t.fld st 16 8 = first ∧ t.fld st 7 9 = 0
      ∧ (t.getSite k).job.geom = s.rdAct (Reg.capGeom k) ∧ (t.getSite k).job.mapBase = s.pairAct (Reg.capMapBase k 0)
      ∧ (t.getSite k).job.last = s.fldAct (Reg.rpaRange k) 8 8
      ∧ Only (May.dramToo { reg := fun a => a = st, site := fun j => j = k.val, key := key }) s t
  (s.rpaRefused k = none → Answers (.rpaStart req k) s (begun false) ∧ Answers (.rpaRebuild req k) s (begun true))
    ∧ (∀ c, s.rpaRefused k = some c → ∀ cmd ∈ [Instr.rpaStart req k, .rpaRebuild req k], Answers cmd s (fun t =>
        t.fld st 28 4 = c ∧ 2 ≤ c ∧ t.bit st 0 = s.bit st 0 ∧ Only { reg := fun a => a = st, key := key } s t))
    ∧ (s.bit st 0 = true → Answers (.rpaAbort req k) s (fun t =>
        t.bit st 0 = false ∧ t.fld st 24 4 = 2 ∧ t.bit (Reg.rpaIrqStat k) 3 = true
          ∧ Only { reg := fun a => a = st ∨ a = Reg.rpaIrqStat k, key := key } s t))
    ∧ (∀ (elapsed : BitVec 64) (abort : Option (Fin 4)), s.bit st 0 = true → (s.getSite k).job.last < 256 →
        Answers (.rpaBlockDone k ⟨elapsed, abort⟩) s (fun t =>
          t.fld st 7 9 = (s.fld st 7 9 + 1) % 2 ^ 9
            ∧ (match abort with
              | some i => t.bit st 0 = false ∧ t.fld st 24 4 = 2 + i.val ∧ t.bit (Reg.rpaIrqStat k) 3 = true
                ∧ t.bit (Reg.rpaIrqStat k) 0 = s.bit (Reg.rpaIrqStat k) 0
              | none => if s.fld st 16 8 < (s.getSite k).job.last then t.bit st 0 = true ∧ t.fld st 16 8 = s.fld st 16 8 + 1
                else t.bit st 0 = false ∧ t.fld st 24 4 = 1 ∧ t.bit (Reg.rpaIrqStat k) 0 = true)
            ∧ Only (May.dramToo { reg := fun a => a = st ∨ a = Reg.rpaIrqStat k, site := fun j => j = k.val, free := True }) s t))

/-- R247: every solution that the search keeps repairs the block: each uncovered failing cell lies in a row or a column it replaces, and it
uses no more spare rows and columns than there are.

R244, R246: what must-repair and the bound prove unrepairable is unrepairable: no choice of at most r rows and c columns covers the
uncovered cells of a node that they give up. -/
def Obligations.RepairAnalysis : Prop :=
  (∀ (root : RpaNode) (cfg : Word) (limit : Nat) (x : RpaSol),
  x ∈ (rpaSolve root cfg limit).sols →
  (∀ p ∈ root.cells, p.1 ∈ x.rows ∨ p.2 ∈ x.cols)
    ∧ x.rows.length ≤ root.rows.length + root.r ∧ x.cols.length ≤ root.cols.length + root.c)
    ∧ (∀ (n : RpaNode), n.cells.Nodup → n.settle = none →
  ¬ ∃ rows cols : List Nat, rows.length ≤ n.r ∧ cols.length ≤ n.c ∧ ∀ p ∈ n.cells, p.1 ∈ rows ∨ p.2 ∈ cols)


/-! ### The stacked memory -/

/-- R268, R279, R280, R281, R289: the vaults' own work. A refresh is counted; where no other request waits, the scrub handles its row (a clean
one stays, a correctable or stale one is rewritten with its codes, one that cannot be decoded is poisoned, a marked or poisoned golden one is
only logged, with source scrub; for a golden row log entry 88), goes on to the next, and counts a lap after the last one; a lap that exceeds its limit is alarmed once; a vault leaves self-refresh ready; doubled refresh ends for a layer that has cooled
to 82 °C.

R46, R286, R287: a vault that fails is shown failed with its cause and its event, its service buffer is lost, a running sequencer of its
site stops with fault 0x09, and the site is isolated; a vault that finishes training is ready, or disabled with its tile, after a full reset with
the soft repairs of its mirror, and the last one shows DRAM trained. It rests on the readings and choices of log entries 53, 54, 64 and 89 too. -/
def Obligations.VaultUpkeep : Prop :=
  (∀ (v : VaultIx) (bank : Fin 128) (m : Fin 16) (s : State),
  let stat := Reg.vltStat v
  let row := s.fld (Reg.vltScrub v) 0 22
  let lap := s.fld (Reg.vltScrub v) 22 10
  let limit := s.fld Reg.vltCfg 16 16
  let u := s.svcSync v row
  let code := u.rawRow v row 2560 32
  let dec (c : List Byte) : Option Rs.Decoded := Rs.decode (u.rawRow v row 0 2048) (u.rawRow v row 2048 512) c
  let log := Reg.vltPoisonLog v
  let logged (new : Bool) (t : State) : Prop := (s.getQ log).items.length < 16 → ∃ rest, (t.getQ log).items = (s.getQ log).items
    ++ (BitVec.ofNat 32 ((if new then 2 ^ 26 else 0) + row) ||| 0x80000000#32
      ||| (if (s.getQ log).lost then 0x40000000#32 else 0)) :: rest
  let rewritten (d : List Byte) (t : State) : Prop := (s.getVault v).lost = none → ((s.colMap v (row % 128)).map Prod.snd).Nodup →
    t.rawRow v row 0 2592 = d ++ Rs.checkBytes d ++ Rs.bytesOf (Rs.encode (Rs.symbols d))
  let handled (t : State) : Prop :=
    if (s.getVault v).goldenBad.contains row then t.bit (Reg.vltEvt v) 2 = true ∧ logged false t ∧ t.dram = u.dram
    else match dec code with
      | some d =>
        if d.changed then t.bit (Reg.vltEvt v) 0 = true ∧ (t.rd (Reg.vltCeCnt v)).toNat = min ((s.rd (Reg.vltCeCnt v)).toNat + 1) (2 ^ 32 - 1)
          ∧ ((s.getVault v).fixedLast.contains row = false → rewritten d.data t)
        else if d.stale then rewritten d.data t else t.dram = u.dram
      | none => match dec (Rs.mark code) with
        | some _ => t.bit (Reg.vltEvt v) 2 = true ∧ logged false t ∧ t.dram = u.dram
        | none => t.bit (Reg.vltEvt v) 1 = true ∧ logged true t
          ∧ t.fld (Reg.vltPoisonCnt v) 0 16 = min (s.fld (Reg.vltPoisonCnt v) 0 16 + 1) (2 ^ 16 - 1)
  (s.vltState v = 2 ∨ s.vltState v = 1 → Answers (.refresh v bank) s (fun t =>
      (t.getVault v).refreshed = (s.getVault v).refreshed + 1 ∧ Only { vault := fun u => u = v.val } s t))
    ∧ (s.vltState v = 2 → s.bit Reg.vltCfg 0 = true → s.waitRank v = 5 → Answers (.scrubRow v) s (fun t =>
        (if row + 1 < 2 ^ 22 then t.fld (Reg.vltScrub v) 0 22 = row + 1 ∧ t.fld (Reg.vltScrub v) 22 10 = lap
          else t.fld (Reg.vltScrub v) 0 22 = 0 ∧ t.fld (Reg.vltScrub v) 22 10 = min (lap + 1) 1023
            ∧ (t.getVault v).lapStart = s.tsc.toNat ∧ (t.getVault v).lapPast = 0)
          ∧ handled t
          ∧ ((∀ q, (s.getVault v).svc.row = some q → q < 2 ^ 22) →
              Only { May.dramToo {} with
                vault := fun u => u = v.val, dram := fun a => a / 2 ^ 36 = v.val } s t)))
    ∧ (s.vltState v = 2 → limit ≠ 0 → s.bit stat 25 = false → limit * 1600000000 < s.lapTime v →
        Answers (.scrubLapAlarm v) s (fun t => t.bit stat 25 = true ∧ t.bit (Reg.vltEvt v) 3 = true
          ∧ Only { reg := fun a => a = stat ∨ a = Reg.vltEvt v ∨ a = Reg.safEvtCnt ∨ integRegs (s.vaultOwner v) a
                   queue := fun a => a = Reg.safEvtLog, site := fun j => j = s.vaultOwner v } s t))
    ∧ (s.vltState v = 3 → s.busUp = true → s.mode ≠ modeSTANDBY → s.aon.target ≠ some modeSTANDBY → s.tileEnabled (v / 16) = true →
        Answers (.selfRefreshExit v) s (fun t => t.vltState v = 2 ∧ (t.getVault v).lapStart = s.tsc.toNat ∧ t.bit stat 24 = s.bit Reg.vltCfg 0
          ∧ Only { reg := fun a => a = stat, vault := fun u => u = v.val } s t))
    ∧ (s.acted (m + 1) ≤ 656 → Answers (.refreshRateRestore m) s (fun t => t.bit Reg.vltRefresh m = false
        ∧ Only { reg := fun a => a = Reg.vltRefresh } s t)))
    ∧ (∀ (v : VaultIx) (outcome : BitVec 3) (faulty : List (Bool × BitVec 7 × BitVec 15)) (s : State),
  let k := s.vaultOwner v
  let x := s.getSite k
  let failed (cause : Nat) (t : State) : Prop :=
    t.vltState v = 5 ∧ t.fld (Reg.vltStat v) 26 3 = cause ∧ t.bit (Reg.vltEvt v) 8 = true
      ∧ t.bit (Reg.vltFailed (v / 32)) (v % 32) = true ∧ (t.getVault v).svc = {} ∧ (t.getVault v).reserve = none
      ∧ (t.getSite k).isoVault = true
      ∧ (s.seqRuns k = true → x.stopAt = none → x.after ≠ .past → t.fld (Reg.seqFault k) 0 8 = 0x09
        ∧ (t.getSite k).cycle = (if s.inWait k then max x.cycle (s.nowCyc k + 1) else min x.cycle (s.nowCyc k + 1))
        ∧ Stopped t k 7 ((t.getSite k).cycle + 2 ^ 48 - 1))
      ∧ (x.reconf = false → t.fld Reg.glbSiteState (2 * k) 2 = 3)
      ∧ ((s.getVault v).mnt.isSome = true → t.fld (Reg.vltMntCmd v) 28 3 = 5 ∧ t.bit (Reg.vltMntCmd v) 31 = false)
  (s.vltState v ≠ 0 → s.vltState v ≠ 5 → Answers (.vaultFail v) s (failed 3))
    ∧ (s.vltState v = 1 → (outcome = 1 ∨ outcome = 2 ∨ outcome = 4) → Answers (.dramTrainingDone v outcome faulty) s (failed outcome.toNat))
    ∧ (s.vltState v = 1 → outcome = 0 → faulty = [] → (∀ p ∈ (s.getVault v).mirror, p.1 < 256) →
        Answers (.dramTrainingDone v outcome faulty) s (fun t =>
          t.vltState v = (if s.tileEnabled (v / 16) then 2 else 4) ∧ (t.getVault v).lapStart = s.tsc.toNat
            ∧ ((∀ u, u < 256 → u ≠ v.val → s.vltState u ≠ 0 ∧ s.vltState u ≠ 1) →
                t.bit Reg.glbStartup 7 = true ∧ t.bit Reg.glbMode 6 = true)
            ∧ Only { reg := fun a => a = Reg.vltStat v ∨ a = Reg.glbStartup ∨ a = Reg.glbMode
                       ∨ (s.aon.trainFull = true ∧ ∃ p ∈ (s.getVault v).mirror, a = Reg.vltSrep v p.1)
                     vault := fun u => u = v.val } s t)))

/-- R267, R269, R271, R275, R276, R278: a row request reads the row into the row register, after the service buffer has given its row back,
and refuses a row that cannot be reached with the event that says why; a write-back stores the whole row with its codes; an idle
service buffer is written back, its row in DRAM holds its data, and it stays valid. A golden row that is poisoned reads as one, and a
write-back leaves it as it is (log entry 88). A request that no other of a lower rank number waits before is served (R268). Nothing outside the vault
changes. It rests on the readings and choices of log entry 64 too. -/
def Obligations.RowOperations : Prop := ∀ (v : VaultIx) (r : BitVec 22) (src : BitVec 3) (s : State),
  let x := s.getVault v
  let only (t : State) : Prop := x.rowReg.row < 2 ^ 22 → (∀ q, x.svc.row = some q → q < 2 ^ 22) →
    Only { May.dramToo {} with vault := fun u => u = v.val, dram := fun a => a / 2 ^ 36 = v.val } s t
  let codeOf (d : List Byte) (marked : Bool) : List Byte :=
    let c := Rs.bytesOf (Rs.encode (Rs.symbols d)); if marked then Rs.mark c else c
  let row (d c k : List Byte) : Option (List Byte) := (Rs.decode d c k).map (·.data)
  let u := s.svcSync v r.toNat
  let data := u.rawRow v r.toNat 0 2048
  let chk := u.rawRow v r.toNat 2048 512
  let code := u.rawRow v r.toNat 2560 32
  ((s.rowRefused v r.toNat = none ∨ (s.rowRefused v r.toNat = some 7 ∧ src = 4)) → srcRank src.toNat ≤ s.waitRank v → Answers (.rowActivate v r src) s (fun t =>
      let b := (t.getVault v).rowReg
      let golden := x.goldenBad.contains r.toNat
      b.row = r.toNat ∧ b.busy = true
        ∧ (golden = true → b.poisoned = true ∧ b.data = data ∧ t.bit (Reg.vltEvt v) 2 = true)
        ∧ (∀ d, golden = false → row data chk code = some d → b.data = d ∧ b.poisoned = false)
        ∧ (golden = false → row data chk code = none → b.poisoned = true ∧ (∀ d, row data chk (Rs.mark code) = some d → b.data = d)
          ∧ (row data chk (Rs.mark code) = none → b.data = data ∧ t.bit (Reg.vltEvt v) 1 = true))
        ∧ only t))
    ∧ (∀ e, s.rowRefused v r.toNat = some e → (e ≠ 7 ∨ src ≠ 4) → srcRank src.toNat ≤ s.waitRank v →
        Answers (.rowActivate v r src) s (fun t =>
        t.bit (Reg.vltEvt v) e = true ∧ Only { reg := fun a => a = Reg.vltEvt v } s t))
    ∧ (s.vltState v = 2 → x.rowReg.busy = true → x.rowReg.data.length = 2048 → x.goldenBad.contains x.rowReg.row = true →
        Answers (.rowWriteBack v) s (fun t => (t.getVault v).rowReg.busy = false ∧ Only { vault := fun u => u = v.val } s t))
    ∧ (s.vltState v = 2 → x.rowReg.busy = true → x.rowReg.data.length = 2048 → x.goldenBad.contains x.rowReg.row = false → x.lost = none →
        (((s.colMap v (x.rowReg.row % 128)).map Prod.snd).Nodup) → Answers (.rowWriteBack v) s (fun t =>
          (t.getVault v).rowReg.busy = false ∧ t.rawRow v x.rowReg.row 0 2048 = x.rowReg.data
            ∧ t.rawRow v x.rowReg.row 2048 512 = Rs.checkBytes x.rowReg.data
            ∧ t.rawRow v x.rowReg.row 2560 32 = codeOf x.rowReg.data x.rowReg.poisoned
            ∧ only t))
    ∧ (∀ q, s.vltState v = 2 → 4 ≤ s.waitRank v → x.svc.row = some q → x.svc.dirty = true → Answers (.serviceBufferIdleWriteBack v) s (fun t =>
        (t.getVault v).svc.row = some q ∧ (t.getVault v).svc.dirty = false ∧ (t.getVault v).svc.data = x.svc.data
          ∧ (t.getVault v).svc.poisoned = (x.svc.poisoned && decide (x.svc.written.length < 2048))
          ∧ (x.svc.data.length = 2048 → x.lost = none → ((s.colMap v (q % 128)).map Prod.snd).Nodup →
              t.rawRow v q 0 2592 = x.svc.data ++ Rs.checkBytes x.svc.data
                ++ codeOf x.svc.data (x.svc.poisoned && decide (x.svc.written.length < 2048)))
          ∧ (q < 2 ^ 22 → Only { vault := fun u => u = v.val, dram := fun a => a / 2 ^ 36 = v.val } s t)))

/-- R43, R267, R282, R284, R285, R294, R298: a maintenance command is accepted, or refused with the status that says why and the event of a
row that cannot be reached; what was accepted is busy until it is done, and then: RAW_READ has the stored bytes in the data registers;
RAW_WRITE has stored them without regenerating a code; SREP_ROW and SREP_COL have put the lowest free entry of the table and the lowest free
spare of the bank to use, which now hold the row, or the group of every row of the bank, as a first activation left it; SREP_FREE has copied
back what its entry held, and freed it.

A fuse burn of a vault with soft entries starts where no other burn and no sequencer of its site runs and VIN suffices, else its status says
why not. Entries whose fuses have verified are freed at once and stand as fuses ahead of the older ones; at the end the status says whether
one has stayed soft or VIN fell.

That the host's writes are dropped before DRAM is trained is log entry 59 (DEDUCED from R43), and that a burn in progress is judged before
VIN is the model's choice (log entry 116). It rests on the readings and choices of log entry 64 too. -/
def Obligations.Maintenance : Prop := ∀ (req : Requester) (v : VaultIx) (s : State),
  let a := Reg.vltMntCmd v
  let f := Reg.vltFuseCmd
  let lo := Reg.vltMntDataLo v
  let x := s.getVault v
  let row := s.fld (Reg.vltMntAddr v) 0 22
  let word := s.fld (Reg.vltMntAddr v) 22 9
  let keyed : Bool := decide (0 < s.keyLeft req.toNat)
  let key : Nat → Prop := fun r => r = req.toNat
  let sound (q : Nat) : Prop := x.lost = none ∧ ((s.colMap v q).map Prod.snd).Nodup
  let taken (cmd : Nat) (t : State) : Prop :=
    match s.mntRefused v cmd row word with
    | some c => t.fld a 28 3 = c ∧ (t.getVault v).mnt = x.mnt
        ∧ (c = 5 → s.vltState v = 5 → t.bit (Reg.vltEvt v) 8 = true)
        ∧ (c = 5 → s.vltState v ≠ 5 → s.tileEnabled (v / 16) = false → t.bit (Reg.vltEvt v) 9 = true)
        ∧ (c = 3 → cmd ≠ 4 → Dram.reserved v row = true → t.bit (Reg.vltEvt v) 7 = true)
        ∧ Only { reg := fun b => b = a ∨ b = Reg.vltEvt v, key := key } s t
    | none => t.bit a 31 = true ∧ (t.getVault v).mnt = some { cmd := BitVec.ofNat 4 cmd, row := row, word := word }
        ∧ Only { reg := fun b => b = a, vault := fun u => u = v.val, key := key } s t
  let done (t : State) : Prop := t.bit a 31 = false ∧ (t.getVault v).mnt = none ∧ t.fld a 28 3 = 1
  let only (t : State) : Prop := (∀ q, x.svc.row = some q → q < 2 ^ 22) →
    (∀ j, x.mnt = some j → j.row < 2 ^ 22) → Only { May.dramToo { reg := fun b => b = lo ∨ b = lo + 4 } with
    vault := fun u => u = v.val, dram := fun c => c / 2 ^ 36 = v.val } s t
  let ready : Prop := s.vltState v = 2 ∧ 4 ≤ s.waitRank v
  let unkeyed (t : State) : Prop := t.bit Reg.glbKeyErr 31 = true
    ∧ Only { reg := fun b => b = Reg.glbKeyErr ∨ b = Reg.glbKeyCnt, key := key } s t
  let bank (j : MntJob) : State := (((s.svcSync v j.row).svcFlush v).activateBank v (j.row % 128)).1
  (s.reaches req = true → req = 0 → s.bit Reg.glbStartup 7 = false → ∀ cmd ∈ [Instr.rawRead req v, .rawWrite req v, .srepRow req v,
      .srepCol req v, .srepFree req v, .vltFuseBurn req v], Answers cmd s (fun t => Only { key := key } s t))
    ∧ (s.reaches req = true → (req = 0 → s.bit Reg.glbStartup 7 = true) →
        Answers (.rawRead req v) s (taken 1)
        ∧ (keyed = true → Answers (.rawWrite req v) s (taken 2)) ∧ (keyed = false → Answers (.rawWrite req v) s unkeyed)
        ∧ Answers (.srepRow req v) s (taken 3) ∧ Answers (.srepCol req v) s (taken 4) ∧ Answers (.srepFree req v) s (taken 5)
        ∧ (keyed = false → Answers (.vltFuseBurn req v) s unkeyed)
        ∧ (keyed = true → Answers (.vltFuseBurn req v) s (fun t =>
            let may : May := { reg := fun b => b = f, key := key }
            t.fld f 0 8 = v.val
              ∧ (if s.bit f 31 then t.bit f 31 = true ∧ t.fld f 28 3 = 3 ∧ Only may s t
                else if s.fld Reg.pmuVin 0 16 < 3000 then t.bit f 31 = false ∧ t.fld f 28 3 = 2 ∧ Only may s t
                else if s.seqRuns (s.vaultOwner v) = true ∨ s.burn ≠ none then t.bit f 31 = false ∧ t.fld f 28 3 = 3 ∧ Only may s t
                else if s.softEntries v = [] then t.bit f 31 = false ∧ t.fld f 28 3 = 4 ∧ Only may s t
                else t.bit f 31 = true ∧ (t.getVault v).burn = some ((s.softEntries v).map Prod.fst)
                  ∧ Only { may with vault := fun u => u = v.val } s t))))
    ∧ (∀ j, ready → x.mnt = some j → j.cmd = 1 → x.svc.row ≠ some j.row → Answers (.mntDone v) s (fun t =>
        done t ∧ t.rd64 lo = ofLe (s.rawRow v j.row (8 * j.word) 8) ∧ only t))
    ∧ (∀ j, ready → x.mnt = some j → j.cmd = 2 → x.svc.row ≠ some j.row → sound (j.row % 128) → j.word < 324 →
        Answers (.mntDone v) s (fun t => done t ∧ t.rawRow v j.row (8 * j.word) 8 = leBytes 8 (s.rd64 lo) ∧ only t))
    ∧ (∀ j i n, ready → x.mnt = some j → j.cmd = 3 → j.row < 2 ^ 22 → s.freeEntry v = some i → s.freeSpareRow v (j.row % 128) = some n →
        Answers (.mntDone v) s (fun t => done t ∧ t.rd (Reg.vltSrep v i) = repEntry false (j.row % 128) (j.row / 128) n
          ∧ (sound (j.row % 128) → t.rowLoc v j.row = Dram.spareRow (j.row % 128) n
            ∧ t.rawRow v j.row 0 2592 = ((s.svcSync v j.row).activateRow v j.row srcMaint).st.rawRow v j.row 0 2592)
          ∧ only t))
    ∧ (∀ j i n, ready → x.mnt = some j → j.cmd = 4 → j.word < 256 → s.freeEntry v = some i → s.freeSpareCol v (j.row % 128) = some n →
        Answers (.mntDone v) s (fun t => done t ∧ t.rd (Reg.vltSrep v i) = repEntry true (j.row % 128) j.word n
          ∧ (sound (j.row % 128) → s.bit Reg.vltCfg 1 = false → ∀ r, r < 2 ^ 22 → r % 128 = j.row % 128 →
              t.rawRow v r (8 * j.word) 8 = (bank j).rawRow v r (8 * j.word) 8
                ∧ t.rawRow v r (2048 + 2 * j.word) 2 = (bank j).rawRow v r (2048 + 2 * j.word) 2)
          ∧ only t))
    ∧ (∀ j, ready → x.mnt = some j → j.cmd = 5 → Answers (.mntDone v) s (fun t =>
        let e := s.rd (Reg.vltSrep v (j.row % 256))
        let r := repTarget e * 128 + repBank e
        let u := ((s.svcSync v j.row).svcFlush v)
        done t ∧ (s.bit Reg.vltCfg 1 = false → (t.rd (Reg.vltSrep v (j.row % 256))).getLsbD 31 = false)
          ∧ (e.getLsbD 31 = true → repIsCol e = false → sound (repBank e) → s.bit Reg.vltCfg 1 = false →
              t.rawRow v r 0 2592 = (u.activateRow v r srcMaint).st.rawRow v r 0 2592)
          ∧ (e.getLsbD 31 = true → repIsCol e = true → sound (repBank e) → s.bit Reg.vltCfg 1 = false →
              ∀ q g, q < 2 ^ 22 → q % 128 = repBank e → g = repTarget e % 256 →
              t.rawRow v q (8 * g) 8 = (u.activateBank v (repBank e)).1.rawRow v q (8 * g) 8
                ∧ t.rawRow v q (2048 + 2 * g) 2 = (u.activateBank v (repBank e)).1.rawRow v q (2048 + 2 * g) 2)
          ∧ only t))
    ∧ (∀ (verified : BitVec 256) (left : List Nat) (e : FuseEnd), s.burning = some (v.val, left) →
        Answers (.vltFuseDone verified e) s (fun t =>
          let burnt := (s.softEntries v).filter (fun p => verified.getLsbD p.1 && left.contains p.1)
          let stays := (s.softEntries v).any (fun p => left.contains p.1 && !verified.getLsbD p.1)
          (t.getVault v).fuses = burnt.map Prod.snd ++ x.fuses ∧ (∀ p ∈ burnt, t.rd (Reg.vltSrep v p.1) = 0)
            ∧ (if e = .more then (t.getVault v).burn = some (left.filter (fun i => !verified.getLsbD i)) ∧ t.rd f = s.rd f
              else (t.getVault v).burn = none ∧ t.bit f 31 = false ∧ t.fld f 28 3 = (if stays = false ∧ e = .done then 1 else 5))
            ∧ Only { reg := fun b => b = f ∨ b = Reg.vltStat v ∨ (Reg.vltSrep v 0 ≤ b ∧ b < Reg.vltSrep v 256)
                     vault := fun u => u = v.val } s t))

/-! ### Cells and contexts -/

/-- R120, R128: the additions, subtractions and compares of a cell, modulo 2^32: carry out of bit 31 or no borrow in c, signed overflow in v,
z and n from the sum or difference; a compare gives 1 or 0.

R120, R121, R128: the logic operations, which leave c and v 0, and the shifts and rotations by B[4:0], whose c is the last bit shifted or
rotated out. -/
def Obligations.CellArithmetic : Prop :=
  (∀ (k : SiteIx) (plane : Bool) (x y : BitVec 6) (ins : BitVec 48) (s : State),
  let c := cellAt plane x y
  let i := s.aluIn k c ins
  let a := i.a
  let b := i.b
  let does (op sub : Nat) (cmd : Instr) (r : Word) (cf vf : Bool) (zn : Word) : Prop :=
    s.CellGo k plane x y ins op sub → Answers cmd s (fun t => CellResult s t k c ins r cf vf zn ∧ Only (cellMay k) s t)
  let cin : Word := if i.c then 1 else 0
  does 1 0 (.cellAdd k plane x y ins 0) (a + b) (decide (2 ^ 32 ≤ a.toNat + b.toNat)) (decide (a.toInt + b.toInt ≠ (a + b).toInt)) (a + b)
    ∧ does 2 0 (.cellAdc k plane x y ins 0) (a + b + cin) (decide (2 ^ 32 ≤ a.toNat + b.toNat + cin.toNat)) (decide (a.toInt + b.toInt + cin.toNat ≠ (a + b + cin).toInt)) (a + b + cin)
    ∧ does 3 0 (.cellSub k plane x y ins 0) (a - b) (decide (b.toNat ≤ a.toNat)) (decide (a.toInt - b.toInt ≠ (a - b).toInt)) (a - b)
    ∧ does 4 0 (.cellSbc k plane x y ins 0) (a + ~~~b + cin) (decide (b.toNat + 1 ≤ a.toNat + cin.toNat)) (decide (a.toInt + (~~~b).toInt + cin.toNat ≠ (a + ~~~b + cin).toInt)) (a + ~~~b + cin)
    ∧ does 7 0 (.cellCmpEq k plane x y ins 0) (if a = b then 1 else 0) (decide (b.toNat ≤ a.toNat)) (decide (a.toInt - b.toInt ≠ (a - b).toInt)) (a - b)
    ∧ does 7 1 (.cellCmpNe k plane x y ins 0) (if a ≠ b then 1 else 0) (decide (b.toNat ≤ a.toNat)) (decide (a.toInt - b.toInt ≠ (a - b).toInt)) (a - b)
    ∧ does 7 2 (.cellCmpLtu k plane x y ins 0) (if a.toNat < b.toNat then 1 else 0) (decide (b.toNat ≤ a.toNat)) (decide (a.toInt - b.toInt ≠ (a - b).toInt)) (a - b)
    ∧ does 7 3 (.cellCmpGeu k plane x y ins 0) (if b.toNat ≤ a.toNat then 1 else 0) (decide (b.toNat ≤ a.toNat)) (decide (a.toInt - b.toInt ≠ (a - b).toInt)) (a - b)
    ∧ does 7 4 (.cellCmpLt k plane x y ins 0) (if a.toInt < b.toInt then 1 else 0) (decide (b.toNat ≤ a.toNat)) (decide (a.toInt - b.toInt ≠ (a - b).toInt)) (a - b)
    ∧ does 7 5 (.cellCmpGe k plane x y ins 0) (if b.toInt ≤ a.toInt then 1 else 0) (decide (b.toNat ≤ a.toNat)) (decide (a.toInt - b.toInt ≠ (a - b).toInt)) (a - b)
    ∧ does 7 6 (.cellCmpLeu k plane x y ins 0) (if a.toNat ≤ b.toNat then 1 else 0) (decide (b.toNat ≤ a.toNat)) (decide (a.toInt - b.toInt ≠ (a - b).toInt)) (a - b)
    ∧ does 7 7 (.cellCmpGtu k plane x y ins 0) (if b.toNat < a.toNat then 1 else 0) (decide (b.toNat ≤ a.toNat)) (decide (a.toInt - b.toInt ≠ (a - b).toInt)) (a - b))
    ∧ (∀ (k : SiteIx) (plane : Bool) (x y : BitVec 6) (ins : BitVec 48) (s : State),
  let c := cellAt plane x y
  let i := s.aluIn k c ins
  let a := i.a
  let b := i.b
  let does (op sub : Nat) (cmd : Instr) (r : Word) (cf vf : Bool) (zn : Word) : Prop :=
    s.CellGo k plane x y ins op sub → Answers cmd s (fun t => CellResult s t k c ins r cf vf zn ∧ Only (cellMay k) s t)
  let n := b.toNat % 32
  does 5 0 (.cellAnd k plane x y ins 0) (a &&& b) (false) (false) (a &&& b)
    ∧ does 5 1 (.cellOr k plane x y ins 0) (a ||| b) (false) (false) (a ||| b)
    ∧ does 5 2 (.cellXor k plane x y ins 0) (a ^^^ b) (false) (false) (a ^^^ b)
    ∧ does 5 3 (.cellAndn k plane x y ins 0) (a &&& ~~~b) (false) (false) (a &&& ~~~b)
    ∧ does 5 4 (.cellOrn k plane x y ins 0) (a ||| ~~~b) (false) (false) (a ||| ~~~b)
    ∧ does 5 5 (.cellXnor k plane x y ins 0) (~~~(a ^^^ b)) (false) (false) (~~~(a ^^^ b))
    ∧ does 5 6 (.cellNot k plane x y ins 0) (~~~a) (false) (false) (~~~a)
    ∧ does 5 7 (.cellMov k plane x y ins 0) (a) (false) (false) (a)
    ∧ does 6 0 (.cellShl k plane x y ins 0) (a <<< n) (decide (0 < n) && a.getLsbD (32 - n)) (false) (a <<< n)
    ∧ does 6 1 (.cellShr k plane x y ins 0) (a >>> n) (decide (0 < n) && a.getLsbD (n - 1)) (false) (a >>> n)
    ∧ does 6 2 (.cellSar k plane x y ins 0) (BitVec.ofInt 32 (a.toInt / 2 ^ n)) (decide (0 < n) && a.getLsbD (n - 1)) (false) (BitVec.ofInt 32 (a.toInt / 2 ^ n))
    ∧ does 6 3 (.cellRol k plane x y ins 0) ((a <<< n) ||| (a >>> (32 - n))) (decide (0 < n) && a.getLsbD (32 - n)) (false) ((a <<< n) ||| (a >>> (32 - n)))
    ∧ does 6 4 (.cellRor k plane x y ins 0) ((a >>> n) ||| (a <<< (32 - n))) (decide (0 < n) && a.getLsbD (n - 1)) (false) ((a >>> n) ||| (a <<< (32 - n))))

/-- R120, R122, R123, R128: the selections, bit counts and reversals, Galois steps and Gray conversions of a cell. LFSR gives its last bit out
in c, the Gray steps their wrap, a minimum or maximum whether A was selected. -/
def Obligations.CellSelections : Prop := ∀ (k : SiteIx) (plane : Bool) (x y : BitVec 6) (ins : BitVec 48) (s : State),
  let c := cellAt plane x y
  let i := s.aluIn k c ins
  let a := i.a
  let b := i.b
  let imm := i.imm
  let does (op sub : Nat) (cmd : Instr) (r : Word) (cf vf : Bool) (zn : Word) : Prop :=
    s.CellGo k plane x y ins op sub → Answers cmd s (fun t => CellResult s t k c ins r cf vf zn ∧ Only (cellMay k) s t)
  let bits (f : Nat → Bool) : Word := BitVec.ofNat 32 (((List.range 32).map (fun j => if f j then 2 ^ j else 0)).sum)
  let g2b (w : Word) : Word := bits (fun j => decide (((List.range 32).countP (fun m => decide (j ≤ m) && w.getLsbD m)) % 2 = 1))
  let step (p : Word × Bool) : Word × Bool := (if p.1.getLsbD 0 then (p.1 >>> 1) ^^^ b else p.1 >>> 1, p.1.getLsbD 0)
  (∀ sub, sub < 8 → does 8 sub (.cellSel k plane x y ins 0) (if xor (match sub % 4 with | 0 => i.c | 1 => i.z | 2 => i.n | _ => i.v) (decide (4 ≤ sub)) then a else b)
        false false (if xor (match sub % 4 with | 0 => i.c | 1 => i.z | 2 => i.n | _ => i.v) (decide (4 ≤ sub)) then a else b))
    ∧ does 9 0 (.cellMinu k plane x y ins 0) (BitVec.ofNat 32 (min a.toNat b.toNat)) (decide (a.toNat ≤ b.toNat)) (false) (BitVec.ofNat 32 (min a.toNat b.toNat))
    ∧ does 9 1 (.cellMaxu k plane x y ins 0) (BitVec.ofNat 32 (max a.toNat b.toNat)) (decide (b.toNat ≤ a.toNat)) (false) (BitVec.ofNat 32 (max a.toNat b.toNat))
    ∧ does 9 2 (.cellMin k plane x y ins 0) (BitVec.ofInt 32 (min a.toInt b.toInt)) (decide (a.toInt ≤ b.toInt)) (false) (BitVec.ofInt 32 (min a.toInt b.toInt))
    ∧ does 9 3 (.cellMax k plane x y ins 0) (BitVec.ofInt 32 (max a.toInt b.toInt)) (decide (b.toInt ≤ a.toInt)) (false) (BitVec.ofInt 32 (max a.toInt b.toInt))
    ∧ does 10 0 (.cellPopc k plane x y ins 0) (BitVec.ofNat 32 ((List.range 32).countP a.getLsbD)) (false) (false) (BitVec.ofNat 32 ((List.range 32).countP a.getLsbD))
    ∧ does 11 0 (.cellBrev k plane x y ins 0) (bits (fun j => decide (j < imm % 64) && a.getLsbD (imm % 64 - 1 - j))) (false) (false) (bits (fun j => decide (j < imm % 64) && a.getLsbD (imm % 64 - 1 - j)))
    ∧ (∀ sub, sub < 8 → does 12 sub (.cellLfsr k plane x y ins 0) (step^[sub + 1] (a, false)).1 (step^[sub + 1] (a, false)).2 false (step^[sub + 1] (a, false)).1)
    ∧ does 13 0 (.cellB2g k plane x y ins 0) (a ^^^ (a >>> 1)) (false) (false) (a ^^^ (a >>> 1))
    ∧ does 13 1 (.cellG2b k plane x y ins 0) (g2b a) (false) (false) (g2b a)
    ∧ does 13 2 (.cellGinc k plane x y ins 0) ((g2b a + 1) ^^^ ((g2b a + 1) >>> 1)) (decide (g2b a = 0xFFFFFFFF#32)) (false) ((g2b a + 1) ^^^ ((g2b a + 1) >>> 1))
    ∧ does 13 3 (.cellGdec k plane x y ins 0) ((g2b a - 1) ^^^ ((g2b a - 1) >>> 1)) (decide (g2b a = 0)) (false) ((g2b a - 1) ^^^ ((g2b a - 1) >>> 1))

/-- R124 to R127: the products of 16-bit halves, the terminal counters, the address scramble helpers and the packing of vector symbols; the
terminal indicator is in c. An immediate that breaks their constraints makes the instruction illegal: the cell stays as it is and shows it. -/
def Obligations.CellCompound : Prop := ∀ (k : SiteIx) (plane : Bool) (x y : BitVec 6) (ins : BitVec 48) (s : State),
  let c := cellAt plane x y
  let i := s.aluIn k c ins
  let a := i.a
  let b := i.b
  let imm := i.imm
  let does (op sub : Nat) (cmd : Instr) (r : Word) (cf vf : Bool) (zn : Word) : Prop :=
    s.CellGo k plane x y ins op sub → Answers cmd s (fun t => CellResult s t k c ins r cf vf zn ∧ Only (cellMay k) s t)
  let bits (f : Nat → Bool) : Word := BitVec.ofNat 32 (((List.range 32).map (fun j => if f j then 2 ^ j else 0)).sum)
  let odd (w : Word) : Bool := decide (((List.range 32).countP w.getLsbD) % 2 = 1)
  let ones : List Nat := (List.range 32).filter b.getLsbD
  let p := imm % 32
  let w := imm / 32 % 32 + 1
  let op := cellOp ins
  let sub := cellSub ins
  let broken : Prop := (op = 16 ∧ (sub = 0 ∧ 32 ≤ imm ∨ (sub = 3 ∨ sub = 4) ∧ (1024 ≤ imm ∨ 32 < p + w)))
    ∨ (op = 17 ∧ (sub = 0 ∧ 8 ≤ imm ∨ sub = 1 ∧ 1024 ≤ imm ∨ sub = 2 ∧ imm / 1024 % 4 ≠ 0))
  does 14 0 (.cellMulu k plane x y ins 0) (BitVec.ofNat 32 ((a.extractLsb' 0 16).toNat * (b.extractLsb' 0 16).toNat)) (false) (false) (BitVec.ofNat 32 ((a.extractLsb' 0 16).toNat * (b.extractLsb' 0 16).toNat))
    ∧ does 14 1 (.cellMuls k plane x y ins 0) (BitVec.ofInt 32 ((a.extractLsb' 0 16).toInt * (b.extractLsb' 0 16).toInt)) (false) (false) (BitVec.ofInt 32 ((a.extractLsb' 0 16).toInt * (b.extractLsb' 0 16).toInt))
    ∧ does 14 2 (.cellMulhu k plane x y ins 0) (BitVec.ofNat 32 ((a.extractLsb' 16 16).toNat * (b.extractLsb' 16 16).toNat)) (false) (false) (BitVec.ofNat 32 ((a.extractLsb' 16 16).toNat * (b.extractLsb' 16 16).toNat))
    ∧ does 14 3 (.cellMulhs k plane x y ins 0) (BitVec.ofInt 32 ((a.extractLsb' 16 16).toInt * (b.extractLsb' 16 16).toInt)) (false) (false) (BitVec.ofInt 32 ((a.extractLsb' 16 16).toInt * (b.extractLsb' 16 16).toInt))
    ∧ does 15 0 (.cellCntUp k plane x y ins 0) (if a = b then 0 else a + BitVec.ofNat 32 imm) (decide (a = b)) (false) (if a = b then 0 else a + BitVec.ofNat 32 imm)
    ∧ does 15 1 (.cellCntDown k plane x y ins 0) (if a = 0 then b else a - BitVec.ofNat 32 imm) (decide (a = 0)) (false) (if a = 0 then b else a - BitVec.ofNat 32 imm)
    ∧ does 16 0 (.cellXpar k plane x y ins 0) (bits (fun j => xor (a.getLsbD j) (decide (j = imm % 32) && odd (a &&& b)))) (false) (false) (bits (fun j => xor (a.getLsbD j) (decide (j = imm % 32) && odd (a &&& b))))
    ∧ does 16 1 (.cellPext k plane x y ins 0) (bits (fun j => match ones[j]? with | some m => a.getLsbD m | none => false)) (false) (false) (bits (fun j => match ones[j]? with | some m => a.getLsbD m | none => false))
    ∧ does 16 2 (.cellPdep k plane x y ins 0) (bits (fun j => b.getLsbD j && a.getLsbD (ones.idxOf j))) (false) (false) (bits (fun j => b.getLsbD j && a.getLsbD (ones.idxOf j)))
    ∧ does 16 3 (.cellBfx k plane x y ins 0) (bits (fun j => decide (j < w) && a.getLsbD (p + j))) (false) (false) (bits (fun j => decide (j < w) && a.getLsbD (p + j)))
    ∧ does 16 4 (.cellBfi k plane x y ins 0) (bits (fun j => if p ≤ j ∧ j < p + w then a.getLsbD (j - p) else b.getLsbD j)) (false) (false) (bits (fun j => if p ≤ j ∧ j < p + w then a.getLsbD (j - p) else b.getLsbD j))
    ∧ does 17 0 (.cellPsym k plane x y ins 0) (bits (fun j => if j / 4 = imm % 8 then a.getLsbD (j % 4) else b.getLsbD j)) (false) (false) (bits (fun j => if j / 4 = imm % 8 then a.getLsbD (j % 4) else b.getLsbD j))
    ∧ does 17 1 (.cellPbit k plane x y ins 0) (bits (fun j => if a.getLsbD (8 * (imm / 256 % 4) + j / 4) then imm.testBit (4 + j % 4) else imm.testBit (j % 4))) (false) (false) (bits (fun j => if a.getLsbD (8 * (imm / 256 % 4) + j / 4) then imm.testBit (4 + j % 4) else imm.testBit (j % 4)))
    ∧ does 17 2 (.cellPbitz k plane x y ins 0) (bits (fun j => if b.getLsbD (j / 4) = false then imm.testBit (12 + j % 4)
        else if a.getLsbD (8 * (imm / 256 % 4) + j / 4) then imm.testBit (4 + j % 4) else imm.testBit (j % 4))) (false) (false) (bits (fun j => if b.getLsbD (j / 4) = false then imm.testBit (12 + j % 4)
        else if a.getLsbD (8 * (imm / 256 % 4) + j / 4) then imm.testBit (4 + j % 4) else imm.testBit (j % 4)))
    ∧ (s.cellReady k c ins = true → ctxSrm (s.effWord k c) = false → broken → Answers (.cellNop k plane x y ins) s (fun t =>
        (t.getFab k).after c = (s.getFab k).cell c ∧ (t.getFab k).cells = (s.getFab k).cells ∧ t.bit Reg.fabCellStat (16 + k) = true))

/-- R120, R129, R133, R134, R135: a NOP leaves its cell as it is; an illegal instruction too, and shows itself in FAB_CELL_STAT. A cycle of
a shift-register context shifts the 512-bit line by a word or by a bit, takes operand A in at its foot, and gives the tap in o0; o1 is no stage and keeps its value and its code.
That R129 covers the field constraints of a shift-register context too is the model's choice (log entry 107). -/
def Obligations.CellShifts : Prop := ∀ (k : SiteIx) (plane : Bool) (x y : BitVec 6) (ins : BitVec 48) (s : State),
  let c := cellAt plane x y
  let old := (s.getFab k).cell c
  let w := s.effWord k c
  let a := (s.source k c (cellSrcA ins) (cellImm ins)).val
  let tap := cellImm ins
  let flags (z : Cell) : Bool × Bool × Bool × Bool := (z.c, z.z, z.n, z.v)
  let kept (t : State) : Prop := (t.getFab k).after c = old ∧ (t.getFab k).cells = (s.getFab k).cells
  let quiet : May := { site := fun j => j = k, fab := fun j => j = k }
  let bad (t : State) : Prop := kept t ∧ t.bit Reg.fabCellStat (16 + k) = true
    ∧ Only { quiet with reg := fun b => b = Reg.fabCellStat ∨ integRegs k b } s t
  s.cellReady k c ins = true →
  (ctxSrm w = false → cellLegal ins = true → cellOp ins = 0 → Answers (.cellNop k plane x y ins) s (fun t => kept t ∧ Only quiet s t))
    ∧ (ctxSrm w = false → cellLegal ins = false → Answers (.cellNop k plane x y ins) s bad)
    ∧ (ctxSrm w = true → ctxSrb w = false → cellLegalSr false ins = false → Answers (.srWordShift k plane x y ins) s bad)
    ∧ (ctxSrm w = true → ctxSrb w = true → cellLegalSr true ins = false → Answers (.srBitShift k plane x y ins) s bad)
    ∧ (ctxSrm w = true → ctxSrb w = false → cellLegalSr false ins = true → Answers (.srWordShift k plane x y ins) s (fun t =>
        let z := (t.getFab k).after c
        z.reg 0 = a ∧ (∀ i, i < 15 → z.reg (i + 1) = old.reg i) ∧ z.o0 = old.reg tap ∧ z.o1 = old.o1 ∧ flags z = flags old
          ∧ (∀ i, i < 15 → z.code (i + 1) = old.code i) ∧ z.code 16 = old.code tap ∧ z.code 17 = old.code 17
          ∧ (t.getFab k).cells = (s.getFab k).cells ∧ Only (cellMay k) s t))
    ∧ (ctxSrm w = true → ctxSrb w = true → cellLegalSr true ins = true → Answers (.srBitShift k plane x y ins) s (fun t =>
        let z := (t.getFab k).after c
        z.w.getLsbD 0 = a.getLsbD 0 ∧ (∀ i, i < 511 → z.w.getLsbD (i + 1) = old.w.getLsbD i)
          ∧ z.o0 = (if old.w.getLsbD tap then 1 else 0) ∧ z.o1 = old.o1 ∧ flags z = flags old
          ∧ (∀ i, i < 17 → z.code i = (z.item i).toNat % 3) ∧ z.code 17 = old.code 17
          ∧ (t.getFab k).cells = (s.getFab k).cells ∧ Only quiet s t))

/-- R115, R130 to R132: a residue check finds nothing in a sound cell: where every register that the cell reads carries the code of its
value, no fault of its ALU inverts a bit and no injection waits for it, no cell instruction raises a residue event, and every register
carries the code of its value again. -/
def Obligations.NoFalseResidue : Prop := ∀ (k : SiteIx) (plane : Bool) (x y : BitVec 6) (ins : BitVec 48) (s : State),
  let c := cellAt plane x y
  let sound (t : State) : Prop := (∀ i, i < 18 → ((t.getFab k).after c).code i = (((t.getFab k).after c).item i).toNat % 3)
    ∧ Only { site := fun j => j = k, fab := fun j => j = k } s t
  let w := s.effWord k c
  s.CellSound k c → s.cellReady k c ins = true → (ctxSrm w = false → cellLegal ins = true) → (ctxSrm w = true → cellLegalSr (ctxSrb w) ins = true) →
  ∀ cmd ∈ [Instr.cellAdd k plane x y ins 0, .cellAdc k plane x y ins 0, .cellSub k plane x y ins 0, .cellSbc k plane x y ins 0,
      .cellAnd k plane x y ins 0, .cellOr k plane x y ins 0, .cellXor k plane x y ins 0, .cellAndn k plane x y ins 0,
      .cellOrn k plane x y ins 0, .cellXnor k plane x y ins 0, .cellNot k plane x y ins 0, .cellMov k plane x y ins 0,
      .cellShl k plane x y ins 0, .cellShr k plane x y ins 0, .cellSar k plane x y ins 0, .cellRol k plane x y ins 0,
      .cellRor k plane x y ins 0, .cellCmpEq k plane x y ins 0, .cellCmpNe k plane x y ins 0, .cellCmpLtu k plane x y ins 0,
      .cellCmpGeu k plane x y ins 0, .cellCmpLt k plane x y ins 0, .cellCmpGe k plane x y ins 0, .cellCmpLeu k plane x y ins 0,
      .cellCmpGtu k plane x y ins 0, .cellSel k plane x y ins 0, .cellMulu k plane x y ins 0, .cellMuls k plane x y ins 0,
      .cellMulhu k plane x y ins 0, .cellMulhs k plane x y ins 0, .cellCntUp k plane x y ins 0, .cellCntDown k plane x y ins 0,
      .cellMinu k plane x y ins 0, .cellMaxu k plane x y ins 0, .cellMin k plane x y ins 0, .cellMax k plane x y ins 0,
      .cellPopc k plane x y ins 0, .cellBrev k plane x y ins 0, .cellLfsr k plane x y ins 0, .cellB2g k plane x y ins 0,
      .cellG2b k plane x y ins 0, .cellGinc k plane x y ins 0, .cellGdec k plane x y ins 0, .cellXpar k plane x y ins 0,
      .cellPext k plane x y ins 0, .cellPdep k plane x y ins 0, .cellBfx k plane x y ins 0, .cellBfi k plane x y ins 0,
      .cellPsym k plane x y ins 0, .cellPbit k plane x y ins 0, .cellPbitz k plane x y ins 0, .cellNop k plane x y ins,
      .srWordShift k plane x y ins, .srBitShift k plane x y ins],
    Answers cmd s sound

/-- R89, R115, R136, R142, R154, R163: the context of the next cycle comes into effect and every cell takes what the cycle before gave it; in
a BISTWIN no context does. An edge of its kind on a clocking wire loads o0 alone, with a value the spec does not give (a free value, log
entry 5), and no other edge loads it; an injection is armed for a cell by its physical column; a Z-bus resumes once the frames of the strips that
drove it are rewritten from the golden copy (log entry 88), and stays off where they are not. It rests on the readings and choices of log entries 79 and 80 too. -/
def Obligations.FabricEvents : Prop := ∀ (req : Requester) (k : SiteIx) (plane poison : Bool) (x y row : BitVec 6) (col : BitVec 7) (u : Nat)
    (block : BitVec 8) (bus : BitVec 2) (s : State),
  let c := cellAt plane x y
  let f := s.getFab k
  let a := Reg.fabResInject
  let v : Nat := k * 2 ^ 19 + (if plane then 2 ^ 18 else 0) + col.toNat * 2 ^ 11 + row.toNat * 2 ^ 5
  let keyed : Bool := decide (0 < s.keyLeft req.toNat)
  let key : Nat → Prop := fun r => r = req.toNat
  let b := 4 * block.toNat + bus.toNat
  let mine : Nat → Prop := fun j => j = k.val ∨ ∃ r ∈ f.winReads, j = r.vault / 16
  let busRegs : Nat → Prop := fun r => r = Reg.fabZbusStat ∨ r = Reg.safEvtCnt ∨ r = Reg.fabRwStat ∨ ∃ j, mine j ∧ integRegs j r
  (s.fabRuns k = true → (f.live = false ∨ f.now < u) → (f.next.map Prod.fst).Nodup → (s.wireClocked k).find? (s.wireEdge k) = none →
      Answers (.contextRead k u [] [] []) s (fun t =>
        let g := t.getFab k
        g.now = u ∧ (∀ d, g.cell d = if f.live then f.after d else f.cell d) ∧ (f.live = true → g.next = [])
          ∧ (s.inBist k u = true → g.live = false ∧ g.cyc = (s.cycleAt k u).map Prod.fst)
          ∧ (∀ n sp, s.cycleAt k u = some (n, sp) → s.inBist k u = false → g.live = true ∧ g.ctx = sp.ctx ∧ g.cyc = some n
            ∧ g.num = BitVec.ofNat 32 n ∧ g.sw0 = sp.sw0 ∧ g.sw1 = sp.sw1)
          ∧ (s.cycleAt k u = none → s.inBist k u = false → g.live = true ∧ g.ctx = 0 ∧ g.cyc = none ∧ g.num = (s.getSite k).lastIssued)
          ∧ Only { reg := busRegs, queue := fun q => q = Reg.fabZbusLog ∨ q = Reg.safEvtLog, site := mine, fab := fun j => j = k } s t))
    ∧ (f.live = true → s.fabRuns k = true → s.wireEdge k c = true → Answers (.wireClockEdge k plane x y) s (fun t =>
        ((t.getFab k).cell c).o0 = Config.freeWord s.free ∧ ((t.getFab k).cell c).w = (f.cell c).w
          ∧ ((t.getFab k).cell c).o1 = (f.cell c).o1 ∧ (∀ d, d ≠ c → (t.getFab k).cell d = f.cell d)
          ∧ Only { site := fun j => j = k, fab := fun j => j = k, free := True } s t))
    ∧ ((ctxWclk (s.effWord k c) = false ∨ s.wireLevel k c = ctxWedge (s.effWord k c)) → Answers (.wireClockEdge k plane x y) s (fun t => Only {} s t))
    ∧ (s.reaches req = true → keyed = true → s.bit a 31 = false → Answers (.residueInject req k plane col row) s (fun t =>
        t.rd a = BitVec.ofNat 32 (v + (if col.toNat ≤ 64 then 2 ^ 31 else 0)) ∧ Only { reg := fun r => r = a, key := key } s t))
    ∧ (s.reaches req = true → keyed = true → s.bit a 31 = true → Answers (.residueInject req k plane col row) s (fun t => Only { key := key } s t))
    ∧ (s.reaches req = true → keyed = false → Answers (.residueInject req k plane col row) s (fun t =>
        t.bit Reg.glbKeyErr 31 = true ∧ Only { reg := fun r => r = Reg.glbKeyErr ∨ r = Reg.glbKeyCnt, key := key } s t))
    ∧ (∀ o, s.bit Reg.nocIsoStat 5 = false → f.busOff.find? (fun o => o.bus == b && !o.permanent) = some o →
        (∀ g ∈ o.frames, g / 32768 = k.val) → (poison = false → s.goldenValid k = true → s.tileEnabled 15 = true →
          (∀ v, 240 ≤ v → v < 256 → s.vltState v = 2 ∧ (s.getVault v).goldenBad = []) → Answers (.zbusReloadDone k block bus poison) s (fun t =>
            (t.getFab k).busOff = f.busOff.filter (fun q => q != o) ∧ (∀ g ∈ o.frames, t.getFrame g = Sparse.get (fun _ => 0) s.ctl.golden g)
              ∧ Only { reg := fun r => r = Reg.fabZbusStat, fab := fun j => j = k, ctl := True } s t))
        ∧ (o.frames ≠ [] → s.goldenValid k = false → Answers (.zbusReloadDone k block bus poison) s (fun t =>
            Only { reg := fun r => r = Reg.safEvtCnt, queue := fun q => q = Reg.safEvtLog } s t)))

/-- R157 to R161: a row-window request that the rules allow is taken: a read waits with the row it read, a write-back stores the window's
bytes as the whole row; one they do not allow, or whose row cannot be reached, is refused and shown, and the vault records such a row (R267). The read lands at the end of cycle t + 63, after what the cells write
in it: the window holds the row. -/
def Obligations.RowWindows : Prop := ∀ (v : VaultIx) (w : Word) (s : State),
  let k := v.val / 16
  let f := s.getFab k
  let row := fldOf w 0 22
  let taken : May := { May.dramToo { fab := fun j => j = k } with vault := fun u => u = v.val, dram := fun c => c / 2 ^ 36 = v.val }
  let svc : Prop := (∀ q, (s.getVault v).svc.row = some q → q < 2 ^ 22)
  let refused (t : State) : Prop := t.bit Reg.fabRwStat (16 + k) = true
    ∧ (t.getFab k).winReads = f.winReads ∧ Only { reg := fun a => a = Reg.fabRwStat ∨ a = Reg.vltEvt v ∨ integRegs k a, site := fun j => j = k, fab := fun j => j = k } s t
  (s.winRequest v = some w → s.winMayRequest v w = true → s.rowRefused v row = none →
      (fldOf w 30 2 = 1 → Answers (.rwReadRequest v) s (fun t =>
        (∃ r, (t.getFab k).winReads = f.winReads ++ [r] ∧ r.vault = v.val ∧ r.since = f.now ∧ r.data = (t.getVault v).rowReg.data
            ∧ r.poisoned = (t.getVault v).rowReg.poisoned)
          ∧ (t.getVault v).rowReg.row = row ∧ (t.getFab k).win = f.win ∧ (svc → Only taken s t)))
        ∧ (fldOf w 30 2 = 2 → (s.getVault v).lost = none → ((s.colMap v (row % 128)).map Prod.snd).Nodup → Answers (.rwWriteRequest v) s (fun t =>
          t.rawRow v row 0 2048 = s.winBytes k (v % 16) ∧ (t.getFab k).win = f.win ∧ Only taken s t)))
    ∧ (s.winRequest v = some w → (s.winMayRequest v w = false ∨ (s.rowRefused v row).isSome = true) →
        let told (t : State) : Prop := refused t
          ∧ (s.winMayRequest v w = false → Dram.reserved v row = true → t.bit (Reg.vltEvt v) 7 = true)
          ∧ (∀ e, s.winMayRequest v w = true → s.rowRefused v row = some e → t.bit (Reg.vltEvt v) e = true)
        (fldOf w 30 2 = 1 → Answers (.rwReadRequest v) s told) ∧ (fldOf w 30 2 = 2 → Answers (.rwWriteRequest v) s told))
    ∧ (s.winRequest v = some w → fldOf w 30 2 = 3 → Answers (.rwReadRequest v) s refused)
    ∧ (∀ r, f.winReads.find? (fun r => r.vault == v.val) = some r → (∀ q ∈ f.winReads, q.vault % 16 = v % 16 → q = r) →
        s.vltState v ≠ 5 → r.data.length = 2048 → (s.wireClocked k).find? (s.wireEdge k) = none →
        (if f.live then f.now = r.since + 63 else r.since + 66 ≤ s.fc) →
        Answers (.rwReadLand v) s (fun t =>
          (∀ i, i < 512 → ((Sparse.get (fun _ => (0 : Word)) (t.getFab k).win (512 * (v % 16) + i)).toNat = ofLe ((r.data.drop (4 * i)).take 4)))
            ∧ (t.getFab k).winReads = f.winReads.filter (fun q => decide (r.since < q.since))
            ∧ (r.poisoned = true → t.bit Reg.fabRwStat k = true)
            ∧ Only { reg := fun a => a = Reg.fabRwStat ∨ ∃ q ∈ f.winReads, integRegs (q.vault / 16) a
                     site := fun j => ∃ q ∈ f.winReads, j = q.vault / 16, fab := fun j => j = k } s t))

/-- R314 to R317: the internal port of a region takes a command whose toggle has changed, with the code of the first check it fails; a WRITE
that a check on its words refuses reads no row, any other one reads its source. When a command completes, its status stands in w15 of cell
(39, 31), with bit s of CFG_ICP_STAT for any other code than done, and a command that is done has its effect on the target region. A WRITE
into a context in use forces the isolation of the region, from the third edge on. It rests on the readings and choices of log entry 71. -/
def Obligations.InternalPort : Prop := ∀ (k : SiteIx) (w a : Word) (s : State),
  let t0 := icpTarget w
  let op := icpOp w
  let command : Instr := match op with
    | 2 => .icpIsolate k | 3 => .icpRelease k | 4 => .icpUse k | 5 => .icpUnuse k | _ => .icpWrite k
  let c39 := cellKey 0 39 31
  let src := 16 * k.val + fldOf a 22 4
  let follow : Nat → Prop := fun r => r = Reg.glbSiteState ∨ r = Reg.fabPenStat ∨ r = Reg.glbMode
  let low := s.icpCode k w a none
  let row := s.icpSource k w a
  let job (code : Nat) (d : BitVec 4096) (forced : Bool) : IcpJob :=
    { word := w, arg := a, code := BitVec.ofNat 4 code, since := (s.getFab k).now, data := d, forced := forced }
  let inUse := (s.inuse t0).testBit (icpContext w)
  let takes (t : State) (j : IcpJob) : Prop := (t.getIcp k).tog = w.getLsbD 31 ∧ (t.getIcp k).jobs = (s.getIcp k).jobs ++ [j]
  let shown (t : State) : Nat := let x := t.getSite t0
    if x.isoIncomplete then regIncomplete else if x.isoGolden then regLost else if x.isoForced then regForced
    else if x.icpSession then regSession else regConfigured
  (s.icpSample k = some (w, a) → op ≠ 1 → Answers command s (fun t => takes t (job low 0 false) ∧ Only { ctl := True } s t))
    ∧ (s.icpSample k = some (w, a) → op = 1 → s.cfgReaches = true → 1 ≤ low → low < 4 → Answers (.icpWrite k) s (fun t =>
        takes t (job low 0 inUse) ∧ Only { ctl := True } s t))
    ∧ (s.icpSample k = some (w, a) → op = 1 → s.cfgReaches = true → 4 ≤ low → (s.getVault src).svc.row = none → Answers (.icpWrite k) s (fun t =>
        let code := s.icpCode k w a row.2
        takes t (job code (row.2.getD 0) inUse)
          ∧ (t.getSite t0).icpWrites = (s.getSite t0).icpWrites + (if code = 0 then 1 else 0)
          ∧ Only { May.dramToo { reg := fun r => code = 0 ∧ follow r, site := fun j => j = t0 ∧ code = 0, ctl := True
                                 bist := fun j => j = t0 ∧ code = 0, fab := fun j => j = t0 ∧ code = 0 } with
              vault := fun v => v = src, dram := fun d => d / 2 ^ 36 = src } s t))
    ∧ (∀ j, (s.getIcp k).jobs = [j] → j.word = w → Answers (.icpCommandDone k) s (fun t =>
        let done (o : Nat) : Prop := j.code = 0 ∧ op = o
        ((t.getFab k).after c39).reg 15 = (w &&& 0xF0000000#32) ||| BitVec.ofNat 32 (j.code.toNat * 2 ^ 24)
          ∧ (t.getIcp k).jobs = [] ∧ (j.code ≠ 0 → t.bit Reg.cfgIcpStat k = true)
          ∧ (j.forced = true → ¬ done 3 → (t.getSite t0).isoForced = true ∧ (t.getSite t0).isoFrom = j.since + 3
            ∧ t.bit Reg.fabPenStat (16 + t0) = true ∧ t.regState t0 = shown t)
          ∧ (j.forced = false → (t.getSite t0).isoForced = true → (s.getSite t0).isoForced = true)
          ∧ (done 1 → t.getFrame (icpFrame w) = j.data ∧ (∀ g, g ≠ icpFrame w → t.getFrame g = s.getFrame g)
            ∧ Sparse.get (fun _ => 0) t.ctl.golden (icpFrame w) = j.data ∧ (t.getSite t0).icpWrites = (s.getSite t0).icpWrites - 1)
          ∧ (done 2 → (t.getSite t0).icpSession = true ∧ t.regState t0 = shown t)
          ∧ (done 3 → (t.getSite t0).icpSession = false ∧ t.regState t0 = shown t
            ∧ ((s.getSite t0).icpSession = false → (t.getSite t0).isoForced = false))
          ∧ (done 4 → ∀ i, i < 64 → (t.inuse t0).testBit i = ((s.inuse t0).testBit i || i == icpContext w))
          ∧ (done 5 → ∀ i, i < 64 → (t.inuse t0).testBit i = ((s.inuse t0).testBit i && i != icpContext w))
          ∧ Only { reg := fun r => follow r ∨ r = Reg.cfgRegion t0 ∨ integRegs t0 r ∨ r = Reg.cfgIcpStat ∨ r = Reg.safEvtCnt
                    ∨ ((done 4 ∨ done 5) ∧ (stopRegs t0 r ∨ r = Reg.cfgInuseLo t0 ∨ r = Reg.cfgInuseHi t0 ∨ r = Reg.fabWclkCells t0))
                   queue := fun q => q = Reg.safEvtLog, site := fun j => j = t0, bist := fun j => j = t0, fab := fun i => i = k ∨ i = t0, ctl := True
                   time := s.inWait t0 = true } s t))

/-! ### Configuration -/

/-- R16, R306, R307, R323, R325, R377: the image sink takes a write in stream order, ends the load with code 0x16 at any other, and counts the
writes it drops, all of them in the host's key window; while an accepted body is checked, written or released it holds writes back; an abort and a sink reset end the load with code 0x15, and the sink reset ends the dropping; so does the end of the
lease on the staging area. What a rejected full load leaves in CFG_REGION is the model's choice (log entry 70), and SPD_EVT.lease_revoked at
the timeout is log entry 35 (DEDUCED). -/
def Obligations.ImageSink : Prop := ∀ (req : Requester) (off : BitVec 28) (data : List Byte) (s : State),
  let l := s.ctl.load
  let st := s.loadState
  let taking : Prop := st = ldHeader ∨ st = ldSections ∨ st = ldFrames
  let may : May := { loadMay s.loadRegions with key := fun r => r = req.toNat }
  let counted : Nat → Prop := fun r => r = 0
  ((s.busUp = false ∨ data = [] ∨ st = ldBody ∨ st = ldWrite ∨ st = ldRelease) → Answers (.sinkWrite off data) s (fun t => Only {} s t))
    ∧ (s.busUp = true → data ≠ [] → (st = ldIdle ∨ taking) → off.toNat = l.pos % 2 ^ 28 → Answers (.sinkWrite off data) s (fun t =>
      t.ctl.load.buf = l.buf ++ data ∧ t.ctl.load.pos = l.pos + data.length ∧ t.loadState = (if st = ldIdle then ldHeader else st)
        ∧ t.keyLeft 0 = s.keyLeft 0 - 1 ∧ Only { reg := fun a => a = Reg.cfgStatus, ctl := True, key := counted } s t))
    ∧ (s.busUp = true → data ≠ [] → (st = ldIdle ∨ taking) → off.toNat ≠ l.pos % 2 ^ 28 → Answers (.sinkWrite off data) s (fun t =>
        Rejected s t 0x16 ∧ Only { loadMay s.loadRegions with key := counted } s t))
    ∧ (s.busUp = true → data ≠ [] → st = ldDrop → Answers (.sinkWrite off data) s (fun t =>
        t.fld Reg.cfgSinkDrop 0 32 = min (s.fld Reg.cfgSinkDrop 0 32 + 1) (2 ^ 32 - 1) ∧ Only { reg := fun a => a = Reg.cfgSinkDrop, key := counted } s t))
    ∧ (s.reaches req = true → s.loading = true → Answers (.cfgAbort req) s (fun t => Rejected s t 0x15 ∧ Only may s t))
    ∧ (s.reaches req = true → s.loading = false → Answers (.cfgAbort req) s (fun t => Only { key := fun r => r = req.toNat } s t))
    ∧ (s.reaches req = true → Answers (.cfgSinkReset req) s (fun t =>
        t.loadState = ldIdle ∧ t.ctl.load = {} ∧ t.ctl.release = s.ctl.release
          ∧ (s.loading = true → t.fld Reg.cfgStatus 24 2 = 3 ∧ t.fld Reg.cfgStatus 16 8 = 0x15) ∧ Only may s t))
    ∧ (∀ h, l.hdr = some h → h.staged = true → s.host.staging = true → (st = ldSections ∨ st = ldFrames) →
        l.lastWrite + 160000000 ≤ s.tsc.toNat → Answers .stagingLeaseTimeout s (fun t =>
          Rejected s t 0x15 ∧ t.bit Reg.spdEvt 2 = true
            ∧ Only { loadMay h.regionList with reg := fun a => (loadMay h.regionList).reg a ∨ a = Reg.spdEvt } s t))

/-- R301 to R304, R308, R309, R311 to R313, R323: with its 4,096th byte a header is checked and refused with the code of the first check it
fails, or accepted: a full load leaves the mode LOAD, no configuration valid, every mask 0 and every region held; a staged one has its
copy begun and touches no region; a streamed one holds its regions. The ports of a full load drive their park values from its park section
on (log entry 87). A section or a frame record that its check refuses ends the load with
its code; one that passes is taken, the frame written with its golden copy, or the bytes staged behind those before them (R312, R319).

What a rejected full load leaves in CFG_REGION is the model's choice (log entry 70), and that four frames share a golden row, whose poison the
fourth of a full load ends, is log entry 88. -/
def Obligations.ImageChecks : Prop := ∀ (s : State),
  let l := s.ctl.load
  let raw := l.buf.take 4096
  let h := s.parseHeader raw
  let base (g : ImgHdr) : Nat := g.stage + (l.msg.length - 0xE00) + 4096
  let area (g : ImgHdr) (n : Nat) : Nat → Prop := fun a => g.staged = true ∧ base g ≤ a ∧ a < base g + n
  let copied (g : ImgHdr) (n : Nat) (t : State) : Prop := g.staged = true → ∀ i, i < n →
    Sparse.get (fun _ => (0 : Byte)) t.host.spd (base g + i) = l.buf.getD i 0
  let held (t : State) (k : Nat) : Prop := t.inuse k = 0 ∧ (t.getFab k).held = true ∧ t.regState k = regLoading
  (s.loadState = ldHeader → 4096 ≤ l.buf.length → s.cfgReaches = true →
      (∀ c, s.headerCode raw = some c → Answers .imageHeader s (fun t => Rejected s t c ∧ Only (loadMay s.loadRegions) s t))
        ∧ (s.headerCode raw = none → Answers .imageHeader s (fun t =>
            t.loadState = ldSections ∧ t.ctl.load.hdr = some h ∧ t.ctl.load.buf = l.buf.drop 4096
              ∧ t.fld Reg.cfgStatus 26 2 = (if h.full then 1 else if h.staged then 2 else 3) ∧ t.fld Reg.cfgStatus 0 16 = h.regions.toNat
              ∧ t.rd Reg.cfgProgress = 0 ∧ t.ctl.frames = s.ctl.frames ∧ t.ctl.golden = s.ctl.golden
              ∧ (h.full = true → t.mode = modeLOAD ∧ t.cfgValid = false ∧ (∀ k, k < 16 → held t k ∧ t.goldenValid k = false
                  ∧ (t.getSite k).isoForced = (s.getSite k).isoForced) ∧ t.ctl.restore = false
                ∧ t.ctl.release = none ∧ t.boost = false
                ∧ Only { loadMay sites with reg := fun a => (loadMay sites).reg a ∨ calRegs (· < 16) a ∨ a = Reg.pmuStat } s t)
              ∧ (∀ k ∈ h.regionList, ∀ i, i < 529 → calOf k i = true → t.bit (Reg.safCalStat i) 31 = false)
              ∧ (h.full = false → h.staged = true → t.host.staging = true
                ∧ (∀ i, i < 4096 → Sparse.get (fun _ => (0 : Byte)) t.host.spd (h.stage + i) = raw.getD i 0)
                ∧ Only { reg := fun a => loadRegs a ∨ calRegs (· ∈ h.regionList) a, ctl := True, host := True, spd := fun a => h.stage ≤ a ∧ a < h.stage + 4096 } s t)
              ∧ (h.full = false → h.staged = false → (∀ k ∈ h.regionList, held t k ∧ (t.getSite k).reconf = true)
                ∧ Only { loadMay h.regionList with reg := fun a => (loadMay h.regionList).reg a ∨ calRegs (· ∈ h.regionList) a } s t))))
    ∧ (∀ g ty o n, l.hdr = some g → s.loadState = ldSections → g.sections[l.sec]? = some (ty, o, n) → ty ≠ 7 → n ≤ l.buf.length →
        (g.staged = true → s.cfgReaches = true) →
        (sectionBad ty g.regionList (l.buf.take n) = true → Answers .imageSection s (fun t =>
            Rejected s t 0x11 ∧ Only (loadMay g.regionList) s t))
          ∧ (sectionBad ty g.regionList (l.buf.take n) = false → Answers .imageSection s (fun t =>
            t.ctl.load.sec = l.sec + 1 ∧ t.ctl.load.buf = l.buf.drop n
              ∧ t.ctl.load.crc = BitVec.ofNat 64 (crc64 l.crc.toNat (l.buf.take n))
              ∧ (ty = 2 → n = 16 → ∀ k, g.regionList = [k] → (t.ctl.load.cfgOf k).inuse = bytesVec 64 (l.buf.take 8))
              ∧ t.loadState = (if (g.sections[l.sec + 1]?).any (fun e => e.1 == 7) then ldFrames else ldSections)
              ∧ (ty = 4 → g.full = true → ∀ q ∈ g.regionList.zipIdx,
                (t.getFab q.1).park = parkCodes (bytesVec 1024 (((l.buf.take n).drop (128 * q.2)).take 128)))
              ∧ copied g n t
              ∧ Only { reg := fun a => a = Reg.cfgStatus, ctl := True, host := g.staged = true, spd := area g n
                       fab := fun k => k ∈ g.regionList ∧ ty = 4 ∧ g.full = true } s t)))
    ∧ (∀ g o n, l.hdr = some g → s.loadState = ldSections → g.sections[l.sec]? = some (7, o, n) →
        (g.staged = true → s.cfgReaches = true) → Answers .imageSection s (fun t =>
          t.loadState = ldFrames ∧ t.ctl = s.ctl ∧ Only { reg := fun a => a = Reg.cfgStatus } s t))
    ∧ (∀ g, l.hdr = some g → s.loadState = ldFrames → 520 ≤ l.buf.length → s.cfgReaches = true →
        let r := l.buf.take 520
        (∀ c, s.frameCode g r = some c → Answers .frameRecord s (fun t =>
            Rejected s t c ∧ t.fld Reg.cfgBadIndex 31 1 = 1 ∧ t.fld Reg.cfgBadIndex 0 20 = l.done.length % 2 ^ 20
              ∧ t.rd Reg.cfgBadAddr = BitVec.ofNat 32 (leAt r 0 4) ∧ Only (loadMay g.regionList) s t))
          ∧ (∀ f, s.frameCode g r = none → frameIndex (leAt r 0 4) = some f → Answers .frameRecord s (fun t =>
            copied g 520 t
              ∧ (g.staged = false → Sparse.get (fun _ => 0) t.ctl.golden f = bytesVec 4096 (r.drop 8))
              ∧ (g.staged = false → t.getFrame f = bytesVec 4096 (r.drop 8) ∧ (∀ e, e ≠ f → t.getFrame e = s.getFrame e))
              ∧ (g.staged = true → t.ctl.frames = s.ctl.frames)
              ∧ (g.staged = false → g.full = true → f % 4 = 3 → (t.getVault (goldenRow f).1).goldenBad.contains (goldenRow f).2 = false)
              ∧ t.ctl.load.done = f :: l.done ∧ t.ctl.load.last = some (leAt r 0 4) ∧ t.ctl.load.buf = l.buf.drop 520
              ∧ t.fld Reg.cfgProgress 0 20 = (l.done.length + 1) % 2 ^ 20
              ∧ Only { reg := fun a => a = Reg.cfgProgress, ctl := True, host := g.staged = true, spd := area g 520
                       vault := fun v => g.staged = false ∧ g.full = true ∧ v = (goldenRow f).1 } s t)))

/-- R48, R52, R309 to R313, R319: after the last byte the body CRC decides, and the signature of a signed image; an accepted full load makes the
configuration valid and waits for its release 64 fc on, in which every region starts at its initial values with the mask of its image, no
lane carries a park reason on, and the device enters READY, or stays in SAFE where a cause took it there (log entry 85); a staged load enters
its write phase, which writes its frames as the checks of the scratchpad deliver them (R374; what they report is a free value) and then releases its regions with the masks of the image. A restore lap restores what the golden
copies hold, keeps what the Z-bus monitors have disabled (R154), and has its regions released 64 fc on, an INCOMPLETE one left out; a golden row that is poisoned, or a vault of them that cannot be
reached, leaves nothing valid. It rests on the readings and choices of log entries 70 and 91 too. -/
def Obligations.LoadCompletes : Prop := ∀ (s : State) (h : ImgHdr),
  let l := s.ctl.load
  let spdRegs (a : Nat) : Prop := a = Reg.spdEcc ∨ a = Reg.spdEvt
  let checked (o : SpdObs) (t : State) : Prop :=
    t.fld Reg.spdEcc 0 16 = min (s.fld Reg.spdEcc 0 16 + o.singles) (2 ^ 16 - 1) ∧ (o.double = true → t.bit Reg.spdEvt 1 = true)
  let ended : Prop := s.loadState = ldFrames ∧ l.done.length = h.frames ∧ l.buf = []
  let regions := h.regionList
  let mask (t : State) : Prop := ∀ k ∈ regions, t.inuse k = (l.cfgOf k).inuse.toNat ∧ t.goldenValid k = true
  let golden (t : State) (k : Nat) : RegionCfg := Sparse.get (fun _ => ({} : RegionCfg)) t.ctl.goldenCfg k
  let released (t : State) : Prop := t.mode = (if s.mode = modeLOAD then modeREADY else modeSAFE)
    ∧ (s.mode = modeLOAD → t.bit Reg.glbMode 3 = false) ∧ (∀ k, k < 16 → (t.getSite k).parkReason = 0)
  let poisoned (f : Nat) : Prop := (s.getVault (goldenRow f).1).goldenBad.contains (goldenRow f).2 = true
  let reached : Prop := ∀ v, 240 ≤ v → v < 256 → s.vltState v = 2
  let laps : Prop := s.ctl.restore = true ∧ s.clocksRun = true ∧ s.cfgReaches = true ∧ (s.mode = modeLOAD ∨ s.mode = modeSAFE)
  let accepted (t : State) : Prop :=
    (h.full = true → t.cfgValid = true ∧ t.loadState = ldRelease ∧ t.ctl.load.accepted = some s.fc
        ∧ t.rd64 Reg.cfgBuildLo = h.build.toNat
        ∧ (∀ k ∈ regions, t.inuse k = s.inuse k ∧ t.goldenValid k = true ∧ golden t k = l.cfgOf k))
      ∧ (h.full = false → h.staged = true → t.loadState = ldWrite
        ∧ (∀ k ∈ regions, t.inuse k = 0 ∧ (t.getFab k).held = true ∧ t.regState k = regLoading))
      ∧ (h.full = false → h.staged = false → t.loadState = ldIdle ∧ t.fld Reg.cfgStatus 24 2 = 1 ∧ mask t
        ∧ (∀ k ∈ regions, (t.getFab k).held = false ∧ (t.getSite k).reconf = false))
      ∧ (h.full = false → t.rd64 Reg.cfgBuildLo = s.rd64 Reg.cfgBuildLo)
      ∧ Only (loadMay regions) s t
  (l.hdr = some h → ended → l.crc ≠ h.bodyCrc → Answers .bodyCheck s (fun t => Rejected s t 0x0B ∧ Only (loadMay regions) s t))
    ∧ (l.hdr = some h → ended → l.crc = h.bodyCrc → (h.signed = false ∨ s.variantE = true) → Answers .bodyCheck s accepted)
    ∧ (l.hdr = some h → ended → l.crc = h.bodyCrc → h.signed = true → s.variantE = false → Answers .bodyCheck s (fun t =>
        t.loadState = ldBody ∧ t.ctl = s.ctl ∧ Only { reg := loadRegs } s t))
    ∧ (∀ key, l.hdr = some h → s.loadState = ldBody → s.keyOf h.key.toNat 2 = some key → Answers .signatureVerified s (fun t =>
        if Config.signatureValid key l.msg h.sig then accepted t else Rejected s t 0x0A ∧ Only (loadMay regions) s t))
    ∧ (l.hdr = some h → s.loadState = ldBody → s.keyOf h.key.toNat 2 = none → Answers .signatureVerified s (fun t =>
        Rejected s t 0x0A ∧ Only (loadMay regions) s t))
    ∧ (l.hdr = some h → s.loadState = ldWrite → s.cfgReaches = true → l.written + 1 < h.frames → Answers .partialFrameWrite s (fun t =>
        let o := s.freeObs 512
        let f := l.done.getD (l.done.length - 1 - l.written) 0
        let d := bytesVec 4096 (flipBytes o (s.stagedFrame h f))
        t.ctl.load.written = l.written + 1 ∧ t.getFrame f = d ∧ Sparse.get (fun _ => 0) t.ctl.golden f = d
          ∧ (∀ g, g ≠ f → t.getFrame g = s.getFrame g) ∧ checked o t
          ∧ Only { reg := spdRegs, ctl := True, free := True } s t))
    ∧ (l.hdr = some h → s.loadState = ldWrite → s.cfgReaches = true → h.frames = l.written + 1 → Answers .partialFrameWrite s (fun t =>
        t.loadState = ldIdle ∧ t.fld Reg.cfgStatus 24 2 = 1 ∧ mask t ∧ t.host.staging = false
          ∧ (∀ k ∈ regions, (t.getFab k).held = false ∧ (t.getSite k).reconf = false ∧ (t.getSite k).isoIncomplete = false)
          ∧ checked (s.freeObs 512) t ∧ Only { loadMay regions with free := True, reg := fun a => (loadMay regions).reg a ∨ spdRegs a } s t))
    ∧ (∀ f, l.accepted = some f → s.clocksRun = true → (s.mode = modeLOAD ∨ s.mode = modeSAFE) → s.loadState = ldRelease → s.anyRuns = false →
        Answers .startUpRelease s (fun t =>
          released t ∧ t.fc = max s.fc (f + 64) ∧ t.loadState = ldIdle ∧ t.fld Reg.cfgStatus 24 2 = 1
            ∧ (∀ k, k < 16 → (t.getFab k).held = false ∧ (t.getFab k).next = [] ∧ (t.getSite k).reconf = false
              ∧ t.inuse k = (golden s k).inuse.toNat ∧ (∀ c, c < 8192 → (t.getFab k).cell c = Cell.initial (s.getFab k).init c))
            ∧ Only { loadMay sites with time := True } s t))
    ∧ (∀ f, l.accepted = none → s.ctl.release = some f → s.clocksRun = true → (s.mode = modeLOAD ∨ s.mode = modeSAFE) → s.anyRuns = false →
        Answers .startUpRelease s (fun t =>
          released t ∧ t.fc = max s.fc f ∧ t.loadState = s.loadState ∧ t.ctl.load = l ∧ t.ctl.release = none
            ∧ (∀ k, k < 16 → t.inuse k = s.inuse k ∧ (t.getFab k).held = ((s.getSite k).isoIncomplete && (s.getFab k).held)
              ∧ ((s.getSite k).isoIncomplete = false → ∀ c, c < 8192 → (t.getFab k).cell c = Cell.initial (s.getFab k).init c))
            ∧ Only { loadMay sites with time := True, host := False } s t))
    ∧ (∀ bad, laps → ((∃ f, bad = some f ∧ s.goldenValid (f.val / 32768) = true)
        ∨ (∃ f, f < 524288 ∧ s.goldenValid (f / 32768) = true ∧ poisoned f) ∨ ¬ reached) →
        Answers (.restoreLapDone bad) s (fun t =>
          t.cfgValid = false ∧ t.mode = s.mode ∧ t.fld Reg.glbStartup 16 4 = 6 ∧ t.ctl.restore = false ∧ t.ctl.frames = s.ctl.frames
            ∧ Only (May.dramToo { reg := fun a => a = Reg.glbMode ∨ a = Reg.glbStartup, ctl := True }) s t))
    ∧ (∀ bad, laps → (∀ f, bad = some f → s.goldenValid (f.val / 32768) = false) → reached →
        s.poisonedGolden = [] → (s.ctl.golden.map Prod.fst).Nodup →
        Answers (.restoreLapDone bad) s (fun t =>
          t.ctl.restore = false ∧ t.ctl.release = some (s.fc + 64) ∧ t.ctl.load = l
            ∧ (∀ k, k < 16 → s.goldenValid k = true → t.inuse k = (golden s k).inuse.toNat
              ∧ (t.getFab k).park = parkCodes (golden s k).park ∧ (t.getFab k).init = (golden s k).init
              ∧ (t.getFab k).trips = (s.getFab k).trips ∧ (t.getFab k).busOff = (s.getFab k).busOff
              ∧ (∀ f, f / 32768 = k → t.getFrame f = Sparse.get (fun _ => 0) s.ctl.golden f))
            ∧ (∀ f, s.goldenValid (f / 32768) = false → t.getFrame f = s.getFrame f)
            ∧ Only { reg := fun a => ∃ k ∈ sites, regionRegs k a, site := fun k => k ∈ sites, fab := fun k => k ∈ sites, ctl := True } s t))

/-- R317, R320 to R322, R324: the scrub reads frame after frame: it corrects single-bit errors and counts them, counts a double-bit error and has
the frame reloaded, and ends its lap after the last frame; it waits while a reload or a port WRITE writes the frame. A reload, which waits for
the per-cycle requests of its vault and for the frames queued before it there (R268), copies the frame from the golden copy, or leaves it as it is and shows its failure; each error has
an entry in the log (log entry 88 for the golden rows). CFG_RELEASE ends the isolations that the internal ports left.
It rests on the readings and choices of log entry 91 too. -/
def Obligations.ConfigUpkeep : Prop := ∀ (req : Requester) (mask : BitVec 16) (f : Fin 524288) (poisoned : Bool) (errs : List (BitVec 6 × Bool)) (s : State),
  let p := s.fld Reg.cfgScrub 0 20
  let scrubs : Prop := s.cfgValid = true ∧ s.busUp = true ∧ s.ctl.gated = false ∧ s.ctl.restore = false
    ∧ s.frameBusy p = false ∧ s.regState (p / 32768) ≠ regLoading
  let single := (errs.filter (fun e => !e.2)).length
  let double := (errs.filter (fun e => e.2)).length
  let k := f.val / 32768
  let v := (goldenRow f.val).1
  let due := s.ctl.reloads.filter (fun r => r.frame == f.val)
  let relevant := due.any (fun r => r.relevant)
  let reloads : Prop := s.waitRank v = 3 ∧ (s.reloadsIn [v]).head? = some f.val
  let readable : Prop := s.vltState v = 2 ∧ s.tileEnabled 15 = true ∧ (s.getVault v).goldenBad.contains (goldenRow f.val).2 = false
  let logged (ok : Bool) (t : State) : Prop := (s.getQ Reg.cfgUpsetLog).items.length + due.length ≤ 32 → (s.getQ Reg.cfgUpsetLog).lost = false →
    (t.getQ Reg.cfgUpsetLog).items = (s.getQ Reg.cfgUpsetLog).items ++ due.map (fun r => r.entry ok ||| 0x80000000#32)
  let keyed : Bool := decide (0 < s.keyLeft req.toNat)
  let key : Nat → Prop := fun r => r = req.toNat
  (scrubs → Answers (.configScrub errs) s (fun t =>
      t.fld Reg.cfgUpsetSgl 0 32 = min (s.fld Reg.cfgUpsetSgl 0 32 + single) (2 ^ 32 - 1)
        ∧ t.fld Reg.cfgUpsetDbl 0 32 = min (s.fld Reg.cfgUpsetDbl 0 32 + double) (2 ^ 32 - 1)
        ∧ t.fld Reg.cfgScrub 0 20 = (if p + 1 < 524288 then p + 1 else 0)
        ∧ t.fld Reg.cfgScrub 20 12 = (if p + 1 < 524288 then s.fld Reg.cfgScrub 20 12 else min (s.fld Reg.cfgScrub 20 12 + 1) 4095)
        ∧ t.ctl.frames = s.ctl.frames
        ∧ t.ctl.reloads = s.ctl.reloads ++ (errs.filter (fun e => e.2)).map (fun e =>
          { frame := p, byRead := false, relevant := s.relevant p e.1.toNat })
        ∧ Only { reg := fun a => a = Reg.cfgUpsetSgl ∨ a = Reg.cfgUpsetDbl ∨ a = Reg.cfgScrub ∨ a = Reg.cfgScrubLap ∨ integRegs (p / 32768) a
                 site := fun j => j = p / 32768 ∨ 524287 ≤ p, ctl := True } s t))
    ∧ (¬ reloads → Answers (.frameReload f poisoned) s (fun t => Only {} s t))
    ∧ (reloads → s.goldenValid k = true → readable → poisoned = false → Answers (.frameReload f poisoned) s (fun t =>
        t.getFrame f = Sparse.get (fun _ => 0) s.ctl.golden f ∧ (∀ g, g ≠ f.val → t.getFrame g = s.getFrame g)
          ∧ t.ctl.reloads = s.ctl.reloads.filter (fun q => q.frame != f.val) ∧ logged true t
          ∧ Only { queue := fun q => q = Reg.cfgUpsetLog, ctl := True } s t))
    ∧ (reloads → (s.goldenValid k = false ∨ poisoned = true ∨ ¬ readable) → Answers (.frameReload f poisoned) s (fun t =>
        t.ctl.frames = s.ctl.frames ∧ t.ctl.reloads = s.ctl.reloads.filter (fun q => q.frame != f.val) ∧ logged false t
          ∧ (relevant = true → t.regState k = regLost ∧ (t.getSite k).isoGolden = true)
          ∧ (relevant = true → s.seqRuns k = false → t.siteState k = 3)
          ∧ Only (May.dramToo { reg := fun a => a = Reg.safEvtCnt ∨ a = Reg.cfgRegion k ∨ a = Reg.glbSiteState ∨ a = Reg.fabPenStat
                                  ∨ a = Reg.glbMode ∨ integRegs k a
                                queue := fun q => q = Reg.cfgUpsetLog, site := fun j => j = k ∧ relevant = true, bist := fun j => j = k ∧ relevant = true
                                fab := fun j => j = k ∧ relevant = true, ctl := True }) s t))
    ∧ (s.reaches req = true → keyed = true → Answers (.cfgRelease req mask) s (fun t =>
        (∀ j, j < 16 → mask.getLsbD j = true → (t.getSite j).icpSession = false ∧ (t.getSite j).isoForced = false)
          ∧ (∀ j, j < 16 → mask.getLsbD j = false → t.getSite j = s.getSite j)
          ∧ Only { reg := fun a => (∃ j, j < 16 ∧ a = Reg.cfgRegion j) ∨ a = Reg.glbSiteState ∨ a = Reg.fabPenStat ∨ a = Reg.glbMode
                   site := fun j => j < 16, key := key } s t))
    ∧ (s.reaches req = true → keyed = false → Answers (.cfgRelease req mask) s (fun t =>
        t.bit Reg.glbKeyErr 31 = true ∧ Only { reg := fun r => r = Reg.glbKeyErr ∨ r = Reg.glbKeyCnt, key := key } s t))

/-! ### Modes, resets and start-up -/

/-- R35, R38, R56, R57, R427, R440: a command of GLB_MODE_CMD does what it says where the rules allow it, and otherwise nothing: its status says
why. BOOST_ON is admitted where the allocation with the boost term fits the budget and no layer is at cap reduction; UNLOAD leaves LOAD with
nothing configured, and boost over. The model's choices: the vaults enter self-refresh when ENTER_STANDBY is accepted (log entry 58), SAFE_ACK
before the restore lap after a warm reset has ended goes to LOAD (log entry 85), and BOOST_ON while boost is on is accepted and changes
nothing (log entry 107). It rests on the readings and choices of log entries 83 and 84 too. -/
def Obligations.ModeCommands : Prop := ∀ (req : Requester) (lost : Bool) (dropped : BitVec 256) (s : State), s.reaches req = true →
  let key : Nat → Prop := fun r => r = req.toNat
  let status (t : State) : Nat := t.fld Reg.glbMode 24 4
  let refused (c : Nat) (t : State) : Prop := status t = c ∧ t.mode = s.mode ∧ Only { reg := fun a => a = Reg.glbMode, key := key } s t
  let begun (m : Nat) (t : State) : Prop := status t = 1 ∧ t.mode = s.mode ∧ t.bit Reg.glbMode 3 = true ∧ t.aon.target = some m
  let free : Prop := lost = false ∧ s.modeBusy = false
  let boosting : Prop := s.mode = modeREADY ∧ s.sitesQuiet = true ∧ s.boost = false
  let power : May := { reg := fun a => a = Reg.glbMode ∨ a = Reg.pmuStat, key := key }
  (∀ c ∈ [Instr.enterStandby req lost dropped, .exitStandby req lost, .boostOn req lost, .boostOff req lost, .safeAck req lost, .unload req lost],
      (lost = true → Answers c s (refused 3)) ∧ (lost = false → s.modeBusy = true → Answers c s (refused 2)))
    ∧ (free → s.mode = modeREADY → s.sitesQuiet = true → s.loading = false → s.boost = false →
        Answers (.enterStandby req lost dropped) s (fun t => begun modeSTANDBY t
          ∧ (∀ v, v < 256 → s.vltState v = 2 → t.vltState v = 3 ∧ (t.getVault v).svc = {}) ∧ (∀ v, v < 256 → s.vltState v ≠ 2 → t.vltState v = s.vltState v)
          ∧ (∀ v, v < 256 → dropped.getLsbD v = true → t.bit (Reg.vltEvt v) 6 = true)
          ∧ ((∀ v q, (s.getVault v).svc.row = some q → q < 2 ^ 22) →
              Only { May.dramToo { reg := fun a => a = Reg.glbMode, key := key, aon := True } with
                dram := fun a => ∃ v, v < 256 ∧ ((s.getVault v).svc.dirty = true ∨ (s.getVault v).mnt ≠ none) ∧ a / 2 ^ 36 = v } s t)))
    ∧ (free → (s.mode ≠ modeREADY ∨ s.sitesQuiet = false ∨ s.loading = true ∨ s.boost = true) → Answers (.enterStandby req lost dropped) s (refused 2))
    ∧ (free → s.mode = modeSTANDBY → Answers (.exitStandby req lost) s (fun t => begun modeREADY t
        ∧ Only { reg := fun a => a = Reg.glbMode, key := key, aon := True } s t))
    ∧ (free → s.mode ≠ modeSTANDBY → Answers (.exitStandby req lost) s (refused 2))
    ∧ (free → boosting → s.rd Reg.thmCapred = 0 → s.allocForce + s.pmuForce.boostW ≤ s.pmuForce.budget → Answers (.boostOn req lost) s (fun t =>
        status t = 1 ∧ t.boost = true ∧ t.bit Reg.pmuStat 26 = true ∧ t.mode = s.mode ∧ Only power s t))
    ∧ (free → s.mode = modeREADY → s.sitesQuiet = true → s.boost = true → Answers (.boostOn req lost) s (fun t => refused 1 t ∧ t.boost = true))
    ∧ (free → boosting → (s.rd Reg.thmCapred ≠ 0 ∨ s.pmuForce.budget < s.allocForce + s.pmuForce.boostW) → Answers (.boostOn req lost) s (fun t =>
        status t = 5 ∧ t.boost = false ∧ t.bit Reg.pmuEvt 5 = true ∧ Only { power with reg := fun a => a = Reg.glbMode ∨ a = Reg.pmuEvt } s t))
    ∧ (free → (s.mode ≠ modeREADY ∨ s.sitesQuiet = false) → Answers (.boostOn req lost) s (refused 2))
    ∧ (free → Answers (.boostOff req lost) s (fun t => status t = 1 ∧ t.boost = false ∧ t.mode = s.mode ∧ Only power s t))
    ∧ (free → s.mode = modeSAFE → s.safeLive = 0 → Answers (.safeAck req lost) s (fun t =>
        begun (if s.cfgValid && !s.restoring then modeREADY else modeLOAD) t ∧ Only { reg := fun a => a = Reg.glbMode, key := key, aon := True } s t))
    ∧ (free → s.mode = modeSAFE → s.safeLive ≠ 0 → Answers (.safeAck req lost) s (refused 4))
    ∧ (free → s.mode ≠ modeSAFE → Answers (.safeAck req lost) s (refused 2))
    ∧ (free → s.mode = modeREADY → s.anyRuns = false → Answers (.unload req lost) s (fun t =>
        status t = 1 ∧ t.mode = modeLOAD ∧ t.cfgValid = false ∧ t.boost = false ∧ t.ctl.release = none ∧ t.ctl.restore = false
          ∧ (∀ k, k < 16 → t.inuse k = 0 ∧ (t.getFab k).held = true ∧ t.regState k = 0 ∧ t.goldenValid k = false)
          ∧ Only { loadMay sites with reg := fun a => (loadMay sites).reg a ∨ a = Reg.pmuStat, key := key } s t))
    ∧ (free → (s.mode ≠ modeREADY ∨ s.anyRuns = true) → Answers (.unload req lost) s (refused 2))

/-- R32, R34, R36, R457: a SAFE cause, here a request of the host or the input current limit, takes the device to SAFE: every sequencer that runs
stops with the reason SAFE, an analysis and a load in progress are aborted, boost ends, and the first cause is kept; in SAFE the host's
request changes nothing more. The stop is at the fc of the cause: of a run of cycles only those that have issued count, and one that waits has
issued up to there. No calibration item runs on, and no slice of a region that stops (R89, R470). Lanes that STANDBY had turned off come up
to send PARK; the current limit, as a cause of the supply, takes the sending lanes to electrical idle. The live bit of another
cause clears with its condition, and lanes that nothing holds idle any more start again. It rests on the readings and choices of log entries 58, 92 and 104. -/
def Obligations.SafeEntry : Prop := ∀ (req : Requester) (s : State),
  let key : Nat → Prop := fun r => r = req.toNat
  let last (k : Nat) : Nat := let x := s.getSite k
    ((if s.inWait k then max x.cycle (s.nowCyc k) else min x.cycle (s.nowCyc k)) + 2 ^ 48 - 1) % 2 ^ 48
  let entered (cause : Nat) (t : State) : Prop :=
    t.mode = modeSAFE ∧ t.fld Reg.glbMode 16 8 = cause ∧ t.boost = false ∧ t.bit Reg.glbMode 3 = false ∧ t.aon.target = none
      ∧ (∀ k, k < 16 → s.seqRuns k = true → t.seqState k = 5 ∧ ((s.getSite k).stopAt = none → (s.getSite k).after ≠ .past → Stopped t k 5 (last k)))
      ∧ (∀ k, k < 16 → s.seqRuns k = false → t.seqState k = s.seqState k)
      ∧ (∀ k, k < 16 → t.bit (Reg.rpaStatus k) 0 = false)
      ∧ (s.loading = true → t.loadState = ldDrop ∧ t.fld Reg.cfgStatus 24 2 = 3)
      ∧ (∀ i, i < 529 → t.bit (Reg.safCalStat i) 31 = false)
      ∧ (∀ l, l < 256 → t.lnkState l =
          (let now := if s.lnkState l = 1 then t.startState l else s.lnkState l
           if cause = 2 ∧ (now = 4 ∨ now = 7) then 1 else now))
      ∧ t.fld Reg.safEvtCnt 0 16 = min (s.fld Reg.safEvtCnt 0 16 + 1) 65535
      ∧ Only { reg := fun a => loadRegs a ∨ a = Reg.pmuStat ∨ a = Reg.safEvtCnt
                  ∨ ∃ k, k < 16 ∧ (regionRegs k a ∨ stopRegs k a ∨ a = Reg.rpaStatus k ∨ a = Reg.rpaIrqStat k)
                  ∨ (∃ l, l < 256 ∧ a = Reg.lnkStat l) ∨ ∃ i, i < 529 ∧ a = Reg.safCalStat i
               queue := fun q => q = Reg.safEvtLog, site := fun k => k < 16, ctl := True, host := True, aon := True, key := key
               bist := fun k => k < 16, fab := fun k => k < 16, lane := fun l => l < 256, free := True } s t
  let outside : Prop := s.mode ≠ modeRESET ∧ s.mode ≠ modeSAFE
  (s.reaches req = true → outside → Answers (.safeEnter req) s (fun t => entered 5 t ∧ t.fld Reg.glbMode 24 4 = 1
        ∧ t.safeLive = s.safeLive))
    ∧ (s.reaches req = true → s.mode = modeSAFE → Answers (.safeEnter req) s (fun t => t.mode = modeSAFE ∧ t.fld Reg.glbMode 24 4 = 1
        ∧ t.fld Reg.glbMode 16 8 = s.fld Reg.glbMode 16 8
        ∧ Only { reg := fun a => a = Reg.glbMode ∨ a = Reg.safEvtCnt, queue := fun q => q = Reg.safEvtLog, key := key } s t))
    ∧ (s.bit Reg.pmuStat 25 = true → s.bit Reg.glbMode 10 = false → outside → Answers .ilimSafe s (fun t => entered 2 t ∧ t.bit Reg.glbMode 10 = true))
    ∧ (∀ code : BitVec 3, 1 ≤ code.toNat → code.toNat ≤ 3 → s.causeGone code.toNat = true → Answers (.safeCauseCleared code) s (fun t =>
        t.bit Reg.glbMode (8 + code.toNat) = false ∧ t.mode = s.mode ∧ (∀ c, c ≠ code.toNat → c < 8 → t.bit Reg.glbMode (8 + c) = s.bit Reg.glbMode (8 + c))
          ∧ (∀ l, l < 256 → t.lnkState l = if s.lnkState l = 1 then t.startState l else s.lnkState l)
          ∧ (code.toNat = 3 → ∀ l ∈ layers, (t.fld (Reg.thmLayer l) 30 2 = 3 ↔ (thermLevels l).2.2 ≤ s.acted l))
          ∧ Only { reg := fun a => a = Reg.glbMode ∨ (∃ l, l < 256 ∧ a = Reg.lnkStat l)
                    ∨ (code.toNat = 3 ∧ (a = Reg.thmCapred ∨ a = Reg.thmLevel ∨ a = Reg.thmEvt ∨ ∃ l ∈ layers, a = Reg.thmLayer l))
                   lane := fun l => l < 256, free := True } s t))
    ∧ (∀ code : BitVec 3, (code.toNat = 0 ∨ 4 ≤ code.toNat ∨ s.causeGone code.toNat = false) → Answers (.safeCauseCleared code) s (fun t => Only {} s t))

/-- R32, R34, R37, R39, R422, R443, R470: a timed transition completes: STANDBY has the fabric power-gated, VDD_F of every region off, and the
context layer at its retention voltage, and no calibration item runs; on the way out VDD_F and VDD_C return to their setpoints,
every user flip-flop takes its initial value, scrubbing restarts at frame 0, and until its first lap the configuration is
unverified. It rests on the readings and choices of log entry 58. -/
def Obligations.Transitions : Prop := ∀ (s : State),
  let done (t : State) : Prop := t.bit Reg.glbMode 3 = false ∧ t.aon.target = none
  let lanes (a : Nat) : Prop := 0x800000 ≤ a ∧ a < 0x900000
  let wide : May :=
    { reg := fun a => a = Reg.glbMode ∨ a = Reg.glbSiteState ∨ a = Reg.fabPenStat ∨ a = Reg.cfgScrub ∨ (∃ r, r < 23 ∧ a = Reg.pmuRailV r) ∨ lanes a
        ∨ (∃ i, i < 529 ∧ a = Reg.safCalStat i) ∨ ∃ k, k < 16 ∧ a = Reg.seqHorizon k
      site := fun k => k < 16, fab := fun k => k < 16, bist := fun k => k < 16, lane := fun l => l < 256, ctl := True, aon := True, free := True }
  (s.aon.target = none → Answers .modeTransitionDone s (fun t => Only {} s t))
    ∧ (s.aon.target = some modeSTANDBY → Answers .modeTransitionDone s (fun t =>
        t.mode = modeSTANDBY ∧ done t ∧ t.ctl.gated = true ∧ (∀ k, k < 16 → t.fld (Reg.pmuRailV k) 16 16 = 0)
          ∧ t.fld (Reg.pmuRailV 16) 16 16 = (if s.railOn 16 then 600 else 0) ∧ (∀ i, i < 529 → t.bit (Reg.safCalStat i) 31 = false)
          ∧ t.ctl.frames = s.ctl.frames ∧ Only wide s t))
    ∧ (∀ m, s.aon.target = some m → (m = modeREADY ∨ m = modeLOAD) → s.anyRuns = false → s.ctl.gated = false → Answers .modeTransitionDone s (fun t =>
        t.mode = m ∧ done t ∧ (s.mode = modeSAFE → t.fld Reg.glbMode 16 8 = 0)
          ∧ Only { reg := fun a => a = Reg.glbMode ∨ a = Reg.glbSiteState ∨ a = Reg.fabPenStat, aon := True } s t))
    ∧ (∀ m, s.aon.target = some m → (m = modeREADY ∨ m = modeLOAD) → s.anyRuns = false → s.ctl.gated = true → Answers .modeTransitionDone s (fun t =>
        t.mode = m ∧ done t ∧ t.ctl.gated = false ∧ t.fld Reg.cfgScrub 0 20 = 0
          ∧ (∀ k, k < 16 → (t.getSite k).cfgUnverified = true ∧ ((s.getFab k).held = false →
              (t.getFab k).next = [] ∧ ∀ c, c < 8192 → (t.getFab k).cell c = Cell.initial (s.getFab k).init c))
          ∧ (∀ r, r < 23 → s.railOn r = true → t.fld (Reg.pmuRailV r) 16 16 = s.railSetpoint r % 65536) ∧ t.ctl.frames = s.ctl.frames ∧ Only wide s t))

/-- R50 to R53, R58, R59, R422, R427: a warm reset puts every register outside the domains that it keeps at its reset value and those inside are kept, with the
stacked memory, the context layer and its golden copy; a full reset does so for all but the always-on domain, and the vaults train again. A
reset of a smaller kind than the one in progress leaves it going on; a reset of the function leaves the device configured, and the DMA
engines stop, and requester 0 loses its leases. A flash command in progress is cut, boost ends. The model's choices: cmd_status of GLB_MODE
survives (log entry 97), PERST_N in a larger reset stops only the core (log entry 56), and rails that STANDBY has turned off come back
(log entry 107). It rests on the readings and choices of log entries 55, 57 and 86 too. -/
def Obligations.Resets : Prop := ∀ (req : Requester) (dropped : BitVec 256) (width : Nat) (s : State),
  let keyed : Bool := decide (0 < s.keyLeft req.toNat)
  let key : Nat → Prop := fun r => r = req.toNat
  let moved (a : Nat) : Prop := a = Reg.glbMode ∨ a = Reg.glbStartup ∨ a = Reg.glbResetCause ∨ a = Reg.glbSiteState ∨ a = Reg.fabPenStat
    ∨ a = Reg.cpuStatus ∨ a = Reg.clkStat ∨ a = Reg.cfgSig ∨ a = Reg.fabZbusStat ∨ (∃ k, k < 16 ∧ a = Reg.fabColmap k) ∨ (Reg.safCalStat 0 ≤ a ∧ a ≤ Reg.safCalStat 528)
    ∨ a = Reg.pmuStat ∨ (∃ r, r < 23 ∧ a = Reg.pmuRailV r)
  let canon : Prop := Sparse.wf regReset s.regs = true
  let quiet : Prop := (∀ k, k < 16 → s.seqState k = 0) ∧ s.loading = false ∧ ∀ k, (s.getFab k).winReads = []
  let reset (kept : Nat → Bool) (cause : Nat) (t : State) : Prop :=
    t.mode = modeRESET ∧ t.bit Reg.glbMode 3 = true ∧ t.bit Reg.glbResetCause cause = true
      ∧ (∀ k, k < 16 → t.seqState k = 0 ∧ (t.getFab k).held = true ∧ t.getWfe k = {} ∧ t.getExpo k = {})
      ∧ (canon → ∀ a, kept a = false → ¬ moved a → t.rd a = regReset a)
      ∧ (canon → quiet → dropped = 0 → (∀ v, (s.getVault v).svc.dirty = false ∧ s.vltState v ≠ 2) → ∀ a, kept a = true → ¬ moved a → t.rd a = s.rd a)
      ∧ t.bit Reg.cfgSig 31 = s.bit Reg.glbVariant 4 ∧ t.fld Reg.glbMode 24 4 = s.fld Reg.glbMode 24 4
      ∧ (s.cpu.job = none → t.flash = s.flash) ∧ t.pending = s.pending ∧ t.cpu = {} ∧ t.glintLock = s.glintLock
      ∧ t.boost = false ∧ (s.boost = true → t.bit Reg.pmuStat 26 = false)
      ∧ (∀ r, r < 23 → t.fld (Reg.pmuRailV r) 16 16 = if t.railOn r then t.railSetpoint r % 65536 else 0)
  let warm (cause : Nat) (t : State) : Prop := reset keptWarm cause t ∧ (s.loading = false → t.cfgValid = s.cfgValid)
    ∧ t.bit Reg.glbStartup 7 = s.bit Reg.glbStartup 7
    ∧ (s.loading = false → t.ctl.golden = s.ctl.golden ∧ t.ctl.frames = s.ctl.frames) ∧ t.host.spd = s.host.spd
    ∧ ((∀ v, (s.getVault v).svc.dirty = false) → t.dram = s.dram)
  let full (cause : Nat) (t : State) : Prop := reset inAon cause t ∧ t.cfgValid = false ∧ t.ctl = {} ∧ t.host.spd = []
    ∧ (∀ v, v < 256 → canon → t.vltState v = 0) ∧ t.bit Reg.glbStartup 7 = false ∧ t.clocksRun = false
  (s.reaches req = true → keyed = true → Answers (.warmResetCmd req dropped) s (warm 4))
    ∧ (s.reaches req = true → keyed = true → Answers (.fullResetCmd req dropped) s (full 2))
    ∧ (∀ c ∈ [Instr.warmResetCmd req dropped, .fullResetCmd req dropped], s.reaches req = true → keyed = false → Answers c s (fun t =>
        t.bit Reg.glbKeyErr 31 = true ∧ Only { reg := fun r => r = Reg.glbKeyErr ∨ r = Reg.glbKeyCnt, key := key } s t))
    ∧ (s.aon.up = true → s.aon.vio = true → 150 ≤ width → (s.mode ≠ modeRESET ∨ s.aon.kind ≠ .por) → Answers (.rstdbgReset width dropped) s (full 1))
    ∧ (width < 50 → Answers (.rstdbgReset width dropped) s (fun t => Only {} s t))
    ∧ (s.aon.perst = false → s.aon.up = true → s.mode ≠ modeRESET → Answers (.perstNAssert dropped) s (fun t => warm 3 t ∧ t.aon.perst = true))
    ∧ (s.aon.perst = false → s.aon.up = true → s.mode = modeRESET → s.aon.kind ≠ .warm → Answers (.perstNAssert dropped) s (fun t =>
        t.aon.perst = true ∧ t.bit Reg.glbResetCause 3 = true ∧ t.cpu.started = false
          ∧ Only { reg := fun a => a = Reg.glbResetCause, aon := True, cpu := True } s t))
    ∧ (Answers .perstNDeassert s (fun t => t.aon.perst = false
        ∧ (∀ v, v < 256 → s.mode = modeRESET → s.aon.step = 5 → s.bit Reg.glbStartup 7 = false → s.vltState v = 0 → t.vltState v = 1)
        ∧ Only { reg := fun a => ∃ v, v < 256 ∧ a = Reg.vltStat v, aon := True } s t))
    ∧ (∀ down : Bool, s.mode ≠ modeRESET → Answers (.functionReset down) s (fun t =>
        t.mode = s.mode ∧ t.bit Reg.glbResetCause 7 = true ∧ t.rd Reg.glbBar4Win = 0 ∧ t.host.msixEnable = false ∧ t.host.dma = [] ∧ t.host.pci = {}
          ∧ (∀ p ∈ t.host.locks, p.2 ≠ some 0 ∧ p.2 ≠ some 1 ∧ p.2 ≠ some 2)
          ∧ t.host.linkUp = (s.host.linkUp && !down) ∧ (∀ e, e < 2 → t.dmaState e = dmaStopped)
          ∧ t.ctl = s.ctl ∧ t.cpu.started = s.cpu.started ∧ (∀ k, t.getSite k = s.getSite k ∧ t.getFab k = s.getFab k)))
    ∧ (∀ down : Bool, s.mode = modeRESET → Answers (.functionReset down) s (fun t => Only {} s t))

/-- R40 to R43, R418, R420, R422, R431, R445, R484: start-up goes from step to step: what each step finds good it shows in GLB_STARTUP and CLK_STAT and the next one
begins; one that fails is recorded and counted, the AON clock goes back to the monitor oscillator, and the REFCLK judgement is repeated. The rails
turn on in their order, each when those before it have entered their windows; VAON is on with AON, and a rail whose turn it is, or is still to
come, fails where it does not come in. With the rails up and PERST_N deasserted the vaults train. The straps are sampled once, when VIO is
good. That the rails but VAON turn off after a failed step 4 is the model's choice (log entry 109). It rests on the readings and choices of log entries 56 and 57 too. -/
def Obligations.StartUp : Prop := ∀ (strap : BitVec 2) (count : Nat) (ppm : BitVec 16) (r : Fin 23) (s : State),
  let at' (n : Nat) : Prop := s.atStep n = true
  let shown (n : Nat) (t : State) : Prop := t.bit Reg.glbStartup (n - 1) = true ∧ t.bit Reg.clkStat (n - 1) = true
  let rail (a : Nat) : Prop := ∃ q, q < 23 ∧ a = Reg.pmuRailV q
  let rails (t : State) : Prop := ∀ q, q < 23 → t.fld (Reg.pmuRailV q) 16 16 = t.railTarget q % 65536
  let failed (n : Nat) (t : State) : Prop := t.aon.step = 1 ∧ t.fld Reg.glbStartup 16 4 = n
    ∧ t.fld Reg.glbStartup 24 8 = (if s.fld Reg.glbStartup 16 4 = n then min (s.fld Reg.glbStartup 24 8 + 1) 255 else 1)
    ∧ t.fld Reg.clkStat 0 3 = 0 ∧ t.clocksRun = false ∧ t.mode = s.mode
    ∧ (∀ q, q < 23 → n = 4 → t.fld (Reg.pmuRailV q) 16 16 = if q = 22 then 800 else 0)
    ∧ Only { reg := fun a => a = Reg.glbStartup ∨ a = Reg.clkStat ∨ a = Reg.clkRefPpm ∨ (n = 4 ∧ rail a), aon := True } s t
  let may : May := { reg := fun a => a = Reg.glbStartup ∨ a = Reg.clkStat, aon := True }
  let train (t : State) : Prop := s.mode = modeRESET → s.aon.perst = false → s.bit Reg.glbStartup 7 = false →
    ∀ v, v < 256 → s.vltState v = 0 → t.vltState v = 1
  (s.aon.up = false → Answers (.aonUp strap) s (fun t => t.aon.up = true ∧ t.aon.step = 1
      ∧ (s.aon.vio = true → s.aon.strap = none → t.aon.strap = some strap) ∧ (∀ x, s.aon.strap = some x → t.aon.strap = some x)
      ∧ (t.railOn 22 = true ∧ ∀ q, q < 22 → t.railOn q = false) ∧ rails t
      ∧ Only { reg := rail, aon := True } s t))
    ∧ (at' 1 → 3072 ≤ count → count ≤ 5120 → Answers (.refclkJudgement count) s (fun t => t.aon.step = 2 ∧ shown 1 t ∧ Only may s t))
    ∧ (at' 1 → (count < 3072 ∨ 5120 < count) → Answers (.refclkJudgement count) s (failed 1))
    ∧ (at' 2 → Answers .pllLock s (fun t => t.aon.step = 3 ∧ shown 2 t ∧ (s.mode = modeRESET → t.clocksRun = true ∧ t.bit Reg.clkStat 3 = false) ∧ Only may s t))
    ∧ (at' 2 → Answers .pllLockTimeout s (failed 2))
    ∧ (at' 3 → 16376 ≤ count → count ≤ 16392 → Answers (.ratioConfirmation count ppm) s (fun t =>
        shown 3 t ∧ t.rd Reg.clkRefPpm = ppm.zeroExtend 32
          ∧ t.aon.step = (if s.mode ≠ modeRESET then 0 else if s.bit Reg.glbStartup 3 then 5 else 4)
          ∧ (s.bit Reg.glbStartup 3 = true → train t) ∧ (s.mode = modeRESET → s.bit Reg.glbStartup 3 = false → rails t)
          ∧ Only { may with reg := fun a => may.reg a ∨ a = Reg.clkRefPpm ∨ rail a ∨ ∃ v, v < 256 ∧ a = Reg.vltStat v } s t))
    ∧ (at' 3 → (count < 16376 ∨ 16392 < count) → Answers (.ratioConfirmation count ppm) s (failed 3))
    ∧ (s.aon.up = true → Answers .brownoutRelease s (fun t => t.aon.vinOk = true ∧ t.bit Reg.pmuEvt 1 = false ∧ rails t
        ∧ Only { reg := fun a => a = Reg.pmuEvt ∨ rail a, aon := True } s t))
    ∧ (s.sequencing = true → Answers .railSequencingDone s (fun t => t.aon.step = 5 ∧ t.bit Reg.glbStartup 3 = true
        ∧ (∀ q, q < 23 → t.railOn q = true) ∧ rails t ∧ train t
        ∧ Only { reg := fun a => a = Reg.glbStartup ∨ (∃ q, q < 23 ∧ a = Reg.pmuRailV q) ∨ ∃ v, v < 256 ∧ a = Reg.vltStat v, aon := True } s t))
    ∧ (s.sequencing = true → s.aon.railsIn ≤ railOrder r → s.ctl.gated = false → Answers (.railWindowTimeout r) s (failed 4))
    ∧ ((s.sequencing = false ∨ railOrder r < s.aon.railsIn) → Answers (.railWindowTimeout r) s (fun t => Only {} s t))
    ∧ (Answers (.vioGood strap) s (fun t => t.aon.vio = true ∧ (s.aon.up = true → s.aon.strap = none → t.aon.strap = some strap)
        ∧ (∀ x, s.aon.strap = some x → t.aon.strap = some x) ∧ Only { aon := True } s t))
    ∧ (Answers .vioNotGood s (fun t => t.aon.vio = false ∧ t.glint = { s.glint with inFrame := false } ∧ Only { aon := True, glint := True } s t))

/-! ### Supply, clocks and temperature -/

/-- R418 to R428: warnings and limits of the supply show in PMU_EVT and PMU_STAT; a brownout or a rail out of its window resets the device as a power-on
does, with its cause kept, and the rails turn off one after the other (R422); the tenth measurement publishes the averages; the budget follows the mean VIN, and admission in its bc still goes by the values before it (R427); a site whose window exceeds its class
by more than a tenth is shown over. The model's choices: AON goes down with a brownout (log entry 58), the memories are empty at once (log
entries 23 and 24), and measurements show which rails have entered their windows (log entry 109). -/
def Obligations.Supply : Prop := ∀ (k : SiteIx) (r : Fin 23) (high : Bool) (vin iin : BitVec 16) (railV railI : List Nat) (avg : Nat) (s : State),
  let evt : May := { reg := fun a => a = Reg.pmuEvt }
  let up : Prop := s.aon.up = true
  let por (rec0 : Word) (t : State) : Prop := t.rd Reg.pmuResetRec = rec0 ∧ t.mode = modeRESET ∧ t.aon.up = false ∧ t.dram = [] ∧ t.ctl = {} ∧ t.host.spd = []
    ∧ t.cpu = {} ∧ (s.cpu.job = none → t.flash = s.flash) ∧ t.bit Reg.cfgSig 31 = s.bit Reg.glbVariant 4 ∧ t.pending = s.pending ∧ t.glintLock = s.glintLock ∧ t.rd Reg.glbVariant = s.rd Reg.glbVariant
    ∧ (∀ j, t.getSite j = {} ∧ t.getFab j = {} ∧ t.getLane j = {} ∧ t.getWfe j = {}) ∧ ((s.vault.map Prod.fst).Nodup → ∀ v, (t.getVault v).fuses = (s.getVault v).fuses)
    ∧ (∀ a, a ≠ Reg.pmuResetRec → a ≠ Reg.glbVariant → a ≠ Reg.cfgSig → (∀ j, j < 16 → a ≠ Reg.fabColmap j) → t.rd a = regReset a)
  let n := s.aon.tele.n + 1
  let sum := s.aon.tele.vin + vin.toNat
  let v10 := sum / 10
  let i10 := (s.aon.tele.iin + iin.toNat) / 10
  let inside (q : Nat) : Prop := 92 * s.railSetpoint q ≤ 100 * railV.getD q 0 ∧ 100 * railV.getD q 0 ≤ 108 * s.railSetpoint q
  let enter : Prop := s.sequencing = true ∧ s.aon.railsIn < 7 ∧ ∀ q, q < 23 → railOrder q = s.aon.railsIn → inside q
  let entered (t : State) : Prop := (enter → t.aon.railsIn = s.aon.railsIn + 1 ∧ ∀ q, q < 23 → t.fld (Reg.pmuRailV q) 16 16 = t.railTarget q % 65536)
    ∧ (¬ enter → t.aon.railsIn = s.aon.railsIn ∧ ∀ q, q < 23 → t.fld (Reg.pmuRailV q) 16 16 = s.fld (Reg.pmuRailV q) 16 16)
  let rail (a : Nat) : Prop := ∃ q, q < 23 ∧ a = Reg.pmuRailV q
  let h := s.aon.tele.hist
  let site := Reg.pmuSite k
  (up → Answers .brownoutWarning s (fun t => t.bit Reg.pmuEvt 1 = true ∧ Only evt s t))
    ∧ (up → Answers .overvoltageWarning s (fun t => t.bit Reg.pmuEvt 2 = true ∧ Only evt s t))
    ∧ (up → Answers .overvoltageWarningCleared s (fun t => t.bit Reg.pmuEvt 2 = false ∧ Only evt s t))
    ∧ (up → Answers .brownoutReset s (fun t => por 0xA0000000#32 t ∧ t.parkAsserted = true ∧ t.aon.railsIn = s.aon.railsIn))
    ∧ ((s.aon.up = false ∨ s.aon.railsIn ≤ railOrder r ∨ s.railTarget r = 0) → Answers (.railOutOfWindow r high) s (fun t => Only {} s t))
    ∧ (up → railOrder r < s.aon.railsIn → s.railTarget r ≠ 0 → Answers (.railOutOfWindow r high) s
        (fun t => por (BitVec.ofNat 32 (2 ^ 31 + (if high then 3 else 2) * 2 ^ 29 + r.val * 2 ^ 24)) t ∧ t.parkAsserted = true ∧ t.aon.railsIn = s.aon.railsIn))
    ∧ (Answers .vinBelow1v8 s (fun t => por 0 t ∧ t.aon.strap = none))
    ∧ (up → Answers .inputCurrentLimit s (fun t => t.bit Reg.pmuStat 25 = true ∧ t.bit Reg.pmuEvt 3 = true
        ∧ Only { reg := fun a => a = Reg.pmuEvt ∨ a = Reg.pmuStat } s t))
    ∧ (Answers .inputCurrentLimitReleased s (fun t => t.bit Reg.pmuStat 25 = false ∧ Only { reg := fun a => a = Reg.pmuStat } s t))
    ∧ (up → n < 10 → Answers (.telemetrySample vin iin railV railI) s (fun t => t.aon.tele.n = n ∧ t.aon.tele.vin = s.aon.tele.vin + vin.toNat
        ∧ t.aon.tele.iin = s.aon.tele.iin + iin.toNat ∧ entered t ∧ Only { reg := rail, aon := True } s t))
    ∧ (up → 10 ≤ n → Answers (.telemetrySample vin iin railV railI) s (fun t =>
        t.fld Reg.pmuVin 0 16 = v10 % 65536 ∧ t.fld Reg.pmuIin 0 16 = i10 % 65536 ∧ t.fld Reg.pmuPin 0 16 = min 65535 (v10 * i10 / 10000)
          ∧ t.aon.tele = { hist := (sum :: h).take 10 } ∧ entered t
          ∧ (∀ q, q < 23 → t.fld (Reg.pmuRailV q) 0 16 = (s.aon.tele.railV.getD q 0 + railV.getD q 0) / 10 % 2 ^ 16
              ∧ t.fld (Reg.pmuRailI q) 0 20 = (s.aon.tele.railI.getD q 0 + railI.getD q 0) / 10 % 2 ^ 20)
          ∧ Only { reg := fun a => a = Reg.pmuVin ∨ a = Reg.pmuIin ∨ a = Reg.pmuPin ∨ ∃ q, q < 23 ∧ (a = Reg.pmuRailV q ∨ a = Reg.pmuRailI q), aon := True } s t))
    ∧ (up → h ≠ [] → Answers .budgetUpdate s (fun t =>
        t.budget = s.budgetNow (vinAverage h) % 4096 ∧ t.pmuForce = s.pmuForce ∧ t.bit Reg.pmuStat 24 = (s.rd Reg.thmCapred != 0)
          ∧ t.bit Reg.pmuEvt 0 = (s.bit Reg.pmuEvt 0 || (decide (s.budgetNow (vinAverage h) < s.allocation) && decide (s.allocation ≤ s.budget)))
          ∧ Only { reg := fun a => a = Reg.pmuEvt ∨ a = Reg.pmuStat, aon := True } s t))
    ∧ (s.admitted k = true → Answers (.sitePowerWindow k avg) s (fun t =>
        t.fld site 16 8 = min 255 (avg / 250) ∧ (11 * 250 * s.sitePower k < 10 * avg → t.bit site 13 = true ∧ t.bit Reg.pmuEvt 4 = true)
          ∧ (10 * avg ≤ 11 * 250 * s.sitePower k → t.bit site 13 = s.bit site 13 ∧ t.bit Reg.pmuEvt 4 = s.bit Reg.pmuEvt 4)
          ∧ Only { reg := fun a => a = Reg.pmuEvt ∨ a = site } s t))
    ∧ (s.admitted k = false → Answers (.sitePowerWindow k avg) s (fun t => Only {} s t))

/-- R55, R430, R433, R434, R446, R447: the loss of REFCLK or of the PLL takes the device to SAFE with every drain abandoned, the vaults in self-refresh, the link
down, the sending lanes idle and the judgement begun again; with all three confirmations the clocks restart, and lanes that nothing else
holds idle. A change of FCLK is refused where a site or a load keeps it,
and when it is done fabric cycles and frames count from 0, no frame carries a cycle of a pattern that has run, every lane that received returns
to frame search and no horizon is valid. The frequency counter takes one count at a time, and counts the edges of one clock of the root in those
of another; only against the monitor oscillator is the count what is measured, and where the periods do not divide, one more or less is open
(log entry 111). It rests on the readings and choices of log entries 60 and 61 too. -/
def Obligations.Clocks : Prop := ∀ (req : Requester) (dropped : BitVec 256) (sel : BitVec 2) (meas ref : BitVec 3) (n : BitVec 8) (result : Word) (s : State),
  let f := Reg.clkFmeasCtl
  let c := Reg.clkFsel
  let key : Nat → Prop := fun r => r = req.toNat
  let keyed : Bool := decide (0 < s.keyLeft req.toNat)
  let lost (t : State) : Prop := t.mode = modeSAFE ∧ t.fld Reg.glbMode 16 8 = 1 ∧ t.bit Reg.glbMode 9 = true ∧ t.clocksRun = false ∧ t.fld Reg.clkStat 0 3 = 0
    ∧ t.aon.step = 1 ∧ t.host.linkUp = false ∧ t.glint.inFrame = false
    ∧ (∀ k, k < 16 → s.seqRuns k = true → t.seqState k = 0 ∧ t.siteBusy k = false
      ∧ ((s.getSite k).stopAt = none → t.fld (Reg.seqStatus k) 16 4 = 5))
    ∧ (∀ l, l < 256 → t.lnkState l = let now := if s.lnkState l = 1 then t.startState l else s.lnkState l
        if now = 4 ∨ now = 7 then 1 else now)
    ∧ (∀ v, v < 256 → s.vltState v = 2 → t.vltState v = 3) ∧ t.ctl.frames = s.ctl.frames ∧ t.fc = s.fc
  let outside : Prop := s.mode ≠ modeRESET ∧ s.mode ≠ modeSAFE
  (s.aon.up = true → s.clocksRun = true → outside → Answers (.refclkLoss dropped) s lost)
    ∧ (s.aon.up = true → s.clocksRun = true → outside → Answers (.pllUnlock dropped) s (fun t => lost t ∧ t.bit Reg.clkStat 3 = true))
    ∧ (s.aon.up = true → s.clocksRun = false → s.aon.step = 0 → s.fld Reg.clkStat 0 3 = 7 → Answers .clockRestart s (fun t =>
        t.clocksRun = true ∧ t.bit Reg.clkStat 3 = false ∧ t.aon.step = 5 ∧ t.cpu = { s.cpu with nmi := false } ∧ t.mode = s.mode
          ∧ (∀ l, l < 256 → t.lnkState l = if s.lnkState l = 1 then t.startState l else s.lnkState l)
          ∧ Only { reg := fun a => a = Reg.clkStat ∨ ∃ l, l < 256 ∧ a = Reg.lnkStat l, lane := fun l => l < 256, aon := True, cpu := True, free := True } s t))
    ∧ (s.reaches req = true → keyed = true → s.bit c 31 = false → s.fselRefused sel.toNat = none → Answers (.fclkChange req sel) s (fun t =>
        t.bit c 31 = true ∧ t.fld c 0 2 = sel.toNat ∧ t.fld c 28 3 = 0 ∧ Only { reg := fun a => a = c, key := key } s t))
    ∧ (∀ e, s.reaches req = true → keyed = true → s.bit c 31 = false → s.fselRefused sel.toNat = some e → Answers (.fclkChange req sel) s (fun t =>
        t.fld c 28 3 = e ∧ t.bit c 31 = false ∧ t.fld c 0 2 = s.fld c 0 2 ∧ Only { reg := fun a => a = c, key := key } s t))
    ∧ (s.reaches req = true → keyed = true → s.bit c 31 = true → Answers (.fclkChange req sel) s (fun t => Only { key := key } s t))
    ∧ (s.reaches req = true → keyed = false → Answers (.fclkChange req sel) s (fun t => t.fld c 28 3 = 5 ∧ t.bit Reg.glbKeyErr 31 = true
        ∧ Only { reg := fun a => a = c ∨ a = Reg.glbKeyErr ∨ a = Reg.glbKeyCnt, key := key } s t))
    ∧ (s.bit c 31 = true → Answers .fclkChangeDone s (fun t =>
        t.bit c 31 = false ∧ t.fld c 28 3 = 1 ∧ t.fld Reg.clkStat 4 2 = s.fld c 0 2 ∧ t.fc = 0 ∧ t.fcPhase = 0 ∧ t.tsc = s.tsc
          ∧ (∀ i, i < 16 → t.flagNow i = (s.rd Reg.seqXflags).getLsbD i) ∧ t.ctl.frames = s.ctl.frames ∧ t.mode = s.mode
          ∧ (∀ l, l < 256 → let w := prxWin l
              t.lnkState w = if s.lnkState w = 4 ∨ s.lnkState w = 5 ∨ s.lnkState w = 6 then 3 else s.lnkState w)
          ∧ (∀ k, k < 16 → t.bit (Reg.seqHorizon k) 31 = false)
          ∧ (∀ k, (t.getSite k).spans = [] ∧ (t.getFab k).cells = (s.getFab k).cells
              ∧ ((s.getFab k).winReads = [] → t.getFab k = { s.getFab k with now := 0, winLast := [], parkFrom := 0 }))))
    ∧ (s.reaches req = true → Answers (.fmeasGo req meas ref n) s (fun t =>
        let refused : Bool := s.bit f 31 || s.atStep 3
        t.bit f 29 = refused ∧ t.bit f 31 = (s.bit f 31 || !refused)
          ∧ t.fld f 24 3 = meas.toNat ∧ t.fld f 20 3 = ref.toNat ∧ t.fld f 8 8 = n.toNat
          ∧ t.aon.count = (if refused then s.aon.count else (meas.toNat, ref.toNat, max 8 (min 24 n.toNat)))
          ∧ Only { reg := fun a => a = f, key := key, aon := True } s t))
    ∧ (∀ m r p, s.aon.count = (m, r, p) → s.bit f 31 = true → s.clockGoes r = true → Answers (.fmeasDone result) s (fun t => t.bit f 31 = false
        ∧ (s.clockGoes m = false → t.rd Reg.clkFmeasRes = 0)
        ∧ (s.clockGoes m = true → m = r → p < 32 → t.rd Reg.clkFmeasRes = BitVec.ofNat 32 (2 ^ p))
        ∧ (s.clockGoes m = true → m ≠ r → (m = 7 ∨ r = 7) → t.rd Reg.clkFmeasRes = result)
        ∧ (s.clockGoes m = true → m ≠ 7 → r ≠ 7 → 2 ^ p * s.clockTicks r / s.clockTicks m < 2 ^ 32 - 1 →
            (t.rd Reg.clkFmeasRes).toNat = 2 ^ p * s.clockTicks r / s.clockTicks m
              ∨ (t.rd Reg.clkFmeasRes).toNat = 2 ^ p * s.clockTicks r / s.clockTicks m + 1 ∧ 2 ^ p * s.clockTicks r % s.clockTicks m ≠ 0)
        ∧ Only { reg := fun a => a = f ∨ a = Reg.clkFmeasRes, free := True } s t))
    ∧ ((s.bit f 31 = false ∨ s.clockGoes s.aon.count.2.1 = false) → Answers (.fmeasDone result) s (fun t => Only {} s t))

/-- R281, R435 to R440: the model of every layer takes its step, the layer is acted on at the greater of model and sensors (at the model alone while
suspect), and its levels act: doubled refresh, the end of boost at cap reduction, SAFE at the third level, which is left when the SAFE cause
clears. Where the layer's power has been steady (log entry 111) its factor is refined. Sensors go out of service, with a conversion fault at
once, and return, a layer with too few of them is suspect, and its mark clears only after the host has allowed it.
It rests on the readings and choices of log entries 52, 98 and 102 too. -/
def Obligations.Thermal : Prop := ∀ (req : Requester) (l : Fin 20) (i : Fin 16) (readings : List (BitVec 12 × Bool)) (rows cells : List Nat) (mask : BitVec 20)
    (s : State),
  let up : Prop := s.aon.up = true
  let counts := rows ++ cells
  let sensor := Reg.thmSensor l i
  let layer := Reg.thmLayer l
  let shown (t : State) : Prop := t.fld layer 24 5 = (t.readings l).length
    ∧ (t.readings l ≠ [] → t.fld layer 12 12 = (BitVec.ofInt 12 (maxOf 0 (t.readings l))).toNat
      ∧ (t.getTherm l).mean = ((t.readings l).sum : Rat) / (t.readings l).length)
  let may : May := { reg := fun a => a = layer ∨ a = Reg.thmModel l ∨ ∃ j, j < 16 ∧ a = Reg.thmSensor l j, aon := True }
  let suspect : May := { reg := fun a => a = layer ∨ a = Reg.thmSuspect ∨ a = Reg.thmEvt ∨ a = Reg.safEvtCnt, queue := fun q => q = Reg.safEvtLog, aon := True }
  let hot (t : State) : Prop := ∃ j, j < 20 ∧ (thermLevels j).2.2 ≤ t.acted j
  let outside : Prop := s.mode ≠ modeRESET ∧ s.mode ≠ modeSAFE
  let held (j : Nat) : Prop := s.fld (Reg.thmLayer j) 30 2 = 3 ∧ s.bit Reg.glbMode 11 = true
  let t' (j : Nat) : Bool := s.inService l j && (readings[j]?.elim (s.bit (Reg.thmSensor l j) 13) Prod.snd)
  (up → readings.length ≤ 16 → Answers (.sensorSample l readings) s (fun t =>
      (∀ j q, readings[j]? = some q → t.fld (Reg.thmSensor l j) 0 12 = q.1.toNat ∧ t.bit (Reg.thmSensor l j) 13 = q.2
          ∧ t.inService l j = (s.inService l j && !q.2)
          ∧ (q.2 = true → s.inService l j = true → t.bit Reg.thmEvt 4 = true ∧ ((t.readings l).length < 4 → t.suspect l = true)))
        ∧ shown t ∧ Only { suspect with reg := fun a => suspect.reg a ∨ may.reg a } s t))
    ∧ (up → readings.length ≤ 16 → (∀ j, j < 16 → t' j = false) → Answers (.sensorSample l readings) s (fun t =>
        (∀ j, j < 16 → t.inService l j = s.inService l j) ∧ shown t ∧ Only may s t))
    ∧ (up → s.inService l i = true → s.sensorBad l i = true → Answers (.sensorOutOfService l i) s (fun t =>
        t.bit sensor 12 = false ∧ t.bit Reg.thmEvt 4 = true ∧ shown t ∧ ((t.readings l).length < 4 → t.suspect l = true)
          ∧ Only { suspect with reg := fun a => suspect.reg a ∨ may.reg a } s t))
    ∧ (s.sensorBad l i = false → Answers (.sensorOutOfService l i) s (fun t => Only {} s t))
    ∧ (up → s.inService l i = false → s.sensorGood l i = true → Answers (.sensorReturn l i) s (fun t => t.inService l i = true ∧ shown t ∧ Only may s t))
    ∧ (s.sensorGood l i = false → Answers (.sensorReturn l i) s (fun t => Only {} s t))
    ∧ (up → Answers (.thermalModelUpdate rows cells) s (fun t =>
        (∀ j, j < 20 → (t.getTherm j).hat = (s.getTherm j).hat + (s.anchor j + (s.getTherm j).k * s.riseOf counts j - (s.getTherm j).hat) * Config.thermGain j
            ∧ t.fld (Reg.thmLayer j) 0 12 = (BitVec.ofInt 12 (t.actNow j)).toNat ∧ t.suspect j = s.suspect j
            ∧ (t.getTherm j).k = (if s.suspect j = false ∧ 8 ≤ s.fld (Reg.thmLayer j) 24 5 ∧ t.steady j = true
                then refineK j (s.getTherm j) (s.anchor j) (s.riseOf counts j) else (s.getTherm j).k)
            ∧ (t.fld (Reg.thmLayer j) 30 2 = 3 ↔ (thermLevels j).2.2 ≤ t.acted j ∨ held j)
            ∧ (t.bit Reg.thmCapred j = true ↔ (thermLevels j).2.1 ≤ t.acted j ∨ held j
                ∨ (s.bit Reg.thmCapred j = true ∧ (thermLevels j).2.1 - 16 < t.acted j))
            ∧ (t.bit Reg.thmLevel j = true ↔ (thermLevels j).1 ≤ t.acted j ∨ held j
                ∨ (s.bit Reg.thmLevel j = true ∧ (thermLevels j).1 - 16 < t.acted j)))
          ∧ t.aon.powers = (layers.map (s.layerPower counts) :: s.aon.powers).take 201
          ∧ (∀ m, m < 16 → 680 < t.acted (m + 1) → t.bit Reg.vltRefresh m = true)
          ∧ (t.rd Reg.thmCapred ≠ 0 → t.boost = false)
          ∧ (hot t → s.bit Reg.glbMode 11 = false → outside → t.mode = modeSAFE ∧ t.fld Reg.glbMode 16 8 = 3)
          ∧ (¬ hot t → t.mode = s.mode)))
    ∧ (up → s.offModel l < -64 → s.suspect l = false → Answers (.layerSuspect l) s (fun t => t.suspect l = true ∧ t.bit layer 29 = true ∧ t.bit Reg.thmEvt 1 = true
        ∧ (t.getTherm l).mayClear = false ∧ Only suspect s t))
    ∧ ((s.suspect l = true ∨ -64 ≤ s.offModel l) → Answers (.layerSuspect l) s (fun t => Only {} s t))
    ∧ (s.offModel l ≤ 64 → Answers (.modelLow l) s (fun t => Only {} s t))
    ∧ (up → 64 < s.offModel l → Answers (.modelLow l) s (fun t => t.bit Reg.thmEvt 3 = true ∧ Only { reg := fun a => a = Reg.thmEvt } s t))
    ∧ (s.reaches req = true → Answers (.thmSuspectClr req mask) s (fun t =>
        (∀ j, j < 20 → mask.getLsbD j = true → s.suspect j = true → (t.getTherm j).mayClear = true)
          ∧ (∀ j, (mask.getLsbD j = false ∨ s.suspect j = false) → t.getTherm j = s.getTherm j) ∧ Only { aon := True, key := fun r => r = req.toNat } s t))
    ∧ (s.suspect l = true → (s.getTherm l).mayClear = true → 8 ≤ s.fld layer 24 5 → -32 ≤ s.offModel l → s.offModel l ≤ 32 → Answers (.suspectCleared l) s (fun t =>
        t.suspect l = false ∧ t.bit layer 29 = false ∧ (t.getTherm l).mayClear = false
          ∧ Only { reg := fun a => a = layer ∨ a = Reg.thmSuspect, aon := True } s t))

/-! ### Self-test, repair, calibration, margins -/

/-- R459 to R467, R479: a slice holds its column; one that fails once repeats, and a second failure reports a permanent fault, queues the column and
finds a plane without a spare unrepairable; a repair puts the plane's spare in the column's place, once its site has stopped again if it was
started meanwhile (the model's reading, log entry 110), and a fuse burn keeps it. In a BISTWIN no more slices start than its length allows. Debt is shown at 10 and
50 ms. It rests on the readings and choices of log entry 104 too. -/
def Obligations.SelfTest : Prop := ∀ (req : Requester) (k : SiteIx) (plane pass : Bool) (sig : Word) (s : State),
  let b := s.getBist k
  let p := planeN plane
  let debt := Reg.safBistDebt k
  let fault := Reg.safFault k
  let golden := Config.goldenSlice s.production
  let key : Nat → Prop := fun r => r = req.toNat
  let keyed : Bool := decide (0 < s.keyLeft req.toNat)
  let status (t : State) : Nat := t.fld Reg.safRepairCmd 28 3
  let idle : Prop := s.repairing = false ∧ s.siteState k = 0 ∧ s.siteBusy k = false
  let begun (cmd : Bool) (t : State) : Prop := (t.getBist k).repair = some (plane, cmd) ∧ t.bit Reg.safRepairCmd 31 = true
  let test : May := { reg := fun a => a = debt ∨ a = Reg.safBistStat ∨ a = Reg.safBistTrans ∨ a = fault ∨ a = Reg.safEvtCnt ∨ integRegs k a
        ∨ a = Reg.glbSiteState ∨ a = Reg.fabPenStat ∨ a = Reg.glbMode
                      queue := fun q => q = Reg.safEvtLog, site := fun j => j = k, bist := fun j => j = k, fab := fun j => j = k }
  (s.sliceMay k = true → Answers (.sliceStart k) s (fun t =>
      (t.getBist k).run = some (s.nextSlice k) ∧ (t.getFab k).slice = some (decide (65 ≤ (s.nextSlice k).col), (s.nextSlice k).col % 65)
        ∧ (t.getSite k).slicesLeft = (if (s.getSite k).restorePending then (s.getSite k).slicesLeft - 1 else (s.getSite k).slicesLeft)
        ∧ ((s.nextSlice k).lap = true → t.bit Reg.safBistStat (16 + k) = true)
        ∧ Only { reg := fun a => a = Reg.safBistStat, site := fun j => j = k, bist := fun j => j = k, fab := fun j => j = k } s t))
    ∧ (s.siteBusy k = true → (s.getSite k).slicesLeft = 0 → Answers (.sliceStart k) s (fun t => Only {} s t))
    ∧ (∀ x, b.run = some x → sig = golden → x.lap = true → b.pos + 1 < 130 → Answers (.selftestSliceDone k sig) s (fun t =>
        (t.getBist k).run = none ∧ (t.getBist k).pos = b.pos + 1 ∧ (t.getBist k).sig = b.sig ^^^ sig.rotateLeft b.pos ∧ (t.getFab k).slice = none
          ∧ t.fld debt 0 16 = 0 ∧ t.debtMs k = 0 ∧ (x.again = true → t.fld Reg.safBistTrans 0 32 = min (s.fld Reg.safBistTrans 0 32 + 1) (2 ^ 32 - 1)) ∧ Only test s t))
    ∧ (∀ x, b.run = some x → sig ≠ golden → x.again = false → Answers (.selftestSliceDone k sig) s (fun t =>
        (t.getBist k).suspect = some { x with again := true } ∧ (t.getBist k).run = none ∧ (t.getBist k).pos = b.pos ∧ Only test s t))
    ∧ (∀ x, b.run = some x → sig ≠ golden → x.again = true → x.lap = false → x.col < 130 → Answers (.selftestSliceDone k sig) s (fun t =>
        t.fld fault (8 * (x.col / 65)) 7 = x.col % 65 ∧ (t.getBist k).confirmed.getLsbD (x.col / 65) = true
          ∧ (∀ q, s.fld fault (8 * (x.col / 65)) 7 = q → q ≠ 0x7F → q ≠ x.col % 65 → (x.col / 65, q) ∈ (t.getBist k).queued)
          ∧ ((s.planeRepaired k (x.col / 65) = true ∨ x.col % 65 = 64) → t.bit fault (7 + 8 * (x.col / 65)) = true)
          ∧ ((s.planeRepaired k (x.col / 65) = true ∨ x.col % 65 = 64) → s.siteBusy k = false → s.bit Reg.safFaultAccept k = false →
              (t.getSite k).isoPlane = true)
          ∧ Only test s t))
    ∧ (Answers (.selftestDebtWarn k) s (fun t => t.bit Reg.safBistStat k = true ∧ t.fld debt 0 16 = max (s.fld debt 0 16) 10 ∧ Only test s t))
    ∧ (Answers (.selftestDebt k) s (fun t => t.fld debt 0 16 = max (s.fld debt 0 16) 50
        ∧ ((s.getSite k).window = true → t.bit (Reg.glbIntegLo k) 29 = true) ∧ Only test s t))
    ∧ (s.bit Reg.safRepairCfg 0 = true → s.repairable k plane = true → idle → Answers (.spareRepair k plane) s (fun t => begun false t
        ∧ Only { reg := fun a => a = Reg.safRepairCmd, bist := fun j => j = k } s t))
    ∧ (s.reaches req = true → idle → s.repairable k plane = true → Answers (.repairCmd req k plane) s (fun t => begun true t
        ∧ Only { reg := fun a => a = Reg.safRepairCmd, bist := fun j => j = k, key := key } s t))
    ∧ (s.reaches req = true → ¬ idle → Answers (.repairCmd req k plane) s (fun t => status t = 2 ∧ t.getBist k = b
        ∧ Only { reg := fun a => a = Reg.safRepairCmd, key := key } s t))
    ∧ (s.reaches req = true → idle → s.repairable k plane = false → Answers (.repairCmd req k plane) s (fun t => status t = 3 ∧ t.getBist k = b
        ∧ Only { reg := fun a => a = Reg.safRepairCmd, key := key } s t))
    ∧ (s.siteBusy k = true → Answers (.spareRepairDone k pass) s (fun t => Only {} s t))
    ∧ (∀ cmd, b.repair = some (plane, cmd) → s.siteBusy k = false → Answers (.spareRepairDone k pass) s (fun t =>
        t.planeRepaired k p = true ∧ t.replaced k p = s.sliceColumn k p % 64 ∧ (t.getBist k).repair = none
          ∧ (cmd = true → status t = (if pass then 1 else 7)) ∧ (pass = true → t.fld fault (8 * p) 7 = (b.queued.find? (fun q => q.1 == p)).elim 0x7F (fun q => q.2 % 128) ∧ (t.getBist k).confirmed.getLsbD p = false)
          ∧ (pass = false → t.bit fault (7 + 8 * p) = true)
          ∧ Only { test with reg := fun a => test.reg a ∨ a = Reg.safRepairCmd ∨ a = Reg.fabColmap k, aon := True } s t))
    ∧ (s.reaches req = true → keyed = true → 3000 ≤ s.fld Reg.pmuVin 0 16 → s.repairing = false → s.siteBusy k = false → s.planeRepaired k p = true →
        s.bit Reg.vltFuseCmd 31 = false → s.bit (Reg.fabColmap k) (16 + p) = false → Answers (.fuseCmd req k plane) s (fun t =>
          t.burn = some (k.val, plane) ∧ t.bit Reg.safRepairCmd 31 = true ∧ Only { reg := fun a => a = Reg.safRepairCmd, burn := True, key := key } s t))
    ∧ (s.reaches req = true → keyed = false → Answers (.fuseCmd req k plane) s (fun t => t.bit Reg.glbKeyErr 31 = true ∧ t.burn = s.burn
        ∧ Only { reg := fun a => a = Reg.safRepairCmd ∨ a = Reg.glbKeyErr ∨ a = Reg.glbKeyCnt, key := key } s t))
    ∧ (s.burn = some (k.val, plane) → Answers (.fuseBurnDone pass) s (fun t => t.burn = none ∧ status t = (if pass then 1 else 6)
        ∧ (pass = true → t.bit (Reg.fabColmap k) (16 + p) = true)
        ∧ Only { reg := fun a => a = Reg.safRepairCmd ∨ (a = Reg.fabColmap k ∧ pass = true), aon := True, burn := True } s t))

/-- R455, R469 to R478: an item of calibration is made pending, runs where it may, the one whose temperature has moved most first (log entry 111),
and ends with the smaller of two measurements that agree, with the margins of the layers it references read, and for a region's or a lane's item
with a choice of redundant parts that the spec does not state (a free value, log entry 5); a request made while it runs stands (log entry 111).
One that fails
three times in a row raises an event. A floor of VDD_F rises by a step where the margin is short, and a margin that cannot be restored is
declared; the ageing log takes records. GLB_INTEG_CLR clears the word, the counts and the log of a site whose window is closed.
It rests on the readings and choices of log entry 100 too. -/
def Obligations.CalibrationAndAgeing : Prop := ∀ (req : Requester) (i : Fin 529) (c : BitVec 10) (start elapsed : Nat) (t1 t2 : BitVec 8) (m : Fin 34)
    (slack : List (BitVec 8)) (slacks : List (List (BitVec 8))) (mask : BitVec 16) (s : State),
  let key : Nat → Prop := fun r => r = req.toNat
  let a := Reg.safCalStat i
  let good : Prop := (t1.toInt - t2.toInt).natAbs ≤ 1 ∧ t1.toInt.natAbs ≤ 12 ∧ t2.toInt.natAbs ≤ 12
  let low := minOf 0 (slack.map BitVec.toInt)
  let n := s.floorStep m
  (s.reaches req = true → Answers (.safCalCmd req c) s (fun t => (c.toNat < 529 → t.calFlag c.toNat calPending = true)
      ∧ Only { reg := fun r => r = Reg.safCalStat c.toNat ∧ c.toNat < 529, key := key
               aon := c.toNat < 529 ∧ s.calFlag c.toNat calRunning = true } s t))
    ∧ (s.calFlag i calPending = true → s.calFlag i calRunning = false → s.calMayRun i start = true → s.calFirst i start = true → Answers (.calibrationStart i start) s (fun t =>
        t.calFlag i calRunning = true ∧ Only { reg := fun r => r = a } s t))
    ∧ ((s.calMayRun i start = false ∨ s.calFirst i start = false) → Answers (.calibrationStart i start) s (fun t => Only {} s t))
    ∧ (s.calFlag i calRunning = false → Answers (.calibrationRunDone i ⟨t1, t2⟩ slacks) s (fun t => Only {} s t))
    ∧ (s.calFlag i calRunning = true → good → Answers (.calibrationRunDone i ⟨t1, t2⟩ slacks) s (fun t =>
        t.calFlag i calRunning = false ∧ t.calFlag i calOverdue = false ∧ t.fld a 12 4 = 0
          ∧ (slacks = [] → t.calFlag i calPending = s.aon.calAsked.contains i.val)
          ∧ (∀ q ∈ (calMonitors i).zip slacks, q.2 ≠ [] →
              let w := (BitVec.ofInt 8 (minOf 0 (q.2.map BitVec.toInt))).toNat
              if q.1 < 16 then t.fld (Reg.safMargin q.1) 0 8 = w else t.rd (Reg.safLmargin (q.1 - 16)) = BitVec.ofNat 32 w)
          ∧ Sparse.get (fun _ => 0) t.aon.taps i = BitVec.ofInt 8 (min t1.toInt t2.toInt)
          ∧ t.fld a 0 12 = (BitVec.ofInt 12 (s.calTemp i)).toNat ∧ t.rd64 (Reg.safCalTscLo i) = s.tsc.toNat
          ∧ Only { free := 256 ≤ i.val ∧ i.val < 528, aon := True
                   reg := fun r => r = a ∨ r = Reg.safCalCount i ∨ r = Reg.safCalTscLo i ∨ r = Reg.safCalTscHi i ∨ r = Reg.safCalOverdue
                    ∨ (slacks ≠ [] ∧ (r = Reg.safMarginStat ∨ r = Reg.safEvtCnt ∨ (∃ u ∈ calMonitors i, r = Reg.safLmargin (u - 16) ∧ 16 ≤ u)
                      ∨ ∃ k, k < 16 ∧ (integRegs k r ∨ (k ∈ calMonitors i ∧ (r = Reg.safMargin k ∨ r = Reg.pmuRailV k ∨ r = Reg.safCalStat (256 + k))))))
                   queue := fun q => slacks ≠ [] ∧ q = Reg.safEvtLog, site := fun k => slacks ≠ [] ∧ k < 16 } s t))
    ∧ (s.calFlag i calRunning = true → ¬ good → Answers (.calibrationRunDone i ⟨t1, t2⟩ slacks) s (fun t =>
        t.calFlag i calRunning = false ∧ t.calFlag i calPending = s.calFlag i calPending ∧ t.fld a 12 4 = min (s.fld a 12 4 + 1) 15
          ∧ (s.fld a 12 4 = 2 → t.fld Reg.safEvtCnt 0 16 = min (s.fld Reg.safEvtCnt 0 16 + 1) 65535)
          ∧ Only { reg := fun r => r = a ∨ r = Reg.safEvtCnt, queue := fun q => q = Reg.safEvtLog, aon := True } s t))
    ∧ (slack ≠ [] → m.val < 16 → Answers (.marginMeasure m slack) s (fun t =>
        (low < 25 → n < 30 → t.floorStep m = n + 1 ∧ t.calFlag (256 + m.val) calPending = true)
          ∧ ((25 ≤ low ∨ 30 ≤ n) → t.floorStep m = n)
          ∧ t.bit Reg.safMarginStat m = (decide (low < 25) && n == 30)
          ∧ t.fld (Reg.safMargin m) 0 8 = (BitVec.ofInt 8 low).toNat ∧ (∀ j, j ≠ m.val → t.getSite j = s.getSite j)))
    ∧ (slack ≠ [] → 16 ≤ m.val → Answers (.marginMeasure m slack) s (fun t =>
        t.aon.exhausted.getLsbD (m - 16) = decide (low < 25) ∧ t.rd (Reg.safLmargin (m - 16)) = BitVec.ofNat 32 (BitVec.ofInt 8 low).toNat
          ∧ t.bit Reg.safMarginStat 16 = (t.aon.exhausted != 0)))
    ∧ (∀ r rs, s.fwRunning = true → s.aon.logQueue = r :: rs → r.length = 28 → Answers (.ageingRecord elapsed) s (fun t =>
        t.aon.hours = s.aon.hours + elapsed ∧ t.aon.logQueue = rs ∧ t.aon.logPos = (s.aon.logPos + 1) % 8192
          ∧ t.flashBytes (ageBase + 32 * s.aon.logPos) 32 = leBytes 4 (s.aon.hours + elapsed) ++ r
          ∧ Only { flash := fun b => ageBase + 32 * s.aon.logPos ≤ b ∧ b < ageBase + 32 * s.aon.logPos + 32, aon := True } s t))
    ∧ (Answers .ageingSummary s (fun t => t.aon.hours = (s.aon.hours / 384 + 1) * 384
        ∧ (∃ r, t.aon.logQueue = s.aon.logQueue ++ [r] ∧ r.length = 28 ∧ r.getD 0 0 = 5
          ∧ ∀ k, k < 16 → r.getD (8 + k) 0 = BitVec.ofNat 8 (s.fld (Reg.safMargin k) 0 8)) ∧ Only { aon := True } s t))
    ∧ (s.reaches req = true → Answers (.glbIntegClr req mask) s (fun t =>
        (∀ k, k < 16 → mask.getLsbD k = true → (s.getSite k).window = false →
          t.rd64 (Reg.glbIntegLo k) = 0 ∧ t.rd (Reg.glbIntegCnt k) = 0 ∧ (t.getSite k).seen = 0 ∧ ∀ j, j < 128 → t.rd (Reg.glbIntegLog k j) = 0)
          ∧ Only { reg := fun r => ∃ k, k < 16 ∧ mask.getLsbD k = true ∧ (s.getSite k).window = false ∧ integRegs k r
                   site := fun k => k < 16 ∧ mask.getLsbD k = true ∧ (s.getSite k).window = false, key := key } s t))

/-! ### Register space, host interface, network -/

/-- R6 to R11, R16, R359, R362: an aligned 32-bit access of a requester that is not isolated: a write to GLB_KEY opens its window of 8 writes or
closes it; a read of lo latches hi for the requester and a read of hi returns the latch; a write of lo waits for the write of hi; a read clears RC
fields, and pops the head of an RP queue; a peek does nothing but answer. A bit of a W1C register that is set again in the bc of the write
stays set. A narrow or misaligned access completes as Unsupported Request, one to an address without a register, or to a block that is not
up (log entry 59), reads 0 and drops a write. A read of the hart counts in its key window (log entry 9).
It rests on the readings and choices of log entries 18, 19, 20 and 78 too. -/
def Obligations.RegisterAccess : Prop := ∀ (req : Requester) (a : BitVec 26) (v : Word) (x : WriteAux) (s : State), s.reaches req = true →
  let n := sharedSeq a.toNat
  let key : Nat → Prop := fun r => r = req.toNat
  let keyed : Bool := decide (0 < s.keyLeft req.toNat)
  let ok (w : Word) (t : State) : Prop := t.cpl.status = .ok ∧ t.cpl.value = w
  let hart : Nat → Prop := fun r => r = 3 ∧ req = 3
  let host : May := { host := True, cpl := True, key := hart }
  let read : May := { cpl := True, key := hart }
  let u := s.readTxn req
  Answers (.keyWrite req v) s (fun t => t.keyLeft req.toNat = (if v = 0xA5C3#32 then 8 else 0) ∧ Only { key := key, host := req = 3 } s t)
    ∧ (∀ narrow : Bool, (narrow = true ∨ a.toNat % 4 ≠ 0) →
        (∀ c ∈ [Instr.loRead req a narrow, .readClear req a narrow, .queuePop req a narrow, .peek req a narrow], Answers c s (fun t =>
            t.cpl.status = .ur ∧ Only { cpl := True } s t))
          ∧ (∀ c ∈ [Instr.registerWrite req a v narrow x, .loWrite req a v narrow, .hiWrite req a v narrow], Answers c s (fun t =>
            t.cpl.status = .ur ∧ Only { cpl := True, key := key } s t)))
    ∧ (a.toNat % 4 = 0 → s.upFor req.toNat n = false →
        (∀ c ∈ [Instr.loRead req a false, .readClear req a false, .queuePop req a false, .peek req a false], Answers c s (fun t => ok 0 t ∧ Only read s t))
          ∧ (∀ c ∈ [Instr.registerWrite req a v false x, .loWrite req a v false, .hiWrite req a v false], Answers c s (fun t => Only { key := key } s t)))
    ∧ (a.toNat % 4 = 0 → s.upFor req.toNat n = true →
      (Answers (.peek req a false) s (fun t => ok (u.valueAt req n) t ∧ Only read s t))
        ∧ (isLo n = true → Answers (.loRead req a false) s (fun t => ok (u.valueAt req n) t ∧ t.latched req n = u.valueAt req (n + 4) ∧ Only host s t))
        ∧ (isHi n = true → Answers (.loRead req a false) s (fun t => ok (s.latched req (n - 4)) t ∧ Only read s t))
        ∧ (isQueue n = true → Answers (.queuePop req a false) s (fun t => ok (s.headQ n) t ∧ (t.getQ n).items = (s.getQ n).items.tail
            ∧ Only { read with queue := fun q => q = n } s t))
        ∧ (rcBits n ≠ 0 → Answers (.readClear req a false) s (fun t => ok (s.rd n) t ∧ t.rd n = s.rd n &&& ~~~rcBits n
            ∧ Only { read with reg := fun r => r = n } s t))
        ∧ (regInfo n = none → Answers (.registerWrite req a v false x) s (fun t => Only { key := key } s t)
            ∧ Answers (.peek req a false) s (ok 0))
        ∧ (∀ r, isLo n = true → regInfo n = some r → r.rw ≠ 0 → r.prot = 0 → r.active = false → (∃ c, n ∈ (commitGroups c).flatten) →
            Answers (.loWrite req a v false) s (fun t => t.held req n = some v ∧ Only { host := True, key := key } s t))
        ∧ (∀ r q c, isHi n = true → regInfo (n - 4) = some r → regInfo n = some q → r.rw ≠ 0 → q.prot = 0 → n ∈ (commitGroups c).flatten →
            Answers (.hiWrite req a v false) s (fun t =>
              t.rd n = q.store (s.rd n) v ∧ t.held req (n - 4) = none
                ∧ (∀ l, s.held req (n - 4) = some l → t.rd (n - 4) = r.store (s.rd (n - 4)) l)
                ∧ (s.held req (n - 4) = none → t.rd (n - 4) = s.rd (n - 4))
                ∧ Only { reg := fun b => b = n ∨ b = n - 4, host := True, key := key } s t))
        ∧ (∀ k, k < 16 → n = Reg.glbIntegLo k → Answers (.loWrite req a v false) s (fun t => t.held req n = some v
            ∧ Only { host := True, key := key } s t))
        ∧ (∀ k, k < 16 → n = Reg.glbIntegHi k → Answers (.hiWrite req a v false) s (fun t =>
            t.rd n = s.rd n &&& ~~~(v &&& 0xF#32) ∧ t.held req (n - 4) = none
              ∧ t.rd (n - 4) = s.rd (n - 4) &&& ~~~((s.held req (n - 4)).getD 0)
              ∧ Only { reg := fun b => b = n ∨ b = n - 4, host := True, key := key } s t))
        ∧ (∀ k, k < 16 → n = Reg.capIrqStat k → Answers (.registerWrite req a v false x) s (fun t =>
            t.rd n = (s.rd n &&& ~~~(v &&& 0x1FF#32)) ||| (s.rd n &&& x.race &&& 0x1FF#32) ∧ Only { reg := fun b => b = n, key := key } s t))
        ∧ (∀ r c, isLo n = false → isHi n = false → regInfo n = some r → n ∈ (commitGroups c).flatten → r.prot = 0 → x.race = 0 →
            Answers (.registerWrite req a v false x) s (fun t => t.rd n = r.store (s.rd n) v ∧ Only { reg := fun b => b = n, key := key } s t))
        ∧ (∀ i j, i < 32 → j < 4 → n = Reg.lnkEqtab i j →
            (keyed = true → x.race = 0 → Answers (.registerWrite req a v false x) s (fun t => t.rd n = v ∧ Only { reg := fun b => b = n, key := key } s t))
              ∧ (keyed = false → Answers (.registerWrite req a v false x) s (fun t => t.bit Reg.glbKeyErr 31 = true
                ∧ Only { reg := fun b => b = Reg.glbKeyErr ∨ b = Reg.glbKeyCnt, key := key } s t))))

/-- R12 to R15, R331: a go write of a commit register answers in its status: outside the key window, a commit pending, no such group, the block busy, or the
first inconsistent field; otherwise the groups are taken as a snapshot, which becomes active at once where the safe point is reached, or
pends and becomes active at the safe point. A sequencer that waits has issued the cycles of the fc that have passed with the old copies, and admission in the bc of a commit of the PMU goes
by the old ones (R427). It rests on the readings and choices of log entries 15 and 17. -/
def Obligations.Commits : Prop := ∀ (req : Requester) (c : CommitReg) (go : BitVec 8) (s : State), s.reaches req = true → go ≠ 0 →
  let a := commitAddr c
  let up : Prop := s.upFor req.toNat a = true
  let g := go.toNat
  let key : Nat → Prop := fun r => r = req.toNat
  let prot : Bool := c == .noc || c == .spd
  let keyed : Bool := decide (0 < s.keyLeft req.toNat)
  let status (st bad : Nat) (t : State) : Prop := t.fld a 28 3 = st ∧ t.fld a 16 12 = bad ∧ t.bit a 31 = s.bit a 31
    ∧ Only { reg := fun r => r = a, key := key } s t
  let windowed : Prop := prot = false ∨ keyed = true
  let member (r : Nat) : Prop := ∃ i l, (commitGroups c)[i]? = some l ∧ go.getLsbD i = true ∧ r ∈ l
  let busy : Prop := ∃ k, c = .cap k ∧ s.bit (Reg.capStatus k) 17 = true
  let good : Prop := windowed ∧ s.bit a 31 = false ∧ g < 2 ^ (commitGroups c).length ∧ ¬ busy ∧ s.badField c g = none
  let wide : May := { site := fun j => ∃ k, c = .seq k ∧ j = k.val, time := ∃ k : SiteIx, c = .seq k ∧ s.inWait k = true
                      reg := fun r => (∃ k : SiteIx, c = .seq k ∧ stopRegs k r) ∨ r = a ∨ (∃ q, member q ∧ r = q + activeOff c) ∨ a = Reg.pmuCommit ∧ (r = Reg.pmuStat ∨ r = Reg.pmuEvt)
                      commit := fun r => r = a, key := key, aon := c = .pmu }
  (¬ up → Answers (.commitGo req c go) s (fun t => Only { key := key } s t))
    ∧ (prot = true → keyed = false → Answers (.commitGo req c go) s (fun t => t.fld a 28 3 = 4 ∧ t.bit Reg.glbKeyErr 31 = true
      ∧ Only { reg := fun r => r = a ∨ r = Reg.glbKeyErr ∨ r = Reg.glbKeyCnt, key := key } s t))
    ∧ (up → windowed → s.bit a 31 = true → Answers (.commitGo req c go) s (status 3 0))
    ∧ (up → windowed → s.bit a 31 = false → 2 ^ (commitGroups c).length ≤ g → Answers (.commitGo req c go) s (status 6 0))
    ∧ (up → windowed → s.bit a 31 = false → g < 2 ^ (commitGroups c).length → busy → Answers (.commitGo req c go) s (status 5 0))
    ∧ (∀ i, up → windowed → s.bit a 31 = false → g < 2 ^ (commitGroups c).length → ¬ busy → s.badField c g = some i → i < 4096 →
        Answers (.commitGo req c go) s (status 2 i))
    ∧ (up → good → (commitImmediate c = false ∨ s.commitReady c g = false) → Answers (.commitGo req c go) s (fun t =>
        t.fld a 28 3 = 1 ∧ t.bit a 31 = true ∧ (∃ p, t.getCommit a = some p ∧ p.groups = go ∧ ∀ r w, (r, w) ∈ p.snap ↔ member r ∧ w = s.rd r)
          ∧ Only { reg := fun r => r = a, commit := fun r => r = a, key := key } s t))
    ∧ (up → good → commitImmediate c = true → s.commitReady c g = true → (∀ p, p < 16 → (s.getIcp p).jobs = []) → Answers (.commitGo req c go) s (fun t =>
        t.fld a 28 3 = 1 ∧ t.bit a 31 = false ∧ t.getCommit a = none ∧ (∀ r, member r → t.rd (r + activeOff c) = s.rd r)
          ∧ (c = .pmu → t.pmuForce = s.pmuForce) ∧ Only wide s t))
    ∧ (∀ p, s.getCommit a = some p → s.commitReady c p.groups.toNat = false → Answers (.commitApply c) s (fun t => Only {} s t))
    ∧ (∀ p, s.getCommit a = some p → s.commitReady c p.groups.toNat = true → (∀ i, i < 16 → (s.getIcp i).jobs = []) → (p.snap.map Prod.fst).Nodup →
        (∀ q ∈ p.snap, ∃ l ∈ commitGroups c, q.1 ∈ l) → Answers (.commitApply c) s (fun t =>
          t.bit a 31 = false ∧ t.getCommit a = none ∧ (∀ q ∈ p.snap, t.rd (q.1 + activeOff c) = q.2)))

/-- R306, R357 to R359, R374 to R379: BAR4 reads and writes bytes of the stacked memory through the service buffer of the vault that holds them, whole
rows direct, and one outside the BAR is unsupported; the upper half of BAR2 is the image sink, which reads 0; the scratchpad serves an access that an enabled region of the requester allows, and logs one it denies; a lock goes to
the first reader and its holder's write releases it; a lease that runs out is given up. An access waits, and its command has no effect, where
its row is reserved or its vault takes no request (log entry 112). A TLP with a wrong ECRC is not taken; AER records it and a poisoned one, whose
data may or may not be taken (log entry 113). The hart's LR, SC and AMOs act by its reservation, and an access that its map does not allow takes
an exception, as RISC-V has them (R382; log entry 114). It rests on the readings and choices of log entries 26, 27, 28 and 34 too. -/
def Obligations.HostMemory : Prop := ∀ (req : Requester) (off : BitVec 41) (n : BitVec 13) (attr : BitVec 2) (bs : List Byte) (sa : BitVec 29)
    (use : SpdUse) (user : Bool) (o : SpdObs) (lock : Fin 16) (vlt : VaultIx) (s : State),
  let key : Nat → Prop := fun r => r = req.toNat
  let idle (a m : Nat) : Prop := s.reloadsIn (s.vaultsOf a m) = [] ∧ ∀ k, k < 16 → s.siteWaits k (s.vaultsOf a m) = false
  let held (r a m : Nat) : Prop := ∃ v row, s.locate a = (v, row) ∧ s.rowRefused v row = none ∧ s.bufferHeld v r = false
    ∧ (s.getVault v).svc.row = some row ∧ 0 < m ∧ m < 2048 ∧ a % 2048 + m ≤ 2048 ∧ idle a m
  let whole (a m v row : Nat) : Prop := s.rowRefused v row = none ∧ (s.getVault v).svc.row ≠ some row
    ∧ a % 2048 = 0 ∧ m = 2048 ∧ idle a m
  let hart : Nat → Prop := fun r => r = 3 ∧ req = 3
  let counted : Nat → Prop := fun r => r = 0
  let buffer (a : Nat) : Svc := (s.getVault (s.locate a).1).svc
  let holder := s.lockHolder lock
  let i := sa.toNat
  let sink : Bool := req == 0 && decide (2 ^ 28 ≤ i)
  let plain (m : Nat) (wr : Bool) : Prop := s.reaches req = true ∧ (use = .plain ∨ req ≠ 3) ∧ s.spdTrap req i m wr use user = none
  let w := 0x60000000 + i
  let atomic : Prop := s.reaches 3 = true ∧ req = 3 ∧ s.spdTrap 3 i 4 true use user = none ∧ s.spdTrap 3 i 4 false use user = none ∧ bs.length = 4 ∧ n = 4
  let aer (b : Word) (t : State) : Prop := t.host.pci.aer = s.host.pci.aer ||| b
  let noted : State := { s with free := s.free + 1, host := { s.host with pci := { s.host.pci with aer := s.host.pci.aer ||| 0x1000#32 } } }
  let served (t : State) : Prop := t.cpl.status = .ok ∧ t.cpl.ep = o.double ∧ t.cpl.bytes = flipBytes o (s.spdBytes i n.toNat)
    ∧ t.fld Reg.spdEcc 0 16 = min (s.fld Reg.spdEcc 0 16 + o.singles) 65535 ∧ (o.double = true → t.bit Reg.spdEvt 1 = true)
  (s.reaches 0 = true → s.bar4Addr off.toNat = none → Answers (.bar4Read off n attr false) s (fun t => t.cpl.status = .ur ∧ Only { cpl := True } s t)
      ∧ Answers (.bar4Write off bs attr .good) s (fun t => t.cpl.status = .ur ∧ Only { cpl := True, key := counted } s t))
    ∧ (∀ a, s.reaches 0 = true → s.bar4Addr off.toNat = some a → (s.accessWaits 0 a n.toNat = true → Answers (.bar4Read off n attr false) s (fun t => Only {} s t))
      ∧ (s.accessWaits 0 a bs.length = true → Answers (.bar4Write off bs attr .good) s (fun t => Only {} s t)))
    ∧ (s.reaches 0 = true → Answers (.bar4Write off bs attr .badEcrc) s (fun t => aer 0x80000#32 t ∧ Only { host := True, key := counted } s t)
      ∧ Answers (.bar4Read off n attr true) s (fun t => aer 0x80000#32 t ∧ Only { host := True } s t)
      ∧ (exec (.bar4Write off bs attr .poisoned) s = exec (.bar4Write off bs attr .good) noted
        ∨ Answers (.bar4Write off bs attr .poisoned) s (fun t => aer 0x1000#32 t ∧ Only { host := True, key := counted, free := True } s t)))
    ∧ (∀ a, s.reaches 0 = true → s.bar4Addr off.toNat = some a → s.accessWaits 0 a n.toNat = false → held 0 a n.toNat →
        Answers (.bar4Read off n attr false) s (fun t => t.cpl.status = .ok ∧ t.cpl.bytes = ((buffer a).data.drop (a % 2048)).take n.toNat
          ∧ t.cpl.ep = (buffer a).poisoned ∧ (t.getVault (s.locate a).1).svc = buffer a
          ∧ (attr = 1 → (t.getVault (s.locate a).1).reserve = some (0, (s.locate a).2))
          ∧ Only { cpl := True, vault := fun v => v = (s.locate a).1 } s t))
    ∧ (∀ a v row, s.reaches 0 = true → s.bar4Addr off.toNat = some a → s.accessWaits 0 a n.toNat = false → s.locate a = (v, row) →
        whole a n.toNat v row →
        Answers (.bar4Read off n attr false) s (fun t =>
          (∀ d, (s.readRow v row srcHost).2 = .ok d → t.cpl.status = .ok ∧ t.cpl.bytes = d ∧ t.cpl.ep = false)
            ∧ (t.getVault v).svc = (s.getVault v).svc ∧ Only { May.dramToo { cpl := True } with vault := fun u => u = v } s t))
    ∧ (∀ a v row, s.reaches 0 = true → s.bar4Addr off.toNat = some a → s.accessWaits 0 a bs.length = false → s.locate a = (v, row) →
        whole a bs.length v row → row < 2 ^ 22 →
        (s.getVault v).lost = none → ((s.colMap v (row % 128)).map Prod.snd).Nodup → Answers (.bar4Write off bs attr .good) s (fun t =>
          t.rawRow v row 0 2048 = bs ∧ (t.getVault v).svc = (s.getVault v).svc
            ∧ Only { May.dramToo {} with key := counted, vault := fun u => u = v, dram := fun c => c / 2 ^ 36 = v } s t))
    ∧ (∀ a v row b, s.reaches 0 = true → s.bar4Addr off.toNat = some a → s.accessWaits 0 a n.toNat = false → s.locate a = (v, row) → s.rowRefused v row = some b →
        0 < n.toNat → a % 2048 + n.toNat ≤ 2048 → idle a n.toNat → Answers (.bar4Read off n attr false) s (fun t => t.cpl.status = .ca ∧ t.bit (Reg.vltEvt v) b = true
          ∧ Only { reg := fun r => r = Reg.vltEvt v, cpl := True, vault := fun u => u = v } s t))
    ∧ (∀ a, s.reaches 0 = true → s.bar4Addr off.toNat = some a → s.accessWaits 0 a bs.length = false → held 0 a bs.length →
        (buffer a).data.length = 2048 → Answers (.bar4Write off bs attr .good) s (fun t =>
          let b := (t.getVault (s.locate a).1).svc
          b.dirty = true ∧ b.row = (buffer a).row ∧ b.data = (buffer a).data.take (a % 2048) ++ bs ++ (buffer a).data.drop (a % 2048 + bs.length)
            ∧ Only { vault := fun v => v = (s.locate a).1, key := counted } s t))
    ∧ (plain bs.length true → sink = true → exec (.spdAccess req sa (some bs) n ⟨use, user⟩ o) s = exec (.sinkWrite (BitVec.ofNat 28 (i - 2 ^ 28)) bs) s)
    ∧ (plain n.toNat false → sink = true → Answers (.spdAccess req sa none n ⟨use, user⟩ o) s (fun t => t.cpl.status = .ok
        ∧ t.cpl.bytes = List.replicate n.toNat 0 ∧ Only { cpl := True } s t))
    ∧ (plain bs.length true → sink = false → 2 ^ 26 < i + bs.length → Answers (.spdAccess req sa (some bs) n ⟨use, user⟩ o) s (fun t => t.cpl.status = .ur
        ∧ Only { cpl := True, key := key } s t))
    ∧ (plain n.toNat false → sink = false → 2 ^ 26 < i + n.toNat → Answers (.spdAccess req sa none n ⟨use, user⟩ o) s (fun t => t.cpl.status = .ur
        ∧ Only { cpl := True, key := hart } s t))
    ∧ (plain bs.length true → i + bs.length ≤ 2 ^ 26 → s.spdMay req.toNat i bs.length true = true → Answers (.spdAccess req sa (some bs) n ⟨use, user⟩ o) s (fun t =>
        t.spdBytes i bs.length = bs ∧ Only { key := key, spd := fun a => i ≤ a ∧ a < i + bs.length, cpu := s.cpu.resv ≠ none } s t))
    ∧ (plain bs.length true → i + bs.length ≤ 2 ^ 26 → s.spdMay req.toNat i bs.length true = false → Answers (.spdAccess req sa (some bs) n ⟨use, user⟩ o) s (fun t =>
        t.bit Reg.spdEvt 0 = true ∧ Only { key := key, reg := fun r => r = Reg.spdEvt, queue := fun q => q = Reg.spdErrLog } s t))
    ∧ (plain n.toNat false → i + n.toNat ≤ 2 ^ 26 → s.spdMay req.toNat i n.toNat false = true → Answers (.spdAccess req sa none n ⟨use, user⟩ o) s (fun t =>
        served t ∧ (o.double = false → t.cpl.bytes = s.spdBytes i n.toNat)
          ∧ Only { key := hart, reg := fun r => r = Reg.spdEvt ∨ r = Reg.spdEcc, cpl := True } s t))
    ∧ (∀ tr wr, s.reaches 3 = true → req = 3 → s.spdTrap 3 i (if wr then bs.length else n.toNat) wr use user = some tr →
        Answers (.spdAccess 3 sa (if wr then some bs else none) n ⟨use, user⟩ o) s (fun t =>
          t.cpu.resv = none ∧ t.cpu.hart.user = false ∧ t.cpu.hart.pc = Sparse.get (fun _ => 0) s.cpu.hart.csr 0x305 &&& 0xFFFFFFFC#32
            ∧ Sparse.get (fun _ => 0) t.cpu.hart.csr 0x341 = s.cpu.hart.pc ∧ Sparse.get (fun _ => 0) t.cpu.hart.csr 0x343 = BitVec.ofNat 32 w
            ∧ Only { cpu := True, key := hart } s t))
    ∧ (atomic → use = .lr → Answers (.spdAccess req sa none n ⟨use, user⟩ o) s (fun t =>
        (s.spdMay 3 i 4 false = true → served t ∧ t.cpu = { s.cpu with resv := some w })
          ∧ (s.spdMay 3 i 4 false = false → t.cpl.status = .ca ∧ t.cpu = s.cpu ∧ t.bit Reg.spdEvt 0 = true)
          ∧ Only { key := hart, reg := fun r => r = Reg.spdEvt ∨ r = Reg.spdEcc, queue := fun q => q = Reg.spdErrLog, cpl := True, cpu := True } s t))
    ∧ (atomic → use = .sc → s.spdMay 3 i 4 true = true → Answers (.spdAccess req sa (some bs) n ⟨use, user⟩ o) s (fun t =>
        t.cpu = { s.cpu with resv := none } ∧ t.cpl.status = .ok ∧ t.cpl.value = (if s.cpu.resv = some w then 0 else 1)
          ∧ (s.cpu.resv = some w → t.spdBytes i 4 = bs) ∧ (s.cpu.resv ≠ some w → t.host.spd = s.host.spd)
          ∧ Only { key := hart, spd := fun a => i ≤ a ∧ a < i + 4, cpl := True, cpu := True } s t))
    ∧ (∀ op, atomic → use = .amo op → s.spdMay 3 i 4 false = true → s.spdMay 3 i 4 true = true → Answers (.spdAccess req sa (some bs) n ⟨use, user⟩ o) s (fun t =>
        served t ∧ t.spdBytes i 4 = leBytes 4 (amoResult op (BitVec.ofNat 32 (ofLe t.cpl.bytes)) (BitVec.ofNat 32 (ofLe bs))).toNat
          ∧ Only { key := hart, reg := fun r => r = Reg.spdEvt ∨ r = Reg.spdEcc, spd := fun a => i ≤ a ∧ a < i + 4, cpl := True } s t))
    ∧ (plain n.toNat false → i + n.toNat ≤ 2 ^ 26 → s.spdMay req.toNat i n.toNat false = false → Answers (.spdAccess req sa none n ⟨use, user⟩ o) s (fun t =>
        t.cpl.status = .ca ∧ t.bit Reg.spdEvt 0 = true ∧ Only { key := hart, reg := fun r => r = Reg.spdEvt, queue := fun q => q = Reg.spdErrLog, cpl := True } s t))
    ∧ (s.reaches req = true → Answers (.spdLockRead req lock) s (fun t =>
        t.lockHolder lock = some (holder.getD req.toNat)
          ∧ t.cpl.value = BitVec.ofNat 32 (if holder = none ∨ holder = some req.toNat then 2 ^ 31 + req.toNat else 2 ^ 30 + holder.getD 0 % 32)
          ∧ (∀ j, j ≠ lock.val → t.lockHolder j = s.lockHolder j) ∧ Only { host := True, cpl := True, key := hart } s t))
    ∧ (s.reaches req = true → Answers (.spdLockRelease req lock) s (fun t =>
        t.lockHolder lock = (if holder = some req.toNat then none else holder) ∧ (∀ j, j ≠ lock.val → t.lockHolder j = s.lockHolder j)
          ∧ Only { host := True, key := key } s t))
    ∧ (holder ≠ none → s.fld Reg.spdLockTmo 0 16 ≠ 0 → Answers (.lockLeaseTimeout lock) s (fun t => t.lockHolder lock = none ∧ t.bit Reg.spdEvt 2 = true
        ∧ (∀ j, j ≠ lock.val → t.lockHolder j = s.lockHolder j) ∧ Only { reg := fun r => r = Reg.spdEvt, host := True } s t))
    ∧ ((s.getVault vlt).reserve ≠ none → Answers (.bufferReservationTimeout vlt) s (fun t => (t.getVault vlt).reserve = none
        ∧ (t.getVault vlt).svc = (s.getVault vlt).svc ∧ t.bit Reg.nocEvt 4 = true ∧ Only { reg := fun r => r = Reg.nocEvt, vault := fun v => v = vlt.val } s t))

/-- R367 to R369, R377: an engine starts for its lease holder, stops after the descriptor in progress, aborts it with code 5, and moves its indexes back only while
stopped; a head that queues more than the ring holds is refused; a go clears the head and the last error in any state. A descriptor moves its bytes and ends with its status, and a fatal one stops the
engine in state error; a double-bit error of the scratchpad delivers the words as they are, with the error.
It rests on the readings and choices of log entries 29, 30, 31, 32 and 34. -/
def Obligations.DmaEngines : Prop := ∀ (req : Requester) (e : Fin 2) (head : BitVec 16) (desc data : List Byte) (moved : Nat) (o : DmaObs) (s : State),
  let st := s.dmaState e
  let d := DmaDesc.ofBytes desc
  let key : Nat → Prop := fun r => r = req.toNat
  let hostToo : May := { reg := fun a => a = Reg.glbDmaStat e, host := True, key := key }
  let same (t : State) : Prop := Only { key := key } s t
  let tail := s.fld (Reg.glbDmaTail e) 0 16
  let ended (code : Nat) (t : State) : Prop := t.fld (Reg.glbDmaTail e) 0 16 = (tail + 1) % 65536
    ∧ t.fld (Reg.glbDmaStat e) 0 16 = (if code ≤ 1 then (s.fld (Reg.glbDmaStat e) 0 16 + 1) % 65536 else s.fld (Reg.glbDmaStat e) 0 16)
    ∧ (2 ≤ code → t.dmaState e = dmaError ∧ t.fld (Reg.glbDmaStat e) 26 3 = code ∧ (t.getDma e).holder = none)
    ∧ (code = 0 → t.dmaState e = (if st = dmaStopping then dmaStopped else st))
  let word (code m : Nat) : List Byte := leBytes 4 (2 ^ 31 + code * 2 ^ 28) ++ leBytes 4 m
  let mine : May := { reg := fun a => a = Reg.glbDmaStat e ∨ a = Reg.glbDmaTail e, host := True, free := True }
  (s.reaches req = true →
      ((st = dmaStopped ∨ st = dmaError) → Answers (.dmaGo req e) s (fun t => t.dmaState e = dmaRunning ∧ t.fld (Reg.glbDmaStat e) 0 29 = 0
          ∧ (t.getDma e).holder = some req.toNat ∧ Only hostToo s t))
        ∧ (st ≠ dmaStopped → st ≠ dmaError → Answers (.dmaGo req e) s (fun t => t.dmaState e = st ∧ t.bit (Reg.glbDmaStat e) 25 = false
            ∧ t.fld (Reg.glbDmaStat e) 26 3 = 0 ∧ t.fld (Reg.glbDmaStat e) 0 16 = s.fld (Reg.glbDmaStat e) 0 16
            ∧ Only { reg := fun a => a = Reg.glbDmaStat e, key := key } s t)
          ∧ Answers (.dmaReset req e) s same)
        ∧ ((st = dmaStopped ∨ st = dmaError) → Answers (.dmaReset req e) s (fun t => t.rd (Reg.glbDmaHead e) = 0 ∧ t.rd (Reg.glbDmaTail e) = 0
          ∧ Only { reg := fun a => a = Reg.glbDmaHead e ∨ a = Reg.glbDmaTail e, key := key } s t))
        ∧ (st = dmaRunning → Answers (.dmaStop req e) s (fun t => t.dmaState e = (if s.dmaBusy e then dmaStopping else dmaStopped)
          ∧ (s.dmaBusy e = false → (t.getDma e).holder = none) ∧ Only hostToo s t))
        ∧ (st ≠ dmaRunning → Answers (.dmaStop req e) s same)
        ∧ (s.dmaBusy e = true → s.dmaInSpd e = false → Answers (.dmaAbort req e) s (fun t => ended 5 t ∧ Only { mine with key := key } s t))
        ∧ (s.dmaBusy e = false → Answers (.dmaAbort req e) s (fun t => t.dmaState e = (if st = dmaRunning ∨ st = dmaStopping then dmaStopped else st)
          ∧ Only hostToo s t))
        ∧ (2 ^ s.fld (Reg.glbDmaSize e) 0 5 < s.dmaQueued e head.toNat → Answers (.dmaHeadWrite req e head) s (fun t =>
            t.bit (Reg.glbDmaStat e) 25 = true ∧ Only { reg := fun a => a = Reg.glbDmaStat e, key := key } s t))
        ∧ (s.dmaQueued e head.toNat ≤ 2 ^ s.fld (Reg.glbDmaSize e) 0 5 → Answers (.dmaHeadWrite req e head) s (fun t =>
            t.fld (Reg.glbDmaHead e) 0 16 = head.toNat ∧ Only { reg := fun a => a = Reg.glbDmaHead e, key := key } s t)))
    ∧ (s.dmaMayEnd e desc o = true → s.dmaInSpd e = false → d.bad = true → Answers (.dmaDescriptorDone e desc data false moved o) s (fun t =>
        ended 4 t ∧ Only mine s t))
    ∧ (s.dmaMayEnd e desc o = true → s.dmaInSpd e = false → d.bad = false → d.ctl.getLsbD 0 = false → d.ctl.getLsbD 1 = true → 2 ^ 44 ≤ d.dst →
        s.devReach (1 + e) d.dst d.len true = d.len → data.length = d.len → Answers (.dmaDescriptorDone e desc data false moved o) s (fun t =>
          ended 0 t ∧ t.spdBytes (d.dst - 2 ^ 44) d.len = data ∧ t.host.toHost = word 0 d.len
            ∧ Only { mine with spd := fun a => d.dst - 2 ^ 44 ≤ a ∧ a < d.dst - 2 ^ 44 + d.len, cpu := s.cpu.resv ≠ none } s t))
    ∧ (s.dmaMayEnd e desc o = true → s.dmaInSpd e = false → d.bad = false → d.ctl.getLsbD 0 = true → d.ctl.getLsbD 1 = false → 2 ^ 44 ≤ d.src →
        s.devReach (1 + e) d.src d.len false = d.len → o.data.double = false → Answers (.dmaDescriptorDone e desc data false moved o) s (fun t =>
          ended 0 t ∧ t.host.toHost = s.spdBytes (d.src - 2 ^ 44) d.len ++ word 0 d.len ∧ t.host.toHostEp = false
            ∧ t.fld Reg.spdEcc 0 16 = min (s.fld Reg.spdEcc 0 16 + o.data.singles) 65535
            ∧ Only { mine with reg := fun a => mine.reg a ∨ a = Reg.spdEcc } s t))
    ∧ (s.dmaMayEnd e desc o = true → s.dmaInSpd e = false → d.bad = false → d.ctl.getLsbD 0 = true → d.ctl.getLsbD 1 = false → 2 ^ 44 ≤ d.src →
        s.devReach (1 + e) d.src d.len false = d.len → o.data.double = true → Answers (.dmaDescriptorDone e desc data false moved o) s (fun t =>
          ended 1 t ∧ t.host.toHost = flipBytes o.data (s.spdBytes (d.src - 2 ^ 44) d.len) ++ word 1 d.len ∧ t.host.toHostEp = true
            ∧ t.bit Reg.spdEvt 1 = true
            ∧ t.dmaState e = (if d.ctl.getLsbD 4 then dmaError else if st = dmaStopping then dmaStopped else st)
            ∧ Only { mine with reg := fun a => mine.reg a ∨ a = Reg.spdEvt ∨ a = Reg.spdEcc } s t))
    ∧ (s.dmaBusy e = true → s.fld (Reg.glbDmaTmo e) 0 16 ≠ 0 → s.dmaInSpd e = false → d.bad = false → d.ctl.getLsbD 0 = false → d.ctl.getLsbD 1 = true →
        2 ^ 44 ≤ d.dst → moved ≤ data.length → moved ≤ s.devReach (1 + e) d.dst d.len true → moved ≤ d.len → Answers (.dmaTimeout e desc data moved) s (fun t =>
          ended 3 t ∧ t.bit Reg.nocEvt 4 = true ∧ t.spdBytes (d.dst - 2 ^ 44) moved = data.take moved ∧ t.host.toHost = word 3 moved))

/-- R16, R366, R370, R371, R373, R377, R380: a packet counts for its requester, and one that asks for it reserves the row of its address, or releases
it; a CRC failure is corrected by sending again and counted, a second one is an error, and the write it loses counts in the key window all the same; a malformed
packet isolates its requester, whose leases are revoked. A snapshot of the statistics starts the counters again. An end of interrupt sends the
message again while its sources pend. It rests on the readings and choices of log entries 13, 14, 28 and 35. -/
def Obligations.Network : Prop := ∀ (req i : Requester) (fails : Fin 3) (ask : NocAsk) (enable funcMask : Bool) (conf : Option PciConf) (bytes latency : Nat) (v : BitVec 6) (mask : BitVec 64) (s : State),
  let key : Nat → Prop := fun r => r = req.toNat
  let keyed : Bool := decide (0 < s.keyLeft req.toNat)
  let live := s.getLive req.toNat
  let isolated (t : State) (j : Nat) : Prop := t.bit Reg.nocIsoStat j = true ∧ t.bit Reg.nocEvt 3 = true ∧ (∀ l, (t.lockHolder l) ≠ some j)
    ∧ (∀ u r, (t.getVault u).reserve ≠ some (j, r))
  (s.reaches req = true → (fails.val = 2 ∨ ask = .read ∨ ask = .write ∨ ask = .other) → Answers (.nocPacket req fails false ask bytes latency) s (fun t =>
      t.getLive req.toNat = live.count bytes latency
        ∧ t.fld Reg.nocCrcCnt 0 32 = (if fails.val = 0 then s.fld Reg.nocCrcCnt 0 32 else min (s.fld Reg.nocCrcCnt 0 32 + 1) (2 ^ 32 - 1))
        ∧ (1 ≤ fails.val → t.bit Reg.nocEvt 0 = true) ∧ (fails.val = 2 → t.bit Reg.nocEvt 1 = true ∧ (ask = .read → t.cpl.status = .ca))
        ∧ Only { reg := fun a => a = Reg.nocEvt ∨ a = Reg.nocCrcCnt ∨ a = Reg.safEvtCnt, queue := fun q => q = Reg.safEvtLog, host := True
                 cpl := fails.val = 2 ∧ ask = .read, key := fun r => fails.val = 2 ∧ r = req.toNat } s t
        ∧ (fails.val = 2 → t.keyLeft req.toNat = s.keyLeft req.toNat - (if ask = .write ∨ req = 3 then 1 else 0))))
    ∧ (∀ a attr v row, s.reaches req = true → fails.val < 2 → ask = .service a attr → s.locate a.toNat = (v, row) →
        Answers (.nocPacket req fails false ask bytes latency) s (fun t => t.getLive req.toNat = live.count bytes latency
          ∧ (t.getVault v).reserve = (if attr = 1 ∧ s.rowRefused v row = none ∧ s.bufferHeld v req.toNat = false then some (req.toNat, row)
              else if attr = 2 ∧ ((s.getVault v).reserve.any fun h => h.1 == req.toNat) = true then none else (s.getVault v).reserve)
          ∧ Only { reg := fun b => b = Reg.nocEvt ∨ b = Reg.nocCrcCnt, host := True, vault := fun u => u = v } s t))
    ∧ (s.reaches req = true → req ≠ 0 → (s.host.locks.map Prod.fst).Nodup → (s.vault.map Prod.fst).Nodup → Answers (.nocPacket req fails true ask bytes latency) s (fun t =>
        isolated t req.toNat ∧ t.bit Reg.nocEvt 2 = true))
    ∧ (s.reaches req = true → keyed = true → i ≠ 0 → (s.host.locks.map Prod.fst).Nodup → (s.vault.map Prod.fst).Nodup → Answers (.nocIsolate req i) s (fun t =>
        isolated t i.toNat ∧ (∀ j, j < 32 → j ≠ i.toNat → t.bit Reg.nocIsoStat j = s.bit Reg.nocIsoStat j)))
    ∧ (s.reaches req = true → keyed = true → Answers (.nocIsolate req 0) s (fun t => Only { key := key } s t))
    ∧ (s.reaches req = true → keyed = true → i ≠ 3 → Answers (.nocRelease req i) s (fun t => t.bit Reg.nocIsoStat i.toNat = false
        ∧ Only { reg := fun a => a = Reg.nocIsoStat, key := key } s t))
    ∧ (s.reaches req = true → keyed = true → Answers (.nocRelease req 3) s (fun t => Only { key := key } s t))
    ∧ (∀ c ∈ [Instr.nocIsolate req i, .nocRelease req i], s.reaches req = true → keyed = false → Answers c s (fun t =>
        t.bit Reg.glbKeyErr 31 = true ∧ Only { reg := fun r => r = Reg.glbKeyErr ∨ r = Reg.glbKeyCnt, key := key } s t))
    ∧ (s.reaches req = true → Answers (.nocStatSnap req) s (fun t =>
        (∀ j, j < 32 → t.rd64 (Reg.nocStat j 0) = (s.getLive j).bytes % 2 ^ 64 ∧ t.fld (Reg.nocStat j 2) 0 32 = (s.getLive j).packets % 2 ^ 32 ∧ t.getLive j = {})
          ∧ Only { reg := fun a => Reg.nocStat 0 0 ≤ a ∧ a < Reg.nocStat 32 0, host := True, key := key } s t))
    ∧ (s.reaches req = true → Answers (.irqEoi req v) s (fun t =>
        (s.irqOr v.toNat = true → v.toNat < 41 → s.host.linkUp = true → t.host.msgs = s.host.msgs ++ [v.toNat] ∨ t.host.pba.getLsbD v.toNat = true)
          ∧ (s.irqOr v.toNat = false → t.host.msgs = s.host.msgs ∧ t.host.pba = s.host.pba) ∧ Only { key := key } s t))
    ∧ (s.mode ≠ modeRESET → Answers (.msixEnable ⟨enable, funcMask⟩ mask conf) s (fun t =>
        t.host.msixEnable = enable ∧ t.host.msixFuncMask = funcMask ∧ t.host.msixMask = mask ∧ t.host.linkUp = true
          ∧ t.host.pci = (match conf with
              | some c => { s.host.pci with conf := c }
              | none => s.host.pci)
          ∧ (enable = true → funcMask = false → s.host.msixEnable = false → ∀ u, u < 41 → mask.getLsbD u = false → s.irqOr u = true → ∃ l, t.host.msgs = s.host.msgs ++ l ∧ u ∈ l)
          ∧ Only { host := True } s t))

/-! ### The control processor -/

/-- R42, R43, R45, R384, R387, R388, R391: the ROM starts, releases its interface and restarts the watchdogs; authentication ends in the valid slot
of higher version or in the recovery service; the firmware applies the board profile, starts the user code in user mode at its entry in the copied image (log entry 114), and runs. The services of flow extensions do their work for
user code and answer in a0 and a1, and a request outside its limits, or of a core whose interface is isolated, is answered with its status
and has no effect. The mailbox flags are set and cleared by writes. An access of the hart that its map does not allow raises an access
fault, a misaligned one its own exception, and user code reaches its part of the TCM and of the flash only (R382, R383).
It rests on the readings and choices of log entries 36, 37, 39 and 42 too. -/
def Obligations.ControlCore : Prop := ∀ (req : Requester) (a0 a1 a2 : Word) (x : WriteAux) (s : State),
  let status := Reg.cpuStatus
  let boot := Reg.glbStartup
  let mbox := Reg.cpuMboxStat
  let ret (v b : Word) (t : State) : Prop := t.cpl.status = .ok ∧ t.cpl.value = v ∧ t.cpl.bytes = leBytes 4 b.toNat
    ∧ t.cpu.hart.x = (s.cpu.hart.x.set 9 v).set 10 b ∧ t.cpu.hart.user = true ∧ t.cpu.resv = none
  let quiet (c : Instr) (v b : Word) : Prop := Answers c s (fun t => ret v b t ∧ t.cpu.tcm = s.cpu.tcm ∧ Only { cpl := True, cpu := True } s t)
  let up : Prop := s.reaches 3 = true
  let n := sharedSeq a0.toNat
  let tcm (a : Word) : Nat := a.toNat - 0x10000000
  let part := userPart + a0.toNat
  let wide : Prop := a0.toNat % 4096 ≠ 0 ∨ a2.toNat % 4096 ≠ 0 ∨ 0x180000 < a0.toNat + a2.toNat ∨ s.userTcm a1 a2.toNat = false
  let key : Nat → Prop := fun r => r = req.toNat
  (s.coreMayStart = true → Answers .coreStart s (fun t => t.fwState = fwAuthenticating ∧ t.coreRuns = true ∧ t.bit Reg.nocIsoStat 3 = false
      ∧ t.cpu.cwdt = s.rd Reg.cpuCwdtCfg ∧ t.cpu.nmi = false ∧ t.cpu.tcm = s.cpu.tcm
      ∧ Only { reg := fun a => a = status ∨ a = Reg.nocIsoStat ∨ ∃ i, i < 16 ∧ a = Reg.cpuPatch i, cpu := True } s t))
    ∧ (s.coreMayStart = false → Answers .coreStart s (fun t => Only {} s t))
    ∧ (s.coreRuns = true → s.fwState = fwAuthenticating → Answers .fwAuthenticated s (fun t => t.mode ≠ modeRESET
        ∧ (∀ b v, s.bestSlot = some (b, v) →
          t.fwState = (if b then fwSlotB else fwSlotA) ∧ t.fld status 8 16 = v.toNat ∧ t.bit boot 4 = true ∧ t.bit boot 8 = false
            ∧ (s.mode ≠ modeRESET → Only { reg := fun a => a = status ∨ a = boot } s t)
            ∧ (s.mode = modeRESET → ∀ k p, k < 16 → p < 2 → t.planeRepaired k p = (s.planeRepaired k p || (s.loggedRepair k p).isSome))
            ∧ (s.mode = modeRESET → s.lowestLive = none → t.mode = modeLOAD ∧ t.fld Reg.glbEpoch 0 16 = min 65535 (s.fld Reg.glbEpoch 0 16 + 1) ∧ t.tsc = 0))
        ∧ (s.bestSlot = none → t.fwState = fwRecovery ∧ t.bit boot 8 = true ∧ t.fld boot 16 4 = 5
            ∧ (s.mode ≠ modeRESET → t.host.linkUp = true ∧ Only { reg := fun a => a = status ∨ a = boot, host := True } s t))))
    ∧ (s.coreRuns = true → s.fwRunning = false → (s.fwState = fwSlotA ∨ s.fwState = fwSlotB) → Answers .profileApplied s (fun t =>
        t.fwRunning = true ∧ t.bit boot 5 = true ∧ t.bit boot 6 = true ∧ t.host.linkUp = true ∧ t.mode = s.mode
          ∧ t.bit status 28 = s.boardProfile.isNone ∧ t.bit status 27 = t.cpu.user.isNone
          ∧ (∀ e, t.cpu.user = some e → t.cpu.hart.pc = 0x10040000#32 + e ∧ t.cpu.hart.user = true)
          ∧ (∀ b, s.boardProfile = some b → ∀ i, i < 128 → t.rd (Reg.lnkEqtab (i / 4) (i % 4)) = BitVec.ofNat 32 (leAt b (4 * i) 4))
          ∧ (s.boardProfile = none → ∀ w, w < 512 → t.bit (Reg.lnkCfg w) 6 = true)))
    ∧ (s.userRuns = true →
      (barOffset a0 = false → quiet (.regRead a0) a0 2 ∧ quiet (.regWrite a0 a1 x) a0 2)
        ∧ (barOffset a0 = true → ((0x400000 ≤ a0.toNat ∧ a0.toNat < 0x800000) ∨ a0.toNat = Reg.glbKey) → quiet (.regRead a0) a0 1)
        ∧ (barOffset a0 = true → ¬ (0x400000 ≤ a0.toNat ∧ a0.toNat < 0x800000) → a0.toNat ≠ Reg.glbKey → isQueue n = false → isLock n = false →
            isMemData n = false → isLo n = false → isHi n = false → rcBits n = 0 →
            (up → Answers (.regRead a0) s (fun t => ret (s.valueAt 3 n) 0 t ∧ t.keyLeft 3 = s.keyLeft 3 - 1
              ∧ Only { key := fun r => r = 3, cpl := True, cpu := True } s t)) ∧ (¬ up → quiet (.regRead a0) a0 3))
        ∧ (barOffset a0 = true → s.userMayWrite a0.toNat a1 = false → quiet (.regWrite a0 a1 x) a0 1)
        ∧ (barOffset a0 = true → s.userMayWrite a0.toNat a1 = true → ¬ up → quiet (.regWrite a0 a1 x) a0 3)
        ∧ (∀ r c, up → barOffset a0 = true → s.userMayWrite a0.toNat a1 = true → isLo n = false → isHi n = false → regInfo n = some r → r.prot = 0 →
            n ∈ (commitGroups c).flatten → Answers (.regWrite a0 a1 x) s (fun t =>
              ret a0 0 t ∧ t.rd n = r.store (s.rd n) a1 ∧ Only { reg := fun b => b = n, key := fun r => r = 3, cpl := True, cpu := True } s t))
        ∧ (s.bit mbox 1 = true → quiet (.mboxSend a0) a0 1)
        ∧ (s.bit mbox 1 = false → s.userTcm a0 32 = false → quiet (.mboxSend a0) a0 2)
        ∧ (s.bit mbox 1 = false → s.userTcm a0 32 = true → ¬ up → quiet (.mboxSend a0) a0 3)
        ∧ (s.bit mbox 1 = false → s.userTcm a0 32 = true → up → Answers (.mboxSend a0) s (fun t => ret a0 0 t ∧ t.bit mbox 1 = true ∧ t.bit mbox 0 = s.bit mbox 0
            ∧ (∀ i, i < 8 → t.rd (Reg.cpuMboxOut i) = BitVec.ofNat 32 (leAt (s.tcmBytes (tcm a0) 32) (4 * i) 4))
            ∧ Only { reg := fun a => a = mbox ∨ ∃ i, i < 8 ∧ a = Reg.cpuMboxOut i, cpl := True, cpu := True } s t))
        ∧ (s.userTcm a0 32 = false → quiet (.mboxRecv a0) a0 2)
        ∧ (s.userTcm a0 32 = true → ¬ up → quiet (.mboxRecv a0) a0 3)
        ∧ (s.userTcm a0 32 = true → up → s.bit mbox 0 = false → quiet (.mboxRecv a0) 0 0)
        ∧ (s.userTcm a0 32 = true → up → s.bit mbox 0 = true → Answers (.mboxRecv a0) s (fun t => ret 1 0 t ∧ t.bit mbox 0 = false ∧ t.bit mbox 1 = s.bit mbox 1
            ∧ t.tcmBytes (tcm a0) 32 = (List.range 8).flatMap (fun i => leBytes 4 (s.rd (Reg.cpuMboxIn i)).toNat)
            ∧ Only { reg := fun a => a = mbox, cpu := True, cpl := True } s t))
        ∧ (wide → ∀ fail, quiet (.flashUser a0 a1 a2 fail) a0 2)
        ∧ (¬ wide → Answers (.flashUser a0 a1 a2 none) s (fun t => ret a0 0 t ∧ t.flashBytes part a2.toNat = s.tcmBytes (tcm a1) a2.toNat
            ∧ Only { flash := fun a => part ≤ a ∧ a < part + a2.toNat, cpl := True, cpu := True } s t))
        ∧ (∀ page, ¬ wide → a2 ≠ 0 → Answers (.flashUser a0 a1 a2 (some page)) s (fun t => ret a0 3 t
            ∧ (256 * page < a2.toNat → t.flashBytes part (256 * page) = s.tcmBytes (tcm a1) (256 * page))
            ∧ Only { flash := fun a => part ≤ a ∧ a < part + a2.toNat, free := True, cpl := True, cpu := True } s t))
        ∧ quiet .readTsc (s.tsc.setWidth 32) ((s.tsc >>> 32).setWidth 32))
    ∧ (s.userRuns = false → ∀ fail, ∀ c ∈ [Instr.regRead a0, .regWrite a0 a1 x, .mboxSend a0, .mboxRecv a0, .flashUser a0 a1 a2 fail, .readTsc],
        Answers c s (fun t => Only {} s t))
    ∧ (s.reaches req = true → Answers (.mboxInFull req) s (fun t => t.bit mbox 0 = true ∧ t.bit mbox 1 = s.bit mbox 1
          ∧ Only { reg := fun a => a = mbox, key := key } s t)
        ∧ Answers (.mboxOutClear req) s (fun t => t.bit mbox 1 = false ∧ t.bit mbox 0 = s.bit mbox 0 ∧ Only { reg := fun a => a = mbox, key := key } s t))
    ∧ (∀ user use, (a0.toNat % 4 ≠ 0 → use ≠ .fetch → s.coreTrap user use a0.toNat 4 = some .misaligned)
        ∧ (a0.toNat % 4 = 0 → 0x80000000 ≤ a0.toNat →
            s.coreMap a0.toNat 4 = some (.dram (s.fld Reg.cpuDwin 0 10 * 2 ^ 31 + (a0.toNat - 0x80000000)))
              ∧ (s.coreTrap user use a0.toNat 4 = none ↔ user = false ∧ (use = .load ∨ use = .store)))
        ∧ (a0.toNat % 4 = 0 → 0x10000000 ≤ a0.toNat → a0.toNat < 0x10080000 →
            (s.coreTrap user use a0.toNat 4 = none ↔ user = false ∨ 0x10040000 ≤ a0.toNat))
        ∧ (a0.toNat % 4 = 0 → 0x20000000 ≤ a0.toNat → a0.toNat < 0x20400000 → (s.coreTrap user use a0.toNat 4 = none ↔
            (use = .load ∨ use = .fetch) ∧ (user = false ∨ 0x20280000 ≤ a0.toNat)))
        ∧ (a0.toNat % 4 = 0 → 0x64000000 ≤ a0.toNat → a0.toNat < 0x80000000 → s.coreTrap user use a0.toNat 4 = some .accessFault))

/-- R383, R385, R389, R390, R414: a flash command outside the key window is refused as a protected write; one that cannot be taken answers with its status; one
taken is busy until it completes, with its effect on the flash and its status. An image or a key-table update goes in only with the signature of
a firmware key; a revocation is never undone; the pages before one whose programming fails hold their data. Staged words are delivered, counted
and reported as the scratchpad's checks find them (R374), and an isolated core reaches none of them (R380). User code is entered where log
entry 114 says. It rests on the readings and choices of log entries 38, 40, 41, 94 and 95. -/
def Obligations.FlashCommands : Prop := ∀ (req : Requester) (fail : Option Nat) (o : SpdObs) (j : FwJob) (s : State),
  let a := Reg.cpuFwcmd
  let off := (s.rd (Reg.cpuFwarg 0)).toNat
  let len := (s.rd (Reg.cpuFwarg 1)).toNat
  let part := (s.rd (Reg.cpuFwarg 2)).toNat
  let key : Nat → Prop := fun r => r = req.toNat
  let keyed : Bool := decide (0 < s.keyLeft req.toNat)
  let status (t : State) : Nat := t.fld a 28 3
  let cmds : List (Instr × Nat) := [(.fwUpdate req, 1), (.profileWrite req, 2), (.keyUpdate req, 3), (.userWrite req, 4), (.logRead req, 5), (.recover req, 6),
    (.userRestart req, 7), (.signEnforce req, 8)]
  let staged := flipBytes o (s.spdBytes j.off j.len)
  let verified : Prop := ∃ v message signature, Config.firmwareImage staged = some (v, message, signature) ∧ s.firmwareSigned message signature = true
  let signed : Prop := j.cmd = 1 ∨ j.cmd = 6
  let goes : Prop := j.cmd = 2 ∨ j.cmd = 4 ∨ (signed ∧ verified)
  let dest := match j.cmd with
    | 1 => slotBase (s.fwState != fwSlotB)
    | 2 => 0x220000
    | 4 => userPart + j.part
    | _ => 0
  let done (code : Nat) (t : State) : Prop := status t = code ∧ t.bit a 31 = false ∧ t.cpu.job = none
  let ready : Prop := s.coreRuns = true ∧ s.inMonitor = false ∧ s.cpu.job = some j
  let range (r : Nat) : Prop := dest ≤ r ∧ r < dest + j.len
  let sectors (r : Nat) : Prop := dest / 256 * 256 ≤ r ∧ r < (dest + j.len + 4095) / 4096 * 4096
  let entry (i : Nat) : Nat := keyTable + 128 * i
  let keys : May := { reg := fun r => r = a ∨ r = Reg.spdEvt ∨ r = Reg.spdEcc, cpu := True }
  let checked (t : State) : Prop := t.fld Reg.spdEcc 0 16 = min (s.fld Reg.spdEcc 0 16 + o.singles) 65535
    ∧ t.bit Reg.spdEvt 1 = (s.bit Reg.spdEvt 1 || o.double)
  let update (e : List Byte ⊕ Nat) : Prop :=
    ∃ message signature, Config.keyRecord staged = some (e, message, signature) ∧ s.firmwareSigned message signature = true
  let unsigned : Prop := ∀ e message signature, Config.keyRecord staged = some (e, message, signature) → s.firmwareSigned message signature = false
  let refused (e : List Byte) : Prop := keyEntryOk e = false ∨ s.keyKnown (leAt e 0 2) = true ∨ s.freeKey = none
  let stays (t : State) : Prop := done 3 t ∧ Only keys s t
  let revoked (id i : Nat) : Prop := i < 16 ∧ s.keyHeld i = true ∧ leAt (s.keyEntry i) 0 2 = id
  let may : Prop := ready ∧ s.reaches 3 = true ∧ s.spdMay 3 j.off j.len false = true
  (∀ p ∈ cmds, s.reaches req = true →
      (keyed = false → Answers p.1 s (fun t => t.bit Reg.glbKeyErr 31 = true ∧ Only { reg := fun r => r = Reg.glbKeyErr ∨ r = Reg.glbKeyCnt, key := key } s t))
        ∧ (∀ c, keyed = true → s.fwRefused p.2 = some c → Answers p.1 s (fun t => status t = c ∧ t.bit a 31 = s.bit a 31
            ∧ Only { reg := fun r => r = a, key := key } s t))
        ∧ (keyed = true → s.fwRefused p.2 = none → fwRangeBad p.2 off len part = true → Answers p.1 s (fun t => status t = 5 ∧ t.bit a 31 = s.bit a 31
            ∧ Only { reg := fun r => r = a, key := key } s t))
        ∧ (keyed = true → s.fwRefused p.2 = none → fwRangeBad p.2 off len part = false → Answers p.1 s (fun t => status t = 0 ∧ t.bit a 31 = true
            ∧ t.cpu = { s.cpu with job := some { cmd := p.2, off := off, len := len, part := part } }
            ∧ Only { reg := fun r => r = a, key := key, cpu := True } s t)))
    ∧ (may → (j.cmd = 2 ∨ j.cmd = 4 ∨ signed) → Answers (.fwcmdDone ⟨none, o⟩) s (fun t =>
        checked t ∧ (goes → done 1 t ∧ t.flashBytes dest j.len = staged ∧ Only { keys with flash := range, aon := signed } s t)
          ∧ (¬ goes → stays t)))
    ∧ (∀ page, may → (j.cmd = 2 ∨ j.cmd = 4 ∨ signed) → 0 < j.len → Answers (.fwcmdDone ⟨some page, o⟩) s (fun t =>
        (goes → done 4 t ∧ (dest % 256 = 0 → 256 * page < j.len → t.flashBytes dest (256 * page) = staged.take (256 * page))
            ∧ Only { keys with flash := sectors, free := True } s t)
          ∧ (¬ goes → stays t)))
    ∧ (may → j.cmd = 3 → Answers (.fwcmdDone ⟨fail, o⟩) s (fun t => checked t ∧ (unsigned → stays t) ∧ (∀ e, update (.inl e) → refused e → stays t)
        ∧ (∀ e i, update (.inl e) → ¬ refused e → s.freeKey = some i → fail = none → done 1 t ∧ t.flashBytes (entry i) 128 = e
          ∧ Only { keys with flash := fun r => entry i ≤ r ∧ r < entry i + 128 } s t)
        ∧ (∀ e i, update (.inl e) → ¬ refused e → s.freeKey = some i → fail ≠ none → done 4 t
          ∧ Only { keys with flash := fun r => entry i ≤ r ∧ r < entry i + 128, free := True } s t)
        ∧ (∀ id, update (.inr id) → fail = none → done 1 t ∧ (∀ i, revoked id i → ((t.keyEntry i).getD 2 0).getLsbD 1 = true)
          ∧ Only { keys with flash := fun r => ∃ i, revoked id i ∧ r = entry i + 2 } s t)
        ∧ (∀ id, update (.inr id) → fail ≠ none → done 4 t ∧ Only { keys with flash := fun r => ∃ i, revoked id i ∧ r = entry i + 2, free := True } s t)))
    ∧ (ready → 1 ≤ j.cmd → j.cmd ≤ 6 → s.reaches 3 = false → Answers (.fwcmdDone ⟨fail, o⟩) s (fun t => done 5 t
        ∧ Only { reg := fun r => r = a, cpu := True } s t))
    ∧ (ready → 1 ≤ j.cmd → j.cmd ≤ 6 → j.cmd ≠ 5 → s.reaches 3 = true → s.spdMay 3 j.off j.len false = false → Answers (.fwcmdDone ⟨fail, o⟩) s (fun t => done 5 t ∧ t.bit Reg.spdEvt 0 = true
        ∧ Only { reg := fun r => r = a ∨ r = Reg.spdEvt, queue := fun q => q = Reg.spdErrLog, cpu := True } s t))
    ∧ (ready → j.cmd = 5 → s.reaches 3 = true → s.spdMay 3 j.off (min j.len 0x40000) true = true → Answers (.fwcmdDone ⟨fail, o⟩) s (fun t => done 1 t
        ∧ t.spdBytes j.off (min j.len 0x40000) = s.coreFlash 0x230000 (min j.len 0x40000)
        ∧ Only { reg := fun r => r = a, spd := fun r => j.off ≤ r ∧ r < j.off + j.len, cpu := True } s t))
    ∧ (ready → j.cmd = 7 → Answers (.fwcmdDone ⟨fail, o⟩) s (fun t => done 1 t ∧ t.bit Reg.cpuStatus 27 = t.cpu.user.isNone
        ∧ (∀ e, t.cpu.user = some e → t.cpu.hart = { s.cpu.hart with pc := 0x10040000#32 + e, user := true })
        ∧ Only { reg := fun r => r = a ∨ r = Reg.cpuStatus, cpu := True } s t))
    ∧ (ready → j.cmd = 8 → Answers (.fwcmdDone ⟨none, o⟩) s (fun t => done 1 t ∧ t.bit Reg.glbVariant 4 = true ∧ t.bit Reg.cfgSig 31 = true
        ∧ Only { reg := fun r => r = a ∨ r = Reg.glbVariant ∨ r = Reg.cfgSig, cpu := True } s t))
    ∧ (∀ page, ready → j.cmd = 8 → Answers (.fwcmdDone ⟨some page, o⟩) s (fun t => done 4 t ∧ Only { reg := fun r => r = a, cpu := True } s t))
    ∧ (ready → s.host.linkUp = true → Answers (.fwcmdDone ⟨fail, o⟩) s (fun t => 40 ∈ t.host.msgs ∨ t.host.pba.getLsbD 40 = true))
    ∧ (s.cpu.job = none → Answers (.fwcmdDone ⟨fail, o⟩) s (fun t => Only {} s t))

/-- R392 to R398, R411, R413: a service of the core watchdog restarts it; its expiry, or one of the safety watchdog, or a wrong service of the latter, resets the
core and isolates its interface, and the mode and the lanes go on. Halt, force, resume and step act on the monitor, and masking the safety watchdog
takes the device to SAFE, with a cause that only the write of mask_swdt = 0 ends. The monitor is entered when forced, or once the hart's key window is closed, in which each of its instructions counts (R16, log entry 9); until
then deferred shows. A resumed
program goes on with what the debugger has written. It rests on the readings and choices of log entries 43, 44 and 45 too. -/
def Obligations.WatchdogsAndMonitor : Prop := ∀ (req : Requester) (mask : Bool) (v : BitVec 16) (pc : Word) (gprs : List Word) (csrs : List (BitVec 12 × Word))
    (instrs : Nat) (s : State),
  let stat := Reg.cpuDbgStat
  let chal := Reg.cpuSwdtChal
  let key : Nat → Prop := fun r => r = req.toNat
  let keyed : Bool := decide (0 < s.keyLeft req.toNat)
  let down (safety : Bool) (t : State) : Prop := t.fwState = fwInReset ∧ t.coreRuns = false ∧ t.fwRunning = false ∧ t.bit Reg.nocIsoStat 3 = true
    ∧ t.bit Reg.glbResetCause (if safety then 5 else 6) = true ∧ t.fld Reg.cpuStatus 0 8 = min 255 (s.fld Reg.cpuStatus 0 8 + 1)
    ∧ t.cpu = { cwdt := s.cpu.cwdt } ∧ t.keyLeft 3 = 0 ∧ t.mode = s.mode ∧ (s.cpu.job = none → t.flash = s.flash) ∧ (∀ a ∈ monitorRegs, t.rd a = 0)
    ∧ (∀ k, k < 16 → t.seqState k = s.seqState k ∧ t.siteState k = s.siteState k ∧ (s.seqRuns k = true → (s.getSite k).window = true → t.bit (Reg.glbIntegHi k) 0 = true))
    ∧ (∀ l, t.getLane l = s.getLane l)
  let right : Prop := s.cpu.nmi = true ∧ v.toNat = 65535 - s.fld chal 0 16
  let same : Prop := mask = s.swdtMasked ∧ (mask = false → s.bit Reg.glbMode 12 = false)
  let cmds : List Instr := [.dbgHalt req mask, .dbgForce req mask, .dbgResume req mask, .dbgStep req mask, if mask then .maskSwdt req else .unmaskSwdt req]
  let mine : May := { reg := fun a => a = stat, cpu := True, key := key }
  let resumed (t : State) : Prop := t.inMonitor = false ∧ t.bit stat 2 = false ∧ (∀ a ∈ monitorRegs, t.rd a = 0) ∧ t.cpu.csr = []
    ∧ t.cpu.hart = { s.cpu.hart with pc := s.rd Reg.cpuDbgPc, x := (List.range 31).map (fun i => s.rd (Reg.cpuDbgGpr i)), csr := s.cpu.csr }
    ∧ t.cpu.cwdt = (if s.cpu.cwdt.getLsbD 16 then s.rd Reg.cpuCwdtCfg else s.cpu.cwdt)
    ∧ Only { mine with reg := fun a => a = stat ∨ a ∈ monitorRegs } s t
  let halting (t : State) : Prop := t.cpu.haltReq = true ∧ t.bit stat 3 = false ∧ (t.valueAt req stat).getLsbD 1 = decide (0 < t.keyLeft 3)
  let force := s.cpu.forceReq
  let entered : Cpu := { s.cpu with
    resv := none, haltReq := false, forceReq := false, csr := []
    hart := { s.cpu.hart with pc := pc, x := (List.range 31).map (fun i => gprs.getD i 0), csr := [] } }
  let enters : Prop := s.coreRuns = true ∧ s.inMonitor = false ∧ (force = true ∨ (s.cpu.haltReq = true ∧ s.keyLeft 3 ≤ instrs))
  (s.reaches req = true → Answers (.cwdtService req) s (fun t => t.cpu = { s.cpu with cwdt := s.rd Reg.cpuCwdtCfg } ∧ Only { cpu := True, key := key } s t))
    ∧ (s.cwdtCounts = true → Answers .coreWatchdogExpiry s (down false))
    ∧ (s.cwdtCounts = false → Answers .coreWatchdogExpiry s (fun t => Only {} s t))
    ∧ (s.swdtCounts = true → Answers .swdtServiceIrq s (fun t => t.cpu = { s.cpu with nmi := true } ∧ Only { cpu := True } s t))
    ∧ (s.swdtCounts = true → Answers .safetyWatchdogExpiry s (down true))
    ∧ (s.swdtCounts = false → Answers .safetyWatchdogExpiry s (fun t => Only {} s t))
    ∧ (s.reaches 3 = true → s.swdtCounts = true → right → Answers (.swdtService 3 v) s (fun t => t.cpu = { s.cpu with nmi := false } ∧ t.fld chal 0 16 ≠ s.fld chal 0 16
        ∧ Only { reg := fun a => a = chal, key := fun r => r = 3, cpu := True, free := True } s t))
    ∧ (s.reaches 3 = true → s.swdtCounts = true → ¬ right → Answers (.swdtService 3 v) s (down true))
    ∧ (s.reaches req = true → (req ≠ 3 ∨ s.swdtCounts = false) → Answers (.swdtService req v) s (fun t => Only { key := key } s t))
    ∧ (s.reaches req = true → keyed = false → ∀ c ∈ cmds, Answers c s (fun t => t.bit Reg.glbKeyErr 31 = true
        ∧ Only { reg := fun r => r = Reg.glbKeyErr ∨ r = Reg.glbKeyCnt, key := key } s t))
    ∧ (s.reaches req = true → keyed = true → ∀ c ∈ cmds, Answers c s (fun t => t.swdtMasked = mask
        ∧ (mask = true → s.swdtMasked = false → t.mode = modeSAFE ∧ t.bit Reg.glbMode 12 = true) ∧ (mask = false → t.bit Reg.glbMode 12 = false)))
    ∧ (s.reaches req = true → keyed = true → same → ∀ c ∈ [Instr.maskSwdt req, .unmaskSwdt req], c ∈ cmds → Answers c s (fun t => Only { key := key } s t))
    ∧ (s.reaches req = true → keyed = true → same → s.inMonitor = false →
        Answers (.dbgHalt req mask) s (fun t => halting t ∧ Only mine s t)
          ∧ Answers (.dbgForce req mask) s (fun t => t.cpu = { s.cpu with forceReq := true } ∧ Only { cpu := True, key := key } s t)
          ∧ Answers (.dbgResume req mask) s (fun t => Only { key := key } s t) ∧ Answers (.dbgStep req mask) s (fun t => Only { key := key } s t))
    ∧ (s.reaches req = true → keyed = true → same → s.inMonitor = true →
        Answers (.dbgResume req mask) s resumed ∧ Answers (.dbgStep req mask) s (fun t => resumed t ∧ halting t)
          ∧ Answers (.dbgHalt req mask) s (fun t => Only { key := key } s t) ∧ Answers (.dbgForce req mask) s (fun t => Only { key := key } s t))
    ∧ (enters → csrs = [] → Answers (.monitorEntry ⟨pc, instrs⟩ gprs csrs) s (fun t => t.inMonitor = true ∧ t.bit stat 2 = force ∧ t.rd Reg.cpuDbgPc = pc
        ∧ (∀ i, i < 31 → t.rd (Reg.cpuDbgGpr i) = gprs.getD i 0) ∧ t.cpu = entered
        ∧ t.keyLeft 3 = 0
        ∧ Only { reg := fun a => a = stat ∨ a ∈ monitorRegs, cpu := True, key := fun r => r = 3, host := instrs < s.keyLeft 3 } s t))
    ∧ (enters → ∀ n w, csrs = [(n, w)] → Answers (.monitorEntry ⟨pc, instrs⟩ gprs csrs) s (fun t => t.cpu.csr = (if w = 0 then [] else [(n.toNat, w)]) ∧ t.cpu.hart.csr = t.cpu.csr))
    ∧ (s.coreRuns = true → s.inMonitor = false → ¬ enters → Answers (.monitorEntry ⟨pc, instrs⟩ gprs csrs) s (fun t =>
        t.keyLeft 3 = s.keyLeft 3 - instrs ∧ Only { key := fun r => r = 3 } s t))
    ∧ ((s.coreRuns = false ∨ s.inMonitor = true) → Answers (.monitorEntry ⟨pc, instrs⟩ gprs csrs) s (fun t => Only {} s t))

/-! ### Glint, Exposure, SMBus -/

/-- R399 to R403, R484: a pulse of 3.5 to 36 µs starts a Glint frame, unless a frame is in progress and it is short enough for a slot (log
entry 115); a longer pulse or a long gap ends one. A request in a frame, of slots that fit the line rules and carry its bits and CRC, ends it
with a response, which the device drives bit by bit: a status, data for reads, and their CRC. A request with a wrong CRC,
with the base in reset, of a locked port, or with a bad address is refused and changes nothing; otherwise the debug master reads or writes the
registers, the scratchpad, the stacked DRAM or the core's memories, with the rights of requester 4; its reads are peeks, and the TCM it reaches
while isolated too. An access that cannot go on yet waits, and its frame with it. It rests on the readings and choices of log entries 46, 47 and 48. -/
def Obligations.GlintFrames : Prop := ∀ (w gap : Nat) (a : BitVec 48) (v : Word) (op crc : BitVec 8) (slots : List GlintSlot) (e : Ecc) (flip : Word)
    (x : WriteAux) (s : State),
  let g := s.glint
  let on : Prop := s.glintOn = true
  let listens (bits : List Bool) : Prop := on ∧ g.inFrame = true ∧ slots.all (fun y => slotFits y g.unit) = true
    ∧ slots.map (fun y => decide (y.low ≤ 2 * g.unit)) = bits ++ bitsOf crc.toNat 0 8
  let mine : May := { glint := True }
  let left : List GlintReq := g.waiting.map (fun q => { q with mine := false })
  let reply (st : Nat) (d : Option Word) (t : State) : Prop :=
    let l := bitsOf st 0 8 ++ (d.map (fun y => bitsOf y.toNat 0 32)).getD []
    t.glint.inFrame = false ∧ t.glint.status = BitVec.ofNat 8 st ∧ t.glint.data = d ∧ t.glint.crc = BitVec.ofNat 8 (crc8 l)
      ∧ t.glint.lows = (false :: l ++ bitsOf (crc8 l) 0 8).map (fun b => if b then g.unit else 3 * g.unit)
  let reads : List (Instr × BitVec 48 × List Bool) := [(.glintRead32 a ⟨crc, slots⟩ e flip, a, glintBits 1 (some a) none),
    (.glintReadNext ⟨crc, slots⟩ e flip, g.prev + 4, glintBits 3 none none)]
  let writes : List (Instr × BitVec 48 × List Bool) := [(.glintWrite32 a v ⟨crc, slots⟩ x, a, glintBits 2 (some a) (some v)),
    (.glintWriteNext v ⟨crc, slots⟩ x, g.prev + 4, glintBits 4 none (some v))]
  let start : Prop := 3500 ≤ w ∧ w ≤ 36000
  let live : Prop := g.inFrame = true ∧ gap ≤ 64 * g.unit
  let slot : Prop := live ∧ w ≤ 6 * g.unit
  let keyed : Bool := decide (0 < s.keyLeft 4)
  let key : Nat → Prop := fun r => r = 4
  let idle (m : Nat) : Prop := s.reloadsIn (s.vaultsOf m 4) = [] ∧ ∀ k, k < 16 → s.siteWaits k (s.vaultsOf m 4) = false
  let row (m : Nat) : Nat × Nat := s.locate m
  let svc (m : Nat) : Svc := (s.getVault (row m).1).svc
  let held (m : Nat) : Prop := idle m ∧ s.rowRefused (row m).1 (row m).2 = none ∧ s.bufferHeld (row m).1 4 = false ∧ (svc m).row = some (row m).2
    ∧ (svc m).data.length = 2048
  (on → ¬ slot → start → Answers (.glintSync ⟨gap, w⟩) s (fun t => t.glint = { g with inFrame := true, unit := w / 16, waiting := left } ∧ Only mine s t))
    ∧ (on → ¬ slot → ¬ start → g.inFrame = true → Answers (.glintSync ⟨gap, w⟩) s (fun t => t.glint = { g with inFrame := false, waiting := left } ∧ Only mine s t))
    ∧ ((¬ on ∨ slot ∨ (¬ start ∧ g.inFrame = false)) → Answers (.glintSync ⟨gap, w⟩) s (fun t => Only {} s t))
    ∧ (Answers .glintFrameEnd s (fun t => t.glint = { g with inFrame := false, waiting := left } ∧ Only mine s t))
    ∧ (∀ p ∈ reads ++ writes, ¬ listens p.2.2 → Answers p.1 s (fun t => Only {} s t))
    ∧ (∀ p ∈ reads, listens p.2.2 →
      (∀ c, s.glintRefused true p.2.1.toNat p.2.2 crc = some c → Answers p.1 s (fun t => (∃ d, reply c (some d) t)
          ∧ t.glint.prev = (if c = 1 then g.prev else p.2.1) ∧ Only { mine with free := True } s t))
        ∧ (s.glintRefused true p.2.1.toNat p.2.2 crc = none → s.glintWaits p.2.1.toNat = true → Answers p.1 s (fun t =>
            t.glint = { g with prev := p.2.1, waiting := g.waiting ++ [{ addr := p.2.1, wr := none, mine := true }] } ∧ Only mine s t))
        ∧ (s.glintRefused true p.2.1.toNat p.2.2 crc = none → s.glintWaits p.2.1.toNat = false →
          let m := p.2.1.toNat % 2 ^ 41
          let space := p.2.1.toNat / 2 ^ 44
          let up : Prop := s.dbgReaches space m = true
          (¬ up → Answers p.1 s (fun t => (∃ d, reply 3 (some d) t) ∧ Only { mine with free := True } s t))
            ∧ (up → space = 0 → Answers p.1 s (fun t => reply 0 (some (s.valueAt 4 (sharedSeq (m % 2 ^ 26)))) t ∧ t.glint.prev = p.2.1
                ∧ Only mine s t))
            ∧ (up → space = 1 → s.spdMay 4 (m % 2 ^ 26) 4 false = true → Answers p.1 s (fun t =>
                let word := wordOf (s.spdBytes (m % 2 ^ 26) 4)
                (if e = .double then reply 4 (some (word ^^^ flip)) t else reply 0 (some word) t) ∧ t.glint.prev = p.2.1 ∧ Only mine s t))
            ∧ (up → space = 1 → s.spdMay 4 (m % 2 ^ 26) 4 false = false → Answers p.1 s (fun t => (∃ d, reply 3 (some d) t)
                ∧ Only { mine with free := True } s t))
            ∧ (up → space = 2 → held m → Answers p.1 s (fun t =>
                reply (if (svc m).poisoned then 4 else 0) (some (wordOf (((svc m).data.drop (m % 2048)).take 4))) t ∧ t.glint.prev = p.2.1
                  ∧ (t.getVault (row m).1).svc = svc m ∧ Only { mine with vault := fun u => u = (row m).1 } s t))
            ∧ (∀ b, up → space = 2 → idle m → s.rowRefused (row m).1 (row m).2 = some b → Answers p.1 s (fun t => (∃ d, reply 3 (some d) t)
                ∧ t.bit (Reg.vltEvt (row m).1) b = true
                ∧ Only { mine with reg := fun r => r = Reg.vltEvt (row m).1, vault := fun u => u = (row m).1, free := True } s t))
            ∧ (∀ l, up → space = 3 → s.coreBytes (m % 2 ^ 32) = some l → Answers p.1 s (fun t => reply 0 (some (wordOf l)) t ∧ t.glint.prev = p.2.1
                ∧ Only mine s t))
            ∧ (up → space = 3 → s.coreBytes (m % 2 ^ 32) = none → Answers p.1 s (fun t => (∃ d, reply 3 (some d) t)
                ∧ Only { mine with free := True } s t))))
    ∧ (∀ p ∈ writes, listens p.2.2 →
      (∀ c, s.glintRefused false p.2.1.toNat p.2.2 crc = some c → Answers p.1 s (fun t => reply c none t ∧ t.glint.prev = (if c = 1 then g.prev else p.2.1) ∧ Only mine s t))
        ∧ (s.glintRefused false p.2.1.toNat p.2.2 crc = none → s.glintWaits p.2.1.toNat = true → Answers p.1 s (fun t =>
            t.glint = { g with prev := p.2.1, waiting := g.waiting ++ [{ addr := p.2.1, wr := some (v, x), mine := true }] } ∧ Only mine s t))
        ∧ (s.glintRefused false p.2.1.toNat p.2.2 crc = none → s.glintWaits p.2.1.toNat = false →
          let m := p.2.1.toNat % 2 ^ 41
          let space := p.2.1.toNat / 2 ^ 44
          let n := sharedSeq (m % 2 ^ 26)
          let c := m % 2 ^ 32
          let up : Prop := s.dbgReaches space m = true
          (¬ up → Answers p.1 s (fun t => reply 3 none t ∧ Only mine s t))
            ∧ (∀ r q, up → space = 0 → isLo n = false → isHi n = false → regInfo n = some r → n ∈ (commitGroups q).flatten → r.prot = 0 →
                Answers p.1 s (fun t => reply 0 none t ∧ t.glint.prev = p.2.1 ∧ t.rd n = r.store (s.rd n) v
                  ∧ Only { mine with reg := fun b => b = n, key := key } s t))
            ∧ (∀ i j, up → space = 0 → i < 32 → j < 4 → n = Reg.lnkEqtab i j →
                (keyed = true → Answers p.1 s (fun t => reply 0 none t ∧ t.glint.prev = p.2.1 ∧ t.rd n = v ∧ Only { mine with reg := fun b => b = n, key := key } s t))
                  ∧ (keyed = false → Answers p.1 s (fun t => reply 7 none t ∧ t.bit Reg.glbKeyErr 31 = true
                    ∧ Only { mine with reg := fun b => b = Reg.glbKeyErr ∨ b = Reg.glbKeyCnt, key := key } s t)))
            ∧ (up → space = 1 → s.spdMay 4 (m % 2 ^ 26) 4 true = true → Answers p.1 s (fun t => reply 0 none t
                ∧ t.spdBytes (m % 2 ^ 26) 4 = leBytes 4 v.toNat
                ∧ Only { mine with spd := fun b => m % 2 ^ 26 ≤ b ∧ b < m % 2 ^ 26 + 4, key := key, cpu := s.cpu.resv ≠ none } s t))
            ∧ (up → space = 1 → s.spdMay 4 (m % 2 ^ 26) 4 true = false → Answers p.1 s (fun t => reply 3 none t ∧ t.bit Reg.spdEvt 0 = true
                ∧ Only { mine with reg := fun b => b = Reg.spdEvt, queue := fun q => q = Reg.spdErrLog, key := key } s t))
            ∧ (up → space = 2 → held m → Answers p.1 s (fun t => reply 0 none t
                ∧ (t.getVault (row m).1).svc.dirty = true
                ∧ (t.getVault (row m).1).svc.data = (svc m).data.take (m % 2048) ++ leBytes 4 v.toNat ++ (svc m).data.drop (m % 2048 + 4)
                ∧ Only { mine with vault := fun u => u = (row m).1, key := key } s t))
            ∧ (∀ b, up → space = 2 → idle m → s.rowRefused (row m).1 (row m).2 = some b → Answers p.1 s (fun t => reply 3 none t
                ∧ t.bit (Reg.vltEvt (row m).1) b = true
                ∧ Only { mine with reg := fun r => r = Reg.vltEvt (row m).1, vault := fun u => u = (row m).1, key := key } s t))
            ∧ (up → space = 3 → 0x10000000 ≤ c → c + 4 ≤ 0x10080000 → Answers p.1 s (fun t => reply 0 none t
                ∧ t.tcmBytes (c - 0x10000000) 4 = leBytes 4 v.toNat ∧ Only { mine with key := key, cpu := True } s t))
            ∧ (up → space = 3 → (c < 0x10000000 ∨ 0x10080000 < c + 4) → Answers p.1 s (fun t => reply 3 none t ∧ Only { mine with key := key } s t))))
    ∧ (let bits := glintBits op.toNat none none
      (listens bits → crc8 bits = crc.toNat → Answers (.glintStatus op ⟨crc, slots⟩) s (fun t =>
        (op = 5 → reply 0 (some s.glintWord) t) ∧ (op ≠ 5 → reply (if s.mode = modeRESET then 5 else if s.glintLock then 6 else 2) none t)
          ∧ t.glint.prev = g.prev ∧ Only mine s t))
        ∧ (listens bits → crc8 bits ≠ crc.toNat → Answers (.glintStatus op ⟨crc, slots⟩) s (fun t =>
          t.glint.inFrame = false ∧ t.glint.status = 1 ∧ t.glint.prev = g.prev ∧ Only { mine with free := True } s t))
        ∧ (¬ listens bits → Answers (.glintStatus op ⟨crc, slots⟩) s (fun t => Only {} s t)))

/-- R404 to R408, R415, R417, R488, R489: a snap exposes the named regions at the edge that ends the 16th fc after it; at an edge with a trigger the region's state is
captured into its latent copy, or the Exposure is missed; its development by the debug master writes the 514 rows of the record, the header, a
row of zeros and 128 bytes for each cell, and frees the copy, and ends its key window (log entry 103). The SMBus target reads and writes
registers at a pointer that moves on, and answers with a status, and a read with a packet error code behind it; a command with a wrong one has no
effect (its polynomial and order are PRESUMED: log entry 101).

What the Loupe pins show. A write of FAB_LOUPE_SEL selects a signal. A pin is off in class off, without VIO, without the bus and
during a full load; a clock is divided until it has at most 50 MHz; a constant, a cell bit or a signal of a sequencer that has held since before
the end of an hc shows from 40 ns after it. After every command the levels that the signals hold are noted, and an event of the command shows
for its hc, in stretch mode or not. Loupe changes nothing else. The place of the hc on the TSC is the model's reading (log entry 51).
It rests on the readings and choices of log entries 49 and 50 too. -/
def Obligations.ExposureAndSmbus : Prop := (∀ (req : Requester) (k : SiteIx) (e : Nat) (mask : BitVec 16) (v : Word) (code : Option (BitVec 8)) (s : State),
  let key : Nat → Prop := fun r => r = req.toNat
  let edge : Prop := s.fabRuns k = false ∨ (s.getFab k).now + 3 = e
  let expose : May := { site := fun j => j = k, expo := fun j => j = k }
  let spent (t : State) : Prop := (t.getExpo k).host = (s.getExpo k).host.filter (fun h => h != e) ∧ t.expTrigger k e = 0
  let on : Prop := s.smbOn = true
  let p := s.aon.smbPtr.toNat
  let aon : May := { aon := True }
  let got (st : Nat) (t : State) : Prop := t.cpl.status = .ok ∧ t.cpl.bytes.head? = some (BitVec.ofNat 8 st)
  let pec (cmd : Nat) (count : List Byte) (t : State) : Prop := t.cpl.bytes.getLast? = some (smbPec
    ([BitVec.ofNat 8 (2 * s.smbAddress), BitVec.ofNat 8 cmd, BitVec.ofNat 8 (2 * s.smbAddress + 1)] ++ count ++ t.cpl.bytes.dropLast))
  let right (cmd : Nat) : Prop := ∀ q, code = some q →
    q = smbPec ([BitVec.ofNat 8 (2 * s.smbAddress), BitVec.ofNat 8 cmd, 4#8] ++ leBytes 4 v.toNat)
  let place (b r : Nat) : Nat × Nat := let q := s.locate (b + 2048 * r)
    (q.1, s.rowLoc q.1 q.2)
  let told (st : Nat) (t : State) : Prop := t.aon.smbStatus = BitVec.ofNat 8 st
  (s.reaches req = true → Answers (.exposureSnap req mask) s (fun t =>
      (∀ j, j < 16 → (t.getExpo j).host = (s.getExpo j).host ++ (if mask.getLsbD j then [s.fc + 17] else []) ∧ (t.getExpo j).latent = (s.getExpo j).latent)
        ∧ Only { expo := fun j => j < 16 ∧ mask.getLsbD j = true, key := key } s t))
    ∧ ((¬ edge ∨ s.expTrigger k e = 0) → Answers (.exposureEdge k e) s (fun t => Only {} s t))
    ∧ (edge → s.expTrigger k e ≠ 0 → s.expRefused k = true → Answers (.exposureEdge k e) s (fun t =>
        t.fld (Reg.fabExpMiss k) 0 16 = min 65535 (s.fld (Reg.fabExpMiss k) 0 16 + 1) ∧ (t.getExpo k).latent = (s.getExpo k).latent ∧ spent t
          ∧ Only { expose with reg := fun a => a = Reg.fabExpMiss k } s t))
    ∧ (edge → s.expTrigger k e ≠ 0 → s.expRefused k = false → Answers (.exposureEdge k e) s (fun t =>
        (∃ l, (t.getExpo k).latent = some l ∧ l.base = s.devBase k ∧ l.header = s.expHeader k e (s.expTrigger k e) ∧ l.cells = (s.getFab k).atEdge
            ∧ l.wclk = s.wireClocked k)
          ∧ t.bit Reg.fabExpStat (16 + k) = true ∧ spent t ∧ Only { expose with reg := fun a => a = Reg.fabExpStat } s t))
    ∧ (∀ l, (s.getExpo k).latent = some l → s.reaches 4 = true → s.accessWaits 4 l.base recordLen = false → Answers (.developDone k) s (fun t =>
        (t.getExpo k).latent = none ∧ t.bit Reg.fabExpStat k = true ∧ t.bit Reg.fabExpStat (16 + k) = false ∧ t.keyLeft 4 = 0
          ∧ (s.reloadsIn (s.vaultsOf l.base recordLen) = [] → (∀ j, j < 16 → s.siteWaits j (s.vaultsOf l.base recordLen) = false) → l.header.length ≤ 2048 →
              (∀ r r', r < 514 → r' < 514 → place l.base r = place l.base r' → r = r') → ∀ r, r < 514 →
              let q := s.locate (l.base + 2048 * r)
              s.rowRefused q.1 q.2 = none → (s.getVault q.1).lost = none → ((s.colMap q.1 (q.2 % 128)).map Prod.snd).Nodup →
              t.rawRow q.1 q.2 0 2048 =
                if r = 0 then l.header ++ List.replicate (2048 - l.header.length) 0
                else if r = 1 then List.replicate 2048 0
                else (List.range 16).flatMap (fun j =>
                  let i := 16 * (r - 2) + j
                  let c := cellKey (i / 4096) (i % 64) (i / 64 % 64)
                  cellEntry (Sparse.get (fun _ => {}) l.cells c) (l.wclk.contains c)))
          ∧ Only (May.dramToo { reg := fun a => a = Reg.fabExpStat, expo := fun j => j = k, key := fun r => r = 4 }) s t))
    ∧ ((∀ l, (s.getExpo k).latent = some l → s.reaches 4 = false ∨ s.accessWaits 4 l.base recordLen = true) → Answers (.developDone k) s (fun t => Only {} s t))
    ∧ (on → (¬ right 1 → Answers (.smbSetAddr ⟨v, code⟩) s (fun t => Only {} s t)) ∧ (¬ right 3 → Answers (.smbWrite ⟨v, code⟩) s (fun t => Only {} s t)))
    ∧ (on → right 1 → Answers (.smbSetAddr ⟨v, code⟩) s (fun t => t.aon = { s.aon with smbPtr := v } ∧ Only aon s t))
    ∧ (∀ c ∈ [(Instr.smbRead, 4), (.smbRead64, 8)], on →
      (p % c.2 = 0 → smbReadable p = true → Answers c.1 s (fun t =>
          t.cpl.bytes.dropLast = (0 : Byte) :: (List.range (c.2 / 4)).flatMap (fun i => leBytes 4 (s.valueAt 0 (p + 4 * i)).toNat)
            ∧ pec (if c.2 = 4 then 2 else 4) [BitVec.ofNat 8 (c.2 + 1)] t
            ∧ t.aon = { s.aon with smbPtr := s.aon.smbPtr + BitVec.ofNat 32 c.2 } ∧ Only { aon with cpl := True } s t))
        ∧ ((p % c.2 ≠ 0 ∨ smbReadable p = false) → Answers c.1 s (fun t => got (if p % c.2 ≠ 0 then 3 else 1) t ∧ t.cpl.bytes.length = c.2 + 2
            ∧ pec (if c.2 = 4 then 2 else 4) [BitVec.ofNat 8 (c.2 + 1)] t ∧ Only { cpl := True, free := True } s t)))
    ∧ (∀ r, on → right 3 → p % 4 = 0 → smbReadable p = true → smbWritable p = true → commitAt p = none → isLo p = false → isHi p = false → regInfo p = some r →
        Answers (.smbWrite ⟨v, code⟩) s (fun t => told 0 t ∧ t.rd p = r.store (s.rd p) v ∧ t.aon.smbPtr = s.aon.smbPtr + 4
          ∧ Only { aon with reg := fun a => a = p } s t))
    ∧ (on → right 3 → (p % 4 ≠ 0 ∨ smbReadable p = false ∨ smbWritable p = false) → Answers (.smbWrite ⟨v, code⟩) s (fun t =>
        told (if p % 4 ≠ 0 then 3 else if smbReadable p = false then 1 else 2) t ∧ t.aon.smbPtr = s.aon.smbPtr ∧ Only aon s t))
    ∧ (on → Answers .smbStatus s (fun t => t.cpl.status = .ok ∧ t.cpl.bytes.dropLast = [s.aon.smbStatus] ∧ pec 5 [] t ∧ Only { cpl := True } s t))
    ∧ (on → s.alertAsserted = true → Answers .smbAlertResponse s (fun t => t.cpl.status = .ok ∧ t.cpl.value = BitVec.ofNat 32 s.smbAddress ∧ Only { cpl := True } s t))
    ∧ (on → s.alertAsserted = false → Answers .smbAlertResponse s (fun t => Only {} s t))
    ∧ (¬ on → ∀ c ∈ [Instr.smbSetAddr ⟨v, code⟩, .smbRead, .smbRead64, .smbWrite ⟨v, code⟩, .smbStatus, .smbAlertResponse], Answers c s (fun t => Only {} s t)))
    ∧ (∀ (req : Requester) (n : Fin 8) (v : Word) (x : WriteAux) (c : Instr) (s : State),
  let a := Reg.fabLoupeSel n
  let class' := s.fld a 28 4
  let hc := hcOf s.tsc.toNat
  let off : Prop := s.aon.vio = false ∨ s.busUp = false ∨ (s.loading = true ∧ s.fld Reg.cfgStatus 26 2 = 1) ∨ class' = 0 ∨ 5 < class'
  let shift (d : Nat) : Prop := s.fld a 4 5 ≤ d ∧ s.clockKhz (s.fld a 0 3) ≤ 50000 * 2 ^ d
  let levels (t : State) : BitVec 8 := (t.pulse.loupe.head?.map Prod.snd).getD 0
  (s.reaches req = true → x.race = 0 → Answers (.registerWrite req (BitVec.ofNat 26 a) v false x) s (fun t =>
      t.rd a = v ∧ Only { reg := fun b => b = a, key := fun r => r = req.toNat } s t))
    ∧ (s.loupe n = .off ↔ off)
    ∧ (¬ off → class' = 4 → s.fld a 4 5 < 16 → ∃ d, s.loupe n = .clock (s.fld a 0 3) d ∧ shift d ∧ ∀ d', shift d' → d ≤ d')
    ∧ (∀ h l, ¬ off → class' ∈ [1, 2, 3] → s.bit a 27 = false → 5 ≤ hc → s.pulse.loupe.head? = some (h, l) → h < 16 * (hc - 5) + 15 →
        (∀ y ∈ s.pulse.loupe, y.1 ≤ h) → s.loupe n = .level (l.getLsbD n))
    ∧ (Answers c s (fun t => levels t = State.loupeLevels { t with pulse := {} }
        ∧ ((levels s).getLsbD n = false → (∀ y ∈ s.pulse.loupe, y.1 ≤ t.tsc.toNat) → t.fld a 28 4 = 5 → t.fld a 0 8 < 21 → t.pulse.event.getLsbD (t.fld a 0 8) = true →
            t.loupeTaken n (hcOf t.tsc.toNat) = true))))

/-! ### Waveform engines -/

/-- R336 to R339: the complex multiplications accumulate the exact product, conjugated or negated as the word says, into a saturating accumulator of 40 bits a
half; STA stores the rounded halves, saturated; every use of a pointer modifies it by its code. -/
def Obligations.WaveformMultiply : Prop := ∀ (k : SiteIx) (w : Word) (o : WfeObs) (s : State),
  let x := s.getWfe k
  let here (i : Nat) : Ptr := s.wfePtr k i
  let px := wPx w
  let py := wPy w
  let moved (i : Nat) : Ptr :=
    if i = px then { here i with p := (here i).after wfeXSize (wXm w) } else if i = py then { here i with p := (here i).after wfeYSize (wYm w) } else here i
  let xv := delivered o.x o.flipX (wfeGet x.x (here px).p)
  let yv := delivered o.y o.flipY (wfeGet x.y (here py).p)
  let yi : Int := if w.getLsbD 8 then -(half yv 1) else half yv 1
  let re : Int := half xv 0 * half yv 0 - half xv 1 * yi
  let im : Int := half xv 0 * yi + half xv 1 * half yv 0
  let sum (a : BitVec 40) (v : Int) : Int := if w.getLsbD 9 then a.toInt - v else a.toInt + v
  let cut (v : Int) : BitVec 40 := BitVec.ofInt 40 (clamp (-2 ^ 39) (2 ^ 39 - 1) v)
  let big (v : Int) : Bool := decide (v < -2 ^ 39) || decide (2 ^ 39 - 1 < v)
  let a := x.acc (wA w)
  let total : Acc := { re := cut (sum a.re re), im := cut (sum a.im im) }
  let over8 (i : Nat) : Bool := i == 8 && (big (sum a.re re) || big (sum a.im im))
  let sh := fldOf w 0 4
  let rounded (v : BitVec 40) : Int := (v.toInt + 2 ^ (14 + sh)) >>> (15 + sh)
  let cut16 (v : Int) : Int := clamp (-2 ^ 15) (2 ^ 15 - 1) v
  let over7 (i : Nat) : Bool := i == 7 && (cut16 (rounded a.re) != rounded a.re || cut16 (rounded a.im) != rounded a.im)
  let done (checks : List Ecc) (ptr : Nat → Ptr) (u : Wfe) (set : Nat → Bool) (t : State) : Prop :=
    WfeStep s t k o (s.wfeProgCheck k o ++ checks) (wfeFollow (s.wfePc k) (x.loaded w)) ptr u set False
  (s.WfeReady k w o 0x08 → Answers (.cmac k w o) s (done [o.x, o.y] moved (x.setAcc (wA w) total) over8))
    ∧ (s.WfeReady k w o 0x10 → Answers (.cmul k w o) s (done [o.x, o.y] moved (x.setAcc (wA w) { re := BitVec.ofInt 40 re, im := BitVec.ofInt 40 im })
        (fun _ => false)))
    ∧ (s.WfeReady k w o 0x18 → Answers (.ftm k w o) s (done [o.x, o.y] moved
        (({ x with x := wfePut x.x ((here px).plus wfeXSize 1) xv } : Wfe).setAcc (wA w) total) over8))
    ∧ (s.WfeReady k w o 0x20 → Answers (.clra k w o) s (done [] here (x.setAcc (wA w) {}) (fun _ => false)))
    ∧ (s.WfeReady k w o 0x28 → Answers (.sta k w o) s (done [] (fun i => if i = px then moved i else here i)
        { x with x := wfePut x.x (here px).p (complexWord (cut16 (rounded a.re)) (cut16 (rounded a.im))) } over7))

/-- R335, R336, R338 to R340, R342: the other instructions of an engine: loads and stores of data registers, the ALU, shifts and the saturating complex sums, histograms,
pointer settings, jumps and the repeat. A word that is not correct, an illegal one, and one of format C in a repeated body fault the engine
before they take effect; a row that the word does not belong to does nothing. -/
def Obligations.WaveformOther : Prop := ∀ (k : SiteIx) (w : Word) (o : WfeObs) (s : State),
  let x := s.getWfe k
  let here (i : Nat) : Ptr := s.wfePtr k i
  let px := wPx w
  let py := wPy w
  let movedX (i : Nat) : Ptr := if i = px then { here i with p := (here i).after wfeXSize (wXm w) } else here i
  let movedY (i : Nat) : Ptr := if i = py then { here i with p := (here i).after wfeYSize (wYm w) } else here i
  let xv := delivered o.x o.flipX (wfeGet x.x (here px).p)
  let yv := delivered o.y o.flipY (wfeGet x.y (here py).p)
  let pc := s.wfePc k
  let ready := s.WfeReady k w o
  let no : Nat → Bool := fun _ => false
  let goes (checks : List Ecc) (next : Nat × Option WfeRep) (ptr : Nat → Ptr) (u : Wfe) (t : State) : Prop :=
    WfeStep s t k o (s.wfeProgCheck k o ++ checks) next ptr u no False
  let done (checks : List Ecc) (ptr : Nat → Ptr) (u : Wfe) (t : State) : Prop := goes checks (wfeFollow pc (x.loaded w)) ptr u t
  let jump (taken : Bool) : State → Prop := goes [] (if taken then (fldOf w 0 14, x.rep) else wfeFollow pc (x.loaded w)) here x
  let src := x.dreg (wS w)
  let sh := fldOf w 0 5
  let cut16 (v : Int) : Int := clamp (-2 ^ 15) (2 ^ 15 - 1) v
  let alu : List (Instr × Nat × (Word → Word → Word)) := [(.wfeAdd k w o, 0x48, fun d v => d + v), (.wfeSub k w o, 0x49, fun d v => d - v),
    (.wfeAnd k w o, 0x4A, fun d v => d &&& v), (.wfeOr k w o, 0x4B, fun d v => d ||| v), (.wfeXor k w o, 0x4C, fun d v => d ^^^ v),
    (.cadd k w o, 0x4D, fun d v => complexWord (cut16 (half d 0 + half v 0)) (cut16 (half d 1 + half v 1))),
    (.csub k w o, 0x4E, fun d v => complexWord (cut16 (half d 0 - half v 0)) (cut16 (half d 1 - half v 1))),
    (.wfeShl k w o, 0x50, fun _ v => v <<< sh), (.wfeShr k w o, 0x51, fun _ v => v >>> sh), (.wfeSar k w o, 0x52, fun _ v => v.sshiftRight sh)]
  let bin := (here px).base + src.toNat / 2 ^ sh % (here px).len
  let count := delivered o.x o.flipX (wfeGet x.x bin)
  let n := wAux w 7 3
  let sp := setpPtr w
  let passes := if wImm w = 0 then fldOf (x.dreg n) 0 16 else wImm w
  let len := wAux w 0 5 + 1
  let alive : Prop := s.wclkOn k = true ∧ s.wfeState k = 1 ∧ (s.wfeFetch k).1 = w
  let broken : Prop := o.p = .double ∧ (s.wfeFetch k).2 = false
  let rows : List (Instr × Nat) :=
    [(.wfeNop k w o, 0x00), (.cmac k w o, 0x08), (.cmul k w o, 0x10), (.ftm k w o, 0x18), (.clra k w o, 0x20), (.sta k w o, 0x28), (.wfeLdx k w o, 0x30),
    (.stx k w o, 0x38), (.ldy k w o, 0x40), (.wfeAdd k w o, 0x48), (.wfeSub k w o, 0x49), (.wfeAnd k w o, 0x4A), (.wfeOr k w o, 0x4B), (.wfeXor k w o, 0x4C),
    (.cadd k w o, 0x4D), (.csub k w o, 0x4E), (.wfeShl k w o, 0x50), (.wfeShr k w o, 0x51), (.wfeSar k w o, 0x52), (.hist k w o, 0x58), (.ldi k w o, 0x100),
    (.setp k w o, 0x108), (.wfeJmp k w o, 0x110), (.jz k w o, 0x118), (.jb k w o, 0x120), (.rep k w o, 0x128), (.waits k w o, 0x130), (.xfer k w o, 0x138),
    (.waitx k w o, 0x140), (.wfeIrqInstr k w o, 0x148), (.wfeHaltInstr k w o, 0x150)]
  (ready 0x00 → Answers (.wfeNop k w o) s (done [] here x))
    ∧ (ready 0x30 → Answers (.wfeLdx k w o) s (done [o.x] movedX (x.setD (wD w) xv)))
    ∧ (ready 0x38 → Answers (.stx k w o) s (done [] movedX { x with x := wfePut x.x (here px).p src }))
    ∧ (ready 0x40 → Answers (.ldy k w o) s (done [o.y] movedY (x.setD (wD w) yv)))
    ∧ (∀ p ∈ alu, ready p.2.1 → Answers p.1 s (done [] here (x.setD (wD w) (p.2.2 (x.dreg (wD w)) src))))
    ∧ (ready 0x58 → (w.getLsbD 8 = true ∧ src.getLsbD 31 = false) → Answers (.hist k w o) s (done [] here x))
    ∧ (ready 0x58 → (w.getLsbD 8 = false ∨ src.getLsbD 31 = true) → Answers (.hist k w o) s (done [o.x] here
        { x with x := wfePut x.x bin (BitVec.ofNat 32 (min (count.toNat + 1) (2 ^ 32 - 1))) }))
    ∧ (ready 0x100 → Answers (.ldi k w o) s (done [] here
        (x.setD n (if w.getLsbD 16 then w.extractLsb' 0 16 ++ (x.dreg n).extractLsb' 0 16 else (w.extractLsb' 0 16).signExtend 32))))
    ∧ (ready 0x108 → Answers (.setp k w o) s (done [] (fun i => if i = sp then (here i).setItem i (wAux w 5 2) (x.dreg (wAux w 2 3)) else here i) x))
    ∧ (ready 0x110 → Answers (.wfeJmp k w o) s (jump true))
    ∧ (ready 0x118 → Answers (.jz k w o) s (jump (xor (x.dreg n == 0) (w.getLsbD 16))))
    ∧ (ready 0x120 → Answers (.jb k w o) s (jump ((x.dreg n).getLsbD (wAux w 2 5) == w.getLsbD 16)))
    ∧ (ready 0x128 → Answers (.rep k w o) s (goes []
        (if passes = 0 then (pc + 1 + len, none) else (pc + 1, some { first := pc + 1, len := len, left := passes })) here x))
    ∧ (∀ p ∈ rows,
      (¬ alive → Answers p.1 s (fun t => Only {} s t))
        ∧ (alive → broken → Answers p.1 s (fun t => WfeFaulted s t k 2))
        ∧ (alive → ¬ broken → wRow w ≠ p.2 → Answers p.1 s (fun t => Only {} s t))
        ∧ (alive → ¬ broken → wRow w = p.2 → s.wfeLegal k w = false → Answers p.1 s (fun t => WfeFaulted s t k 1))
        ∧ (alive → ¬ broken → wRow w = p.2 → s.wfeLegal k w = true → x.rep ≠ none → 0x20 ≤ wOp w → Answers p.1 s (fun t => WfeFaulted s t k 3)))

/-- R268, R342, R344 to R354: waits for stream words and for transfers, transfers between the engine's memories and the site's DRAM, which
wait behind the requests of a higher rank (log entry 112), and after which an XFER that waits goes on; the interrupt and the halt; the host's
start, halt and clear, its window on the memories.

The stream: a frame gives its words by the mode, RAW, CPLX or EDGE, a gap frame
0x80 bytes or empty records; the ring takes them until it is full and drops the rest, and the stream ends with its last word or with the
frame of the last cycle. It rests on the readings and choices of log entry 34 too. -/
def Obligations.WaveformControl : Prop := ∀ (req : Requester) (k : SiteIx) (w v : Word) (o : WfeObs) (e : Ecc) (flip : Word) (s : State),
  let x := s.getWfe k
  let st := Reg.wfeStatus k
  let pc := s.wfePc k
  let here (i : Nat) : Ptr := s.wfePtr k i
  let ready := s.WfeReady k w o
  let next := wfeFollow pc (x.loaded w)
  let key : Nat → Prop := fun r => r = req.toNat
  let hart : Nat → Prop := fun r => r = 3 ∧ req = 3
  let mine : May := { reg := wfeRegs k, wfe := fun j => j = k }
  let waiting (code : Nat) (wait : WfeWait) (t : State) : Prop := t.wfeState k = code ∧ (t.getWfe k).wait = wait ∧ t.wfePc k = pc
    ∧ (t.getWfe k).still = x.still ∧ (t.getWfe k).rep = x.rep ∧ (∀ i, i < 8 → t.wfePtr k i = here i) ∧ Only mine s t
  let after := wfeFollow pc x.rep
  let resumed (t : State) : Prop := t.wfePc k = after.1 % 2 ^ 14 ∧ t.wfeState k = (if after.1 < 2 ^ 14 then (if x.haltReq then 0 else 1) else 4)
    ∧ (t.getWfe k).rep = after.2 ∧ (t.getWfe k).wait = .none ∧ (t.getWfe k).still = x.still ∧ Only mine s t
  let at0 := fldOf w 0 13
  let got (i : Nat) : Ecc × Word := ((o.y, o.flipY) :: o.desc).getD i (.ok, 0)
  let found := s.wfeDescriptor k ((List.range 4).map (fun i => delivered (got i).1 (got i).2 (wfeGet x.y ((at0 + i) % wfeYSize))))
  let sent (j : WfeXfer) (i : Nat) : Word :=
    delivered (wfeWordObs o i).1 (wfeWordObs o i).2 (wfeGet (if j.inY then x.y else x.x) (j.at0 + i))
  let status (c : Nat) (t : State) : Prop := t.fld st 28 4 = c
  let refused (t : State) : Prop := status 2 t ∧ t.wfeState k = s.wfeState k ∧ Only { reg := fun a => a = st, key := key } s t
  let ask : May := { reg := fun a => a = st ∨ a = Reg.wfePc k, wfe := fun j => j = k, key := key }
  let mem := Reg.wfeMemAddr k
  let m := s.fld mem 0 15
  let space := s.fld mem 30 2
  let onward (t : State) : Prop := t.fld mem 0 15 = (if s.bit mem 29 then (m + 1) % 2 ^ 15 else m)
  let base := s.fldAct (Reg.wfeStrRing k) 0 15
  let ring := here 3
  let n1 := ({ ring with p := x.wp } : Ptr).plus wfeXSize 1
  let n2 := ({ ring with p := n1 } : Ptr).plus wfeXSize 1
  let active : Prop := s.bit st 4 = true
  let idle (j : WfeXfer) : Prop := let vs := s.vaultsOf j.addr (4 * j.words)
    s.reloadsIn vs = [] ∧ ∀ i, i < 16 → s.siteWaits i vs = false
  let moves (j : WfeXfer) : Prop := s.accessWaits (16 + k) j.addr (4 * j.words) = false ∧ s.reaches (BitVec.ofNat 5 (16 + k)) = true
  let mode := s.fldAct (Reg.wfeStrCfg k) 28 2
  let lanes := s.strLanes k
  let place (i : Nat) : Nat := ring.base + (x.wp - ring.base + i) % ring.len
  let inRing (a : Nat) : Prop := ring.base ≤ a ∧ a < ring.base + ring.len
  let cnt := s.fld (Reg.wfeStrCnt k) 0 32
  let most := (s.rd (Reg.wfeStrLen k)).toNat
  (ready 0x130 → s.fldAct (Reg.wfeStrRing k) 16 16 < wImm w + 1 → Answers (.waits k w o) s (fun t => WfeFaulted s t k 4))
    ∧ (ready 0x130 → wImm w + 1 ≤ s.fldAct (Reg.wfeStrRing k) 16 16 → wImm w ≤ s.strAvail k → Answers (.waits k w o) s (fun t =>
        WfeStep s t k o (s.wfeProgCheck k o) next here x (fun _ => false) False))
    ∧ (ready 0x130 → wImm w + 1 ≤ s.fldAct (Reg.wfeStrRing k) 16 16 → s.strAvail k < wImm w → Answers (.waits k w o) s (waiting 2 (.words (wImm w))))
    ∧ (∀ n, x.wait = .words n → n ≤ s.strAvail k → s.wclkOn k = true → Answers (.waitsComplete k) s resumed)
    ∧ (∀ n, x.wait = .words n → (s.strAvail k < n ∨ s.wclkOn k = false) → Answers (.waitsComplete k) s (fun t => Only {} s t))
    ∧ (ready 0x138 → x.job = none → ∀ j, found = some j → Answers (.xfer k w o) s (fun t =>
        WfeStep s t k o (s.wfeProgCheck k o ++ (List.range 4).map (fun i => (got i).1)) next here { x with job := some j } (fun i => i == 3) False))
    ∧ (ready 0x138 → x.job = none → found = none → Answers (.xfer k w o) s (fun t => WfeFaulted s t k 5))
    ∧ (ready 0x138 → x.job ≠ none → Answers (.xfer k w o) s (waiting 3 .xfer))
    ∧ (ready 0x140 → x.job ≠ none → Answers (.waitx k w o) s (waiting 3 .transfer))
    ∧ (ready 0x140 → x.job = none → Answers (.waitx k w o) s (fun t => WfeStep s t k o (s.wfeProgCheck k o) next here x (fun _ => false) False))
    ∧ (x.wait = .transfer → x.job = none → s.wclkOn k = true → Answers (.waitxComplete k) s resumed)
    ∧ (x.wait ≠ .transfer ∨ x.job ≠ none ∨ s.wclkOn k = false → Answers (.waitxComplete k) s (fun t => Only {} s t))
    ∧ (∀ j, x.job = some j → moves j → x.wait ≠ .xfer → Answers (.transferDone k o) s (fun t => (t.getWfe k).job = none ∧ t.bit st 3 = false
          ∧ ((s.wfeMove k j o).2 = true → t.wfeState k = 4 ∧ t.fld st 24 4 = 6) ∧ ((s.wfeMove k j o).2 = false → t.wfeState k = s.wfeState k)
          ∧ t.wfePc k = pc ∧ (idle j → Only (May.dramToo mine) s t)))
    ∧ (∀ j, x.job = some j → moves j → x.wait = .xfer → Answers (.transferDone k o) s (fun t =>
        let y := ((s.wfeMove k j o).1.getWfe k).y
        let to0 := fldOf (wfeGet x.p pc) 0 13
        let nextJob := s.wfeDescriptor k ((List.range 4).map (fun i => delivered (got i).1 (got i).2 (wfeGet y ((to0 + i) % wfeYSize))))
        ((s.wfeMove k j o).2 = true → (t.getWfe k).job = none ∧ t.bit st 3 = false ∧ t.wfeState k = 4 ∧ t.fld st 24 4 = 6 ∧ t.wfePc k = pc)
        ∧ ((s.wfeMove k j o).2 = false → nextJob = none → (t.getWfe k).job = none ∧ t.bit st 3 = false ∧ t.wfeState k = 4 ∧ t.fld st 24 4 = 5 ∧ t.wfePc k = pc)
        ∧ ((s.wfeMove k j o).2 = false → ∀ i, nextJob = some i → (t.getWfe k).job = some i ∧ t.bit st 3 = true ∧ (t.getWfe k).wait = .none
            ∧ t.wfePc k = after.1 % 2 ^ 14 ∧ t.wfeState k = (if after.1 < 2 ^ 14 then (if x.haltReq then 0 else 1) else 4) ∧ (t.getWfe k).rep = after.2)
        ∧ (idle j → Only (May.dramToo mine) s t)))
    ∧ (∀ j vlt row, x.job = some j → moves j → x.wait ≠ .xfer →
        0 < j.words → j.addr % 2048 + 4 * j.words ≤ 2048 → s.locate j.addr = (vlt, row) → s.rowRefused vlt row = none → s.bufferHeld vlt (16 + k) = false →
        (s.getVault vlt).svc.row = some row → (s.getVault vlt).svc.data.length = 2048 → idle j →
        Answers (.transferDone k o) s (fun t => let buf := (s.getVault vlt).svc
          (t.getWfe k).job = none
          ∧ (buf.poisoned = true → t.wfeState k = 4 ∧ t.fld st 24 4 = 6 ∧ (t.getWfe k).x = x.x ∧ (t.getWfe k).y = x.y ∧ (t.getVault vlt).svc.data = buf.data)
          ∧ (buf.poisoned = false → t.wfeState k = s.wfeState k)
          ∧ (buf.poisoned = false → j.out = false →
            (∀ i, i < j.words → wfeGet (if j.inY then (t.getWfe k).y else (t.getWfe k).x) (j.at0 + i) = BitVec.ofNat 32 (leAt buf.data (j.addr % 2048 + 4 * i) 4))
            ∧ (∀ a, (j.inY = true ∨ a < j.at0 ∨ j.at0 + j.words ≤ a) → wfeGet (t.getWfe k).x a = wfeGet x.x a)
            ∧ (∀ a, (j.inY = false ∨ a < j.at0 ∨ j.at0 + j.words ≤ a) → wfeGet (t.getWfe k).y a = wfeGet x.y a)
            ∧ (t.getVault vlt).svc.data = buf.data)
          ∧ (buf.poisoned = false → j.out = true → (t.getWfe k).x = x.x ∧ (t.getWfe k).y = x.y ∧ (t.getVault vlt).svc.row = some row
            ∧ (∀ i, i < j.words → leAt (t.getVault vlt).svc.data (j.addr % 2048 + 4 * i) 4 = (sent j i).toNat)
            ∧ (∀ b, (b < j.addr % 2048 ∨ j.addr % 2048 + 4 * j.words ≤ b) → leAt (t.getVault vlt).svc.data b 1 = leAt buf.data b 1)
            ∧ t.fld (Reg.wfeEcc k) 0 16 = min (s.fld (Reg.wfeEcc k) 0 16 + ((List.range j.words).filter (fun i => (wfeWordObs o i).1 == .single)).length) 65535)
          ∧ Only { reg := fun a => a = st ∨ a = Reg.wfeEcc k ∨ (buf.poisoned = true ∧ vaultRegs a), queue := fun a => buf.poisoned = true ∧ a = Reg.vltPoisonLog vlt,
                   wfe := fun i => i = k, vault := fun i => i = vlt } s t))
    ∧ ((x.job = none ∨ s.reaches (BitVec.ofNat 5 (16 + k)) = false ∨ ∃ j, x.job = some j ∧ s.accessWaits (16 + k) j.addr (4 * j.words) = true) →
        Answers (.transferDone k o) s (fun t => Only {} s t))
    ∧ (ready 0x148 → Answers (.wfeIrqInstr k w o) s (fun t => WfeStep s t k o (s.wfeProgCheck k o) next here x (fun _ => false) True
        ∧ ((s.getQ (Reg.wfeIrq k)).items.length < 16 → (s.getQ (Reg.wfeIrq k)).lost = false →
          (t.getQ (Reg.wfeIrq k)).items = (s.getQ (Reg.wfeIrq k)).items ++ [BitVec.ofNat 32 (2 ^ 31 + fldOf w 0 8)])))
    ∧ (ready 0x150 → Answers (.wfeHaltInstr k w o) s (fun t => t.wfeState k = 0 ∧ t.wfePc k = (pc + 1) % 2 ^ 14 ∧ t.getWfe k = x ∧ Only mine s t))
    ∧ (s.reaches req = true →
      (s.wfeState k = 0 → s.wclkOn k = true → Answers (.wfeStart req k) s (fun t => t.wfeState k = 1 ∧ t.wfePc k = s.fld (Reg.wfeStart k) 0 14 ∧ t.fld st 5 5 = 0
          ∧ t.getWfe k = { x with rep := none, wait := .none, haltReq := false } ∧ status 1 t ∧ Only ask s t))
        ∧ ((s.wfeState k ≠ 0 ∨ s.wclkOn k = false) → Answers (.wfeStart req k) s refused)
        ∧ (s.wfeState k = 1 → Answers (.wfeHaltCmd req k) s (fun t => t.wfeState k = 0 ∧ status 1 t ∧ Only { reg := fun a => a = st, key := key } s t))
        ∧ ((s.wfeState k = 2 ∨ s.wfeState k = 3) → Answers (.wfeHaltCmd req k) s (fun t => t.wfeState k = s.wfeState k
            ∧ t.getWfe k = { x with haltReq := true } ∧ status 1 t ∧ Only ask s t))
        ∧ ((s.wfeState k = 0 ∨ 4 ≤ s.wfeState k) → Answers (.wfeHaltCmd req k) s refused)
        ∧ (s.wfeState k = 4 → Answers (.wfeClrFault req k) s (fun t => t.wfeState k = 0 ∧ status 1 t ∧ Only { reg := fun a => a = st, key := key } s t))
        ∧ (s.wfeState k ≠ 4 → Answers (.wfeClrFault req k) s refused)
        ∧ (space = 1 → Answers (.wfeMemAccess req k (some v) e flip) s (fun t => t.getWfe k = { x with x := wfePut x.x m v } ∧ onward t
            ∧ Only { reg := fun a => a = mem, wfe := fun j => j = k, key := key } s t))
        ∧ (space = 2 → m < wfeYSize → Answers (.wfeMemAccess req k (some v) e flip) s (fun t => t.getWfe k = { x with y := wfePut x.y m v } ∧ onward t
            ∧ Only { reg := fun a => a = mem, wfe := fun j => j = k, key := key } s t))
        ∧ (space = 0 → m < 2 ^ 14 → s.wfeRuns k = false → Answers (.wfeMemAccess req k (some v) e flip) s (fun t => t.getWfe k = { x with p := wfePut x.p m v } ∧ onward t
            ∧ Only { reg := fun a => a = mem, wfe := fun j => j = k, key := key } s t))
        ∧ (space = 0 → m < 2 ^ 14 → s.wfeRuns k = true → Answers (.wfeMemAccess req k (some v) e flip) s (fun t => status 3 t ∧ onward t
            ∧ Only { reg := fun a => a = mem ∨ a = st, key := key } s t))
        ∧ (∀ y, s.wfeMemPeek k = some y → e = .ok → Answers (.wfeMemAccess req k none e flip) s (fun t => t.cpl.status = .ok ∧ t.cpl.value = y ∧ onward t
            ∧ Only { reg := fun a => a = mem, cpl := True, key := hart } s t))
        ∧ (∀ y, s.wfeMemPeek k = some y → e = .double → space = 0 → Answers (.wfeMemAccess req k none e flip) s (fun t => t.wfeState k = 4 ∧ t.fld st 24 4 = 2
            ∧ t.cpl.value = y ^^^ flip ∧ onward t ∧ Only { reg := fun a => a = mem ∨ a = st, wfe := fun j => j = k, cpl := True, key := hart } s t))
        ∧ (s.wfeMemPeek k = none → Answers (.wfeMemAccess req k none e flip) s (fun t => t.cpl.status = .ok ∧ onward t
            ∧ Only { reg := fun a => a = mem, cpl := True, free := True, key := hart } s t))
        ∧ (¬ active → Answers (.streamGo req k) s (fun t => t.bit st 4 = true ∧ t.rd (Reg.wfeStrCnt k) = 0 ∧ (t.getWfe k).wp = base ∧ (t.wfePtr k 3).p = base
            ∧ (t.getWfe k).sides = [] ∧ (t.getWfe k).from0 = none ∧ (t.getWfe k).goFrame = s.fc / 8 ∧ t.strAvail k = 0 ∧ status 1 t
            ∧ Only { reg := fun a => a = st ∨ a = Reg.wfeStrCnt k, wfe := fun j => j = k, key := key } s t))
        ∧ (active → Answers (.streamGo req k) s refused)
        ∧ (Answers (.streamStop req k) s (fun t => t.bit st 4 = false ∧ (t.getWfe k).sides = [] ∧ (t.getWfe k).wp = x.wp ∧ (t.getWfe k).x = x.x ∧ status 1 t
            ∧ Only { reg := fun a => a = st, wfe := fun j => j = k, key := key } s t)))
    ∧ ((¬ active ∨ s.strFrame k = none) → Answers (.streamWord k) s (fun t => Only {} s t))
    ∧ (∀ f n, active → s.strFrame k = some f → s.strLast k = some n → n < f → Answers (.streamWord k) s (fun t => t.bit st 4 = false ∧ (t.getWfe k).x = x.x
        ∧ Only { reg := fun a => a = st, wfe := fun j => j = k } s t))
    ∧ (∀ l f sd, active → s.strLanes k = [l] → s.fldAct (Reg.wfeStrCfg k) 28 2 = 1 → s.strFrame k = some f → s.strLast k = none →
        x.sides.find? (fun q => q.lane == l && q.frame == f) = some sd → sd.bad = false → sd.kind = 1 → s.rd (Reg.wfeStrLen k) = 0 → ring.len ≠ 0 →
        n1 ≠ ring.p → n2 ≠ ring.p → Answers (.streamWord k) s (fun t =>
          (t.getWfe k).x = wfePut (wfePut x.x x.wp (sd.bytes.extractLsb' 0 32)) n1 (sd.bytes.extractLsb' 32 32) ∧ (t.getWfe k).wp = n2
            ∧ t.fld (Reg.wfeStrCnt k) 0 32 = min (s.fld (Reg.wfeStrCnt k) 0 32 + 2) (2 ^ 32 - 1)
            ∧ Only { reg := fun a => a = Reg.wfeStrCnt k, wfe := fun j => j = k } s t))
    ∧ (∀ f, active → (mode = 1 ∨ mode = 2 ∧ lanes.length = 2 ∨ mode = 3) → s.strFrame k = some f → (∀ n, s.strLast k = some n → f ≤ n) →
        inRing x.wp → inRing ring.p → (most = 0 ∨ cnt < most) →
        let fr (l : Nat) : SideFrame := (x.sides.find? (fun q => q.lane == l && q.frame == f)).getD ⟨l, f, 0, 0, true, none⟩
        let gap (l : Nat) : Bool := (fr l).bad || (fr l).kind != (if mode = 3 then 2 else 1)
        let byte (l p : Nat) : Nat := if gap l then (if mode = 3 then 0 else 0x80) else (fr l).bytes.toNat / 2 ^ (8 * p) % 256
        let quad (l h : Nat) : Word := BitVec.ofNat 32 (byte l (4 * h) + 2 ^ 8 * byte l (4 * h + 1) + 2 ^ 16 * byte l (4 * h + 2) + 2 ^ 24 * byte l (4 * h + 3))
        let pair (p : Nat) : Word := BitVec.ofNat 32 (2 ^ 8 * (byte (lanes.getD 0 0) p + 2 ^ 16 * byte (lanes.getD 1 0) p))
        let words : List Word := if mode = 2 then (List.range 8).map pair else lanes.map (fun l => quad l 0) ++ lanes.map (fun l => quad l 1)
        let gaps := (lanes.filter gap).length
        let n := min (min words.length (ring.len - 1 - s.strAvail k)) (if most = 0 then words.length else most - cnt)
        let full : Bool := decide (most ≠ 0 ∧ cnt + n = most)
        let drops := if full then 0 else words.length - n
        let told : Prop := s.strTrig k = true ∧ s.seqRuns k = true
        Answers (.streamWord k) s (fun t =>
          (∀ i, i < n → wfeGet (t.getWfe k).x (place i) = words.getD i 0) ∧ (∀ a, (∀ i, i < n → a ≠ place i) → wfeGet (t.getWfe k).x a = wfeGet x.x a)
            ∧ (t.getWfe k).wp = place n ∧ (t.wfePtr k 3).p = ring.p
            ∧ t.fld (Reg.wfeStrCnt k) 0 32 = min (cnt + n) (2 ^ 32 - 1)
            ∧ t.fld (Reg.wfeStrGap k) 0 32 = min (s.fld (Reg.wfeStrGap k) 0 32 + gaps) (2 ^ 32 - 1) ∧ t.bit st 5 = (s.bit st 5 || decide (0 < gaps))
            ∧ t.fld (Reg.wfeStrDrop k) 0 32 = min (s.fld (Reg.wfeStrDrop k) 0 32 + drops) (2 ^ 32 - 1) ∧ t.bit st 6 = (s.bit st 6 || decide (0 < drops))
            ∧ t.bit st 4 = (!full && s.strLast k != some f) ∧ (t.bit st 4 = true → (t.getWfe k).sides = x.sides.filter (fun q => decide (f < q.frame)))
            ∧ (told → (s.getSite k).window = true → (0 < gaps → t.bit (Reg.glbIntegHi k) 1 = true) ∧ (0 < drops → t.bit (Reg.glbIntegHi k) 2 = true))
            ∧ Only { reg := fun a => a = st ∨ a = Reg.wfeStrCnt k ∨ a = Reg.wfeStrGap k ∨ a = Reg.wfeStrDrop k ∨ (told ∧ 0 < gaps + drops ∧ integRegs k a)
                     wfe := fun j => j = k, site := fun j => told ∧ 0 < gaps + drops ∧ j = k.val } s t))

/-! ### Every command -/

/-- A step takes the command at the front of the queue and runs it with the queue's rest, and it always answers a next state; without a command one BCLK
cycle passes, in which the time base counts where the clocks run (the model's choice, log entries 1 and 2), and the fabric clock with it, but in
STANDBY (R5, R432, R433). What a sequencer has planned for the end of its last cycle then comes, an access of the debug master that has waited
completes when it can (R400), the hart may complete an instruction (log entry 9), and after a brownout the next rail turns off (log entry
109). -/
def Obligations.StepTakesFront : Prop := ∀ (c : Instr) (l : List Instr) (s : State),
  let off : Prop := s.aon.brown = true ∧ 0 < s.aon.railsIn
  let p := s.fcPhase + (if s.clockOn 0 then 10 else 0)
  let more := if s.fdiv ≤ p then 1 else 0
  let still : Prop := ∀ k, k < 16 → s.seqRuns k = false
  let calm : Prop := s.coreRuns = false ∨ s.inMonitor = true ∨ s.keyLeft 3 = 0
  (s.pending = c :: l → step s = exec c { s with pending := l })
    ∧ (s.pending = [] → off → ∃ t, step s = .next t ∧ t.aon = { s.aon with railsIn := s.aon.railsIn - 1 } ∧ Only { aon := True } s t)
    ∧ (s.pending = [] → ¬ off → s.busUp = false → step s = .next s)
    ∧ (s.pending = [] → ¬ off → s.busUp = true → still → calm → s.glint.waiting = [] → ∃ t, step s = .next t ∧ t.tsc = s.tsc + 1
        ∧ t.fc = s.fc + more ∧ t.fcPhase = p - more * s.fdiv ∧ Only { time := True } s t)
    ∧ (s.pending = [] → ¬ off → s.busUp = true → still → ¬ calm → s.glint.waiting = [] → ∃ t, step s = .next t
        ∧ (t.keyLeft 3 = s.keyLeft 3 ∨ t.keyLeft 3 = s.keyLeft 3 - 1) ∧ Only { time := True, free := True, key := fun r => r = 3 } s t)
    ∧ (∀ q rest, s.pending = [] → ¬ off → s.busUp = true → still → calm → s.glint.waiting = q :: rest → s.accessWaits 4 (q.addr.toNat % 2 ^ 41) 4 = false →
        (q.wr = none ∨ q.addr.toNat / 2 ^ 44 = 2) → ∃ t, step s = .next t ∧ t.glint.waiting = rest)
    ∧ (∀ k, k < 16 → s.pending = [] → ¬ off → s.busUp = true → s.glint.waiting = [] → s.seqRuns k = true → s.inWait k = false →
        let x := s.getSite k
        let n := s.fc + more - x.fc0
        x.cycle ≤ n → ∃ t, step s = .next t ∧ (x.after = .past → Faulted t k 0x02 0 (x.cycle + 2 ^ 48 - 1))
          ∧ (∀ e c, x.after ≠ .past → x.stopAt = some (e, c) → e ≤ x.cycle → (x.after = .cut ∨ x.cycle < n) → x.stopBy < 16 → Stopped t k x.stopBy c))
    ∧ s.safeStep

/-- R32, R54, R56, R62, R455: the state after power-on. The device is in RESET with no step of start-up done, no valid configuration and epoch 0; every sequencer is
idle and drained; every interface can send (the model's reading); nothing is isolated; the queue is empty; and the invariants hold. -/
def Obligations.ResetState : Prop :=
  State.reset.Inv ∧ State.reset.Shape ∧ State.reset.pending = [] ∧ State.reset.mode = modeRESET ∧ State.reset.rd Reg.glbStartup = 0
    ∧ State.reset.cfgValid = false ∧ State.reset.fld Reg.glbEpoch 0 16 = 0 ∧ State.reset.tsc = 0 ∧ State.reset.rd Reg.nocIsoStat = 0
    ∧ (∀ k, k < 16 → State.reset.seqState k = 0 ∧ State.reset.siteBusy k = false ∧ State.reset.siteState k = 0 ∧ State.reset.rd (Reg.glbIntegLo k) = 0)
    ∧ (∀ r, r < 32 → State.reset.keyLeft r = 0) ∧ (∀ n, n < 16 → State.reset.lockHolder n = none) ∧ (∀ v, State.reset.irqOr v = false)

/-- Every step keeps the canonical form of the memories, takes exactly the command at the front of the queue, and leaves the lock of the debug port as manufacture
set it. -/
def Obligations.MemoriesKept : Prop := ∀ (s t : State), step s = .next t →
  (s.Inv → t.Inv) ∧ t.pending = s.pending.tail ∧ t.glintLock = s.glintLock

/-- Every step keeps the shape of the state that the other statements take as a premise. -/
def Obligations.ShapeKept : Prop := ∀ (s t : State), s.Shape → step s = .next t → t.Shape

/-- R365, R366: whatever command makes the OR of a vector's pending sources rise, the message of the vector is sent behind those sent before, or its pending bit is set while it is
masked; and a change of the mode sends the message of vector 36. -/
def Obligations.InterruptsReach : Prop := ∀ (c : Instr) (s : State), ∃ t, exec c s = .next t ∧ ∀ v, v < 41 →
  (s.irqOr v = false ∧ t.irqOr v = true ∨ v = 36 ∧ t.mode ≠ s.mode) → t.host.linkUp = true →
    if t.host.msixEnable = true ∧ t.host.msixFuncMask = false ∧ t.host.msixMask.getLsbD v = false then ∃ l, t.host.msgs = s.host.msgs ++ l ∧ v ∈ l
    else t.host.pba.getLsbD v = true
end

