-- ==== Sys2Proof/Laws/Sparse.lean ====
section
/-! SUPPORT. Laws of sparse maps: a read after a write, and every operation keeps the canonical form. -/

namespace Sys2Proof.Machine.Sparse

variable {α : Type}

theorem get_erase (d : Nat → α) (m : List (Nat × α)) (k j : Nat) :
    get d (erase m k) j = if j = k then d j else get d m j := by
  induction m with
  | nil => simp [erase, get]
  | cons p m ih =>
    obtain ⟨i, v⟩ := p
    by_cases h : i = k
    · subst h
      simp only [erase, if_true, ih, get]
      by_cases hj : j = i
      · simp [hj]
      · simp [hj, Ne.symm hj]
    · by_cases hj : i = j
      · subst hj; simp [erase, get, h]
      · simp [erase, get, h, hj, ih]

theorem get_put (d : Nat → α) (m : List (Nat × α)) (k : Nat) (v : α) (j : Nat) :
    get d (put m k v) j = if j = k then v else get d m j := by
  induction m with
  | nil => simp [put, get, eq_comm]
  | cons p m ih =>
    obtain ⟨i, w⟩ := p
    unfold put
    split
    · simp [get, eq_comm (a := k)]
    · split
      · rename_i h; subst h
        by_cases hj : j = i
        · simp [get, hj]
        · simp [get, hj, Ne.symm hj]
      · rename_i h
        by_cases hj : i = j
        · subst hj; simp [get, h]
        · simp [get, hj, ih]

/-- A read after a write to the same key gives the value written, and a write leaves every other key alone. -/
@[simp] theorem get_set [DecidableEq α] (d : Nat → α) (m : List (Nat × α)) (k : Nat) (v : α) (j : Nat) :
    get d (set d m k v) j = if j = k then v else get d m j := by
  unfold set
  split
  · rename_i h; rw [get_erase]; split <;> simp_all
  · exact get_put d m k v j

theorem above_erase {k : Nat} {m : List (Nat × α)} (i : Nat) (h : above k m = true) : above k (erase m i) = true := by
  induction m with
  | nil => simpa [erase] using h
  | cons p m ih =>
    obtain ⟨j, v⟩ := p
    simp only [above, List.all_cons, Bool.and_eq_true] at h
    unfold erase
    split
    · exact ih h.2
    · simp only [above, List.all_cons, Bool.and_eq_true]; exact ⟨h.1, ih h.2⟩

theorem above_put {k : Nat} {m : List (Nat × α)} {i : Nat} (v : α) (hi : k < i) (h : above k m = true) :
    above k (put m i v) = true := by
  induction m with
  | nil => simp [put, above, hi]
  | cons p m ih =>
    obtain ⟨j, w⟩ := p
    simp only [above, List.all_cons, Bool.and_eq_true] at h
    unfold put
    split
    · simp only [above, List.all_cons, Bool.and_eq_true]; exact ⟨by simpa using hi, h.1, h.2⟩
    · split
      · simp only [above, List.all_cons, Bool.and_eq_true]; exact ⟨by simpa using hi, h.2⟩
      · simp only [above, List.all_cons, Bool.and_eq_true]; exact ⟨h.1, ih h.2⟩

theorem above_mono {j k : Nat} {m : List (Nat × α)} (hjk : j < k) (h : above k m = true) : above j m = true := by
  simp only [above, List.all_eq_true, decide_eq_true_eq] at *
  exact fun p hp => lt_trans hjk (h p hp)

theorem wf_erase [DecidableEq α] {d : Nat → α} {m : List (Nat × α)} (k : Nat) (h : wf d m = true) :
    wf d (erase m k) = true := by
  induction m with
  | nil => simp [erase, wf]
  | cons p m ih =>
    obtain ⟨j, v⟩ := p
    simp only [wf, Bool.and_eq_true] at h
    unfold erase
    split
    · exact ih h.2
    · simp only [wf, Bool.and_eq_true]; exact ⟨⟨above_erase k h.1.1, h.1.2⟩, ih h.2⟩

theorem wf_put [DecidableEq α] {d : Nat → α} {m : List (Nat × α)} {k : Nat} {v : α} (hv : v ≠ d k)
    (h : wf d m = true) : wf d (put m k v) = true := by
  induction m with
  | nil => simp [put, wf, above, hv]
  | cons p m ih =>
    obtain ⟨j, w⟩ := p
    have h' := h
    simp only [wf, Bool.and_eq_true] at h
    unfold put
    split
    · rename_i hlt
      simp only [wf, Bool.and_eq_true, above, List.all_cons, decide_eq_true_eq]
      exact ⟨⟨⟨hlt, by simpa [above] using above_mono hlt h.1.1⟩, hv⟩, ⟨by simpa [above] using h.1.1, by simpa using h.1.2⟩, h.2⟩
    · split
      · rename_i he; subst he
        simp only [wf, Bool.and_eq_true, decide_eq_true_eq]; exact ⟨⟨h.1.1, hv⟩, h.2⟩
      · rename_i hlt hne
        simp only [wf, Bool.and_eq_true]
        exact ⟨⟨above_put v (by omega) h.1.1, h.1.2⟩, ih h.2⟩

/-- A write keeps the canonical form. -/
theorem wf_set [DecidableEq α] {d : Nat → α} {m : List (Nat × α)} (k : Nat) (v : α) (h : wf d m = true) :
    wf d (set d m k v) = true := by
  unfold set
  split
  · exact wf_erase k h
  · rename_i hv; exact wf_put hv h

theorem wf_setList [DecidableEq α] {d : Nat → α} (vs : List α) :
    ∀ {m : List (Nat × α)} (k : Nat), wf d m = true → wf d (setList d m k vs) = true := by
  induction vs with
  | nil => intro m k h; simpa [setList] using h
  | cons v vs ih => intro m k h; simpa [setList] using ih (k + 1) (wf_set k v h)

theorem get_setList_of_lt [DecidableEq α] (d : Nat → α) (vs : List α) :
    ∀ (m : List (Nat × α)) (k j : Nat), j < k → get d (setList d m k vs) j = get d m j := by
  induction vs with
  | nil => intro m k j _; rfl
  | cons v vs ih =>
    intro m k j h
    rw [setList, ih _ _ _ (by omega), get_set, if_neg (by omega)]

/-- A write of a list leaves every key outside it alone. -/
theorem get_setList_of_ge [DecidableEq α] (d : Nat → α) (vs : List α) :
    ∀ (m : List (Nat × α)) (k j : Nat), k + vs.length ≤ j → get d (setList d m k vs) j = get d m j := by
  induction vs with
  | nil => intro m k j _; rfl
  | cons v vs ih =>
    intro m k j h
    simp only [List.length_cons] at h
    rw [setList, ih _ _ _ (by omega), get_set, if_neg (by omega)]

end Sys2Proof.Machine.Sparse
end

