-- ==== Sys2Proof/Laws/State.lean ====
section
/-! SUPPORT. What the plainest updates of the state leave alone, field by field and bank by bank, and what they write. -/

namespace Sys2Proof.Machine

variable (s : State)

/-! ### wr -/

@[simp] theorem State.wr_rd (a : Nat) (v : Word) (j : Nat) : (s.wr a v).rd j = if j = a then v else s.rd j := Sparse.get_set _ _ _ _ _
@[simp] theorem State.wr_pending (a : Nat) (v : Word) : (s.wr a v).pending = s.pending := rfl
@[simp] theorem State.wr_queues (a : Nat) (v : Word) : (s.wr a v).queues = s.queues := rfl
@[simp] theorem State.wr_commits (a : Nat) (v : Word) : (s.wr a v).commits = s.commits := rfl
@[simp] theorem State.wr_cpl (a : Nat) (v : Word) : (s.wr a v).cpl = s.cpl := rfl
@[simp] theorem State.wr_tsc (a : Nat) (v : Word) : (s.wr a v).tsc = s.tsc := rfl
@[simp] theorem State.wr_fc (a : Nat) (v : Word) : (s.wr a v).fc = s.fc := rfl
@[simp] theorem State.wr_fcPhase (a : Nat) (v : Word) : (s.wr a v).fcPhase = s.fcPhase := rfl
@[simp] theorem State.wr_free (a : Nat) (v : Word) : (s.wr a v).free = s.free := rfl
@[simp] theorem State.wr_xflags (a : Nat) (v : Word) : (s.wr a v).xflags = s.xflags := rfl
@[simp] theorem State.wr_site (a : Nat) (v : Word) : (s.wr a v).site = s.site := rfl
@[simp] theorem State.wr_lane (a : Nat) (v : Word) : (s.wr a v).lane = s.lane := rfl
@[simp] theorem State.wr_vault (a : Nat) (v : Word) : (s.wr a v).vault = s.vault := rfl
@[simp] theorem State.wr_fab (a : Nat) (v : Word) : (s.wr a v).fab = s.fab := rfl
@[simp] theorem State.wr_wfe (a : Nat) (v : Word) : (s.wr a v).wfe = s.wfe := rfl
@[simp] theorem State.wr_ctl (a : Nat) (v : Word) : (s.wr a v).ctl = s.ctl := rfl
@[simp] theorem State.wr_flash (a : Nat) (v : Word) : (s.wr a v).flash = s.flash := rfl
@[simp] theorem State.wr_dram (a : Nat) (v : Word) : (s.wr a v).dram = s.dram := rfl
@[simp] theorem State.wr_host (a : Nat) (v : Word) : (s.wr a v).host = s.host := rfl
@[simp] theorem State.wr_aon (a : Nat) (v : Word) : (s.wr a v).aon = s.aon := rfl
@[simp] theorem State.wr_bist (a : Nat) (v : Word) : (s.wr a v).bist = s.bist := rfl
@[simp] theorem State.wr_burn (a : Nat) (v : Word) : (s.wr a v).burn = s.burn := rfl
@[simp] theorem State.wr_expo (a : Nat) (v : Word) : (s.wr a v).expo = s.expo := rfl
@[simp] theorem State.wr_cpu (a : Nat) (v : Word) : (s.wr a v).cpu = s.cpu := rfl
@[simp] theorem State.wr_glint (a : Nat) (v : Word) : (s.wr a v).glint = s.glint := rfl
@[simp] theorem State.wr_glintLock (a : Nat) (v : Word) : (s.wr a v).glintLock = s.glintLock := rfl
@[simp] theorem State.wr_pulse (a : Nat) (v : Word) : (s.wr a v).pulse = s.pulse := rfl
@[simp] theorem State.wr_getQ (a : Nat) (v : Word) (j : Nat) : (s.wr a v).getQ j = s.getQ j := rfl
@[simp] theorem State.wr_getSite (a : Nat) (v : Word) (j : Nat) : (s.wr a v).getSite j = s.getSite j := rfl
@[simp] theorem State.wr_getLane (a : Nat) (v : Word) (j : Nat) : (s.wr a v).getLane j = s.getLane j := rfl
@[simp] theorem State.wr_getVault (a : Nat) (v : Word) (j : Nat) : (s.wr a v).getVault j = s.getVault j := rfl
@[simp] theorem State.wr_getFab (a : Nat) (v : Word) (j : Nat) : (s.wr a v).getFab j = s.getFab j := rfl
@[simp] theorem State.wr_getWfe (a : Nat) (v : Word) (j : Nat) : (s.wr a v).getWfe j = s.getWfe j := rfl
@[simp] theorem State.wr_getBist (a : Nat) (v : Word) (j : Nat) : (s.wr a v).getBist j = s.getBist j := rfl
@[simp] theorem State.wr_getExpo (a : Nat) (v : Word) (j : Nat) : (s.wr a v).getExpo j = s.getExpo j := rfl
@[simp] theorem State.wr_getCommit (a : Nat) (v : Word) (j : Nat) : (s.wr a v).getCommit j = s.getCommit j := rfl

/-! ### setQ -/

@[simp] theorem State.setQ_getQ (a : Nat) (q : Queue) (j : Nat) : (s.setQ a q).getQ j = if j = a then q else s.getQ j := Sparse.get_set _ _ _ _ _
@[simp] theorem State.setQ_pending (a : Nat) (q : Queue) : (s.setQ a q).pending = s.pending := rfl
@[simp] theorem State.setQ_regs (a : Nat) (q : Queue) : (s.setQ a q).regs = s.regs := rfl
@[simp] theorem State.setQ_commits (a : Nat) (q : Queue) : (s.setQ a q).commits = s.commits := rfl
@[simp] theorem State.setQ_cpl (a : Nat) (q : Queue) : (s.setQ a q).cpl = s.cpl := rfl
@[simp] theorem State.setQ_tsc (a : Nat) (q : Queue) : (s.setQ a q).tsc = s.tsc := rfl
@[simp] theorem State.setQ_fc (a : Nat) (q : Queue) : (s.setQ a q).fc = s.fc := rfl
@[simp] theorem State.setQ_fcPhase (a : Nat) (q : Queue) : (s.setQ a q).fcPhase = s.fcPhase := rfl
@[simp] theorem State.setQ_free (a : Nat) (q : Queue) : (s.setQ a q).free = s.free := rfl
@[simp] theorem State.setQ_xflags (a : Nat) (q : Queue) : (s.setQ a q).xflags = s.xflags := rfl
@[simp] theorem State.setQ_site (a : Nat) (q : Queue) : (s.setQ a q).site = s.site := rfl
@[simp] theorem State.setQ_lane (a : Nat) (q : Queue) : (s.setQ a q).lane = s.lane := rfl
@[simp] theorem State.setQ_vault (a : Nat) (q : Queue) : (s.setQ a q).vault = s.vault := rfl
@[simp] theorem State.setQ_fab (a : Nat) (q : Queue) : (s.setQ a q).fab = s.fab := rfl
@[simp] theorem State.setQ_wfe (a : Nat) (q : Queue) : (s.setQ a q).wfe = s.wfe := rfl
@[simp] theorem State.setQ_ctl (a : Nat) (q : Queue) : (s.setQ a q).ctl = s.ctl := rfl
@[simp] theorem State.setQ_flash (a : Nat) (q : Queue) : (s.setQ a q).flash = s.flash := rfl
@[simp] theorem State.setQ_dram (a : Nat) (q : Queue) : (s.setQ a q).dram = s.dram := rfl
@[simp] theorem State.setQ_host (a : Nat) (q : Queue) : (s.setQ a q).host = s.host := rfl
@[simp] theorem State.setQ_aon (a : Nat) (q : Queue) : (s.setQ a q).aon = s.aon := rfl
@[simp] theorem State.setQ_bist (a : Nat) (q : Queue) : (s.setQ a q).bist = s.bist := rfl
@[simp] theorem State.setQ_burn (a : Nat) (q : Queue) : (s.setQ a q).burn = s.burn := rfl
@[simp] theorem State.setQ_expo (a : Nat) (q : Queue) : (s.setQ a q).expo = s.expo := rfl
@[simp] theorem State.setQ_cpu (a : Nat) (q : Queue) : (s.setQ a q).cpu = s.cpu := rfl
@[simp] theorem State.setQ_glint (a : Nat) (q : Queue) : (s.setQ a q).glint = s.glint := rfl
@[simp] theorem State.setQ_glintLock (a : Nat) (q : Queue) : (s.setQ a q).glintLock = s.glintLock := rfl
@[simp] theorem State.setQ_pulse (a : Nat) (q : Queue) : (s.setQ a q).pulse = s.pulse := rfl
@[simp] theorem State.setQ_rd (a : Nat) (q : Queue) (j : Nat) : (s.setQ a q).rd j = s.rd j := rfl
@[simp] theorem State.setQ_getSite (a : Nat) (q : Queue) (j : Nat) : (s.setQ a q).getSite j = s.getSite j := rfl
@[simp] theorem State.setQ_getLane (a : Nat) (q : Queue) (j : Nat) : (s.setQ a q).getLane j = s.getLane j := rfl
@[simp] theorem State.setQ_getVault (a : Nat) (q : Queue) (j : Nat) : (s.setQ a q).getVault j = s.getVault j := rfl
@[simp] theorem State.setQ_getFab (a : Nat) (q : Queue) (j : Nat) : (s.setQ a q).getFab j = s.getFab j := rfl
@[simp] theorem State.setQ_getWfe (a : Nat) (q : Queue) (j : Nat) : (s.setQ a q).getWfe j = s.getWfe j := rfl
@[simp] theorem State.setQ_getBist (a : Nat) (q : Queue) (j : Nat) : (s.setQ a q).getBist j = s.getBist j := rfl
@[simp] theorem State.setQ_getExpo (a : Nat) (q : Queue) (j : Nat) : (s.setQ a q).getExpo j = s.getExpo j := rfl
@[simp] theorem State.setQ_getCommit (a : Nat) (q : Queue) (j : Nat) : (s.setQ a q).getCommit j = s.getCommit j := rfl

/-! ### setSite -/

@[simp] theorem State.setSite_getSite (k : Nat) (x : Site) (j : Nat) : (s.setSite k x).getSite j = if j = k then x else s.getSite j := Sparse.get_set _ _ _ _ _
@[simp] theorem State.setSite_pending (k : Nat) (x : Site) : (s.setSite k x).pending = s.pending := rfl
@[simp] theorem State.setSite_regs (k : Nat) (x : Site) : (s.setSite k x).regs = s.regs := rfl
@[simp] theorem State.setSite_queues (k : Nat) (x : Site) : (s.setSite k x).queues = s.queues := rfl
@[simp] theorem State.setSite_commits (k : Nat) (x : Site) : (s.setSite k x).commits = s.commits := rfl
@[simp] theorem State.setSite_cpl (k : Nat) (x : Site) : (s.setSite k x).cpl = s.cpl := rfl
@[simp] theorem State.setSite_tsc (k : Nat) (x : Site) : (s.setSite k x).tsc = s.tsc := rfl
@[simp] theorem State.setSite_fc (k : Nat) (x : Site) : (s.setSite k x).fc = s.fc := rfl
@[simp] theorem State.setSite_fcPhase (k : Nat) (x : Site) : (s.setSite k x).fcPhase = s.fcPhase := rfl
@[simp] theorem State.setSite_free (k : Nat) (x : Site) : (s.setSite k x).free = s.free := rfl
@[simp] theorem State.setSite_xflags (k : Nat) (x : Site) : (s.setSite k x).xflags = s.xflags := rfl
@[simp] theorem State.setSite_lane (k : Nat) (x : Site) : (s.setSite k x).lane = s.lane := rfl
@[simp] theorem State.setSite_vault (k : Nat) (x : Site) : (s.setSite k x).vault = s.vault := rfl
@[simp] theorem State.setSite_fab (k : Nat) (x : Site) : (s.setSite k x).fab = s.fab := rfl
@[simp] theorem State.setSite_wfe (k : Nat) (x : Site) : (s.setSite k x).wfe = s.wfe := rfl
@[simp] theorem State.setSite_ctl (k : Nat) (x : Site) : (s.setSite k x).ctl = s.ctl := rfl
@[simp] theorem State.setSite_flash (k : Nat) (x : Site) : (s.setSite k x).flash = s.flash := rfl
@[simp] theorem State.setSite_dram (k : Nat) (x : Site) : (s.setSite k x).dram = s.dram := rfl
@[simp] theorem State.setSite_host (k : Nat) (x : Site) : (s.setSite k x).host = s.host := rfl
@[simp] theorem State.setSite_aon (k : Nat) (x : Site) : (s.setSite k x).aon = s.aon := rfl
@[simp] theorem State.setSite_bist (k : Nat) (x : Site) : (s.setSite k x).bist = s.bist := rfl
@[simp] theorem State.setSite_burn (k : Nat) (x : Site) : (s.setSite k x).burn = s.burn := rfl
@[simp] theorem State.setSite_expo (k : Nat) (x : Site) : (s.setSite k x).expo = s.expo := rfl
@[simp] theorem State.setSite_cpu (k : Nat) (x : Site) : (s.setSite k x).cpu = s.cpu := rfl
@[simp] theorem State.setSite_glint (k : Nat) (x : Site) : (s.setSite k x).glint = s.glint := rfl
@[simp] theorem State.setSite_glintLock (k : Nat) (x : Site) : (s.setSite k x).glintLock = s.glintLock := rfl
@[simp] theorem State.setSite_pulse (k : Nat) (x : Site) : (s.setSite k x).pulse = s.pulse := rfl
@[simp] theorem State.setSite_rd (k : Nat) (x : Site) (j : Nat) : (s.setSite k x).rd j = s.rd j := rfl
@[simp] theorem State.setSite_getQ (k : Nat) (x : Site) (j : Nat) : (s.setSite k x).getQ j = s.getQ j := rfl
@[simp] theorem State.setSite_getLane (k : Nat) (x : Site) (j : Nat) : (s.setSite k x).getLane j = s.getLane j := rfl
@[simp] theorem State.setSite_getVault (k : Nat) (x : Site) (j : Nat) : (s.setSite k x).getVault j = s.getVault j := rfl
@[simp] theorem State.setSite_getFab (k : Nat) (x : Site) (j : Nat) : (s.setSite k x).getFab j = s.getFab j := rfl
@[simp] theorem State.setSite_getWfe (k : Nat) (x : Site) (j : Nat) : (s.setSite k x).getWfe j = s.getWfe j := rfl
@[simp] theorem State.setSite_getBist (k : Nat) (x : Site) (j : Nat) : (s.setSite k x).getBist j = s.getBist j := rfl
@[simp] theorem State.setSite_getExpo (k : Nat) (x : Site) (j : Nat) : (s.setSite k x).getExpo j = s.getExpo j := rfl
@[simp] theorem State.setSite_getCommit (k : Nat) (x : Site) (j : Nat) : (s.setSite k x).getCommit j = s.getCommit j := rfl
@[simp] theorem State.modSite_getSite (k : Nat) (f : Site → Site) (j : Nat) :
    (s.modSite k f).getSite j = if j = k then f (s.getSite k) else s.getSite j := Sparse.get_set _ _ _ _ _
@[simp] theorem State.modSite_pending (k : Nat) (f : Site → Site) : (s.modSite k f).pending = s.pending := rfl
@[simp] theorem State.modSite_regs (k : Nat) (f : Site → Site) : (s.modSite k f).regs = s.regs := rfl
@[simp] theorem State.modSite_queues (k : Nat) (f : Site → Site) : (s.modSite k f).queues = s.queues := rfl
@[simp] theorem State.modSite_commits (k : Nat) (f : Site → Site) : (s.modSite k f).commits = s.commits := rfl
@[simp] theorem State.modSite_cpl (k : Nat) (f : Site → Site) : (s.modSite k f).cpl = s.cpl := rfl
@[simp] theorem State.modSite_tsc (k : Nat) (f : Site → Site) : (s.modSite k f).tsc = s.tsc := rfl
@[simp] theorem State.modSite_fc (k : Nat) (f : Site → Site) : (s.modSite k f).fc = s.fc := rfl
@[simp] theorem State.modSite_fcPhase (k : Nat) (f : Site → Site) : (s.modSite k f).fcPhase = s.fcPhase := rfl
@[simp] theorem State.modSite_free (k : Nat) (f : Site → Site) : (s.modSite k f).free = s.free := rfl
@[simp] theorem State.modSite_xflags (k : Nat) (f : Site → Site) : (s.modSite k f).xflags = s.xflags := rfl
@[simp] theorem State.modSite_lane (k : Nat) (f : Site → Site) : (s.modSite k f).lane = s.lane := rfl
@[simp] theorem State.modSite_vault (k : Nat) (f : Site → Site) : (s.modSite k f).vault = s.vault := rfl
@[simp] theorem State.modSite_fab (k : Nat) (f : Site → Site) : (s.modSite k f).fab = s.fab := rfl
@[simp] theorem State.modSite_wfe (k : Nat) (f : Site → Site) : (s.modSite k f).wfe = s.wfe := rfl
@[simp] theorem State.modSite_ctl (k : Nat) (f : Site → Site) : (s.modSite k f).ctl = s.ctl := rfl
@[simp] theorem State.modSite_flash (k : Nat) (f : Site → Site) : (s.modSite k f).flash = s.flash := rfl
@[simp] theorem State.modSite_dram (k : Nat) (f : Site → Site) : (s.modSite k f).dram = s.dram := rfl
@[simp] theorem State.modSite_host (k : Nat) (f : Site → Site) : (s.modSite k f).host = s.host := rfl
@[simp] theorem State.modSite_aon (k : Nat) (f : Site → Site) : (s.modSite k f).aon = s.aon := rfl
@[simp] theorem State.modSite_bist (k : Nat) (f : Site → Site) : (s.modSite k f).bist = s.bist := rfl
@[simp] theorem State.modSite_burn (k : Nat) (f : Site → Site) : (s.modSite k f).burn = s.burn := rfl
@[simp] theorem State.modSite_expo (k : Nat) (f : Site → Site) : (s.modSite k f).expo = s.expo := rfl
@[simp] theorem State.modSite_cpu (k : Nat) (f : Site → Site) : (s.modSite k f).cpu = s.cpu := rfl
@[simp] theorem State.modSite_glint (k : Nat) (f : Site → Site) : (s.modSite k f).glint = s.glint := rfl
@[simp] theorem State.modSite_glintLock (k : Nat) (f : Site → Site) : (s.modSite k f).glintLock = s.glintLock := rfl
@[simp] theorem State.modSite_pulse (k : Nat) (f : Site → Site) : (s.modSite k f).pulse = s.pulse := rfl
@[simp] theorem State.modSite_rd (k : Nat) (f : Site → Site) (j : Nat) : (s.modSite k f).rd j = s.rd j := rfl
@[simp] theorem State.modSite_getQ (k : Nat) (f : Site → Site) (j : Nat) : (s.modSite k f).getQ j = s.getQ j := rfl
@[simp] theorem State.modSite_getLane (k : Nat) (f : Site → Site) (j : Nat) : (s.modSite k f).getLane j = s.getLane j := rfl
@[simp] theorem State.modSite_getVault (k : Nat) (f : Site → Site) (j : Nat) : (s.modSite k f).getVault j = s.getVault j := rfl
@[simp] theorem State.modSite_getFab (k : Nat) (f : Site → Site) (j : Nat) : (s.modSite k f).getFab j = s.getFab j := rfl
@[simp] theorem State.modSite_getWfe (k : Nat) (f : Site → Site) (j : Nat) : (s.modSite k f).getWfe j = s.getWfe j := rfl
@[simp] theorem State.modSite_getBist (k : Nat) (f : Site → Site) (j : Nat) : (s.modSite k f).getBist j = s.getBist j := rfl
@[simp] theorem State.modSite_getExpo (k : Nat) (f : Site → Site) (j : Nat) : (s.modSite k f).getExpo j = s.getExpo j := rfl
@[simp] theorem State.modSite_getCommit (k : Nat) (f : Site → Site) (j : Nat) : (s.modSite k f).getCommit j = s.getCommit j := rfl

/-! ### setLane -/

@[simp] theorem State.setLane_getLane (k : Nat) (x : Lane) (j : Nat) : (s.setLane k x).getLane j = if j = k then x else s.getLane j := Sparse.get_set _ _ _ _ _
@[simp] theorem State.setLane_pending (k : Nat) (x : Lane) : (s.setLane k x).pending = s.pending := rfl
@[simp] theorem State.setLane_regs (k : Nat) (x : Lane) : (s.setLane k x).regs = s.regs := rfl
@[simp] theorem State.setLane_queues (k : Nat) (x : Lane) : (s.setLane k x).queues = s.queues := rfl
@[simp] theorem State.setLane_commits (k : Nat) (x : Lane) : (s.setLane k x).commits = s.commits := rfl
@[simp] theorem State.setLane_cpl (k : Nat) (x : Lane) : (s.setLane k x).cpl = s.cpl := rfl
@[simp] theorem State.setLane_tsc (k : Nat) (x : Lane) : (s.setLane k x).tsc = s.tsc := rfl
@[simp] theorem State.setLane_fc (k : Nat) (x : Lane) : (s.setLane k x).fc = s.fc := rfl
@[simp] theorem State.setLane_fcPhase (k : Nat) (x : Lane) : (s.setLane k x).fcPhase = s.fcPhase := rfl
@[simp] theorem State.setLane_free (k : Nat) (x : Lane) : (s.setLane k x).free = s.free := rfl
@[simp] theorem State.setLane_xflags (k : Nat) (x : Lane) : (s.setLane k x).xflags = s.xflags := rfl
@[simp] theorem State.setLane_site (k : Nat) (x : Lane) : (s.setLane k x).site = s.site := rfl
@[simp] theorem State.setLane_vault (k : Nat) (x : Lane) : (s.setLane k x).vault = s.vault := rfl
@[simp] theorem State.setLane_fab (k : Nat) (x : Lane) : (s.setLane k x).fab = s.fab := rfl
@[simp] theorem State.setLane_wfe (k : Nat) (x : Lane) : (s.setLane k x).wfe = s.wfe := rfl
@[simp] theorem State.setLane_ctl (k : Nat) (x : Lane) : (s.setLane k x).ctl = s.ctl := rfl
@[simp] theorem State.setLane_flash (k : Nat) (x : Lane) : (s.setLane k x).flash = s.flash := rfl
@[simp] theorem State.setLane_dram (k : Nat) (x : Lane) : (s.setLane k x).dram = s.dram := rfl
@[simp] theorem State.setLane_host (k : Nat) (x : Lane) : (s.setLane k x).host = s.host := rfl
@[simp] theorem State.setLane_aon (k : Nat) (x : Lane) : (s.setLane k x).aon = s.aon := rfl
@[simp] theorem State.setLane_bist (k : Nat) (x : Lane) : (s.setLane k x).bist = s.bist := rfl
@[simp] theorem State.setLane_burn (k : Nat) (x : Lane) : (s.setLane k x).burn = s.burn := rfl
@[simp] theorem State.setLane_expo (k : Nat) (x : Lane) : (s.setLane k x).expo = s.expo := rfl
@[simp] theorem State.setLane_cpu (k : Nat) (x : Lane) : (s.setLane k x).cpu = s.cpu := rfl
@[simp] theorem State.setLane_glint (k : Nat) (x : Lane) : (s.setLane k x).glint = s.glint := rfl
@[simp] theorem State.setLane_glintLock (k : Nat) (x : Lane) : (s.setLane k x).glintLock = s.glintLock := rfl
@[simp] theorem State.setLane_pulse (k : Nat) (x : Lane) : (s.setLane k x).pulse = s.pulse := rfl
@[simp] theorem State.setLane_rd (k : Nat) (x : Lane) (j : Nat) : (s.setLane k x).rd j = s.rd j := rfl
@[simp] theorem State.setLane_getQ (k : Nat) (x : Lane) (j : Nat) : (s.setLane k x).getQ j = s.getQ j := rfl
@[simp] theorem State.setLane_getSite (k : Nat) (x : Lane) (j : Nat) : (s.setLane k x).getSite j = s.getSite j := rfl
@[simp] theorem State.setLane_getVault (k : Nat) (x : Lane) (j : Nat) : (s.setLane k x).getVault j = s.getVault j := rfl
@[simp] theorem State.setLane_getFab (k : Nat) (x : Lane) (j : Nat) : (s.setLane k x).getFab j = s.getFab j := rfl
@[simp] theorem State.setLane_getWfe (k : Nat) (x : Lane) (j : Nat) : (s.setLane k x).getWfe j = s.getWfe j := rfl
@[simp] theorem State.setLane_getBist (k : Nat) (x : Lane) (j : Nat) : (s.setLane k x).getBist j = s.getBist j := rfl
@[simp] theorem State.setLane_getExpo (k : Nat) (x : Lane) (j : Nat) : (s.setLane k x).getExpo j = s.getExpo j := rfl
@[simp] theorem State.setLane_getCommit (k : Nat) (x : Lane) (j : Nat) : (s.setLane k x).getCommit j = s.getCommit j := rfl
@[simp] theorem State.modLane_getLane (k : Nat) (f : Lane → Lane) (j : Nat) :
    (s.modLane k f).getLane j = if j = k then f (s.getLane k) else s.getLane j := Sparse.get_set _ _ _ _ _
@[simp] theorem State.modLane_pending (k : Nat) (f : Lane → Lane) : (s.modLane k f).pending = s.pending := rfl
@[simp] theorem State.modLane_regs (k : Nat) (f : Lane → Lane) : (s.modLane k f).regs = s.regs := rfl
@[simp] theorem State.modLane_queues (k : Nat) (f : Lane → Lane) : (s.modLane k f).queues = s.queues := rfl
@[simp] theorem State.modLane_commits (k : Nat) (f : Lane → Lane) : (s.modLane k f).commits = s.commits := rfl
@[simp] theorem State.modLane_cpl (k : Nat) (f : Lane → Lane) : (s.modLane k f).cpl = s.cpl := rfl
@[simp] theorem State.modLane_tsc (k : Nat) (f : Lane → Lane) : (s.modLane k f).tsc = s.tsc := rfl
@[simp] theorem State.modLane_fc (k : Nat) (f : Lane → Lane) : (s.modLane k f).fc = s.fc := rfl
@[simp] theorem State.modLane_fcPhase (k : Nat) (f : Lane → Lane) : (s.modLane k f).fcPhase = s.fcPhase := rfl
@[simp] theorem State.modLane_free (k : Nat) (f : Lane → Lane) : (s.modLane k f).free = s.free := rfl
@[simp] theorem State.modLane_xflags (k : Nat) (f : Lane → Lane) : (s.modLane k f).xflags = s.xflags := rfl
@[simp] theorem State.modLane_site (k : Nat) (f : Lane → Lane) : (s.modLane k f).site = s.site := rfl
@[simp] theorem State.modLane_vault (k : Nat) (f : Lane → Lane) : (s.modLane k f).vault = s.vault := rfl
@[simp] theorem State.modLane_fab (k : Nat) (f : Lane → Lane) : (s.modLane k f).fab = s.fab := rfl
@[simp] theorem State.modLane_wfe (k : Nat) (f : Lane → Lane) : (s.modLane k f).wfe = s.wfe := rfl
@[simp] theorem State.modLane_ctl (k : Nat) (f : Lane → Lane) : (s.modLane k f).ctl = s.ctl := rfl
@[simp] theorem State.modLane_flash (k : Nat) (f : Lane → Lane) : (s.modLane k f).flash = s.flash := rfl
@[simp] theorem State.modLane_dram (k : Nat) (f : Lane → Lane) : (s.modLane k f).dram = s.dram := rfl
@[simp] theorem State.modLane_host (k : Nat) (f : Lane → Lane) : (s.modLane k f).host = s.host := rfl
@[simp] theorem State.modLane_aon (k : Nat) (f : Lane → Lane) : (s.modLane k f).aon = s.aon := rfl
@[simp] theorem State.modLane_bist (k : Nat) (f : Lane → Lane) : (s.modLane k f).bist = s.bist := rfl
@[simp] theorem State.modLane_burn (k : Nat) (f : Lane → Lane) : (s.modLane k f).burn = s.burn := rfl
@[simp] theorem State.modLane_expo (k : Nat) (f : Lane → Lane) : (s.modLane k f).expo = s.expo := rfl
@[simp] theorem State.modLane_cpu (k : Nat) (f : Lane → Lane) : (s.modLane k f).cpu = s.cpu := rfl
@[simp] theorem State.modLane_glint (k : Nat) (f : Lane → Lane) : (s.modLane k f).glint = s.glint := rfl
@[simp] theorem State.modLane_glintLock (k : Nat) (f : Lane → Lane) : (s.modLane k f).glintLock = s.glintLock := rfl
@[simp] theorem State.modLane_pulse (k : Nat) (f : Lane → Lane) : (s.modLane k f).pulse = s.pulse := rfl
@[simp] theorem State.modLane_rd (k : Nat) (f : Lane → Lane) (j : Nat) : (s.modLane k f).rd j = s.rd j := rfl
@[simp] theorem State.modLane_getQ (k : Nat) (f : Lane → Lane) (j : Nat) : (s.modLane k f).getQ j = s.getQ j := rfl
@[simp] theorem State.modLane_getSite (k : Nat) (f : Lane → Lane) (j : Nat) : (s.modLane k f).getSite j = s.getSite j := rfl
@[simp] theorem State.modLane_getVault (k : Nat) (f : Lane → Lane) (j : Nat) : (s.modLane k f).getVault j = s.getVault j := rfl
@[simp] theorem State.modLane_getFab (k : Nat) (f : Lane → Lane) (j : Nat) : (s.modLane k f).getFab j = s.getFab j := rfl
@[simp] theorem State.modLane_getWfe (k : Nat) (f : Lane → Lane) (j : Nat) : (s.modLane k f).getWfe j = s.getWfe j := rfl
@[simp] theorem State.modLane_getBist (k : Nat) (f : Lane → Lane) (j : Nat) : (s.modLane k f).getBist j = s.getBist j := rfl
@[simp] theorem State.modLane_getExpo (k : Nat) (f : Lane → Lane) (j : Nat) : (s.modLane k f).getExpo j = s.getExpo j := rfl
@[simp] theorem State.modLane_getCommit (k : Nat) (f : Lane → Lane) (j : Nat) : (s.modLane k f).getCommit j = s.getCommit j := rfl

/-! ### setVault -/

@[simp] theorem State.setVault_getVault (k : Nat) (x : Vault) (j : Nat) : (s.setVault k x).getVault j = if j = k then x else s.getVault j := Sparse.get_set _ _ _ _ _
@[simp] theorem State.setVault_pending (k : Nat) (x : Vault) : (s.setVault k x).pending = s.pending := rfl
@[simp] theorem State.setVault_regs (k : Nat) (x : Vault) : (s.setVault k x).regs = s.regs := rfl
@[simp] theorem State.setVault_queues (k : Nat) (x : Vault) : (s.setVault k x).queues = s.queues := rfl
@[simp] theorem State.setVault_commits (k : Nat) (x : Vault) : (s.setVault k x).commits = s.commits := rfl
@[simp] theorem State.setVault_cpl (k : Nat) (x : Vault) : (s.setVault k x).cpl = s.cpl := rfl
@[simp] theorem State.setVault_tsc (k : Nat) (x : Vault) : (s.setVault k x).tsc = s.tsc := rfl
@[simp] theorem State.setVault_fc (k : Nat) (x : Vault) : (s.setVault k x).fc = s.fc := rfl
@[simp] theorem State.setVault_fcPhase (k : Nat) (x : Vault) : (s.setVault k x).fcPhase = s.fcPhase := rfl
@[simp] theorem State.setVault_free (k : Nat) (x : Vault) : (s.setVault k x).free = s.free := rfl
@[simp] theorem State.setVault_xflags (k : Nat) (x : Vault) : (s.setVault k x).xflags = s.xflags := rfl
@[simp] theorem State.setVault_site (k : Nat) (x : Vault) : (s.setVault k x).site = s.site := rfl
@[simp] theorem State.setVault_lane (k : Nat) (x : Vault) : (s.setVault k x).lane = s.lane := rfl
@[simp] theorem State.setVault_fab (k : Nat) (x : Vault) : (s.setVault k x).fab = s.fab := rfl
@[simp] theorem State.setVault_wfe (k : Nat) (x : Vault) : (s.setVault k x).wfe = s.wfe := rfl
@[simp] theorem State.setVault_ctl (k : Nat) (x : Vault) : (s.setVault k x).ctl = s.ctl := rfl
@[simp] theorem State.setVault_flash (k : Nat) (x : Vault) : (s.setVault k x).flash = s.flash := rfl
@[simp] theorem State.setVault_dram (k : Nat) (x : Vault) : (s.setVault k x).dram = s.dram := rfl
@[simp] theorem State.setVault_host (k : Nat) (x : Vault) : (s.setVault k x).host = s.host := rfl
@[simp] theorem State.setVault_aon (k : Nat) (x : Vault) : (s.setVault k x).aon = s.aon := rfl
@[simp] theorem State.setVault_bist (k : Nat) (x : Vault) : (s.setVault k x).bist = s.bist := rfl
@[simp] theorem State.setVault_burn (k : Nat) (x : Vault) : (s.setVault k x).burn = s.burn := rfl
@[simp] theorem State.setVault_expo (k : Nat) (x : Vault) : (s.setVault k x).expo = s.expo := rfl
@[simp] theorem State.setVault_cpu (k : Nat) (x : Vault) : (s.setVault k x).cpu = s.cpu := rfl
@[simp] theorem State.setVault_glint (k : Nat) (x : Vault) : (s.setVault k x).glint = s.glint := rfl
@[simp] theorem State.setVault_glintLock (k : Nat) (x : Vault) : (s.setVault k x).glintLock = s.glintLock := rfl
@[simp] theorem State.setVault_pulse (k : Nat) (x : Vault) : (s.setVault k x).pulse = s.pulse := rfl
@[simp] theorem State.setVault_rd (k : Nat) (x : Vault) (j : Nat) : (s.setVault k x).rd j = s.rd j := rfl
@[simp] theorem State.setVault_getQ (k : Nat) (x : Vault) (j : Nat) : (s.setVault k x).getQ j = s.getQ j := rfl
@[simp] theorem State.setVault_getSite (k : Nat) (x : Vault) (j : Nat) : (s.setVault k x).getSite j = s.getSite j := rfl
@[simp] theorem State.setVault_getLane (k : Nat) (x : Vault) (j : Nat) : (s.setVault k x).getLane j = s.getLane j := rfl
@[simp] theorem State.setVault_getFab (k : Nat) (x : Vault) (j : Nat) : (s.setVault k x).getFab j = s.getFab j := rfl
@[simp] theorem State.setVault_getWfe (k : Nat) (x : Vault) (j : Nat) : (s.setVault k x).getWfe j = s.getWfe j := rfl
@[simp] theorem State.setVault_getBist (k : Nat) (x : Vault) (j : Nat) : (s.setVault k x).getBist j = s.getBist j := rfl
@[simp] theorem State.setVault_getExpo (k : Nat) (x : Vault) (j : Nat) : (s.setVault k x).getExpo j = s.getExpo j := rfl
@[simp] theorem State.setVault_getCommit (k : Nat) (x : Vault) (j : Nat) : (s.setVault k x).getCommit j = s.getCommit j := rfl
@[simp] theorem State.modVault_getVault (k : Nat) (f : Vault → Vault) (j : Nat) :
    (s.modVault k f).getVault j = if j = k then f (s.getVault k) else s.getVault j := Sparse.get_set _ _ _ _ _
@[simp] theorem State.modVault_pending (k : Nat) (f : Vault → Vault) : (s.modVault k f).pending = s.pending := rfl
@[simp] theorem State.modVault_regs (k : Nat) (f : Vault → Vault) : (s.modVault k f).regs = s.regs := rfl
@[simp] theorem State.modVault_queues (k : Nat) (f : Vault → Vault) : (s.modVault k f).queues = s.queues := rfl
@[simp] theorem State.modVault_commits (k : Nat) (f : Vault → Vault) : (s.modVault k f).commits = s.commits := rfl
@[simp] theorem State.modVault_cpl (k : Nat) (f : Vault → Vault) : (s.modVault k f).cpl = s.cpl := rfl
@[simp] theorem State.modVault_tsc (k : Nat) (f : Vault → Vault) : (s.modVault k f).tsc = s.tsc := rfl
@[simp] theorem State.modVault_fc (k : Nat) (f : Vault → Vault) : (s.modVault k f).fc = s.fc := rfl
@[simp] theorem State.modVault_fcPhase (k : Nat) (f : Vault → Vault) : (s.modVault k f).fcPhase = s.fcPhase := rfl
@[simp] theorem State.modVault_free (k : Nat) (f : Vault → Vault) : (s.modVault k f).free = s.free := rfl
@[simp] theorem State.modVault_xflags (k : Nat) (f : Vault → Vault) : (s.modVault k f).xflags = s.xflags := rfl
@[simp] theorem State.modVault_site (k : Nat) (f : Vault → Vault) : (s.modVault k f).site = s.site := rfl
@[simp] theorem State.modVault_lane (k : Nat) (f : Vault → Vault) : (s.modVault k f).lane = s.lane := rfl
@[simp] theorem State.modVault_fab (k : Nat) (f : Vault → Vault) : (s.modVault k f).fab = s.fab := rfl
@[simp] theorem State.modVault_wfe (k : Nat) (f : Vault → Vault) : (s.modVault k f).wfe = s.wfe := rfl
@[simp] theorem State.modVault_ctl (k : Nat) (f : Vault → Vault) : (s.modVault k f).ctl = s.ctl := rfl
@[simp] theorem State.modVault_flash (k : Nat) (f : Vault → Vault) : (s.modVault k f).flash = s.flash := rfl
@[simp] theorem State.modVault_dram (k : Nat) (f : Vault → Vault) : (s.modVault k f).dram = s.dram := rfl
@[simp] theorem State.modVault_host (k : Nat) (f : Vault → Vault) : (s.modVault k f).host = s.host := rfl
@[simp] theorem State.modVault_aon (k : Nat) (f : Vault → Vault) : (s.modVault k f).aon = s.aon := rfl
@[simp] theorem State.modVault_bist (k : Nat) (f : Vault → Vault) : (s.modVault k f).bist = s.bist := rfl
@[simp] theorem State.modVault_burn (k : Nat) (f : Vault → Vault) : (s.modVault k f).burn = s.burn := rfl
@[simp] theorem State.modVault_expo (k : Nat) (f : Vault → Vault) : (s.modVault k f).expo = s.expo := rfl
@[simp] theorem State.modVault_cpu (k : Nat) (f : Vault → Vault) : (s.modVault k f).cpu = s.cpu := rfl
@[simp] theorem State.modVault_glint (k : Nat) (f : Vault → Vault) : (s.modVault k f).glint = s.glint := rfl
@[simp] theorem State.modVault_glintLock (k : Nat) (f : Vault → Vault) : (s.modVault k f).glintLock = s.glintLock := rfl
@[simp] theorem State.modVault_pulse (k : Nat) (f : Vault → Vault) : (s.modVault k f).pulse = s.pulse := rfl
@[simp] theorem State.modVault_rd (k : Nat) (f : Vault → Vault) (j : Nat) : (s.modVault k f).rd j = s.rd j := rfl
@[simp] theorem State.modVault_getQ (k : Nat) (f : Vault → Vault) (j : Nat) : (s.modVault k f).getQ j = s.getQ j := rfl
@[simp] theorem State.modVault_getSite (k : Nat) (f : Vault → Vault) (j : Nat) : (s.modVault k f).getSite j = s.getSite j := rfl
@[simp] theorem State.modVault_getLane (k : Nat) (f : Vault → Vault) (j : Nat) : (s.modVault k f).getLane j = s.getLane j := rfl
@[simp] theorem State.modVault_getFab (k : Nat) (f : Vault → Vault) (j : Nat) : (s.modVault k f).getFab j = s.getFab j := rfl
@[simp] theorem State.modVault_getWfe (k : Nat) (f : Vault → Vault) (j : Nat) : (s.modVault k f).getWfe j = s.getWfe j := rfl
@[simp] theorem State.modVault_getBist (k : Nat) (f : Vault → Vault) (j : Nat) : (s.modVault k f).getBist j = s.getBist j := rfl
@[simp] theorem State.modVault_getExpo (k : Nat) (f : Vault → Vault) (j : Nat) : (s.modVault k f).getExpo j = s.getExpo j := rfl
@[simp] theorem State.modVault_getCommit (k : Nat) (f : Vault → Vault) (j : Nat) : (s.modVault k f).getCommit j = s.getCommit j := rfl

/-! ### setFab -/

@[simp] theorem State.setFab_getFab (k : Nat) (x : Fabric) (j : Nat) : (s.setFab k x).getFab j = if j = k then x else s.getFab j := Sparse.get_set _ _ _ _ _
@[simp] theorem State.setFab_pending (k : Nat) (x : Fabric) : (s.setFab k x).pending = s.pending := rfl
@[simp] theorem State.setFab_regs (k : Nat) (x : Fabric) : (s.setFab k x).regs = s.regs := rfl
@[simp] theorem State.setFab_queues (k : Nat) (x : Fabric) : (s.setFab k x).queues = s.queues := rfl
@[simp] theorem State.setFab_commits (k : Nat) (x : Fabric) : (s.setFab k x).commits = s.commits := rfl
@[simp] theorem State.setFab_cpl (k : Nat) (x : Fabric) : (s.setFab k x).cpl = s.cpl := rfl
@[simp] theorem State.setFab_tsc (k : Nat) (x : Fabric) : (s.setFab k x).tsc = s.tsc := rfl
@[simp] theorem State.setFab_fc (k : Nat) (x : Fabric) : (s.setFab k x).fc = s.fc := rfl
@[simp] theorem State.setFab_fcPhase (k : Nat) (x : Fabric) : (s.setFab k x).fcPhase = s.fcPhase := rfl
@[simp] theorem State.setFab_free (k : Nat) (x : Fabric) : (s.setFab k x).free = s.free := rfl
@[simp] theorem State.setFab_xflags (k : Nat) (x : Fabric) : (s.setFab k x).xflags = s.xflags := rfl
@[simp] theorem State.setFab_site (k : Nat) (x : Fabric) : (s.setFab k x).site = s.site := rfl
@[simp] theorem State.setFab_lane (k : Nat) (x : Fabric) : (s.setFab k x).lane = s.lane := rfl
@[simp] theorem State.setFab_vault (k : Nat) (x : Fabric) : (s.setFab k x).vault = s.vault := rfl
@[simp] theorem State.setFab_wfe (k : Nat) (x : Fabric) : (s.setFab k x).wfe = s.wfe := rfl
@[simp] theorem State.setFab_ctl (k : Nat) (x : Fabric) : (s.setFab k x).ctl = s.ctl := rfl
@[simp] theorem State.setFab_flash (k : Nat) (x : Fabric) : (s.setFab k x).flash = s.flash := rfl
@[simp] theorem State.setFab_dram (k : Nat) (x : Fabric) : (s.setFab k x).dram = s.dram := rfl
@[simp] theorem State.setFab_host (k : Nat) (x : Fabric) : (s.setFab k x).host = s.host := rfl
@[simp] theorem State.setFab_aon (k : Nat) (x : Fabric) : (s.setFab k x).aon = s.aon := rfl
@[simp] theorem State.setFab_bist (k : Nat) (x : Fabric) : (s.setFab k x).bist = s.bist := rfl
@[simp] theorem State.setFab_burn (k : Nat) (x : Fabric) : (s.setFab k x).burn = s.burn := rfl
@[simp] theorem State.setFab_expo (k : Nat) (x : Fabric) : (s.setFab k x).expo = s.expo := rfl
@[simp] theorem State.setFab_cpu (k : Nat) (x : Fabric) : (s.setFab k x).cpu = s.cpu := rfl
@[simp] theorem State.setFab_glint (k : Nat) (x : Fabric) : (s.setFab k x).glint = s.glint := rfl
@[simp] theorem State.setFab_glintLock (k : Nat) (x : Fabric) : (s.setFab k x).glintLock = s.glintLock := rfl
@[simp] theorem State.setFab_pulse (k : Nat) (x : Fabric) : (s.setFab k x).pulse = s.pulse := rfl
@[simp] theorem State.setFab_rd (k : Nat) (x : Fabric) (j : Nat) : (s.setFab k x).rd j = s.rd j := rfl
@[simp] theorem State.setFab_getQ (k : Nat) (x : Fabric) (j : Nat) : (s.setFab k x).getQ j = s.getQ j := rfl
@[simp] theorem State.setFab_getSite (k : Nat) (x : Fabric) (j : Nat) : (s.setFab k x).getSite j = s.getSite j := rfl
@[simp] theorem State.setFab_getLane (k : Nat) (x : Fabric) (j : Nat) : (s.setFab k x).getLane j = s.getLane j := rfl
@[simp] theorem State.setFab_getVault (k : Nat) (x : Fabric) (j : Nat) : (s.setFab k x).getVault j = s.getVault j := rfl
@[simp] theorem State.setFab_getWfe (k : Nat) (x : Fabric) (j : Nat) : (s.setFab k x).getWfe j = s.getWfe j := rfl
@[simp] theorem State.setFab_getBist (k : Nat) (x : Fabric) (j : Nat) : (s.setFab k x).getBist j = s.getBist j := rfl
@[simp] theorem State.setFab_getExpo (k : Nat) (x : Fabric) (j : Nat) : (s.setFab k x).getExpo j = s.getExpo j := rfl
@[simp] theorem State.setFab_getCommit (k : Nat) (x : Fabric) (j : Nat) : (s.setFab k x).getCommit j = s.getCommit j := rfl
@[simp] theorem State.modFab_getFab (k : Nat) (f : Fabric → Fabric) (j : Nat) :
    (s.modFab k f).getFab j = if j = k then f (s.getFab k) else s.getFab j := Sparse.get_set _ _ _ _ _
@[simp] theorem State.modFab_pending (k : Nat) (f : Fabric → Fabric) : (s.modFab k f).pending = s.pending := rfl
@[simp] theorem State.modFab_regs (k : Nat) (f : Fabric → Fabric) : (s.modFab k f).regs = s.regs := rfl
@[simp] theorem State.modFab_queues (k : Nat) (f : Fabric → Fabric) : (s.modFab k f).queues = s.queues := rfl
@[simp] theorem State.modFab_commits (k : Nat) (f : Fabric → Fabric) : (s.modFab k f).commits = s.commits := rfl
@[simp] theorem State.modFab_cpl (k : Nat) (f : Fabric → Fabric) : (s.modFab k f).cpl = s.cpl := rfl
@[simp] theorem State.modFab_tsc (k : Nat) (f : Fabric → Fabric) : (s.modFab k f).tsc = s.tsc := rfl
@[simp] theorem State.modFab_fc (k : Nat) (f : Fabric → Fabric) : (s.modFab k f).fc = s.fc := rfl
@[simp] theorem State.modFab_fcPhase (k : Nat) (f : Fabric → Fabric) : (s.modFab k f).fcPhase = s.fcPhase := rfl
@[simp] theorem State.modFab_free (k : Nat) (f : Fabric → Fabric) : (s.modFab k f).free = s.free := rfl
@[simp] theorem State.modFab_xflags (k : Nat) (f : Fabric → Fabric) : (s.modFab k f).xflags = s.xflags := rfl
@[simp] theorem State.modFab_site (k : Nat) (f : Fabric → Fabric) : (s.modFab k f).site = s.site := rfl
@[simp] theorem State.modFab_lane (k : Nat) (f : Fabric → Fabric) : (s.modFab k f).lane = s.lane := rfl
@[simp] theorem State.modFab_vault (k : Nat) (f : Fabric → Fabric) : (s.modFab k f).vault = s.vault := rfl
@[simp] theorem State.modFab_wfe (k : Nat) (f : Fabric → Fabric) : (s.modFab k f).wfe = s.wfe := rfl
@[simp] theorem State.modFab_ctl (k : Nat) (f : Fabric → Fabric) : (s.modFab k f).ctl = s.ctl := rfl
@[simp] theorem State.modFab_flash (k : Nat) (f : Fabric → Fabric) : (s.modFab k f).flash = s.flash := rfl
@[simp] theorem State.modFab_dram (k : Nat) (f : Fabric → Fabric) : (s.modFab k f).dram = s.dram := rfl
@[simp] theorem State.modFab_host (k : Nat) (f : Fabric → Fabric) : (s.modFab k f).host = s.host := rfl
@[simp] theorem State.modFab_aon (k : Nat) (f : Fabric → Fabric) : (s.modFab k f).aon = s.aon := rfl
@[simp] theorem State.modFab_bist (k : Nat) (f : Fabric → Fabric) : (s.modFab k f).bist = s.bist := rfl
@[simp] theorem State.modFab_burn (k : Nat) (f : Fabric → Fabric) : (s.modFab k f).burn = s.burn := rfl
@[simp] theorem State.modFab_expo (k : Nat) (f : Fabric → Fabric) : (s.modFab k f).expo = s.expo := rfl
@[simp] theorem State.modFab_cpu (k : Nat) (f : Fabric → Fabric) : (s.modFab k f).cpu = s.cpu := rfl
@[simp] theorem State.modFab_glint (k : Nat) (f : Fabric → Fabric) : (s.modFab k f).glint = s.glint := rfl
@[simp] theorem State.modFab_glintLock (k : Nat) (f : Fabric → Fabric) : (s.modFab k f).glintLock = s.glintLock := rfl
@[simp] theorem State.modFab_pulse (k : Nat) (f : Fabric → Fabric) : (s.modFab k f).pulse = s.pulse := rfl
@[simp] theorem State.modFab_rd (k : Nat) (f : Fabric → Fabric) (j : Nat) : (s.modFab k f).rd j = s.rd j := rfl
@[simp] theorem State.modFab_getQ (k : Nat) (f : Fabric → Fabric) (j : Nat) : (s.modFab k f).getQ j = s.getQ j := rfl
@[simp] theorem State.modFab_getSite (k : Nat) (f : Fabric → Fabric) (j : Nat) : (s.modFab k f).getSite j = s.getSite j := rfl
@[simp] theorem State.modFab_getLane (k : Nat) (f : Fabric → Fabric) (j : Nat) : (s.modFab k f).getLane j = s.getLane j := rfl
@[simp] theorem State.modFab_getVault (k : Nat) (f : Fabric → Fabric) (j : Nat) : (s.modFab k f).getVault j = s.getVault j := rfl
@[simp] theorem State.modFab_getWfe (k : Nat) (f : Fabric → Fabric) (j : Nat) : (s.modFab k f).getWfe j = s.getWfe j := rfl
@[simp] theorem State.modFab_getBist (k : Nat) (f : Fabric → Fabric) (j : Nat) : (s.modFab k f).getBist j = s.getBist j := rfl
@[simp] theorem State.modFab_getExpo (k : Nat) (f : Fabric → Fabric) (j : Nat) : (s.modFab k f).getExpo j = s.getExpo j := rfl
@[simp] theorem State.modFab_getCommit (k : Nat) (f : Fabric → Fabric) (j : Nat) : (s.modFab k f).getCommit j = s.getCommit j := rfl

/-! ### setWfe -/

@[simp] theorem State.setWfe_getWfe (k : Nat) (x : Wfe) (j : Nat) : (s.setWfe k x).getWfe j = if j = k then x else s.getWfe j := Sparse.get_set _ _ _ _ _
@[simp] theorem State.setWfe_pending (k : Nat) (x : Wfe) : (s.setWfe k x).pending = s.pending := rfl
@[simp] theorem State.setWfe_regs (k : Nat) (x : Wfe) : (s.setWfe k x).regs = s.regs := rfl
@[simp] theorem State.setWfe_queues (k : Nat) (x : Wfe) : (s.setWfe k x).queues = s.queues := rfl
@[simp] theorem State.setWfe_commits (k : Nat) (x : Wfe) : (s.setWfe k x).commits = s.commits := rfl
@[simp] theorem State.setWfe_cpl (k : Nat) (x : Wfe) : (s.setWfe k x).cpl = s.cpl := rfl
@[simp] theorem State.setWfe_tsc (k : Nat) (x : Wfe) : (s.setWfe k x).tsc = s.tsc := rfl
@[simp] theorem State.setWfe_fc (k : Nat) (x : Wfe) : (s.setWfe k x).fc = s.fc := rfl
@[simp] theorem State.setWfe_fcPhase (k : Nat) (x : Wfe) : (s.setWfe k x).fcPhase = s.fcPhase := rfl
@[simp] theorem State.setWfe_free (k : Nat) (x : Wfe) : (s.setWfe k x).free = s.free := rfl
@[simp] theorem State.setWfe_xflags (k : Nat) (x : Wfe) : (s.setWfe k x).xflags = s.xflags := rfl
@[simp] theorem State.setWfe_site (k : Nat) (x : Wfe) : (s.setWfe k x).site = s.site := rfl
@[simp] theorem State.setWfe_lane (k : Nat) (x : Wfe) : (s.setWfe k x).lane = s.lane := rfl
@[simp] theorem State.setWfe_vault (k : Nat) (x : Wfe) : (s.setWfe k x).vault = s.vault := rfl
@[simp] theorem State.setWfe_fab (k : Nat) (x : Wfe) : (s.setWfe k x).fab = s.fab := rfl
@[simp] theorem State.setWfe_ctl (k : Nat) (x : Wfe) : (s.setWfe k x).ctl = s.ctl := rfl
@[simp] theorem State.setWfe_flash (k : Nat) (x : Wfe) : (s.setWfe k x).flash = s.flash := rfl
@[simp] theorem State.setWfe_dram (k : Nat) (x : Wfe) : (s.setWfe k x).dram = s.dram := rfl
@[simp] theorem State.setWfe_host (k : Nat) (x : Wfe) : (s.setWfe k x).host = s.host := rfl
@[simp] theorem State.setWfe_aon (k : Nat) (x : Wfe) : (s.setWfe k x).aon = s.aon := rfl
@[simp] theorem State.setWfe_bist (k : Nat) (x : Wfe) : (s.setWfe k x).bist = s.bist := rfl
@[simp] theorem State.setWfe_burn (k : Nat) (x : Wfe) : (s.setWfe k x).burn = s.burn := rfl
@[simp] theorem State.setWfe_expo (k : Nat) (x : Wfe) : (s.setWfe k x).expo = s.expo := rfl
@[simp] theorem State.setWfe_cpu (k : Nat) (x : Wfe) : (s.setWfe k x).cpu = s.cpu := rfl
@[simp] theorem State.setWfe_glint (k : Nat) (x : Wfe) : (s.setWfe k x).glint = s.glint := rfl
@[simp] theorem State.setWfe_glintLock (k : Nat) (x : Wfe) : (s.setWfe k x).glintLock = s.glintLock := rfl
@[simp] theorem State.setWfe_pulse (k : Nat) (x : Wfe) : (s.setWfe k x).pulse = s.pulse := rfl
@[simp] theorem State.setWfe_rd (k : Nat) (x : Wfe) (j : Nat) : (s.setWfe k x).rd j = s.rd j := rfl
@[simp] theorem State.setWfe_getQ (k : Nat) (x : Wfe) (j : Nat) : (s.setWfe k x).getQ j = s.getQ j := rfl
@[simp] theorem State.setWfe_getSite (k : Nat) (x : Wfe) (j : Nat) : (s.setWfe k x).getSite j = s.getSite j := rfl
@[simp] theorem State.setWfe_getLane (k : Nat) (x : Wfe) (j : Nat) : (s.setWfe k x).getLane j = s.getLane j := rfl
@[simp] theorem State.setWfe_getVault (k : Nat) (x : Wfe) (j : Nat) : (s.setWfe k x).getVault j = s.getVault j := rfl
@[simp] theorem State.setWfe_getFab (k : Nat) (x : Wfe) (j : Nat) : (s.setWfe k x).getFab j = s.getFab j := rfl
@[simp] theorem State.setWfe_getBist (k : Nat) (x : Wfe) (j : Nat) : (s.setWfe k x).getBist j = s.getBist j := rfl
@[simp] theorem State.setWfe_getExpo (k : Nat) (x : Wfe) (j : Nat) : (s.setWfe k x).getExpo j = s.getExpo j := rfl
@[simp] theorem State.setWfe_getCommit (k : Nat) (x : Wfe) (j : Nat) : (s.setWfe k x).getCommit j = s.getCommit j := rfl
@[simp] theorem State.modWfe_getWfe (k : Nat) (f : Wfe → Wfe) (j : Nat) :
    (s.modWfe k f).getWfe j = if j = k then f (s.getWfe k) else s.getWfe j := Sparse.get_set _ _ _ _ _
@[simp] theorem State.modWfe_pending (k : Nat) (f : Wfe → Wfe) : (s.modWfe k f).pending = s.pending := rfl
@[simp] theorem State.modWfe_regs (k : Nat) (f : Wfe → Wfe) : (s.modWfe k f).regs = s.regs := rfl
@[simp] theorem State.modWfe_queues (k : Nat) (f : Wfe → Wfe) : (s.modWfe k f).queues = s.queues := rfl
@[simp] theorem State.modWfe_commits (k : Nat) (f : Wfe → Wfe) : (s.modWfe k f).commits = s.commits := rfl
@[simp] theorem State.modWfe_cpl (k : Nat) (f : Wfe → Wfe) : (s.modWfe k f).cpl = s.cpl := rfl
@[simp] theorem State.modWfe_tsc (k : Nat) (f : Wfe → Wfe) : (s.modWfe k f).tsc = s.tsc := rfl
@[simp] theorem State.modWfe_fc (k : Nat) (f : Wfe → Wfe) : (s.modWfe k f).fc = s.fc := rfl
@[simp] theorem State.modWfe_fcPhase (k : Nat) (f : Wfe → Wfe) : (s.modWfe k f).fcPhase = s.fcPhase := rfl
@[simp] theorem State.modWfe_free (k : Nat) (f : Wfe → Wfe) : (s.modWfe k f).free = s.free := rfl
@[simp] theorem State.modWfe_xflags (k : Nat) (f : Wfe → Wfe) : (s.modWfe k f).xflags = s.xflags := rfl
@[simp] theorem State.modWfe_site (k : Nat) (f : Wfe → Wfe) : (s.modWfe k f).site = s.site := rfl
@[simp] theorem State.modWfe_lane (k : Nat) (f : Wfe → Wfe) : (s.modWfe k f).lane = s.lane := rfl
@[simp] theorem State.modWfe_vault (k : Nat) (f : Wfe → Wfe) : (s.modWfe k f).vault = s.vault := rfl
@[simp] theorem State.modWfe_fab (k : Nat) (f : Wfe → Wfe) : (s.modWfe k f).fab = s.fab := rfl
@[simp] theorem State.modWfe_ctl (k : Nat) (f : Wfe → Wfe) : (s.modWfe k f).ctl = s.ctl := rfl
@[simp] theorem State.modWfe_flash (k : Nat) (f : Wfe → Wfe) : (s.modWfe k f).flash = s.flash := rfl
@[simp] theorem State.modWfe_dram (k : Nat) (f : Wfe → Wfe) : (s.modWfe k f).dram = s.dram := rfl
@[simp] theorem State.modWfe_host (k : Nat) (f : Wfe → Wfe) : (s.modWfe k f).host = s.host := rfl
@[simp] theorem State.modWfe_aon (k : Nat) (f : Wfe → Wfe) : (s.modWfe k f).aon = s.aon := rfl
@[simp] theorem State.modWfe_bist (k : Nat) (f : Wfe → Wfe) : (s.modWfe k f).bist = s.bist := rfl
@[simp] theorem State.modWfe_burn (k : Nat) (f : Wfe → Wfe) : (s.modWfe k f).burn = s.burn := rfl
@[simp] theorem State.modWfe_expo (k : Nat) (f : Wfe → Wfe) : (s.modWfe k f).expo = s.expo := rfl
@[simp] theorem State.modWfe_cpu (k : Nat) (f : Wfe → Wfe) : (s.modWfe k f).cpu = s.cpu := rfl
@[simp] theorem State.modWfe_glint (k : Nat) (f : Wfe → Wfe) : (s.modWfe k f).glint = s.glint := rfl
@[simp] theorem State.modWfe_glintLock (k : Nat) (f : Wfe → Wfe) : (s.modWfe k f).glintLock = s.glintLock := rfl
@[simp] theorem State.modWfe_pulse (k : Nat) (f : Wfe → Wfe) : (s.modWfe k f).pulse = s.pulse := rfl
@[simp] theorem State.modWfe_rd (k : Nat) (f : Wfe → Wfe) (j : Nat) : (s.modWfe k f).rd j = s.rd j := rfl
@[simp] theorem State.modWfe_getQ (k : Nat) (f : Wfe → Wfe) (j : Nat) : (s.modWfe k f).getQ j = s.getQ j := rfl
@[simp] theorem State.modWfe_getSite (k : Nat) (f : Wfe → Wfe) (j : Nat) : (s.modWfe k f).getSite j = s.getSite j := rfl
@[simp] theorem State.modWfe_getLane (k : Nat) (f : Wfe → Wfe) (j : Nat) : (s.modWfe k f).getLane j = s.getLane j := rfl
@[simp] theorem State.modWfe_getVault (k : Nat) (f : Wfe → Wfe) (j : Nat) : (s.modWfe k f).getVault j = s.getVault j := rfl
@[simp] theorem State.modWfe_getFab (k : Nat) (f : Wfe → Wfe) (j : Nat) : (s.modWfe k f).getFab j = s.getFab j := rfl
@[simp] theorem State.modWfe_getBist (k : Nat) (f : Wfe → Wfe) (j : Nat) : (s.modWfe k f).getBist j = s.getBist j := rfl
@[simp] theorem State.modWfe_getExpo (k : Nat) (f : Wfe → Wfe) (j : Nat) : (s.modWfe k f).getExpo j = s.getExpo j := rfl
@[simp] theorem State.modWfe_getCommit (k : Nat) (f : Wfe → Wfe) (j : Nat) : (s.modWfe k f).getCommit j = s.getCommit j := rfl

/-! ### setBist -/

@[simp] theorem State.setBist_getBist (k : Nat) (x : Bist) (j : Nat) : (s.setBist k x).getBist j = if j = k then x else s.getBist j := Sparse.get_set _ _ _ _ _
@[simp] theorem State.setBist_pending (k : Nat) (x : Bist) : (s.setBist k x).pending = s.pending := rfl
@[simp] theorem State.setBist_regs (k : Nat) (x : Bist) : (s.setBist k x).regs = s.regs := rfl
@[simp] theorem State.setBist_queues (k : Nat) (x : Bist) : (s.setBist k x).queues = s.queues := rfl
@[simp] theorem State.setBist_commits (k : Nat) (x : Bist) : (s.setBist k x).commits = s.commits := rfl
@[simp] theorem State.setBist_cpl (k : Nat) (x : Bist) : (s.setBist k x).cpl = s.cpl := rfl
@[simp] theorem State.setBist_tsc (k : Nat) (x : Bist) : (s.setBist k x).tsc = s.tsc := rfl
@[simp] theorem State.setBist_fc (k : Nat) (x : Bist) : (s.setBist k x).fc = s.fc := rfl
@[simp] theorem State.setBist_fcPhase (k : Nat) (x : Bist) : (s.setBist k x).fcPhase = s.fcPhase := rfl
@[simp] theorem State.setBist_free (k : Nat) (x : Bist) : (s.setBist k x).free = s.free := rfl
@[simp] theorem State.setBist_xflags (k : Nat) (x : Bist) : (s.setBist k x).xflags = s.xflags := rfl
@[simp] theorem State.setBist_site (k : Nat) (x : Bist) : (s.setBist k x).site = s.site := rfl
@[simp] theorem State.setBist_lane (k : Nat) (x : Bist) : (s.setBist k x).lane = s.lane := rfl
@[simp] theorem State.setBist_vault (k : Nat) (x : Bist) : (s.setBist k x).vault = s.vault := rfl
@[simp] theorem State.setBist_fab (k : Nat) (x : Bist) : (s.setBist k x).fab = s.fab := rfl
@[simp] theorem State.setBist_wfe (k : Nat) (x : Bist) : (s.setBist k x).wfe = s.wfe := rfl
@[simp] theorem State.setBist_ctl (k : Nat) (x : Bist) : (s.setBist k x).ctl = s.ctl := rfl
@[simp] theorem State.setBist_flash (k : Nat) (x : Bist) : (s.setBist k x).flash = s.flash := rfl
@[simp] theorem State.setBist_dram (k : Nat) (x : Bist) : (s.setBist k x).dram = s.dram := rfl
@[simp] theorem State.setBist_host (k : Nat) (x : Bist) : (s.setBist k x).host = s.host := rfl
@[simp] theorem State.setBist_aon (k : Nat) (x : Bist) : (s.setBist k x).aon = s.aon := rfl
@[simp] theorem State.setBist_burn (k : Nat) (x : Bist) : (s.setBist k x).burn = s.burn := rfl
@[simp] theorem State.setBist_expo (k : Nat) (x : Bist) : (s.setBist k x).expo = s.expo := rfl
@[simp] theorem State.setBist_cpu (k : Nat) (x : Bist) : (s.setBist k x).cpu = s.cpu := rfl
@[simp] theorem State.setBist_glint (k : Nat) (x : Bist) : (s.setBist k x).glint = s.glint := rfl
@[simp] theorem State.setBist_glintLock (k : Nat) (x : Bist) : (s.setBist k x).glintLock = s.glintLock := rfl
@[simp] theorem State.setBist_pulse (k : Nat) (x : Bist) : (s.setBist k x).pulse = s.pulse := rfl
@[simp] theorem State.setBist_rd (k : Nat) (x : Bist) (j : Nat) : (s.setBist k x).rd j = s.rd j := rfl
@[simp] theorem State.setBist_getQ (k : Nat) (x : Bist) (j : Nat) : (s.setBist k x).getQ j = s.getQ j := rfl
@[simp] theorem State.setBist_getSite (k : Nat) (x : Bist) (j : Nat) : (s.setBist k x).getSite j = s.getSite j := rfl
@[simp] theorem State.setBist_getLane (k : Nat) (x : Bist) (j : Nat) : (s.setBist k x).getLane j = s.getLane j := rfl
@[simp] theorem State.setBist_getVault (k : Nat) (x : Bist) (j : Nat) : (s.setBist k x).getVault j = s.getVault j := rfl
@[simp] theorem State.setBist_getFab (k : Nat) (x : Bist) (j : Nat) : (s.setBist k x).getFab j = s.getFab j := rfl
@[simp] theorem State.setBist_getWfe (k : Nat) (x : Bist) (j : Nat) : (s.setBist k x).getWfe j = s.getWfe j := rfl
@[simp] theorem State.setBist_getExpo (k : Nat) (x : Bist) (j : Nat) : (s.setBist k x).getExpo j = s.getExpo j := rfl
@[simp] theorem State.setBist_getCommit (k : Nat) (x : Bist) (j : Nat) : (s.setBist k x).getCommit j = s.getCommit j := rfl
@[simp] theorem State.modBist_getBist (k : Nat) (f : Bist → Bist) (j : Nat) :
    (s.modBist k f).getBist j = if j = k then f (s.getBist k) else s.getBist j := Sparse.get_set _ _ _ _ _
@[simp] theorem State.modBist_pending (k : Nat) (f : Bist → Bist) : (s.modBist k f).pending = s.pending := rfl
@[simp] theorem State.modBist_regs (k : Nat) (f : Bist → Bist) : (s.modBist k f).regs = s.regs := rfl
@[simp] theorem State.modBist_queues (k : Nat) (f : Bist → Bist) : (s.modBist k f).queues = s.queues := rfl
@[simp] theorem State.modBist_commits (k : Nat) (f : Bist → Bist) : (s.modBist k f).commits = s.commits := rfl
@[simp] theorem State.modBist_cpl (k : Nat) (f : Bist → Bist) : (s.modBist k f).cpl = s.cpl := rfl
@[simp] theorem State.modBist_tsc (k : Nat) (f : Bist → Bist) : (s.modBist k f).tsc = s.tsc := rfl
@[simp] theorem State.modBist_fc (k : Nat) (f : Bist → Bist) : (s.modBist k f).fc = s.fc := rfl
@[simp] theorem State.modBist_fcPhase (k : Nat) (f : Bist → Bist) : (s.modBist k f).fcPhase = s.fcPhase := rfl
@[simp] theorem State.modBist_free (k : Nat) (f : Bist → Bist) : (s.modBist k f).free = s.free := rfl
@[simp] theorem State.modBist_xflags (k : Nat) (f : Bist → Bist) : (s.modBist k f).xflags = s.xflags := rfl
@[simp] theorem State.modBist_site (k : Nat) (f : Bist → Bist) : (s.modBist k f).site = s.site := rfl
@[simp] theorem State.modBist_lane (k : Nat) (f : Bist → Bist) : (s.modBist k f).lane = s.lane := rfl
@[simp] theorem State.modBist_vault (k : Nat) (f : Bist → Bist) : (s.modBist k f).vault = s.vault := rfl
@[simp] theorem State.modBist_fab (k : Nat) (f : Bist → Bist) : (s.modBist k f).fab = s.fab := rfl
@[simp] theorem State.modBist_wfe (k : Nat) (f : Bist → Bist) : (s.modBist k f).wfe = s.wfe := rfl
@[simp] theorem State.modBist_ctl (k : Nat) (f : Bist → Bist) : (s.modBist k f).ctl = s.ctl := rfl
@[simp] theorem State.modBist_flash (k : Nat) (f : Bist → Bist) : (s.modBist k f).flash = s.flash := rfl
@[simp] theorem State.modBist_dram (k : Nat) (f : Bist → Bist) : (s.modBist k f).dram = s.dram := rfl
@[simp] theorem State.modBist_host (k : Nat) (f : Bist → Bist) : (s.modBist k f).host = s.host := rfl
@[simp] theorem State.modBist_aon (k : Nat) (f : Bist → Bist) : (s.modBist k f).aon = s.aon := rfl
@[simp] theorem State.modBist_burn (k : Nat) (f : Bist → Bist) : (s.modBist k f).burn = s.burn := rfl
@[simp] theorem State.modBist_expo (k : Nat) (f : Bist → Bist) : (s.modBist k f).expo = s.expo := rfl
@[simp] theorem State.modBist_cpu (k : Nat) (f : Bist → Bist) : (s.modBist k f).cpu = s.cpu := rfl
@[simp] theorem State.modBist_glint (k : Nat) (f : Bist → Bist) : (s.modBist k f).glint = s.glint := rfl
@[simp] theorem State.modBist_glintLock (k : Nat) (f : Bist → Bist) : (s.modBist k f).glintLock = s.glintLock := rfl
@[simp] theorem State.modBist_pulse (k : Nat) (f : Bist → Bist) : (s.modBist k f).pulse = s.pulse := rfl
@[simp] theorem State.modBist_rd (k : Nat) (f : Bist → Bist) (j : Nat) : (s.modBist k f).rd j = s.rd j := rfl
@[simp] theorem State.modBist_getQ (k : Nat) (f : Bist → Bist) (j : Nat) : (s.modBist k f).getQ j = s.getQ j := rfl
@[simp] theorem State.modBist_getSite (k : Nat) (f : Bist → Bist) (j : Nat) : (s.modBist k f).getSite j = s.getSite j := rfl
@[simp] theorem State.modBist_getLane (k : Nat) (f : Bist → Bist) (j : Nat) : (s.modBist k f).getLane j = s.getLane j := rfl
@[simp] theorem State.modBist_getVault (k : Nat) (f : Bist → Bist) (j : Nat) : (s.modBist k f).getVault j = s.getVault j := rfl
@[simp] theorem State.modBist_getFab (k : Nat) (f : Bist → Bist) (j : Nat) : (s.modBist k f).getFab j = s.getFab j := rfl
@[simp] theorem State.modBist_getWfe (k : Nat) (f : Bist → Bist) (j : Nat) : (s.modBist k f).getWfe j = s.getWfe j := rfl
@[simp] theorem State.modBist_getExpo (k : Nat) (f : Bist → Bist) (j : Nat) : (s.modBist k f).getExpo j = s.getExpo j := rfl
@[simp] theorem State.modBist_getCommit (k : Nat) (f : Bist → Bist) (j : Nat) : (s.modBist k f).getCommit j = s.getCommit j := rfl

/-! ### setExpo -/

@[simp] theorem State.setExpo_getExpo (k : Nat) (x : Expo) (j : Nat) : (s.setExpo k x).getExpo j = if j = k then x else s.getExpo j := Sparse.get_set _ _ _ _ _
@[simp] theorem State.setExpo_pending (k : Nat) (x : Expo) : (s.setExpo k x).pending = s.pending := rfl
@[simp] theorem State.setExpo_regs (k : Nat) (x : Expo) : (s.setExpo k x).regs = s.regs := rfl
@[simp] theorem State.setExpo_queues (k : Nat) (x : Expo) : (s.setExpo k x).queues = s.queues := rfl
@[simp] theorem State.setExpo_commits (k : Nat) (x : Expo) : (s.setExpo k x).commits = s.commits := rfl
@[simp] theorem State.setExpo_cpl (k : Nat) (x : Expo) : (s.setExpo k x).cpl = s.cpl := rfl
@[simp] theorem State.setExpo_tsc (k : Nat) (x : Expo) : (s.setExpo k x).tsc = s.tsc := rfl
@[simp] theorem State.setExpo_fc (k : Nat) (x : Expo) : (s.setExpo k x).fc = s.fc := rfl
@[simp] theorem State.setExpo_fcPhase (k : Nat) (x : Expo) : (s.setExpo k x).fcPhase = s.fcPhase := rfl
@[simp] theorem State.setExpo_free (k : Nat) (x : Expo) : (s.setExpo k x).free = s.free := rfl
@[simp] theorem State.setExpo_xflags (k : Nat) (x : Expo) : (s.setExpo k x).xflags = s.xflags := rfl
@[simp] theorem State.setExpo_site (k : Nat) (x : Expo) : (s.setExpo k x).site = s.site := rfl
@[simp] theorem State.setExpo_lane (k : Nat) (x : Expo) : (s.setExpo k x).lane = s.lane := rfl
@[simp] theorem State.setExpo_vault (k : Nat) (x : Expo) : (s.setExpo k x).vault = s.vault := rfl
@[simp] theorem State.setExpo_fab (k : Nat) (x : Expo) : (s.setExpo k x).fab = s.fab := rfl
@[simp] theorem State.setExpo_wfe (k : Nat) (x : Expo) : (s.setExpo k x).wfe = s.wfe := rfl
@[simp] theorem State.setExpo_ctl (k : Nat) (x : Expo) : (s.setExpo k x).ctl = s.ctl := rfl
@[simp] theorem State.setExpo_flash (k : Nat) (x : Expo) : (s.setExpo k x).flash = s.flash := rfl
@[simp] theorem State.setExpo_dram (k : Nat) (x : Expo) : (s.setExpo k x).dram = s.dram := rfl
@[simp] theorem State.setExpo_host (k : Nat) (x : Expo) : (s.setExpo k x).host = s.host := rfl
@[simp] theorem State.setExpo_aon (k : Nat) (x : Expo) : (s.setExpo k x).aon = s.aon := rfl
@[simp] theorem State.setExpo_bist (k : Nat) (x : Expo) : (s.setExpo k x).bist = s.bist := rfl
@[simp] theorem State.setExpo_burn (k : Nat) (x : Expo) : (s.setExpo k x).burn = s.burn := rfl
@[simp] theorem State.setExpo_cpu (k : Nat) (x : Expo) : (s.setExpo k x).cpu = s.cpu := rfl
@[simp] theorem State.setExpo_glint (k : Nat) (x : Expo) : (s.setExpo k x).glint = s.glint := rfl
@[simp] theorem State.setExpo_glintLock (k : Nat) (x : Expo) : (s.setExpo k x).glintLock = s.glintLock := rfl
@[simp] theorem State.setExpo_pulse (k : Nat) (x : Expo) : (s.setExpo k x).pulse = s.pulse := rfl
@[simp] theorem State.setExpo_rd (k : Nat) (x : Expo) (j : Nat) : (s.setExpo k x).rd j = s.rd j := rfl
@[simp] theorem State.setExpo_getQ (k : Nat) (x : Expo) (j : Nat) : (s.setExpo k x).getQ j = s.getQ j := rfl
@[simp] theorem State.setExpo_getSite (k : Nat) (x : Expo) (j : Nat) : (s.setExpo k x).getSite j = s.getSite j := rfl
@[simp] theorem State.setExpo_getLane (k : Nat) (x : Expo) (j : Nat) : (s.setExpo k x).getLane j = s.getLane j := rfl
@[simp] theorem State.setExpo_getVault (k : Nat) (x : Expo) (j : Nat) : (s.setExpo k x).getVault j = s.getVault j := rfl
@[simp] theorem State.setExpo_getFab (k : Nat) (x : Expo) (j : Nat) : (s.setExpo k x).getFab j = s.getFab j := rfl
@[simp] theorem State.setExpo_getWfe (k : Nat) (x : Expo) (j : Nat) : (s.setExpo k x).getWfe j = s.getWfe j := rfl
@[simp] theorem State.setExpo_getBist (k : Nat) (x : Expo) (j : Nat) : (s.setExpo k x).getBist j = s.getBist j := rfl
@[simp] theorem State.setExpo_getCommit (k : Nat) (x : Expo) (j : Nat) : (s.setExpo k x).getCommit j = s.getCommit j := rfl

end Sys2Proof.Machine
end

