-- ==== Sys2Proof/Laws/Fields.lean ====
section
/-! SUPPORT. Laws of register fields: a field read after a write of the field, of another field, and bit by bit. -/

namespace Sys2Proof.Machine

theorem fldOf_testBit (w : Word) (lo len i : Nat) :
    (fldOf w lo len).testBit i = (decide (i < len) && w.getLsbD (lo + i)) := by
  simp [fldOf, Nat.testBit_mod_two_pow, Nat.testBit_div_two_pow, BitVec.testBit_toNat, Nat.add_comm]

/-- What a write of a field leaves, bit by bit. -/
theorem setFldOf_getLsbD (w : Word) (lo len v i : Nat) (h : lo + len ≤ 32) :
    (setFldOf w lo len v).getLsbD i = if lo ≤ i ∧ i < lo + len then v.testBit (i - lo) else w.getLsbD i := by
  have hw := w.isLt
  have hsplit : w.toNat = 2 ^ (lo + len) * (w.toNat / 2 ^ (lo + len)) + (2 ^ lo * fldOf w lo len + w.toNat % 2 ^ lo) := by
    have h1 := Nat.div_add_mod w.toNat (2 ^ lo)
    have h2 := Nat.div_add_mod (w.toNat / 2 ^ lo) (2 ^ len)
    rw [Nat.div_div_eq_div_mul, ← pow_add] at h2
    have h3 : 2 ^ lo * (2 ^ len * (w.toNat / 2 ^ (lo + len)) + w.toNat / 2 ^ lo % 2 ^ len)
        = 2 ^ (lo + len) * (w.toNat / 2 ^ (lo + len)) + 2 ^ lo * (w.toNat / 2 ^ lo % 2 ^ len) := by
      rw [Nat.mul_add, ← Nat.mul_assoc, ← pow_add]
    rw [h2] at h3
    simp only [fldOf]; omega
  have hl : w.toNat % 2 ^ lo < 2 ^ lo := Nat.mod_lt _ (by positivity)
  have hv : v % 2 ^ len < 2 ^ len := Nat.mod_lt _ (by positivity)
  have hin : 2 ^ lo * (v % 2 ^ len) + w.toNat % 2 ^ lo < 2 ^ (lo + len) := by
    have : 2 ^ lo * (v % 2 ^ len + 1) ≤ 2 ^ lo * 2 ^ len := Nat.mul_le_mul_left _ hv
    rw [← pow_add] at this; rw [Nat.mul_add] at this; omega
  have hval : w.toNat - fldOf w lo len * 2 ^ lo + v % 2 ^ len * 2 ^ lo
      = 2 ^ (lo + len) * (w.toNat / 2 ^ (lo + len)) + (2 ^ lo * (v % 2 ^ len) + w.toNat % 2 ^ lo) := by
    rw [Nat.mul_comm (fldOf w lo len), Nat.mul_comm (v % 2 ^ len)]; omega
  unfold setFldOf
  rw [BitVec.getLsbD_ofNat, hval, Nat.testBit_two_pow_mul_add _ hin, Nat.testBit_two_pow_mul_add _ hl]
  by_cases hi : i < 32
  · by_cases h1 : i < lo + len
    · by_cases h2 : i < lo
      · simp [hi, h1, h2, Nat.testBit_mod_two_pow, BitVec.testBit_toNat, Nat.not_le.mpr h2]
      · have : i - lo < len := by omega
        simp [hi, h1, h2, Nat.testBit_mod_two_pow, this, Nat.not_lt.mp h2]
    · have : lo + len + (i - (lo + len)) = i := by omega
      rw [if_neg h1, if_neg (by omega), Nat.testBit_div_two_pow, BitVec.testBit_toNat]
      simp only [hi, decide_true, Bool.true_and]
      congr 1; omega
  · have : ¬ (lo ≤ i ∧ i < lo + len) := by omega
    simp [hi, this, BitVec.getLsbD_of_ge _ _ (Nat.not_lt.mp hi)]

/-- A field read after it is written. -/
theorem fldOf_setFldOf (w : Word) (lo len v : Nat) (h : lo + len ≤ 32) :
    fldOf (setFldOf w lo len v) lo len = v % 2 ^ len := by
  apply Nat.eq_of_testBit_eq
  intro i
  rw [fldOf_testBit, setFldOf_getLsbD _ _ _ _ _ h, Nat.testBit_mod_two_pow]
  by_cases hi : i < len
  · simp [hi]
  · simp [hi]

/-- A field read after another field of the register is written. -/
theorem fldOf_setFldOf_other (w : Word) (lo len v lo' len' : Nat) (h : lo + len ≤ 32)
    (hd : lo' + len' ≤ lo ∨ lo + len ≤ lo') : fldOf (setFldOf w lo len v) lo' len' = fldOf w lo' len' := by
  apply Nat.eq_of_testBit_eq
  intro i
  rw [fldOf_testBit, fldOf_testBit, setFldOf_getLsbD _ _ _ _ _ h]
  by_cases hi : i < len'
  · rw [if_neg (by omega)]
  · simp [hi]

variable (s : State)

@[simp] theorem State.setFld_rd (a lo len v b : Nat) :
    (s.setFld a lo len v).rd b = if b = a then setFldOf (s.rd a) lo len v else s.rd b := s.wr_rd a _ b

@[simp] theorem State.setBit_rd (a i : Nat) (x : Bool) (b : Nat) :
    (s.setBit a i x).rd b = if b = a then setFldOf (s.rd a) i 1 (if x then 1 else 0) else s.rd b := s.wr_rd a _ b

@[simp] theorem State.orBits_rd (a : Nat) (m : Word) (b : Nat) :
    (s.orBits a m).rd b = if b = a then s.rd a ||| m else s.rd b := s.wr_rd a _ b

@[simp] theorem State.satAdd_rd (a lo len n b : Nat) :
    (s.satAdd a lo len n).rd b
      = if b = a then setFldOf (s.rd a) lo len (min (s.fld a lo len + n) (2 ^ len - 1)) else s.rd b := s.wr_rd a _ b

@[simp] theorem State.wr64_rd (a v b : Nat) :
    (s.wr64 a v).rd b = if b = a + 4 then BitVec.ofNat 32 (v / 2 ^ 32) else if b = a then BitVec.ofNat 32 v else s.rd b := by
  simp [State.wr64]

/-- A field of a register after a write of one of its fields. -/
theorem State.setFld_fld (a lo len v : Nat) (h : lo + len ≤ 32) : (s.setFld a lo len v).fld a lo len = v % 2 ^ len := by
  simp [State.fld, fldOf_setFldOf _ _ _ _ h]

theorem State.setFld_fld_other (a lo len v b lo' len' : Nat) (h : lo + len ≤ 32)
    (hd : b ≠ a ∨ lo' + len' ≤ lo ∨ lo + len ≤ lo') : (s.setFld a lo len v).fld b lo' len' = s.fld b lo' len' := by
  by_cases hb : b = a
  · subst hb
    have hd' := hd.resolve_left (by simp)
    simp [State.fld, fldOf_setFldOf_other _ _ _ _ _ _ h hd']
  · simp [State.fld, hb]

theorem State.setBit_bit (a i : Nat) (x : Bool) (h : i < 32) : (s.setBit a i x).bit a i = x := by
  have : i + 1 ≤ 32 := by omega
  cases x <;> simp [State.bit, setFldOf_getLsbD _ _ _ _ _ this]

theorem State.setBit_bit_other (a i : Nat) (x : Bool) (b j : Nat) (h : i < 32) (hd : b ≠ a ∨ j ≠ i) :
    (s.setBit a i x).bit b j = s.bit b j := by
  have h1 : i + 1 ≤ 32 := by omega
  by_cases hb : b = a
  · subst hb
    have hd' := hd.resolve_left (by simp)
    have : ¬ (i ≤ j ∧ j < i + 1) := by omega
    rw [State.bit, State.setBit_rd, if_pos rfl, setFldOf_getLsbD _ _ _ _ _ h1, if_neg this, State.bit]
  · simp [State.bit, hb]

end Sys2Proof.Machine
end

