-- ==== Sys2Proof/Laws/Memory.lean ====
section
/-! SUPPORT. Laws of the addressed memories (stacked DRAM, flash, scratchpad, TCM): every operation that writes one keeps its canonical
form, a read after a write gives what was written, and a write leaves every other byte alone. -/

namespace Sys2Proof.Machine

namespace Sparse

variable {α : Type}

theorem above_filter {k : Nat} {m : List (Nat × α)} (p : Nat × α → Bool) (h : above k m = true) : above k (m.filter p) = true := by
  simp only [above, List.all_eq_true, decide_eq_true_eq] at *
  exact fun q hq => h q (List.mem_of_mem_filter hq)

/-- Dropping entries keeps the canonical form. -/
theorem wf_filter [DecidableEq α] {d : Nat → α} (p : Nat × α → Bool) :
    ∀ {m : List (Nat × α)}, wf d m = true → wf d (m.filter p) = true
  | [], h => h
  | (k, v) :: m, h => by
    simp only [wf, Bool.and_eq_true] at h
    rw [List.filter_cons]
    split
    · simp only [wf, Bool.and_eq_true]
      exact ⟨⟨above_filter p h.1.1, h.1.2⟩, wf_filter p h.2⟩
    · exact wf_filter p h.2

theorem wf_foldl_set [DecidableEq α] {d : Nat → α} : ∀ (l : List (Nat × α)) {m : List (Nat × α)}, wf d m = true →
    wf d (l.foldl (fun m p => set d m p.1 p.2) m) = true
  | [], _, h => h
  | p :: l, _, h => wf_foldl_set l (wf_set p.1 p.2 h)

theorem get_foldl_set_of_not_mem [DecidableEq α] (d : Nat → α) : ∀ (l : List (Nat × α)) (m : List (Nat × α)) (j : Nat), (∀ p ∈ l, p.1 ≠ j) →
    get d (l.foldl (fun m p => set d m p.1 p.2) m) j = get d m j
  | [], _, _, _ => rfl
  | p :: l, m, j, h => by
    rw [List.foldl_cons, get_foldl_set_of_not_mem d l _ j (fun q hq => h q (List.mem_cons_of_mem _ hq)), get_set,
      if_neg (fun e => h p List.mem_cons_self e.symm)]

/-- A list that is stored is read back. -/
theorem getList_setList [DecidableEq α] (d : Nat → α) : ∀ (vs : List α) (m : List (Nat × α)) (k : Nat),
    getList d (setList d m k vs) k vs.length = vs
  | [], _, _ => rfl
  | v :: vs, m, k => by
    rw [setList, List.length_cons, getList, get_setList_of_lt _ _ _ _ _ (Nat.lt_succ_self k), getList_setList d vs, get_set, if_pos rfl]

/-- A read of bytes that a write does not reach. -/
theorem getList_congr {d : Nat → α} {m m' : List (Nat × α)} : ∀ (n k : Nat), (∀ j, k ≤ j → j < k + n → get d m j = get d m' j) →
    getList d m k n = getList d m' k n
  | 0, _, _ => rfl
  | n + 1, k, h => by
    rw [getList, getList, h k (Nat.le_refl k) (by omega), getList_congr n (k + 1) (fun j a b => h j (by omega) (by omega))]

end Sparse

variable {s : State}

/-! ### Stacked DRAM -/

theorem setCells_wf (l : List (Nat × Byte)) (h : Dram.wf s.dram = true) : Dram.wf (s.setCells l).dram = true :=
  Sparse.wf_foldl_set l h

theorem setCells_dram_of_not_mem (l : List (Nat × Byte)) (a : Nat) (h : ∀ p ∈ l, p.1 ≠ a) :
    Sparse.get Dram.reset (s.setCells l).dram a = Sparse.get Dram.reset s.dram a :=
  Sparse.get_foldl_set_of_not_mem _ l _ a h

/-- A store to DRAM leaves every other cell as it reads. -/
theorem setCells_cell_of_not_mem (l : List (Nat × Byte)) (a : Nat) (h : ∀ p ∈ l, p.1 ≠ a) : (s.setCells l).cell a = s.cell a := by
  show (match (s.getVault (a / 8192 / 2 ^ 23)).lost with
    | some n => if (s.getVault (a / 8192 / 2 ^ 23)).known.contains (a / 8192 % 2 ^ 23) then Sparse.get Dram.reset (s.setCells l).dram a
      else Config.freeByte (n + a)
    | none => Sparse.get Dram.reset (s.setCells l).dram a) = s.cell a
  rw [setCells_dram_of_not_mem l a h]
  rfl

/-- A byte stored to DRAM is what its cell holds. -/
theorem setCells_get (a : Nat) (b : Byte) : Sparse.get Dram.reset (s.setCells [(a, b)]).dram a = b :=
  (Sparse.get_set _ _ _ _ _).trans (if_pos rfl)

/-- The store of a row, and the clearing of extents, keep the form. -/
theorem setCells_inv (l : List (Nat × Byte)) (h : s.Inv) : (s.setCells l).Inv :=
  ⟨setCells_wf l h.dram, h.flash, h.spd, h.tcm⟩

theorem zeroExtents_inv (l : List (Nat × Nat)) (h : s.Inv) : (s.zeroExtents l).Inv :=
  ⟨Sparse.wf_filter _ h.dram, h.flash, h.spd, h.tcm⟩

/-! ### Flash, scratchpad, TCM -/

theorem flashPut_inv (a : Nat) (l : List Byte) (h : s.Inv) : (s.flashPut a l).Inv :=
  ⟨h.dram, Sparse.wf_setList l a h.flash, h.spd, h.tcm⟩

@[simp] theorem flashBytes_flashPut (a : Nat) (l : List Byte) : (s.flashPut a l).flashBytes a l.length = l :=
  Sparse.getList_setList _ l _ a

theorem flashBytes_flashPut_of_disjoint (a b n : Nat) (l : List Byte) (h : b + n ≤ a ∨ a + l.length ≤ b) :
    (s.flashPut a l).flashBytes b n = s.flashBytes b n :=
  Sparse.getList_congr n b (fun j p q => h.elim (fun h => Sparse.get_setList_of_lt _ _ _ _ _ (by omega))
    (fun h => Sparse.get_setList_of_ge _ _ _ _ _ (by omega)))

theorem spdPut_inv (a : Nat) (l : List Byte) (h : s.Inv) : (s.spdPut a l).Inv :=
  ⟨h.dram, h.flash, Sparse.wf_setList l a h.spd, h.tcm⟩

@[simp] theorem spdBytes_spdPut (a : Nat) (l : List Byte) : (s.spdPut a l).spdBytes a l.length = l :=
  Sparse.getList_setList _ l _ a

theorem spdBytes_spdPut_of_disjoint (a b n : Nat) (l : List Byte) (h : b + n ≤ a ∨ a + l.length ≤ b) :
    (s.spdPut a l).spdBytes b n = s.spdBytes b n :=
  Sparse.getList_congr n b (fun j p q => h.elim (fun h => Sparse.get_setList_of_lt _ _ _ _ _ (by omega))
    (fun h => Sparse.get_setList_of_ge _ _ _ _ _ (by omega)))

/-- A reservation that is broken changes no memory. -/
theorem breakResv_mem (req a n : Nat) : (s.breakResv req a n).dram = s.dram ∧ (s.breakResv req a n).flash = s.flash
    ∧ (s.breakResv req a n).host = s.host ∧ (s.breakResv req a n).cpu.tcm = s.cpu.tcm := by
  unfold State.breakResv
  split <;> exact ⟨rfl, rfl, rfl, rfl⟩

theorem tcmPut_inv (req o : Nat) (l : List Byte) (h : s.Inv) : (s.tcmPut req o l).Inv := by
  unfold State.tcmPut
  obtain ⟨a, b, c, e⟩ := breakResv_mem (s := s.modCpu (fun c => { c with tcm := Sparse.setList (fun _ => 0) c.tcm o l })) req (0x10000000 + o) l.length
  exact ⟨a ▸ h.dram, b ▸ h.flash, c ▸ h.spd, e ▸ Sparse.wf_setList l o h.tcm⟩

@[simp] theorem tcmBytes_tcmPut (req o : Nat) (l : List Byte) : (s.tcmPut req o l).tcmBytes o l.length = l := by
  unfold State.tcmPut State.tcmBytes
  rw [(breakResv_mem req (0x10000000 + o) l.length).2.2.2]
  exact Sparse.getList_setList _ l _ o

/-! ### Reset -/

/-- The memories of the reset state list nothing. -/
theorem reset_memories : State.reset.dram = [] ∧ State.reset.flash = [] ∧ State.reset.host.spd = [] ∧ State.reset.cpu.tcm = [] :=
  ⟨rfl, rfl, rfl, rfl⟩

theorem wf_nil {α : Type} [DecidableEq α] (d : Nat → α) : Sparse.wf d [] = true := rfl

end Sys2Proof.Machine
end

