-- ==== Sys2Proof/Laws/Only.lean ====
section
/-! SUPPORT. What each shared operation can change, once for each: from Only up to a state, Only up to the state after the operation. -/

namespace Sys2Proof.Machine

variable {m : May} {s t : State}

theorem Only.refl (m : May) (s : State) : Only m s s := by
  constructor <;> intros <;> simp

theorem Only.trans {u : State} (h : Only m s t) (g : Only m t u) : Only m s u where
  pending := g.pending.trans h.pending
  glintLock := g.glintLock.trans h.glintLock
  reg a n := (g.reg a n).trans (h.reg a n)
  queue a n := (g.queue a n).trans (h.queue a n)
  commit a n := (g.commit a n).trans (h.commit a n)
  site a n := (g.site a n).trans (h.site a n)
  lane a n := (g.lane a n).trans (h.lane a n)
  vault a n := (g.vault a n).trans (h.vault a n)
  fab a n := (g.fab a n).trans (h.fab a n)
  wfe a n := (g.wfe a n).trans (h.wfe a n)
  bist a n := (g.bist a n).trans (h.bist a n)
  expo a n := (g.expo a n).trans (h.expo a n)
  dram a n := (g.dram a n).trans (h.dram a n)
  flash a n := (g.flash a n).trans (h.flash a n)
  spd a n := (g.spd a n).trans (h.spd a n)
  key a n := (g.key a n).trans (h.key a n)
  time n := ⟨(g.time n).1.trans (h.time n).1, (g.time n).2.1.trans (h.time n).2.1, (g.time n).2.2.trans (h.time n).2.2⟩
  free n := (g.free n).trans (h.free n)
  flags n := (g.flags n).trans (h.flags n)
  ctl n := (g.ctl n).trans (h.ctl n)
  host n := (g.host n).trans (h.host n)
  aon n := (g.aon n).trans (h.aon n)
  cpu n := (g.cpu n).trans (h.cpu n)
  glint n := (g.glint n).trans (h.glint n)
  cpl n := (g.cpl n).trans (h.cpl n)
  burn n := (g.burn n).trans (h.burn n)

/-! ### Registers -/

theorem Only.wr {a : Nat} (v : Word) (h : Only m s t) (ha : m.reg a) : Only m s (t.wr a v) := by
  refine h.trans ?_
  constructor <;> intros <;> first | rfl | exact ⟨rfl, rfl, rfl⟩ | simp_all
  intro he; subst he; contradiction

theorem Only.setFld {a : Nat} (lo len v : Nat) (h : Only m s t) (ha : m.reg a) : Only m s (t.setFld a lo len v) :=
  h.wr _ ha

theorem Only.setBit {a : Nat} (i : Nat) (b : Bool) (h : Only m s t) (ha : m.reg a) : Only m s (t.setBit a i b) :=
  h.wr _ ha

theorem Only.orBits {a : Nat} (w : Word) (h : Only m s t) (ha : m.reg a) : Only m s (t.orBits a w) := h.wr _ ha

theorem Only.satAdd {a : Nat} (lo len n : Nat) (h : Only m s t) (ha : m.reg a) : Only m s (t.satAdd a lo len n) :=
  h.wr _ ha

theorem Only.wr64 {a : Nat} (v : Nat) (h : Only m s t) (ha : m.reg a) (hb : m.reg (a + 4)) : Only m s (t.wr64 a v) :=
  (h.wr _ ha).wr _ hb

/-! ### Banks and queues -/

theorem Only.setQ {a : Nat} (q : Queue) (h : Only m s t) (ha : m.queue a) : Only m s (t.setQ a q) := by
  refine h.trans ?_
  constructor <;> intros <;> first | rfl | exact ⟨rfl, rfl, rfl⟩ | simp_all
  intro he; subst he; contradiction

theorem Only.pushQ {a : Nat} (cap : Nat) (e : Word) (h : Only m s t) (ha : m.queue a) : Only m s (t.pushQ a cap e) := by
  unfold State.pushQ
  dsimp only
  split
  · exact h.setQ _ ha
  · exact h.setQ _ ha

theorem Only.popQ {a : Nat} (h : Only m s t) (ha : m.queue a) : Only m s (t.popQ a) := h.setQ _ ha

theorem Only.setSite {k : Nat} (x : Site) (h : Only m s t) (hk : m.site k) : Only m s (t.setSite k x) := by
  refine h.trans ?_
  constructor <;> intros <;> first | rfl | exact ⟨rfl, rfl, rfl⟩ | simp_all
  intro he; subst he; contradiction

theorem Only.modSite {k : Nat} (f : Site → Site) (h : Only m s t) (hk : m.site k) : Only m s (t.modSite k f) := h.setSite _ hk

theorem Only.setLane {k : Nat} (x : Lane) (h : Only m s t) (hk : m.lane k) : Only m s (t.setLane k x) := by
  refine h.trans ?_
  constructor <;> intros <;> first | rfl | exact ⟨rfl, rfl, rfl⟩ | simp_all
  intro he; subst he; contradiction

theorem Only.modLane {k : Nat} (f : Lane → Lane) (h : Only m s t) (hk : m.lane k) : Only m s (t.modLane k f) := h.setLane _ hk

theorem Only.setVault {k : Nat} (x : Vault) (h : Only m s t) (hk : m.vault k) : Only m s (t.setVault k x) := by
  refine h.trans ?_
  constructor <;> intros <;> first | rfl | exact ⟨rfl, rfl, rfl⟩ | simp_all
  intro he; subst he; contradiction

theorem Only.modVault {k : Nat} (f : Vault → Vault) (h : Only m s t) (hk : m.vault k) : Only m s (t.modVault k f) := h.setVault _ hk

theorem Only.setFab {k : Nat} (x : Fabric) (h : Only m s t) (hk : m.fab k) : Only m s (t.setFab k x) := by
  refine h.trans ?_
  constructor <;> intros <;> first | rfl | exact ⟨rfl, rfl, rfl⟩ | simp_all
  intro he; subst he; contradiction

theorem Only.modFab {k : Nat} (f : Fabric → Fabric) (h : Only m s t) (hk : m.fab k) : Only m s (t.modFab k f) := h.setFab _ hk

theorem Only.setWfe {k : Nat} (x : Wfe) (h : Only m s t) (hk : m.wfe k) : Only m s (t.setWfe k x) := by
  refine h.trans ?_
  constructor <;> intros <;> first | rfl | exact ⟨rfl, rfl, rfl⟩ | simp_all
  intro he; subst he; contradiction

theorem Only.modWfe {k : Nat} (f : Wfe → Wfe) (h : Only m s t) (hk : m.wfe k) : Only m s (t.modWfe k f) := h.setWfe _ hk

theorem Only.setBist {k : Nat} (x : Bist) (h : Only m s t) (hk : m.bist k) : Only m s (t.setBist k x) := by
  refine h.trans ?_
  constructor <;> intros <;> first | rfl | exact ⟨rfl, rfl, rfl⟩ | simp_all
  intro he; subst he; contradiction

theorem Only.modBist {k : Nat} (f : Bist → Bist) (h : Only m s t) (hk : m.bist k) : Only m s (t.modBist k f) := h.setBist _ hk

theorem Only.setExpo {k : Nat} (x : Expo) (h : Only m s t) (hk : m.expo k) : Only m s (t.setExpo k x) := by
  refine h.trans ?_
  constructor <;> intros <;> first | rfl | exact ⟨rfl, rfl, rfl⟩ | simp_all
  intro he; subst he; contradiction

/-! ### Time, free values, events -/

theorem Only.runTo (f : Nat) (h : Only m s t) (ht : m.time) : Only m s (t.runTo f) := by
  unfold State.runTo
  split
  · exact h
  · refine h.trans ?_
    constructor <;> intros <;> first | rfl | exact ⟨rfl, rfl, rfl⟩ | contradiction

theorem Only.tickFree (h : Only m s t) (ht : m.free) : Only m s t.tickFree := by
  refine h.trans ?_
  constructor <;> intros <;> first | rfl | exact ⟨rfl, rfl, rfl⟩ | contradiction

theorem Only.safEvent (src detail : Nat) (h : Only m s t) (hq : m.queue Reg.safEvtLog) (hr : m.reg Reg.safEvtCnt) :
    Only m s (t.safEvent src detail) := by
  have h' : Only m s { t with pulse := { t.pulse with safs := t.pulse.safs + 1 } } := by
    refine h.trans ?_
    constructor <;> intros <;> first | rfl | exact ⟨rfl, rfl, rfl⟩
  exact (h'.pushQ _ _ hq).satAdd _ _ _ hr

theorem Only.integEntry {k e : Nat} (cls cyc detail flags : Nat) (h : Only m s t) (he : e < 16)
    (hr : ∀ a, integRegs k a → m.reg a) : Only m s (t.integEntry k e cls cyc detail flags) := by
  have hl (j : Nat) (hj : j < 24) : m.reg (Reg.glbIntegLog k (8 * e) + j) := by
    refine hr _ (.inr (.inr (.inr ?_)))
    simp only [Reg.glbIntegLog]; omega
  unfold State.integEntry
  exact ((((h.wr64 _ (hl 0 (by omega)) (hl 4 (by omega))).wr _ (hl 8 (by omega))).wr _ (hl 12 (by omega))).wr _
    (hl 16 (by omega))).wr _ (hl 20 (by omega))

theorem Only.integ {k : Nat} (cls cyc detail flags : Nat) (h : Only m s t) (hs : m.site k)
    (hr : ∀ a, integRegs k a → m.reg a) : Only m s (t.integ k cls cyc detail flags) := by
  have hlo : m.reg (if cls < 32 then Reg.glbIntegLo k else Reg.glbIntegHi k) := by
    split
    · exact hr _ (.inl rfl)
    · exact hr _ (.inr (.inl rfl))
  have hc : m.reg (Reg.glbIntegCnt k) := hr _ (.inr (.inr (.inl rfl)))
  unfold State.integ
  dsimp only
  generalize (if cls < 32 then Reg.glbIntegLo k else Reg.glbIntegHi k) = a at hlo ⊢
  split
  · have h1 := (h.setBit (cls % 32) true hlo).satAdd 0 16 1 hc
    split
    · exact h1
    · have h2 := h1.modSite (k := k) (fun x => { x with seen := x.seen ||| BitVec.ofNat 64 (2 ^ cls) }) hs
      split
      · rename_i hu; exact (h2.integEntry _ _ _ _ hu hr).setFld _ _ _ hc
      · exact h2
  · exact h

/-- Do one thing for each of a list. -/
theorem Only.forAll {l : List Nat} {f : State → Nat → State} (h : Only m s t)
    (hf : ∀ u k, k ∈ l → Only m s u → Only m s (f u k)) : Only m s (t.forAll l f) := by
  unfold State.forAll
  induction l generalizing t with
  | nil => exact h
  | cons k l ih =>
    exact ih (hf t k (List.mem_cons_self ..) h) (fun u j hj hu => hf u j (List.mem_cons_of_mem _ hj) hu)

theorem Only.integClear {k : Nat} (h : Only m s t) (hs : m.site k) (hr : ∀ a, integRegs k a → m.reg a) :
    Only m s (t.integClear k) := by
  unfold State.integClear
  refine Only.modSite _ (Only.forAll (((h.wr _ (hr _ (.inl rfl))).wr _ (hr _ (.inr (.inl rfl)))).wr _
    (hr _ (.inr (.inr (.inl rfl))))) ?_) hs
  intro u j hj hu
  refine hu.wr _ (hr _ (.inr (.inr (.inr ?_))))
  have := List.mem_range.mp hj
  simp only [Reg.glbIntegLog]; omega

theorem Only.followSite (k : Nat) (h : Only m s t) (h1 : m.reg Reg.glbSiteState) (h2 : m.reg Reg.fabPenStat)
    (h3 : m.reg Reg.glbMode) : Only m s (t.followSite k) := by
  have h4 := (h.setFld (2 * k) 2 (t.siteStateNow k) h1)
  have h5 := h4.setBit k ((t.setFld Reg.glbSiteState (2 * k) 2 (t.siteStateNow k)).penIso k) h2
  unfold State.followSite
  dsimp only
  split
  · exact h5.setFld _ _ _ h3
  · split
    · exact h5.setFld _ _ _ h3
    · exact h5

/-! ### Writes of a requester -/

theorem Only.setKey {r : Nat} (n : Nat) (h : Only m s t) (hr : m.key r) : Only m s (t.setKey r n) := by
  refine h.trans ?_
  constructor <;> intros <;> first | rfl | exact ⟨rfl, rfl, rfl⟩ | skip
  rename_i j hj
  simp only [State.keyLeft, State.setKey, Sparse.get_set]
  rw [if_neg]
  intro he; subst he; contradiction

theorem Only.txn {r : Nat} (h : Only m s t) (hr : m.key r) : Only m s (t.txn r) := h.setKey _ hr

/-! ### The end of a command -/

theorem HostIf.send_quiet (h : HostIf) (v : Nat) : (h.send v).quiet = h.quiet := by
  unfold HostIf.send
  split
  · rfl
  · split <;> rfl

theorem HostIf.send_spd (h : HostIf) (v : Nat) : (h.send v).spd = h.spd := by
  unfold HostIf.send
  split
  · rfl
  · split <;> rfl

theorem HostIf.send_keyWin (h : HostIf) (v : Nat) : (h.send v).keyWin = h.keyWin := by
  unfold HostIf.send
  split
  · rfl
  · split <;> rfl

theorem State.messages_frame (s0 s1 : State) :
    (s0.messages s1).quiet = s1.host.quiet ∧ (s0.messages s1).spd = s1.host.spd ∧ (s0.messages s1).keyWin = s1.host.keyWin := by
  unfold State.messages
  generalize List.range 41 = l
  have : ∀ (h : HostIf), ((l.foldl (fun h v => if s0.mustSend s1 v then h.send v else h) h).quiet = h.quiet
      ∧ (l.foldl (fun h v => if s0.mustSend s1 v then h.send v else h) h).spd = h.spd
      ∧ (l.foldl (fun h v => if s0.mustSend s1 v then h.send v else h) h).keyWin = h.keyWin) := by
    induction l with
    | nil => exact fun h => ⟨rfl, rfl, rfl⟩
    | cons v l ih =>
      intro h
      simp only [List.foldl_cons]
      split
      · exact ⟨(ih _).1.trans (h.send_quiet v), (ih _).2.1.trans (h.send_spd v), (ih _).2.2.trans (h.send_keyWin v)⟩
      · exact ih h
  exact this _

/-- The end of a command adds messages and shows the events: nothing else. -/
theorem Only.settle (s0 : State) (h : Only m s t) : Only m s (State.settle s0 t) := by
  refine h.trans ?_
  have hm := State.messages_frame s0 t
  constructor <;> intros <;> first | rfl | exact ⟨rfl, rfl, rfl⟩ | exact hm.1 | exact congrArg (Sparse.get _ · _) hm.2.1 | exact congrArg (Sparse.get _ · _) hm.2.2

/-- Every register, queue and bank reads after the end of a command as before it. -/
@[simp] theorem State.settle_rd (s0 s1 : State) (a : Nat) : (State.settle s0 s1).rd a = s1.rd a := rfl
@[simp] theorem State.settle_getQ (s0 s1 : State) (a : Nat) : (State.settle s0 s1).getQ a = s1.getQ a := rfl
@[simp] theorem State.settle_getSite (s0 s1 : State) (a : Nat) : (State.settle s0 s1).getSite a = s1.getSite a := rfl
@[simp] theorem State.settle_getLane (s0 s1 : State) (a : Nat) : (State.settle s0 s1).getLane a = s1.getLane a := rfl
@[simp] theorem State.settle_getVault (s0 s1 : State) (a : Nat) : (State.settle s0 s1).getVault a = s1.getVault a := rfl
@[simp] theorem State.settle_getFab (s0 s1 : State) (a : Nat) : (State.settle s0 s1).getFab a = s1.getFab a := rfl
@[simp] theorem State.settle_getWfe (s0 s1 : State) (a : Nat) : (State.settle s0 s1).getWfe a = s1.getWfe a := rfl
@[simp] theorem State.settle_getBist (s0 s1 : State) (a : Nat) : (State.settle s0 s1).getBist a = s1.getBist a := rfl
@[simp] theorem State.settle_getExpo (s0 s1 : State) (a : Nat) : (State.settle s0 s1).getExpo a = s1.getExpo a := rfl
@[simp] theorem State.settle_getCommit (s0 s1 : State) (a : Nat) : (State.settle s0 s1).getCommit a = s1.getCommit a := rfl
@[simp] theorem State.settle_pending (s0 s1 : State) : (State.settle s0 s1).pending = s1.pending := rfl
@[simp] theorem State.settle_tsc (s0 s1 : State) : (State.settle s0 s1).tsc = s1.tsc := rfl
@[simp] theorem State.settle_fc (s0 s1 : State) : (State.settle s0 s1).fc = s1.fc := rfl
@[simp] theorem State.settle_fcPhase (s0 s1 : State) : (State.settle s0 s1).fcPhase = s1.fcPhase := rfl
@[simp] theorem State.settle_free (s0 s1 : State) : (State.settle s0 s1).free = s1.free := rfl
@[simp] theorem State.settle_xflags (s0 s1 : State) : (State.settle s0 s1).xflags = s1.xflags := rfl
@[simp] theorem State.settle_ctl (s0 s1 : State) : (State.settle s0 s1).ctl = s1.ctl := rfl
@[simp] theorem State.settle_flash (s0 s1 : State) : (State.settle s0 s1).flash = s1.flash := rfl
@[simp] theorem State.settle_dram (s0 s1 : State) : (State.settle s0 s1).dram = s1.dram := rfl
@[simp] theorem State.settle_aon (s0 s1 : State) : (State.settle s0 s1).aon = s1.aon := rfl
@[simp] theorem State.settle_burn (s0 s1 : State) : (State.settle s0 s1).burn = s1.burn := rfl
@[simp] theorem State.settle_cpu (s0 s1 : State) : (State.settle s0 s1).cpu = s1.cpu := rfl
@[simp] theorem State.settle_glint (s0 s1 : State) : (State.settle s0 s1).glint = s1.glint := rfl
@[simp] theorem State.settle_cpl (s0 s1 : State) : (State.settle s0 s1).cpl = s1.cpl := rfl
@[simp] theorem State.settle_glintLock (s0 s1 : State) : (State.settle s0 s1).glintLock = s1.glintLock := rfl

theorem fin_eq (s0 s1 : State) : fin s0 s1 = .next (State.settle s0 s1) := rfl

end Sys2Proof.Machine
end

