-- ==== Sys2Proof/Laws/Seq.lean ====
section
/-! SUPPORT. Laws of the sequencers: what a fetch that nothing hinders leads to, and what issuing cycles changes. -/

namespace Sys2Proof.Machine

variable {m : May} {s t : State}

/-! ### Frames -/

theorem Only.showCycle {k : Nat} (h : Only m s t) (h1 : m.reg (Reg.seqCycleLo k)) (h2 : m.reg (Reg.seqCycleHi k)) :
    Only m s (t.showCycle k) :=
  h.wr64 ((t.getSite k).cycle % 2 ^ 48) h1 (by simpa [Nat.add_right_comm] using h2)

/-- Do one thing for each entry of a list. -/
theorem Only.foldl {α : Type} {l : List α} {f : State → α → State} (h : Only m s t) (hf : ∀ u p, Only m s u → Only m s (f u p)) :
    Only m s (l.foldl f t) := by
  induction l generalizing t with
  | nil => exact h
  | cons p l ih => exact ih (hf t p h)

theorem Only.rowDue {k : Nat} (key n : Nat) (h : Only m s t) (hs : m.site k) (hr : ∀ a, integRegs k a → m.reg a) :
    Only m s (t.rowDue k key n) := by
  unfold State.rowDue
  dsimp only
  split
  · split <;> exact (h.integ _ _ _ _ hs hr).modSite _ hs
  · exact (h.integ _ _ _ _ hs hr).modSite _ hs
  · exact h

theorem Only.rowEarly {k : Nat} (key n : Nat) (h : Only m s t) (hs : m.site k) (hr : ∀ a, integRegs k a → m.reg a) :
    Only m s (t.rowEarly k key n) := by
  have late : Only m s (if (t.getSite k).early.contains key then t
      else (t.integ k 1 n 0).modSite k (fun x => { x with early := key :: x.early })) := by
    split
    · exact h
    · exact (h.integ _ _ _ _ hs hr).modSite _ hs
  unfold State.rowEarly
  dsimp only
  split
  · exact h.rowDue _ _ hs hr
  · split
    · exact h.rowDue _ _ hs hr
    · exact late
  · exact h
  · exact late

theorem Only.spanFills {k : Nat} (sp : Span) (lo hi : Nat) (h : Only m s t) (hs : m.site k) (hr : ∀ a, integRegs k a → m.reg a) :
    Only m s (t.spanFills k sp lo hi) := by
  unfold State.spanFills
  extract_lets mid s1
  have h1 : Only m s s1 := by
    simp only [s1]; split
    · exact h.foldl fun _ _ hu => hu.rowEarly _ _ hs hr
    · exact h
  split
  · exact h1.foldl fun _ _ hu => hu.rowDue _ _ hs hr
  · exact h1

theorem Only.checkFills {k : Nat} (upto : Nat) (h : Only m s t) (hs : m.site k) (hr : ∀ a, integRegs k a → m.reg a) :
    Only m s (t.checkFills k upto) := by
  unfold State.checkFills
  extract_lets x e
  split
  · exact h
  · refine Only.modSite _ ?_ hs
    exact h.foldl fun _ _ hu => hu.spanFills _ _ _ hs hr

theorem Only.checkDue {k : Nat} (h : Only m s t) (hs : m.site k) (hr : ∀ a, integRegs k a → m.reg a) :
    Only m s (t.checkDue k) := h.checkFills _ hs hr

theorem Only.recordDiscard {k : Nat} (sp : Span) (h : Only m s t) (hs : m.site k) (hr : ∀ a, integRegs k a → m.reg a) :
    Only m s (t.recordDiscard k sp) := by
  unfold State.recordDiscard
  split
  · exact h.integ _ _ _ _ hs hr
  · exact h

theorem Only.issue {k : Nat} (w : BitVec 64) (len : Nat) (window sv : Bool) (h : Only m s t) (hs : m.site k) (ht : m.time)
    (hr : ∀ a, issueRegs k a → m.reg a) : Only m s (t.issue k w len window sv) := by
  have hi : ∀ a, integRegs k a → m.reg a := fun a ha => hr a (.inr (.inr (.inr (.inr (.inr (.inr (.inr ha)))))))
  have hx : m.reg (Reg.seqX k 15) := hr _ (.inr (.inr (.inr (.inr (.inr (.inl rfl))))))
  have hc : m.reg (Reg.capStatus k) := hr _ (.inr (.inr (.inr (.inr (.inr (.inr (.inl rfl)))))))
  unfold State.issue
  extract_lets sp s1 s2 s3 s4
  have h1 : Only m s s1 := h.recordDiscard _ hs hi
  have h2 : Only m s s2 := h1.modSite _ hs
  have h3 : Only m s s3 := by
    simp only [s3]; split
    · exact h2.wr _ hx
    · exact h2
  have h4 : Only m s s4 := (h3.setFld _ _ _ hc).setFld _ _ _ hc
  exact ((h4.showCycle (hr _ (.inr (.inl rfl))) (hr _ (.inr (.inr (.inl rfl))))).runTo _ ht).checkDue hs hi

end Sys2Proof.Machine
end

