-- ==== Sys2Proof/WellFormed.lean ====
section
/-! DEFINITION. Which commands the outside world can send: the limits that the spec puts on the operands of a command and that their
types do not already say. -/

namespace Sys2Proof

/-- A request of the host: at most 4,096 bytes read (R356). -/
def readLen (n : Nat) : Bool := decide (1 ≤ n) && decide (n ≤ 4096)

/-- A write of the host: at most 512 bytes in one packet (R356). -/
def writeLen (n : Nat) : Bool := decide (1 ≤ n) && decide (n ≤ 512)

/-- How many units with margin monitors a calibration item references (R468, R473). -/
def calUnits (i : Nat) : Nat := if i < 256 then 17 else if i < 272 then 18 else if i < 528 then 1 else 18

/-- The command can be sent. -/
def wellFormed : Instr → Bool
  | .bar4Read _ n _ _ => readLen n.toNat
  | .bar4Write _ bs _ _ => writeLen bs.length
  | .spdAccess req _ wr n how _ =>
    let len := match wr with
      | some l => l.length
      | none => n.toNat
    (if wr.isSome then writeLen len else readLen len)
      && (if req = 3 then len == 1 || len == 2 || len == 4 else how.use == .plain && !how.user)
      && (match how.use with
        | .plain => true
        | .lr => wr.isNone && len == 4
        | .sc => wr.isSome && len == 4
        | .amo _ => wr.isSome && len == 4)
  | .sinkWrite _ data => writeLen data.length
  | .dmaDescriptorDone _ desc data _ moved _ =>
    (desc.length == 0 || desc.length == 32) && decide (data.length ≤ 0x1000000) && decide (moved ≤ 0x1000000)
  | .dmaTimeout _ desc data moved =>
    (desc.length == 0 || desc.length == 32) && decide (data.length ≤ 0x1000000) && decide (moved ≤ 0x1000000)
  | .telemetrySample _ _ v i => v.length == 23 && i.length == 23
  | .sensorSample _ l => l.length == 16
  | .thermalModelUpdate rows cells => rows.length == 16 && cells.length == 32
  | .marginMeasure _ l => l.length == 4
  | .calibrationRunDone i _ l => l.length == calUnits i && l.all (fun x => x.length == 4)
  | .monitorEntry _ gprs _ => gprs.length == 31
  | .residueInject _ _ _ col _ => decide (col.toNat ≤ 64)
  | .dramTrainingDone _ outcome _ => decide (outcome.toNat ≤ 4)
  | _ => true

end Sys2Proof
end

