-- ==== Sys2Proof/Tests/Slice0.lean ====
section
/-! SUPPORT. Tests: ill-formed operands, worked values of the specification, one step from the queue, and for each statement with
hypotheses a state and operands that meet them (`wit_<statement>`). -/

section

set_option Elab.async false

open Sys2Proof Sys2Proof.Machine

namespace Sys2Proof.Tests

/-- Powered, clocked, mode READY. -/
def base : State :=
  let s : State := ((State.reset.setMode 3).setBit Reg.clkStat 6 false).setBit Reg.glbMode 3 false
  { s with aon := { s.aon with up := true } }

/-- A sequencer instruction (R69). -/
def seqW (op imm aux : Nat) (cnd : Nat := 0) : BitVec 64 := BitVec.ofNat 64 (op * 2 ^ 58 + cnd * 2 ^ 48 + aux * 2 ^ 32 + imm)

/-- Sequencer `k` runs, its next instruction `w` at `pc`. -/
def runAt (k : Nat) (w : BitVec 64) (pc : Nat := 5) (f : Site → Site := id) : State :=
  let s : State := ((base.setMode 4).setSeqState k 3).setFld (Reg.seqPc k) 0 15 pc
  s.modSite k (fun x => f { x with imem := [(pc, w)], cycle := 10, fc0 := 100 })

/-- The vault that holds the row at physical address `a` is in use. -/
def rowOk (s : State) (a : Nat) : State := s.setFld (Reg.vltStat (s.locate a).1) 29 3 2

/-- The host has chosen a BAR4 size. -/
def szz (z : Fin 6) (s : State) : State := { s with host := { s.host with pci := { s.host.pci with conf := { s.host.pci.conf with size := z } } } }

def bud (s : State) : State := s.setFld Reg.pmuStat 0 12 4000

/-- What a Bool can say of a state that is ready for an instruction. -/
theorem canIssue_of {s : State} {k : SiteIx} {w : BitVec 64} {ecc : Ecc} {op len : Nat}
    (h : (s.seqReady k && decide ((s.getSite k).after = .go) && decide (s.imemWord k = w) && decide (seqOp w = op) && seqLegal k w && decide (ecc ≠ .double)
      && ((s.getSite k).ovl.all fun q => decide ((if q.1 then 1 else 0) ≠ s.seqPc k / 0x4000))
      && ((s.getSite k).stopAt.all fun q => decide ((s.getSite k).cycle + len ≤ q.1 ∧ (s.getSite k).cycle < q.1))) = true) :
    s.CanIssue k w ecc op len := by
  simp only [Bool.and_eq_true, decide_eq_true_eq] at h
  obtain ⟨⟨⟨⟨⟨⟨⟨a, go⟩, b⟩, c⟩, d⟩, e⟩, f⟩, g⟩ := h
  refine ⟨a, go, b, c, d, e, fun p r n hp => ?_, fun p n hp => ?_⟩
  · rw [hp] at f
    exact of_decide_eq_true f
  · rw [hp] at g
    exact of_decide_eq_true g
/-! ### Operands that the outside world cannot send -/

theorem test_readLen : wellFormed (.bar4Read 0 1 0 false) = true ∧ wellFormed (.bar4Read 0 4096 0 false) = true ∧ wellFormed (.bar4Read 0 0 0 false) = false
    ∧ wellFormed (.bar4Read 0 4097 0 false) = false ∧ wellFormed (.spdAccess 0 0 none 0 ⟨.plain, false⟩ {}) = false
    ∧ wellFormed (.spdAccess 0 0 none 4 ⟨.lr, false⟩ {}) = false ∧ wellFormed (.spdAccess 3 0 none 4 ⟨.lr, true⟩ {}) = true
    ∧ wellFormed (.spdAccess 3 0 none 8 ⟨.plain, false⟩ {}) = false := by decide

theorem test_writeLen : wellFormed (.bar4Write 0 [1] 0 .good) = true ∧ wellFormed (.bar4Write 0 [] 0 .good) = false
    ∧ wellFormed (.bar4Write 0 (List.replicate 513 0) 0 .good) = false ∧ wellFormed (.spdAccess 0 0 (some []) 4 ⟨.plain, false⟩ {}) = false
    ∧ wellFormed (.spdAccess 3 0 (some [1, 2, 3, 4]) 0 ⟨.sc, false⟩ {}) = true ∧ wellFormed (.spdAccess 3 0 (some [1, 2]) 0 ⟨(.amo .swap), false⟩ {}) = false
    ∧ wellFormed (.sinkWrite 0 []) = false := by decide +kernel

/-- No error on the way. -/
def noObs : DmaObs := {}

theorem test_descriptorLen : wellFormed (.dmaDescriptorDone 0 [] [] false 0 noObs) = true ∧ wellFormed (.dmaDescriptorDone 0 [1] [] false 0 noObs) = false
    ∧ wellFormed (.dmaDescriptorDone 0 [] [] false 0x1000001 noObs) = false ∧ wellFormed (.dmaTimeout 0 [1] [] 0) = false := by decide +kernel

theorem test_samples : wellFormed (.telemetrySample 0 0 (List.replicate 23 0) (List.replicate 23 0)) = true
    ∧ wellFormed (.telemetrySample 0 0 (List.replicate 23 0) []) = false ∧ wellFormed (.sensorSample 0 (List.replicate 15 (0, true))) = false
    ∧ wellFormed (.thermalModelUpdate (List.replicate 16 0) (List.replicate 31 0)) = false ∧ wellFormed (.marginMeasure 0 []) = false := by decide

theorem test_otherOperands : wellFormed (.monitorEntry ⟨0, 0⟩ (List.replicate 30 0) []) = false ∧ wellFormed (.residueInject 0 0 false 64 0) = true
    ∧ wellFormed (.residueInject 0 0 false 65 0) = false ∧ wellFormed (.dramTrainingDone 0 4 []) = true
    ∧ wellFormed (.dramTrainingDone 0 5 []) = false := by decide

/-- The table gives no row bits. -/
theorem test_noBits (n w : Nat) : decodeTableWord n w = none := rfl

/-! ### The worked examples of the spec -/

def digits : List Byte := [0x31, 0x32, 0x33, 0x34, 0x35, 0x36, 0x37, 0x38, 0x39]

/-- R305. -/
theorem test_crc64 : crc64 0 digits = 0x6C40DF5F0B497347 := by decide +kernel

/-- R305. -/
theorem test_crc32c : crc32c digits = 0xE3069283 := by decide +kernel

/-- R304: records 256 and 16,384 of a full image; columns 64 to 127 are invalid. -/
theorem test_frameIndex : frameIndex 0x00100000 = some 256 ∧ frameIndex 0x08000000 = some 16384 ∧ frameIndex 0x04000000 = none := by decide

/-- The steps of the LFSR cell of 04. -/
theorem test_lfsrSteps : (lfsrSteps 0xA3000000 1 (0xB5, false)).1 = 0xA300005A ∧ (lfsrSteps 0xA3000000 6 (0xB5, false)).1 = 0xE3F80002
    ∧ (lfsrSteps 0xA3000000 8 (0xB5, false)).1 = 0x9BFE0000 := by decide

/-- A cell with context word `ins` in effect, its registers `w` in w0 to w15. -/
def cellWith (ins : BitVec 48) (w : BitVec 512) (f : Cell → Cell := id) : State :=
  let s : State := base.putFrame (frameOf 3 (cellKey 1 9 33) 3) ((ins.setWidth 4096) <<< 256)
  s.modFab 3 (fun x => { x with held := false, live := true, ctx := 3, cells := [(cellKey 1 9 33, f { w := w })] })

/-- What cell (9, 33) of F1 holds at the end of the cycle after a command. -/
def cellAfter (r : Res) : Option Cell :=
  match r with
  | .next t => ((t.getFab 3).next.find? (fun p => p.1 == cellKey 1 9 33)).map (fun p => p.2.cell)
  | _ => none

/-- Cell G of 04: w3 and o0 after the cycle. -/
theorem test_cellG : (cellAfter (exec (.cellLfsr 3 true 9 33 0x30C378C7A300 0) (cellWith 0x30C378C7A300 (0xB5 <<< 96)))).map
    (fun c => (c.w.extractLsb' 96 32, c.o0)) = some (0x9BFE0000, 0x9BFE0000) := by decide +kernel

/-- Cell C1 of 04 at its wrap: the count and the terminal indicator in o1. -/
theorem test_cellC1 : (cellAfter (exec (.cellCntUp 3 true 9 33 0x3C0005E00001 0) (cellWith 0x3C0005E00001 (0xFFF + 0xFFF <<< 32)))).map
    (fun c => (c.w.extractLsb' 0 32, c.o0, c.c)) = some (0, 0, true) := by decide +kernel

/-- Cell C2 of 04 converts counts to Gray code. -/
theorem test_gray : toGray 0x0FFE = 0x801 ∧ toGray 0x0FFF = 0x800 ∧ ofGray 0x801 = 0xFFE := by decide

/-- The geometry of the site-6 example of 07. -/
def site6 : CapGeom := .ofRegs 0x06D07FFF 0xF 0x0810 0 0xC100000000 0xC120000000 0

/-- R216, R229: rows of a block, rows of a counter area, and the counters that the example updates. -/
theorem test_capGeom : site6.blockRows = 16384 ∧ site6.areaRows = 28 ∧ site6.ctrAddr 11 1 0x1234 = 0xC12009BA34 ∧ site6.ctrExt.2 = 0xE0000 := by decide

/-- The fail bit of 07 lies in V106, in the row that 09 names. -/
theorem test_locate : State.reset.locate 0xC11648D000 = (106, 142481) := by decide +kernel

/-- R273: the pair of byte 677 with value 0x10 (09). -/
theorem test_lightCode : Rs.pairBits (Rs.checkPair 677 0x10) = 3 := by decide

/-- The entry of VLT_POISON_LOG of 09. -/
theorem test_poisonLog : ((base.poisonLog 106 142481 srcPerCycle true).getQ (Reg.vltPoisonLog 106)).items = [0x8C022C91#32] := by decide +kernel

/-- R244, R246: the search of 08 with policy min, after capture has forced row 10. -/
theorem test_repair :
    let x := rpaSolve { rows := [10], cols := [], r := 1, c := 2, cells := [(400, 55), (700, 60), (700, 61)] } 0x13 1000
    x.result = 2 ∧ x.nodes = 2 ∧ x.sols = [{ rows := [10, 700], cols := [55] }, { rows := [10, 400], cols := [60, 61] }] := by decide +kernel

/-- R425: the budget at VIN = 3.30 V (14). -/
theorem test_budget : State.reset.budgetNow 3300 = 0x5D4 := by decide +kernel

/-- The two entries of 12 meet on every shared link; moved by one slot, the second one does not. -/
def wheel (n : Nat) : State := ((base.wr (Reg.nocSlot 4) 0x833C0801).wr (Reg.nocSlot n) 0x843C0703).wr Reg.nocCtl 1
theorem test_nocSlots : (wheel 5).badField .noc 1 = some 6 ∧ (wheel 6).badField .noc 1 = none := by decide +kernel

/-- R184, R177: kind, tag 0x5 and info of the first lane of 06, as its control field. -/
theorem test_control : frameBody 0 0 5 0x32 / 2 ^ 128 % 2 ^ 14 = 0xC94 := by decide +kernel

/-- R31, R470: the span of the CALWIN of 15 with H = 92. -/
def calwin : State :=
  (base.setSeqState 5 4).modSite 5 (fun x => { x with fc0 := 0, hUse := 92, wait := .calwin 200000 40000 })
theorem test_calwin : calwin.inCalwin 5 300 200092 = true ∧ calwin.inCalwin 5 300 200091 = false := by decide +kernel

/-- What holds of a next state. -/
def nextIs (r : Res) (p : State → Bool) : Bool :=
  match r with
  | .next t => p t
  | _ => false

/-! ### What the spec works out of the clocks, the pairs and the PRBS -/

/-- R5, R433: at divider 12 a fabric cycle is 1.2 bc, so five of them are six bc. -/
def slow : State := base.setFld Reg.clkStat 4 2 1
theorem test_tscAtDivider12 : slow.fdiv = 12 ∧ (slow.runTo 1).tsc = slow.tsc + 2 ∧ ((slow.runTo 1).runTo 5).tsc = slow.tsc + 6 := by decide +kernel

/-- R8: the low word of a writable pair waits for the high word, and both then clear what they name (R450). -/
def flawed : State := (base.wr (Reg.glbIntegLo 3) 0xFF).wr (Reg.glbIntegHi 3) 0xF
theorem test_pairWaits : nextIs (exec (.loWrite 0 (BitVec.ofNat 26 (Reg.glbIntegLo 3)) 0x0F false) flawed)
    (fun t => t.rd (Reg.glbIntegLo 3) == 0xFF && nextIs (exec (.hiWrite 0 (BitVec.ofNat 26 (Reg.glbIntegHi 3)) 3 false) t)
      (fun u => u.rd (Reg.glbIntegLo 3) == 0xF0 && u.rd (Reg.glbIntegHi 3) == 0xC)) = true := by decide +kernel

/-- R196: x^7 + x^6 + 1 repeats after 127 bits, and not after 126. -/
theorem test_prbs7 : ((List.range 12).all fun i => prbsBit 1 0x5A (i + 127) == prbsBit 1 0x5A i) = true
    ∧ ((List.range 12).all fun i => prbsBit 1 0x5A (i + 126) == prbsBit 1 0x5A i) = false := by decide +kernel

/-! ### One step from the queue -/

/-- A step takes the command at the front. -/
theorem test_front : ∀ t, step { base with pending := [.keyWrite 0 0xA5C3, .keyWrite 2 0] } = .next t → t.pending = [.keyWrite 2 0] ∧ t.keyLeft 0 = 8 := by
  intro t h
  cases h
  decide +kernel

/-! ### Hypotheses of the statements whose witness needs no table -/

theorem wit_RegisterAccess_narrow : base.reaches 3 = true ∧ ((0x102 : BitVec 26).toNat % 4 ≠ 0) := by decide +kernel

theorem wit_StepTakesFront : { base with pending := [.readTsc] }.pending = .readTsc :: [] ∧ base.pending = [] ∧ base.busUp = true
    ∧ State.reset.pending = [] ∧ State.reset.busUp = false := by decide +kernel

/-- The receiver of lane 5 holds what its transmitter holds. -/
def round : State := base.modLane 5 (fun x => { x with rxScr := x.txScr })

theorem wit_FrameRoundTrip : round.injArmed 5 = false ∧ round.injArmed (prxWin 5) = false ∧ (round.getLane 5).rxScr = (round.getLane 5).txScr
    ∧ 0 < 4 ∧ (BitVec.ofNat 158 ((round.frameBits 5 3 0 77 0x32).toNat / 4)).toNat = (round.frameBits 5 3 0 77 0x32).toNat / 4 := by decide +kernel

/-- A key write waits; one row of the stacked memory holds a byte. -/
def kept : State := ({ base with pending := [.keyWrite 0 0xA5C3] }).setCells [(0x800, 7)]

theorem wit_MemoriesKept : (∃ t, step kept = .next t ∧ t.keyLeft 0 = 8) ∧ kept.Inv :=
  ⟨⟨_, rfl, by decide +kernel⟩, by constructor <;> decide +kernel⟩

theorem wit_ShapeKept : kept.Shape where
  regs := by decide +kernel
  vault := by decide +kernel
  locks := by decide +kernel
  golden := by decide +kernel
  next := fun _ => List.nodup_nil
  svc := fun _ _ h => nomatch h
  rowReg := fun _ => Nat.zero_lt_succ _
  mnt := fun _ _ h => nomatch h
  commits := fun _ _ h => nomatch h

/-- Entry into SAFE is logged and changes the mode: vectors 35 and 36 (R365, R366). -/
def linked : State := { base with host := { base.host with linkUp := true, msixEnable := true, msixFuncMask := false, msixMask := 0 } }

theorem wit_InterruptsReach : linked.mode = modeREADY ∧ nextIs (exec (.safeEnter 0) linked)
    (fun t => t.mode == modeSAFE && t.host.linkUp && t.host.msgs == [35, 36]) = true := by decide +kernel

/-- The search of 08. -/
def root : RpaNode := { rows := [10], cols := [], r := 1, c := 2, cells := [(400, 55), (700, 60), (700, 61)] }

theorem wit_RepairAnalysis_0 : (rpaSolve root 0x13 1000).sols ≠ [] := by decide +kernel

theorem wit_RepairAnalysis_1 : [(1, 1), (2, 2)].Nodup ∧ ({ rows := [], cols := [], r := 1, c := 0, cells := [(1, 1), (2, 2)] } : RpaNode).settle = none := by
  decide +kernel

/-- Site 0 has issued 12 cycles with capture code 3. -/
def judging : State :=
  base.modSite 0 (fun x => { x with spans := [{ first := 0, len := 12, ctx := 3, tset := 1, cap := 3 }], cycle := 12, fc0 := 100 })

theorem wit_CaptureEvents_1 : ((judging.getSite 0).spanAt 3).isSome = true ∧ ({ fail := 1, unv := 2 } : CycAcc).expBad = false
    ∧ ({ fail := 1, unv := 2 } : CycAcc).disagree = 0 ∧ (judging.getSite 0).cmpBad = false ∧ judging.bit (Reg.capStatus 0) 2 = false
    ∧ capVerdict 3 = true := by decide +kernel

/-! ### Hypotheses over an address alone, of the image sink, and of a bus reload without a golden copy -/

theorem wit_ControlCore_map : (0x10000002 : Word).toNat % 4 ≠ 0 ∧ ((0x80000000 : Word).toNat % 4 = 0 ∧ 0x80000000 ≤ (0x80000000 : Word).toNat)
    ∧ (0x10000000 ≤ (0x1007FFFC : Word).toNat ∧ (0x1007FFFC : Word).toNat < 0x10080000)
    ∧ (0x20000000 ≤ (0x20280000 : Word).toNat ∧ (0x20280000 : Word).toNat < 0x20400000)
    ∧ (0x64000000 ≤ (0x64000000 : Word).toNat ∧ (0x64000000 : Word).toNat < 0x80000000) := by decide

theorem wit_HostMemory_sink : base.reaches 0 = true ∧ 2 ^ 28 ≤ (0x1FFFFFFF : BitVec 29).toNat ∧ 2 ^ 28 ≤ (0x10000000 : BitVec 29).toNat := by decide +kernel

/-- Bus 1 of block 1 has tripped in context 3, and a cell of frame 99,331 drives it. -/
def tripped : State :=
  (base.putFrame 99331 (1#4096 <<< 185)).modFab 3 (fun f => { f with held := false, live := true, ctx := 3, busOff := [{ bus := 5, ctx := 3, permanent := false }] })

theorem wit_FabricEvents_reload : ((tripped.getFab 3).busOff.find? (fun o => o.bus == 5 && !o.permanent)).isSome = true ∧ tripped.goldenValid 3 = false
    ∧ tripped.bit Reg.nocIsoStat 5 = false
    ∧ ((busMates (frameOf 3 (cellKey 0 4 0) 3)).filter (fun g => (frameDrives g (tripped.getFrame g)).contains 5)) = [99331] := by decide +kernel

/-! ### Headers that pass every check of R308 -/

/-- A header without signature: its first 156 bytes, zeros, and its CRC (R301). -/
def header (a : List Byte) (crc : Nat) : List Byte := a ++ List.replicate (96 * 41) 0 ++ leBytes 4 crc

def headerHead (ty regions frames body : Nat) (secs : List (Nat × Nat × Nat)) : List Byte :=
  ((leBytes 4 0x42585250 ++ [0, 1, 0, 0x10, 0x58, 0x50, 0x48, 0x20] ++ leBytes 4 0xFFFFFFFF ++ leBytes 2 ty ++ leBytes 2 regions ++ leBytes 4 frames
    ++ leBytes 4 body ++ leBytes 4 0x40244010 ++ List.replicate 32 0
    ++ secs.flatMap (fun (e : Nat × Nat × Nat) => leBytes 4 e.1 ++ leBytes 4 e.2.1 ++ leBytes 8 e.2.2) ++ List.replicate 32 0 : List Byte)).take 156

def crcStep (c : Nat) (b : Byte) : Nat := crc32Bits 8 (c ^^^ b.toNat)
def crcZeros (c n : Nat) : Nat := (List.replicate n (0 : Byte)).foldl crcStep c

/-- What 96 zeros give of `c`, 96 more of that, and so on. -/
def chained : Nat → List Nat → Bool
  | _, [] => true
  | c, d :: l => crcZeros c 96 == d && chained d l

theorem crcZeros_chained : ∀ (l : List Nat) (c : Nat), chained c l = true → crcZeros c (96 * l.length) = (c :: l).getLast (List.cons_ne_nil c l)
  | [], _, _ => rfl
  | d :: l, c, h => by
    obtain ⟨h1, h2⟩ := Bool.and_eq_true_iff.mp h
    rw [List.length_cons, Nat.mul_succ, Nat.add_comm, List.getLast_cons_cons, ← crcZeros_chained l d h2, ← eq_of_beq h1]
    simp only [crcZeros, ← List.replicate_append_replicate, List.foldl_append]

theorem crc_zeros {a : List Byte} {crc c : Nat} {l : List Nat} (hs : a.foldl crcStep 0xFFFFFFFF = c) (hc : chained c l = true)
    (he : (c :: l).getLast (List.cons_ne_nil c l) ^^^ 0xFFFFFFFF = crc) : crc32c (a ++ List.replicate (96 * l.length) 0) = crc := by
  rw [← he, ← crcZeros_chained l c hc, ← hs, crc32c, List.foldl_append]
  rfl

theorem header_crc {a : List Byte} {crc c : Nat} {l : List Nat} (ha : a.length = 156) (hs : a.foldl crcStep 0xFFFFFFFF = c) (hc : chained c l = true)
    (hn : l.length = 41) (hr : ofLe (leBytes 4 crc) = crc) (he : (c :: l).getLast (List.cons_ne_nil c l) ^^^ 0xFFFFFFFF = crc) :
    crc32c ((header a crc).take 0xFFC) = leAt (header a crc) 0xFFC 4 := by
  have hl : (a ++ List.replicate (96 * l.length) (0 : Byte)).length = 0xFFC := by rw [List.length_append, List.length_replicate, ha, hn]
  have hk : (leBytes 4 crc).take 4 = leBytes 4 crc := List.take_of_length_le (Nat.le_refl _)
  have hh : header a crc = (a ++ List.replicate (96 * l.length) (0 : Byte)) ++ leBytes 4 crc := by rw [hn]; rfl
  rw [hh, leAt, List.drop_left' hl, List.take_left' hl, hk, hr, crc_zeros hs hc he]

def stagedHead : List Byte := headerHead 2 4 2 1248 [(2, 0, 16), (4, 16, 128), (6, 144, 64), (7, 208, 1040)]
def streamedHead : List Byte := headerHead 2 0x8004 2 1392 [(2, 0, 32), (4, 32, 256), (6, 288, 64), (7, 352, 1040)]
def fullHead : List Byte := headerHead 1 0xFFFF 524288 289410320 [(1, 0, 16), (2, 16, 256), (3, 272, 1024), (4, 1296, 2048), (6, 3344, 16777216),
  (7, 16780560, 272629760)]

/-- The configuration controller has taken the bytes of a header. -/
def headed (h : List Byte) (streamed : Word) : State :=
  let s : State := (List.range 16).foldl (fun s j => s.setFld (Reg.vltStat (240 + j)) 29 3 2) base
  let s := ((s.setBit Reg.glbStartup 7 true).setBit Reg.glbStartup 8 false).setBit Reg.glbMode 5 true
  let s := (((s.setLoadState 1).setBit Reg.glbVariant 4 false).wr (Reg.cfgStageLen + 0x200) 0x10000).wr (Reg.cfgCfg + 0x200) streamed
  s.modLoad (fun l => { l with buf := h })

def stagedSteps : List Nat :=
  [928100569, 2543168316, 4124924160, 2875958943, 1323341150, 3283304886, 2168205897, 2546609176, 2777544933, 210139091, 2706365687,
  2501035574, 3368332073, 3153096872, 2130199505, 3464450250, 4235940617, 617877992, 416267821, 691032585, 2568700895, 2484984713,
  1707425383, 1305762736, 3150143991, 1702063083, 105521073, 1368705475, 3041331146, 4152802116, 1476704216, 1507803116, 598798798,
  1251647996, 2770282664, 4289317327, 103831460, 427992482, 835186261, 1642515153, 2370160880]
theorem staged_crc : crc32c ((header stagedHead 1924806415).take 0xFFC) = leAt (header stagedHead 1924806415) 0xFFC 4 :=
  header_crc (l := stagedSteps) (c := 3079306738) (by decide +kernel) (by decide +kernel) (by decide +kernel) rfl (by decide +kernel) (by decide +kernel)
theorem staged_shape : headerShape (header stagedHead 1924806415) = true := by decide +kernel
theorem wit_ImageChecks_staged : (headed (header stagedHead 1924806415) 0).headerCode (header stagedHead 1924806415) = none := by
  unfold State.headerCode
  rw [staged_crc, staged_shape]
  decide +kernel

def streamedSteps : List Nat :=
  [3836501255, 389016599, 1988333751, 411289881, 1788194182, 1855764420, 1097533121, 1593784483, 1233112160, 680823485, 2439757719,
  1053622498, 2746049726, 411140836, 1929111458, 1276201403, 406179761, 2366916379, 1924112173, 2511943194, 958250410, 1399631524,
  3098526769, 506839199, 2545943668, 1782046365, 474995773, 3926631591, 876939724, 2368856738, 357873633, 2843977738, 625825356,
  4066169518, 1065881384, 1112504537, 2718595788, 3112835671, 1561494776, 111152478, 2564032314]
theorem streamed_crc : crc32c ((header streamedHead 1730934981).take 0xFFC) = leAt (header streamedHead 1730934981) 0xFFC 4 :=
  header_crc (l := streamedSteps) (c := 740372185) (by decide +kernel) (by decide +kernel) (by decide +kernel) rfl (by decide +kernel) (by decide +kernel)
theorem streamed_shape : headerShape (header streamedHead 1730934981) = true := by decide +kernel
theorem wit_ImageChecks_streamed : (headed (header streamedHead 1730934981) 1).headerCode (header streamedHead 1730934981) = none := by
  unfold State.headerCode
  rw [streamed_crc, streamed_shape]
  decide +kernel

def fullSteps : List Nat :=
  [2782592662, 646610048, 1353361679, 2744831047, 3089176545, 1307665918, 1150392350, 1375049829, 2321278917, 3718451933, 2933967637,
  2343741711, 1235576880, 2727259497, 2692383230, 2182165137, 3227956329, 2706845325, 616300936, 3058589232, 775665145, 128172322,
  3542885039, 3309882096, 3439413035, 2032851987, 4241663738, 873589728, 1808108931, 2815397196, 2367559889, 1293626696, 3340572519,
  1015297280, 1099237243, 1697053369, 4252291226, 1923948096, 662928624, 3034322497, 2064645521]
theorem full_crc : crc32c ((header fullHead 2230321774).take 0xFFC) = leAt (header fullHead 2230321774) 0xFFC 4 :=
  header_crc (l := fullSteps) (c := 2868763894) (by decide +kernel) (by decide +kernel) (by decide +kernel) rfl (by decide +kernel) (by decide +kernel)
theorem full_shape : headerShape (header fullHead 2230321774) = true := by decide +kernel
theorem wit_ImageChecks_full : (headed (header fullHead 2230321774) 1).headerCode (header fullHead 2230321774) = none := by
  unfold State.headerCode
  rw [full_crc, full_shape]
  decide +kernel

theorem wit_ImageChecks_header : (headed (header stagedHead 1924806415) 0).loadState = ldHeader
    ∧ 4096 ≤ (headed (header stagedHead 1924806415) 0).ctl.load.buf.length ∧ (headed (header stagedHead 1924806415) 0).cfgReaches = true
    ∧ (headed (header stagedHead 1924806415) 0).ctl.load.buf.take 4096 = header stagedHead 1924806415 := by
  have hl : (header stagedHead 1924806415).length = 4096 := by
    rw [header, List.length_append, List.length_append, List.length_replicate, show stagedHead.length = 156 by decide +kernel]
    rfl
  refine ⟨by decide +kernel, Nat.le_of_eq hl.symm, by decide +kernel, List.take_of_length_le (Nat.le_of_eq hl)⟩

theorem wit_ImageChecks_refused : let s := (headed (List.replicate 4096 0) 0).setBit Reg.glbStartup 7 false
    s.headerCode (List.replicate 4096 0) = some 1 ∧ s.loadState = ldHeader ∧ s.cfgReaches = true := by decide +kernel

/-- The record of frame 65,536, whose bits are all 0 (R304). -/
def record : List Byte := leBytes 4 0x20000000 ++ leBytes 4 2950950052 ++ List.replicate (96 * 5 + 32) 0

def imageHdr (regions : BitVec 16) : ImgHdr :=
  { full := false, staged := true, regions := regions, frames := 2, bodyLen := 1248, sections := [(2, 0, 16), (4, 16, 128), (6, 144, 64), (7, 208, 1040)]
    bodyCrc := 0, build := 0, signed := false, key := 0, sig := [], stage := 8192 }

/-- The body of an image has come to its frames. -/
def framing (regions : BitVec 16) : State :=
  ((headed record 0).setLoadState 3).modLoad (fun l => { l with hdr := some (imageHdr regions) })

def recordSteps : List Nat := [1209372725, 3641658979, 2328786365, 3923528258, 1344017243]

theorem record_crc : crc32c (record.take 4 ++ record.drop 8) = leAt record 4 4 := by
  have h : record.take 4 ++ record.drop 8 = (leBytes 4 0x20000000 ++ List.replicate 32 0) ++ List.replicate (96 * recordSteps.length) 0 := rfl
  rw [h, crc_zeros (l := recordSteps) (c := 1672187990) (crc := 2950950052) (by decide +kernel) (by decide +kernel) (by decide +kernel)]
  decide +kernel

theorem wit_ImageChecks_frame : (framing 4).frameCode (imageHdr 4) record = none ∧ (framing 8).frameCode (imageHdr 8) record = some 0x0D := by
  constructor <;> (unfold State.frameCode; rw [record_crc]; decide +kernel)

theorem wit_ImageChecks_frames : (framing 4).loadState = ldFrames ∧ (framing 4).cfgReaches = true ∧ (framing 4).ctl.load.hdr = some (imageHdr 4)
    ∧ frameIndex (leAt record 0 4) = some 65536 ∧ record.length = 520 ∧ (framing 4).ctl.load.buf = record :=
  ⟨by decide +kernel, by decide +kernel, by decide +kernel, by decide +kernel, by decide +kernel, rfl⟩

end Sys2Proof.Tests

namespace Sys2Proof.Tests.Bus

def key (s : State) (r : Nat := 0) : State := { s with host := { s.host with keyWin := [(r, 3)] } }
def ax : WriteAux := ⟨false, 0, 0, 0⟩
def w0_0 : State := base
def w0_2 : State := key base 3
def w0_8 : State := base.setQ (Reg.seqIrq 3) { items := [7, 8], lost := true }
def w0_10 : State := base.wr (Reg.lnkCrcCnt 3) 99
def w0_7 : State := base
def w0_4 : State := base

theorem wit_RegisterAccess :
    (w0_0.reaches (0 : Requester) = true)
    ∧ (w0_0.reaches (0 : Requester) = true ∧ w0_0.upFor 0 (sharedSeq 20971544) = true)
    ∧ (w0_0.reaches (0 : Requester) = true ∧ w0_0.upFor 0 (sharedSeq 20971544) = true ∧ isLo (sharedSeq 20971544) = true)
    ∧ (w0_2.reaches (3 : Requester) = true ∧ w0_2.upFor 3 (sharedSeq 20971548) = true ∧ isHi (sharedSeq 20971548) = true)
    ∧ (w0_8.reaches (0 : Requester) = true ∧ w0_8.upFor 0 (sharedSeq 12779564) = true ∧ isQueue (sharedSeq 12779564) = true)
    ∧ (w0_10.reaches (0 : Requester) = true ∧ w0_10.upFor 0 (sharedSeq 8653840) = true ∧ rcBits (sharedSeq 8653840) ≠ (0 : Word))
    ∧ (w0_7.reaches (0 : Requester) = true ∧ w0_7.upFor 0 (sharedSeq 67108860) = true ∧ regInfo (sharedSeq 67108860) = none)
    ∧ ((regInfo (sharedSeq 20971544)).any (fun v0 => decide (w0_0.reaches (0 : Requester) = true ∧ w0_0.upFor 0 (sharedSeq 20971544) = true ∧ isLo (sharedSeq 20971544) = true ∧ v0.rw ≠ (0 : Word) ∧ v0.prot = (0 : Word) ∧ v0.active = false ∧ sharedSeq 20971544 ∈ (commitGroups (CommitReg.cap 0)).flatten)) = true)
    ∧ ((regInfo (sharedSeq 20971548 - 4)).any (fun v0 => (regInfo (sharedSeq 20971548)).any (fun v1 => decide (w0_2.reaches (3 : Requester) = true ∧ w0_2.upFor 3 (sharedSeq 20971548) = true ∧ isHi (sharedSeq 20971548) = true ∧ v0.rw ≠ (0 : Word) ∧ v1.prot = (0 : Word)))) = true)
    ∧ ((regInfo (sharedSeq 20971536)).any (fun v0 => decide (w0_4.reaches (0 : Requester) = true ∧ w0_4.upFor 0 (sharedSeq 20971536) = true ∧ isLo (sharedSeq 20971536) = false ∧ isHi (sharedSeq 20971536) = false ∧ v0.prot = (0 : Word) ∧ ax.race = (0 : Word))) = true) :=
  by and_intros <;> decide +kernel

end Sys2Proof.Tests.Bus

namespace Sys2Proof.Tests.Bus2

def key (s : State) (r : Nat := 0) : State := { s with host := { s.host with keyWin := [(r, 3)] } }
def pendg (c : CommitReg) (g : BitVec 8) (l : List (Nat × Word)) (s : State := base) : State := { s.setBit (commitAddr c) 31 true with commits := [(commitAddr c, { groups := g, snap := l })] }
def w0_6 : State := base
def w0_10 : State := base
def w1_0 : State := pendg (.seq 0) 1 [(Reg.seqCfg 0, 7)]
def w0_1 : State := base
def w0_5 : State := base.setBit (Reg.capStatus 0) 17 true
def w0_3 : State := base
def w0_11 : State := key base
def w0_0 : State := base

theorem wit_Commits :
    (w0_6.reaches (0 : Requester) = true ∧ (¬w0_6.upFor 0 (commitAddr CommitReg.vlt) = true))
    ∧ (w0_10.reaches (0 : Requester) = true ∧ (CommitReg.noc == CommitReg.noc || CommitReg.noc == CommitReg.spd) = true ∧ decide (0 < w0_10.keyLeft 0) = false)
    ∧ (w1_0.reaches (3 : Requester) = true ∧ w1_0.upFor 3 (commitAddr (CommitReg.seq (0 : Fin 16))) = true ∧ ((CommitReg.seq (0 : Fin 16) == CommitReg.noc || CommitReg.seq (0 : Fin 16) == CommitReg.spd) = false ∨ decide (0 < w1_0.keyLeft 3) = true) ∧ w1_0.bit (commitAddr (CommitReg.seq (0 : Fin 16))) 31 = true)
    ∧ (w0_1.reaches (0 : Requester) = true ∧ w0_1.upFor 0 (commitAddr (CommitReg.seq (0 : Fin 16))) = true ∧ ((CommitReg.seq (0 : Fin 16) == CommitReg.noc || CommitReg.seq (0 : Fin 16) == CommitReg.spd) = false ∨ decide (0 < w0_1.keyLeft 0) = true) ∧ w0_1.bit (commitAddr (CommitReg.seq (0 : Fin 16))) 31 = false ∧ 2 ^ (commitGroups (CommitReg.seq (0 : Fin 16))).length ≤ 255)
    ∧ (w0_5.reaches (0 : Requester) = true ∧ w0_5.upFor 0 (commitAddr (CommitReg.cap (0 : Fin 16))) = true ∧ ((CommitReg.cap (0 : Fin 16) == CommitReg.noc || CommitReg.cap (0 : Fin 16) == CommitReg.spd) = false ∨ decide (0 < w0_5.keyLeft 0) = true) ∧ w0_5.bit (commitAddr (CommitReg.cap (0 : Fin 16))) 31 = false ∧ 1 < 2 ^ (commitGroups (CommitReg.cap (0 : Fin 16))).length ∧ (∃ k, CommitReg.cap (0 : Fin 16) = CommitReg.cap k ∧ w0_5.bit (Reg.capStatus ↑k) 17 = true))
    ∧ ((w0_3.badField (CommitReg.lnk (3 : Fin 512)) 1).any (fun v0 => decide (w0_3.reaches (0 : Requester) = true ∧ w0_3.upFor 0 (commitAddr (CommitReg.lnk (3 : Fin 512))) = true ∧ ((CommitReg.lnk (3 : Fin 512) == CommitReg.noc || CommitReg.lnk (3 : Fin 512) == CommitReg.spd) = false ∨ decide (0 < w0_3.keyLeft 0) = true) ∧ w0_3.bit (commitAddr (CommitReg.lnk (3 : Fin 512))) 31 = false ∧ 1 < 2 ^ (commitGroups (CommitReg.lnk (3 : Fin 512))).length ∧ (¬∃ k, CommitReg.lnk (3 : Fin 512) = CommitReg.cap k ∧ w0_3.bit (Reg.capStatus ↑k) 17 = true) ∧ v0 < 4096)) = true)
    ∧ (w0_11.reaches (0 : Requester) = true ∧ w0_11.upFor 0 (commitAddr CommitReg.noc) = true ∧ (((CommitReg.noc == CommitReg.noc || CommitReg.noc == CommitReg.spd) = false ∨ decide (0 < w0_11.keyLeft 0) = true) ∧ w0_11.bit (commitAddr CommitReg.noc) 31 = false ∧ 1 < 2 ^ (commitGroups CommitReg.noc).length ∧ (¬∃ k, CommitReg.noc = CommitReg.cap k ∧ w0_11.bit (Reg.capStatus ↑k) 17 = true) ∧ w0_11.badField CommitReg.noc 1 = none) ∧ (commitImmediate CommitReg.noc = false ∨ w0_11.commitReady CommitReg.noc 1 = false))
    ∧ (w0_0.reaches (0 : Requester) = true ∧ w0_0.upFor 0 (commitAddr (CommitReg.seq (0 : Fin 16))) = true ∧ (((CommitReg.seq (0 : Fin 16) == CommitReg.noc || CommitReg.seq (0 : Fin 16) == CommitReg.spd) = false ∨ decide (0 < w0_0.keyLeft 0) = true) ∧ w0_0.bit (commitAddr (CommitReg.seq (0 : Fin 16))) 31 = false ∧ 1 < 2 ^ (commitGroups (CommitReg.seq (0 : Fin 16))).length ∧ (¬∃ k, CommitReg.seq (0 : Fin 16) = CommitReg.cap k ∧ w0_0.bit (Reg.capStatus ↑k) 17 = true) ∧ w0_0.badField (CommitReg.seq (0 : Fin 16)) 1 = none) ∧ commitImmediate (CommitReg.seq (0 : Fin 16)) = true ∧ w0_0.commitReady (CommitReg.seq (0 : Fin 16)) 1 = true ∧ (∀ p < 16, (w0_0.getIcp p).jobs = []))
    ∧ ((w1_0.getCommit (commitAddr (CommitReg.seq (0 : Fin 16)))).any (fun v0 => decide (w1_0.reaches (3 : Requester) = true ∧ w1_0.commitReady (CommitReg.seq (0 : Fin 16)) v0.groups.toNat = true ∧ (∀ i < 16, (w1_0.getIcp i).jobs = []) ∧ (List.map Prod.fst v0.snap).Nodup ∧ (∀ q ∈ v0.snap, ∃ l ∈ commitGroups (CommitReg.seq (0 : Fin 16)), q.1 ∈ l))) = true) :=
  by and_intros <;> decide +kernel

end Sys2Proof.Tests.Bus2

namespace Sys2Proof.Tests.Bus3

def hv (s : State) : State := rowOk s 0x12345 |> fun s => let (v, r) := s.locate 0x12345; s.modVault v (fun x => { x with svc := { row := some r, data := (List.range 2048).map (fun i => BitVec.ofNat 8 i), poisoned := true } })
def rg (req : Nat) (s : State := base) : State := (s.wr (Reg.spdRegion req 3 + 0x1000) (0xE0000000#32 ||| BitVec.ofNat 32 (2 + 4 * 2 ^ 14)))
def lk (h : Option Nat) (s : State := base) : State := { s with host := { s.host with locks := [(3, h), (5, some 2)] } } |>.setFld Reg.spdLockTmo 0 16 5
def dm (st hd tl : Nat) (s : State := base) : State := ((((s.setDmaState 1 st).setFld (Reg.glbDmaHead 1) 0 16 hd).setFld (Reg.glbDmaTail 1) 0 16 tl).setFld (Reg.glbDmaSize 1) 0 5 4).setDma 1 { holder := some 2 }
def dsc (src dst len : Nat) (ctl : Nat) : List Byte := leBytes 8 src ++ leBytes 8 dst ++ leBytes 4 len ++ leBytes 4 ctl ++ leBytes 8 0
def sp := 2 ^ 44
def w0_0 : State := (szz 0 (base))
def w0_1 : State := hv base
def w0_3 : State := base
def w0_8 : State := (szz 0 (rg 2))
def w0_5 : State := (szz 0 (rg 3))
def w0_10 : State := (szz 0 (lk (some 3)))
def w0_11 : State := (szz 0 ((lk (some 3)).modVault 7 (fun x => { x with reserve := some (2, 3) })))
def w1_0 : State := dm 0 0 0
def w1_2 : State := dm 1 5 65535
def w1_1 : State := dm 3 5 0
def w1_7 : State := rg 2 (dm 1 5 65535)
def w1_9 : State := { rg 2 (dm 1 5 65535) with host := { (rg 2 (dm 1 5 65535)).host with spd := [(0x2ffc, 7), (0x3000, 9)] } }

theorem wit_HostMemory :
    (w0_0.reaches (0 : Requester) = true ∧ w0_0.bar4Addr 137438953471 = none)
    ∧ (w0_0.reaches (0 : Requester) = true)
    ∧ ((w0_1.bar4Addr 74565).any (fun v0 => decide (w0_1.reaches (0 : Requester) = true ∧ w0_1.accessWaits 0 v0 5 = false ∧ (w0_1.rowRefused (w0_1.locate v0).1 (w0_1.locate v0).2 = none ∧ w0_1.bufferHeld (w0_1.locate v0).1 0 = false ∧ (w0_1.getVault (w0_1.locate v0).1).svc.row = some (w0_1.locate v0).2 ∧ 0 < 5 ∧ 5 < 2048 ∧ v0 % 2048 + 5 ≤ 2048 ∧ w0_1.reloadsIn (w0_1.vaultsOf v0 5) = [] ∧ ((List.range 16).all fun k => !w0_1.siteWaits k (w0_1.vaultsOf v0 5)) = true))) = true)
    ∧ ((w0_3.bar4Addr 74565).any (fun v0 => (w0_3.rowRefused (w0_3.locate v0).1 (w0_3.locate v0).2).any (fun _ => decide (w0_3.reaches (0 : Requester) = true ∧ w0_3.accessWaits 0 v0 5 = false ∧ v0 % 2048 + 5 ≤ 2048 ∧ (w0_3.reloadsIn (w0_3.vaultsOf v0 5) = [] ∧ ((List.range 16).all fun k => !w0_3.siteWaits k (w0_3.vaultsOf v0 5)) = true)))) = true)
    ∧ ((w0_1.bar4Addr 74565).any (fun v0 => decide (w0_1.reaches (0 : Requester) = true ∧ w0_1.accessWaits 0 v0 [(1 : Byte), (2 : Byte), (3 : Byte)].length = false ∧ (w0_1.rowRefused (w0_1.locate v0).1 (w0_1.locate v0).2 = none ∧ w0_1.bufferHeld (w0_1.locate v0).1 0 = false ∧ (w0_1.getVault (w0_1.locate v0).1).svc.row = some (w0_1.locate v0).2 ∧ 0 < [(1 : Byte), (2 : Byte), (3 : Byte)].length ∧ [(1 : Byte), (2 : Byte), (3 : Byte)].length < 2048 ∧ v0 % 2048 + [(1 : Byte), (2 : Byte), (3 : Byte)].length ≤ 2048 ∧ w0_1.reloadsIn (w0_1.vaultsOf v0 [(1 : Byte), (2 : Byte), (3 : Byte)].length) = [] ∧ ((List.range 16).all fun k => !w0_1.siteWaits k (w0_1.vaultsOf v0 [(1 : Byte), (2 : Byte), (3 : Byte)].length)) = true) ∧ (w0_1.getVault (w0_1.locate v0).1).svc.data.length = 2048)) = true)
    ∧ ((w0_0.reaches (0 : Requester) = true ∧ (SpdUse.plain = SpdUse.plain ∨ (0 : Requester) ≠ (3 : Requester)) ∧ w0_0.spdTrap (0 : Requester) 0 [(1 : Byte), (2 : Byte)].length true SpdUse.plain false = none) ∧ 0 + [(1 : Byte), (2 : Byte)].length ≤ 2 ^ 26 ∧ w0_0.spdMay 0 0 [(1 : Byte), (2 : Byte)].length true = true)
    ∧ ((w0_8.reaches (2 : Requester) = true ∧ (SpdUse.plain = SpdUse.plain ∨ (2 : Requester) ≠ (3 : Requester)) ∧ w0_8.spdTrap (2 : Requester) 20477 [(1 : Byte), (2 : Byte), (3 : Byte), (4 : Byte)].length true SpdUse.plain false = none) ∧ 20477 + [(1 : Byte), (2 : Byte), (3 : Byte), (4 : Byte)].length ≤ 2 ^ 26 ∧ w0_8.spdMay 2 20477 [(1 : Byte), (2 : Byte), (3 : Byte), (4 : Byte)].length true = false)
    ∧ ((w0_0.reaches (0 : Requester) = true ∧ (SpdUse.plain = SpdUse.plain ∨ (0 : Requester) ≠ (3 : Requester)) ∧ w0_0.spdTrap (0 : Requester) 0 4 false SpdUse.plain false = none) ∧ w0_0.spdMay 0 0 4 false = true)
    ∧ (w0_5.reaches (3 : Requester) = true ∧ w0_5.spdTrap (3 : Requester) 67108862 (if true = true then [(1 : Byte), (2 : Byte), (3 : Byte)].length else 8) true SpdUse.plain false = some CoreTrap.misaligned)
    ∧ ((w0_8.reaches (2 : Requester) = true ∧ (SpdUse.plain = SpdUse.plain ∨ (2 : Requester) ≠ (3 : Requester)) ∧ w0_8.spdTrap (2 : Requester) 20477 4 false SpdUse.plain false = none) ∧ w0_8.spdMay 2 20477 4 false = false)
    ∧ (w0_10.lockHolder 5 ≠ none ∧ w0_10.fld Reg.spdLockTmo 0 16 ≠ 0)
    ∧ ((w0_11.getVault 7).reserve ≠ none) :=
  by and_intros <;> decide +kernel

theorem wit_DmaEngines :
    (w1_0.reaches (0 : Requester) = true ∧ (w1_0.dmaState 1 = dmaStopped ∨ w1_0.dmaState 1 = dmaError))
    ∧ (w1_2.reaches (0 : Requester) = true ∧ w1_2.dmaState 1 ≠ dmaStopped ∧ w1_2.dmaState 1 ≠ dmaError)
    ∧ (w1_2.reaches (0 : Requester) = true ∧ w1_2.dmaState 1 = dmaRunning)
    ∧ (w1_0.reaches (0 : Requester) = true ∧ w1_0.dmaState 1 ≠ dmaRunning)
    ∧ (w1_2.reaches (0 : Requester) = true ∧ w1_2.dmaBusy 1 = true ∧ w1_2.dmaInSpd 1 = false)
    ∧ (w1_0.reaches (0 : Requester) = true ∧ w1_0.dmaBusy 1 = false)
    ∧ (w1_1.reaches (0 : Requester) = true ∧ 2 ^ w1_1.fld (Reg.glbDmaSize 1) 0 5 < w1_1.dmaQueued 1 17)
    ∧ (w1_0.reaches (0 : Requester) = true ∧ w1_0.dmaQueued 1 16 ≤ 2 ^ w1_0.fld (Reg.glbDmaSize 1) 0 5)
    ∧ (w1_2.dmaMayEnd 1 [] { } = true ∧ w1_2.dmaInSpd 1 = false ∧ (DmaDesc.ofBytes []).bad = true)
    ∧ (w1_7.dmaMayEnd 1 (dsc 0 (sp + 12284) 8 2) { } = true ∧ w1_7.dmaInSpd 1 = false ∧ (DmaDesc.ofBytes (dsc 0 (sp + 12284) 8 2)).bad = false ∧ BitVec.getLsbD (DmaDesc.ofBytes (dsc 0 (sp + 12284) 8 2)).ctl 0 = false ∧ BitVec.getLsbD (DmaDesc.ofBytes (dsc 0 (sp + 12284) 8 2)).ctl 1 = true ∧ 2 ^ 44 ≤ (DmaDesc.ofBytes (dsc 0 (sp + 12284) 8 2)).dst ∧ w1_7.devReach (1 + 1) (DmaDesc.ofBytes (dsc 0 (sp + 12284) 8 2)).dst (DmaDesc.ofBytes (dsc 0 (sp + 12284) 8 2)).len true = (DmaDesc.ofBytes (dsc 0 (sp + 12284) 8 2)).len ∧ [(1 : Byte), (2 : Byte), (3 : Byte), (4 : Byte), (5 : Byte), (6 : Byte), (7 : Byte), (8 : Byte)].length = (DmaDesc.ofBytes (dsc 0 (sp + 12284) 8 2)).len)
    ∧ (w1_9.dmaMayEnd 1 (dsc (sp + 12284) 0 8 1) { } = true ∧ w1_9.dmaInSpd 1 = false ∧ (DmaDesc.ofBytes (dsc (sp + 12284) 0 8 1)).bad = false ∧ BitVec.getLsbD (DmaDesc.ofBytes (dsc (sp + 12284) 0 8 1)).ctl 0 = true ∧ BitVec.getLsbD (DmaDesc.ofBytes (dsc (sp + 12284) 0 8 1)).ctl 1 = false ∧ 2 ^ 44 ≤ (DmaDesc.ofBytes (dsc (sp + 12284) 0 8 1)).src ∧ w1_9.devReach (1 + 1) (DmaDesc.ofBytes (dsc (sp + 12284) 0 8 1)).src (DmaDesc.ofBytes (dsc (sp + 12284) 0 8 1)).len false = (DmaDesc.ofBytes (dsc (sp + 12284) 0 8 1)).len)
    ∧ (w1_7.dmaBusy 1 = true ∧ w1_7.fld (Reg.glbDmaTmo 1) 0 16 ≠ 0 ∧ w1_7.dmaInSpd 1 = false ∧ (DmaDesc.ofBytes (dsc 0 (sp + 12284) 8 2)).bad = false ∧ BitVec.getLsbD (DmaDesc.ofBytes (dsc 0 (sp + 12284) 8 2)).ctl 0 = false ∧ BitVec.getLsbD (DmaDesc.ofBytes (dsc 0 (sp + 12284) 8 2)).ctl 1 = true ∧ 2 ^ 44 ≤ (DmaDesc.ofBytes (dsc 0 (sp + 12284) 8 2)).dst ∧ 3 ≤ [(1 : Byte), (2 : Byte), (3 : Byte), (4 : Byte), (5 : Byte), (6 : Byte), (7 : Byte), (8 : Byte)].length ∧ 3 ≤ w1_7.devReach (1 + 1) (DmaDesc.ofBytes (dsc 0 (sp + 12284) 8 2)).dst (DmaDesc.ofBytes (dsc 0 (sp + 12284) 8 2)).len true ∧ 3 ≤ (DmaDesc.ofBytes (dsc 0 (sp + 12284) 8 2)).len) :=
  by and_intros <;> decide +kernel

end Sys2Proof.Tests.Bus3

namespace Sys2Proof.Tests.Bus4

def key (s : State) (r : Nat := 0) : State := { s with host := { s.host with keyWin := [(r, 3)] } }
def lk (h : Option Nat) (s : State := base) : State := { s with host := { s.host with locks := [(3, h), (5, some 2)], dma := [(1, { holder := some 2 })] } } |>.setFld Reg.spdLockTmo 0 16 5 |>.modVault 7 (fun x => { x with reserve := some (2, 3) }) |>.modVault 9 (fun x => { x with reserve := some (3, 3) })
def w0_0 : State := lk (some 2)
def w0_1 : State := lk (some 2)
def w0_3 : State := key (lk (some 2))

theorem wit_Network :
    (w0_0.reaches (0 : Requester) = true ∧ (0 = 2 ∨ NocAsk.other = NocAsk.read ∨ NocAsk.other = NocAsk.write ∨ NocAsk.other = NocAsk.other))
    ∧ (w0_1.reaches (2 : Requester) = true ∧ (List.map Prod.fst w0_1.host.locks).Nodup ∧ (List.map Prod.fst w0_1.vault).Nodup)
    ∧ (w0_3.reaches (0 : Requester) = true ∧ decide (0 < w0_3.keyLeft 0) = true ∧ (List.map Prod.fst w0_3.host.locks).Nodup ∧ (List.map Prod.fst w0_3.vault).Nodup)
    ∧ (w0_3.reaches (0 : Requester) = true ∧ decide (0 < w0_3.keyLeft 0) = true)
    ∧ (w0_0.reaches (0 : Requester) = true ∧ decide (0 < w0_0.keyLeft 0) = false)
    ∧ (w0_0.reaches (0 : Requester) = true)
    ∧ (w0_0.mode ≠ modeRESET) :=
  by and_intros <;> decide +kernel

end Sys2Proof.Tests.Bus4

namespace Sys2Proof.Tests.Cal

def fl (m n : Nat) (s : State := base) : State := { s with aon := { s.aon with floors := (List.range 3).map (fun i => (3 * m + i, n)), logQueue := [List.replicate 28 7], logPos := 8191, hours := 384 } }
def fw (s : State) : State := { s.setBit Reg.glbMode 7 true with cpu := { s.cpu with started := true } }
def w0_0 : State := runAt 0 0
def w0_2 : State := fw (fl 0 3)

theorem wit_CalibrationAndAgeing :
    (w0_0.reaches (0 : Requester) = true)
    ∧ ((w0_0.calMayRun 5 5 = false ∨ w0_0.calFirst 5 5 = false))
    ∧ (w0_0.calFlag 5 calRunning = false)
    ∧ (w0_2.aon.logQueue.head?.any (fun v0 => decide (w0_2.fwRunning = true ∧ w0_2.aon.logQueue = v0 :: w0_2.aon.logQueue.tail ∧ v0.length = 28)) = true) :=
  by and_intros <;> decide +kernel

end Sys2Proof.Tests.Cal

namespace Sys2Proof.Tests.Cap

def vs (s : State) : State := (List.range 40).foldl (fun s v => s.setFld (Reg.vltStat v) 29 3 2) s
def geo (s : State) : State := vs (((s.wr (Reg.capGeom 0 + 0x200) 0x60003f).wr (Reg.capCtrBase 0 0 + 0x200) 0x8000).wr (Reg.capSpare 0 + 0x200) 0x101 |>.wr (Reg.rpaSolBase 0 0 + 0x200) 0x10000 |>.wr (Reg.capCmpmask 0 0 + 0x200) 0xffffffff|>.wr (Reg.capLogBase 0 0 + 0x200) 0xc000|>.wr (Reg.capLogLen 0 + 0x200) 1)
def idle : State := geo (base.setBit (Reg.seqStatus 0) 3 true)
def ml (o : Nat) (c : Bool) : MapLine := { addr := 0, block := 0, openFc := o, firstCycle := 3, closed := c, bits := [3, 77] }
def cl (a : Nat) (d : Bool) : CtrLine := { addr := a, data := List.replicate 2048 0, dirty := d }
def run0 : State := geo ((runAt 0 0 5 (fun x => { x with mapLines := [ml 1 false, ml 2 true], ctrQueue := [{ block := 0, row := 3, col := 4 }] })).wr (Reg.capFcycLo 0) 7)
def key (s : State) (r : Nat := 0) : State := { s with host := { s.host with keyWin := [(r, 3)] } }
def run1 := { run0 with fc := 513 }
def ca := (idle.capGeomOf 0).ctrAddr 0 1 3
def cb := (idle.capGeomOf 0).ctrAddr 0 2 4
def run2 := run1.modSite 0 (fun x => { x with ctrLines := [cl (rowOf ca) false, cl (rowOf cb) true], mapLines := [ml 1 true, ml 2 true] })
def dr := (run2.setSeqState 0 5).setBit (Reg.capStatus 0) 16 true |>.setBit (Reg.capStatus 0) 17 true
def dr2 := dr.modSite 0 (fun x => { x with ctrQueue := [], mapLines := [] })
def w0_0 : State := idle
def w0_3 : State := key idle
def w0_1 : State := run0
def w1_0 : State := run1
def w1_1 : State := run2
def w1_4 : State := dr2
def w1_3 : State := dr
def w5_0 : State := idle
def w5_2 : State := idle.setBit (Reg.rpaStatus 0) 0 true

theorem wit_CaptureCommands :
    (w0_0.reaches (0 : Requester) = true ∧ w0_0.seqRuns 0 = false)
    ∧ (w0_0.reaches (0 : Requester) = true ∧ w0_0.seqRuns 0 = false ∧ w0_0.bit (Reg.capCommit 0) 31 = false ∧ w0_0.bit (Reg.capStatus 0) 16 = false ∧ w0_0.bit (Reg.capStatus 0) 17 = false)
    ∧ (w0_0.reaches (0 : Requester) = true ∧ w0_0.seqRuns 0 = false ∧ w0_0.bit (Reg.capStatus 0) 16 = false ∧ w0_0.bit (Reg.capStatus 0) 17 = false)
    ∧ (w0_3.reaches (0 : Requester) = true ∧ 0 < w0_3.keyLeft 0 ∧ w0_3.bit (Reg.capStatus 0) 2 = false)
    ∧ (w0_0.reaches (0 : Requester) = true ∧ (¬0 < w0_0.keyLeft 0))
    ∧ (w0_1.reaches (0 : Requester) = true ∧ w0_1.seqRuns 0 = true) :=
  by and_intros <;> decide +kernel

theorem wit_CaptureEvents_0 :
    ((List.find? (fun m => !m.closed) (w1_0.getSite 0).mapLines).any (fun v0 => decide (v0.openFc + 512 ≤ w1_0.fc)) = true)
    ∧ ((List.find? (fun m => m.closed) (w1_0.getSite 0).mapLines).any (fun _ => decide (True)) = true)
    ∧ ((w1_1.getSite 0).ctrQueue.head?.any (fun v0 => decide ((w1_1.getSite 0).ctrQueue = v0 :: (w1_1.getSite 0).ctrQueue.tail ∧ w1_1.missingRow 0 v0 = none)) = true)
    ∧ ((w1_0.getSite 0).ctrQueue.head?.any (fun v0 => (w1_0.missingRow 0 v0).any (fun _ => decide ((w1_0.getSite 0).ctrQueue = v0 :: (w1_0.getSite 0).ctrQueue.tail))) = true)
    ∧ (w1_4.flushReady 0 = true)
    ∧ (w1_3.bit (Reg.capStatus 0) 17 = true)
    ∧ (w1_3.drainReady 0 = true) :=
  by and_intros <;> decide +kernel

theorem wit_RepairCommands :
    (w5_0.reaches (0 : Requester) = true ∧ w5_0.rpaRefused 0 = none)
    ∧ ((w5_2.rpaRefused 0).any (fun _ => decide (w5_2.reaches (0 : Requester) = true)) = true)
    ∧ (w5_2.reaches (0 : Requester) = true ∧ w5_2.bit (Reg.rpaStatus 0) 0 = true)
    ∧ (w5_2.reaches (0 : Requester) = true ∧ w5_2.bit (Reg.rpaStatus 0) 0 = true ∧ (w5_2.getSite 0).job.last < 256) :=
  by and_intros <;> decide +kernel

end Sys2Proof.Tests.Cap

namespace Sys2Proof.Tests.Cell

def cIns (op sub imm : Nat) (fctl : Nat := 1) (wr o0 o1 : Nat := 1) (dst : Nat := 5) (sa : Nat := 1) (sb : Nat := 2) (pf : Nat := 0) : BitVec 48 :=
  BitVec.ofNat 48 (op * 2^42 + dst * 2^38 + sa * 2^32 + sb * 2^26 + fctl * 2^24 + wr * 2^23 + o0 * 2^22 + o1 * 2^21 + pf * 2^19 + sub * 2^16 + imm)
def cSt (k : Nat) (c : Nat) (w : BitVec 256) (a b : Word) (f : Cell → Cell := id) (ctx : BitVec 6 := 3) : State :=
  let s : State := base.putFrame (frameOf k c ctx.toNat) ((w.setWidth 4096) <<< (256 * (keyY c % 16)))
  s.modFab k (fun x => { x with held := false, live := true, ctx := ctx, cells := [(c, f { w := ((a.setWidth 512) <<< 32) ||| ((b.setWidth 512) <<< 64) })] })
def cI (i : BitVec 48) (hi : BitVec 256 := 0) : BitVec 256 := i.setWidth 256 ||| hi
def w0_0 : State := cSt 3 (cellAt true 9 33) (cI (cIns 1 0 0 )) (0x80000000#32) (0x80000000#32) (fun x => { x with c := false })
def w0_5 : State := cSt 3 (cellAt true 9 33) (cI (cIns 2 0 0 )) (5) (5) (fun x => { x with c := false })
def w0_10 : State := cSt 3 (cellAt true 9 33) (cI (cIns 3 0 0 )) (0xffffffff#32) (1) (fun x => { x with c := false })
def w0_15 : State := cSt 3 (cellAt true 9 33) (cI (cIns 4 0 0 )) (0) (0) (fun x => { x with c := false })
def w0_20 : State := cSt 3 (cellAt true 9 33) (cI (cIns 7 0 0 )) (0xffffffff#32) (1) (fun x => { x with c := false })
def w1_0 : State := cSt 3 (cellAt true 9 33) (cI (cIns 7 1 0 )) (0x80000001#32) (31) (fun x => { x with c := false })
def w1_5 : State := cSt 3 (cellAt true 9 33) (cI (cIns 7 2 0 )) (0xB5) (0xA3000000#32) (fun x => { x with c := false })
def w1_10 : State := cSt 3 (cellAt true 9 33) (cI (cIns 7 3 0 )) (5) (5) (fun x => { x with c := false })
def w1_15 : State := cSt 3 (cellAt true 9 33) (cI (cIns 7 4 0 )) (5) (5) (fun x => { x with c := false })
def w1_20 : State := cSt 3 (cellAt true 9 33) (cI (cIns 7 5 0 )) (0xffffffff#32) (1) (fun x => { x with c := false })
def w2_0 : State := cSt 3 (cellAt true 9 33) (cI (cIns 7 6 0 )) (0xffffffff#32) (1) (fun x => { x with c := false })
def w2_5 : State := cSt 3 (cellAt true 9 33) (cI (cIns 7 7 0 )) (0xB5) (0xA3000000#32) (fun x => { x with c := false })
def w3_0 : State := cSt 3 (cellAt true 9 33) (cI (cIns 5 0 0 )) (5) (5) (fun x => { x with c := false })
def w3_5 : State := cSt 3 (cellAt true 9 33) (cI (cIns 5 1 0 )) (0x7fffffff#32) (0xffffffff#32) (fun x => { x with c := false })
def w3_10 : State := cSt 3 (cellAt true 9 33) (cI (cIns 5 2 0 )) (0x12345678#32) (0xdeadbee5#32) (fun x => { x with c := false })
def w3_15 : State := cSt 3 (cellAt true 9 33) (cI (cIns 5 3 0 )) (0xffffffff#32) (1) (fun x => { x with c := false })
def w3_20 : State := cSt 3 (cellAt true 9 33) (cI (cIns 5 4 0 )) (5) (5) (fun x => { x with c := false })
def w4_0 : State := cSt 3 (cellAt true 9 33) (cI (cIns 5 5 0 )) (0xB5) (0xA3000000#32) (fun x => { x with c := false })
def w4_5 : State := cSt 3 (cellAt true 9 33) (cI (cIns 5 6 0 )) (0) (0) (fun x => { x with c := false })
def w4_10 : State := cSt 3 (cellAt true 9 33) (cI (cIns 5 7 0 )) (0xB5) (0xA3000000#32) (fun x => { x with c := false })
def w4_15 : State := cSt 3 (cellAt true 9 33) (cI (cIns 6 0 0 )) (5) (5) (fun x => { x with c := false })
def w4_20 : State := cSt 3 (cellAt true 9 33) (cI (cIns 6 1 0 )) (0) (0) (fun x => { x with c := false })
def w5_0 : State := cSt 3 (cellAt true 9 33) (cI (cIns 6 2 0 )) (0x80000000#32) (0x80000000#32) (fun x => { x with c := false })
def w5_5 : State := cSt 3 (cellAt true 9 33) (cI (cIns 6 3 0 )) (0x12345678#32) (0xdeadbee5#32) (fun x => { x with c := false })
def w5_10 : State := cSt 3 (cellAt true 9 33) (cI (cIns 6 4 0 )) (0x12345678#32) (0xdeadbee5#32) (fun x => { x with c := false })

theorem wit_CellArithmetic_0 :
    (w0_0.CellGo 3 true (9 : BitVec 6) (33 : BitVec 6) (cIns 1 0 0) 1 0)
    ∧ (w0_5.CellGo 3 true (9 : BitVec 6) (33 : BitVec 6) (cIns 2 0 0) 2 0)
    ∧ (w0_10.CellGo 3 true (9 : BitVec 6) (33 : BitVec 6) (cIns 3 0 0) 3 0)
    ∧ (w0_15.CellGo 3 true (9 : BitVec 6) (33 : BitVec 6) (cIns 4 0 0) 4 0)
    ∧ (w0_20.CellGo 3 true (9 : BitVec 6) (33 : BitVec 6) (cIns 7 0 0) 7 0)
    ∧ (w1_0.CellGo 3 true (9 : BitVec 6) (33 : BitVec 6) (cIns 7 1 0) 7 1)
    ∧ (w1_5.CellGo 3 true (9 : BitVec 6) (33 : BitVec 6) (cIns 7 2 0) 7 2)
    ∧ (w1_10.CellGo 3 true (9 : BitVec 6) (33 : BitVec 6) (cIns 7 3 0) 7 3)
    ∧ (w1_15.CellGo 3 true (9 : BitVec 6) (33 : BitVec 6) (cIns 7 4 0) 7 4)
    ∧ (w1_20.CellGo 3 true (9 : BitVec 6) (33 : BitVec 6) (cIns 7 5 0) 7 5)
    ∧ (w2_0.CellGo 3 true (9 : BitVec 6) (33 : BitVec 6) (cIns 7 6 0) 7 6)
    ∧ (w2_5.CellGo 3 true (9 : BitVec 6) (33 : BitVec 6) (cIns 7 7 0) 7 7) :=
  by and_intros <;> first | decide +kernel | (constructor <;> decide +kernel)

theorem wit_CellArithmetic_1 :
    (w3_0.CellGo 3 true (9 : BitVec 6) (33 : BitVec 6) (cIns 5 0 0) 5 0)
    ∧ (w3_5.CellGo 3 true (9 : BitVec 6) (33 : BitVec 6) (cIns 5 1 0) 5 1)
    ∧ (w3_10.CellGo 3 true (9 : BitVec 6) (33 : BitVec 6) (cIns 5 2 0) 5 2)
    ∧ (w3_15.CellGo 3 true (9 : BitVec 6) (33 : BitVec 6) (cIns 5 3 0) 5 3)
    ∧ (w3_20.CellGo 3 true (9 : BitVec 6) (33 : BitVec 6) (cIns 5 4 0) 5 4)
    ∧ (w4_0.CellGo 3 true (9 : BitVec 6) (33 : BitVec 6) (cIns 5 5 0) 5 5)
    ∧ (w4_5.CellGo 3 true (9 : BitVec 6) (33 : BitVec 6) (cIns 5 6 0) 5 6)
    ∧ (w4_10.CellGo 3 true (9 : BitVec 6) (33 : BitVec 6) (cIns 5 7 0) 5 7)
    ∧ (w4_15.CellGo 3 true (9 : BitVec 6) (33 : BitVec 6) (cIns 6 0 0) 6 0)
    ∧ (w4_20.CellGo 3 true (9 : BitVec 6) (33 : BitVec 6) (cIns 6 1 0) 6 1)
    ∧ (w5_0.CellGo 3 true (9 : BitVec 6) (33 : BitVec 6) (cIns 6 2 0) 6 2)
    ∧ (w5_5.CellGo 3 true (9 : BitVec 6) (33 : BitVec 6) (cIns 6 3 0) 6 3)
    ∧ (w5_10.CellGo 3 true (9 : BitVec 6) (33 : BitVec 6) (cIns 6 4 0) 6 4) :=
  by and_intros <;> first | decide +kernel | (constructor <;> decide +kernel)

end Sys2Proof.Tests.Cell

namespace Sys2Proof.Tests.Cell2

def cIns (op sub imm : Nat) (fctl : Nat := 1) (wr o0 o1 : Nat := 1) (dst : Nat := 5) (sa : Nat := 1) (sb : Nat := 2) (pf : Nat := 0) : BitVec 48 :=
  BitVec.ofNat 48 (op * 2^42 + dst * 2^38 + sa * 2^32 + sb * 2^26 + fctl * 2^24 + wr * 2^23 + o0 * 2^22 + o1 * 2^21 + pf * 2^19 + sub * 2^16 + imm)
def cSt (k : Nat) (c : Nat) (w : BitVec 256) (a b : Word) (f : Cell → Cell := id) (ctx : BitVec 6 := 3) : State :=
  let s : State := base.putFrame (frameOf k c ctx.toNat) ((w.setWidth 4096) <<< (256 * (keyY c % 16)))
  s.modFab k (fun x => { x with held := false, live := true, ctx := ctx, cells := [(c, f { w := ((a.setWidth 512) <<< 32) ||| ((b.setWidth 512) <<< 64) })] })
def cI (i : BitVec 48) (hi : BitVec 256 := 0) : BitVec 256 := i.setWidth 256 ||| hi
def key (s : State) (r : Nat := 0) : State := { s with host := { s.host with keyWin := [(r, 3)] } }
def C := cellAt true 9 33
def wS (srb : Bool) (imm : Nat) (op : Nat := 0) (sa : Nat := 0x20): BitVec 256 := cI (cIns op 0 imm 0 0 0 0 0 sa 0) ((1#256 <<< 63) ||| (if srb then 1#256 <<< 62 else 0))
def oneT (x : Cell) : Cell := { x with o0 := 0xabcd1235#32, o1 := 7, w := BitVec.ofNat 512 (3^300), c := true, z := true, res := BitVec.ofNat 36 0x123456789 }
def snd (s : State) : State := s.modFab 3 (fun f => { f with cells := f.cells.map (fun p => (p.1, { p.2 with res := BitVec.ofNat 36 ((List.range 18).map (fun i => (p.2.item i).toNat % 3 * 4 ^ i)).sum })) })
def g0 := cSt 3 C (cI (cIns 1 0 0)) 3 4
def g1 := g0.modFab 3 (fun f => { f with next := [(C, { cell := { o0 := 5 } }), (3, { cell := { o1 := 9 } })], now := 100 })
def b0 : BusOff := { bus := 5, ctx := 3, permanent := false }
def g3 := key (g1.modFab 3 (fun f => { f with busOff := [{ bus := 5, ctx := 4, permanent := true }, b0] }))
def w0_0 : State := cSt 3 C (cI (cIns 0 0 0)) 3 4
def w0_1 : State := cSt 3 C (cI (cIns 18 0 0)) 3 4
def w0_3 : State := cSt 3 C (wS false 16) 3 4 oneT
def w0_4 : State := cSt 3 C (wS true 512) 3 4 oneT
def w0_5 : State := cSt 3 C (wS false 15) 3 4 oneT
def w0_6 : State := cSt 3 C (wS true 511) 3 4 oneT
def w1_0 : State := snd (cSt 3 C (cI (cIns 1 0 0)) 3 4)
def w2_0 : State := g0
def w2_5 : State := g3
def w2_8 : State := g3.setBit Reg.fabResInject 31 true

theorem wit_CellShifts :
    (w0_0.cellReady 3 (cellAt true (9 : BitVec 6) (33 : BitVec 6)) (cIns 0 0 0) = true ∧ ctxSrm (w0_0.effWord 3 (cellAt true (9 : BitVec 6) (33 : BitVec 6))) = false ∧ cellLegal (cIns 0 0 0) = true ∧ cellOp (cIns 0 0 0) = 0)
    ∧ (w0_1.cellReady 3 (cellAt true (9 : BitVec 6) (33 : BitVec 6)) (cIns 18 0 0) = true ∧ ctxSrm (w0_1.effWord 3 (cellAt true (9 : BitVec 6) (33 : BitVec 6))) = false ∧ cellLegal (cIns 18 0 0) = false)
    ∧ (w0_3.cellReady 3 (cellAt true (9 : BitVec 6) (33 : BitVec 6)) (cIns 0 0 16 0 0 0 0 0 32 0) = true ∧ ctxSrm (w0_3.effWord 3 (cellAt true (9 : BitVec 6) (33 : BitVec 6))) = true ∧ ctxSrb (w0_3.effWord 3 (cellAt true (9 : BitVec 6) (33 : BitVec 6))) = false ∧ cellLegalSr false (cIns 0 0 16 0 0 0 0 0 32 0) = false)
    ∧ (w0_4.cellReady 3 (cellAt true (9 : BitVec 6) (33 : BitVec 6)) (cIns 0 0 512 0 0 0 0 0 32 0) = true ∧ ctxSrm (w0_4.effWord 3 (cellAt true (9 : BitVec 6) (33 : BitVec 6))) = true ∧ ctxSrb (w0_4.effWord 3 (cellAt true (9 : BitVec 6) (33 : BitVec 6))) = true ∧ cellLegalSr true (cIns 0 0 512 0 0 0 0 0 32 0) = false)
    ∧ (w0_5.cellReady 3 (cellAt true (9 : BitVec 6) (33 : BitVec 6)) (cIns 0 0 15 0 0 0 0 0 32 0) = true ∧ ctxSrm (w0_5.effWord 3 (cellAt true (9 : BitVec 6) (33 : BitVec 6))) = true ∧ ctxSrb (w0_5.effWord 3 (cellAt true (9 : BitVec 6) (33 : BitVec 6))) = false ∧ cellLegalSr false (cIns 0 0 15 0 0 0 0 0 32 0) = true)
    ∧ (w0_6.cellReady 3 (cellAt true (9 : BitVec 6) (33 : BitVec 6)) (cIns 0 0 511 0 0 0 0 0 32 0) = true ∧ ctxSrm (w0_6.effWord 3 (cellAt true (9 : BitVec 6) (33 : BitVec 6))) = true ∧ ctxSrb (w0_6.effWord 3 (cellAt true (9 : BitVec 6) (33 : BitVec 6))) = true ∧ cellLegalSr true (cIns 0 0 511 0 0 0 0 0 32 0) = true) :=
  by and_intros <;> decide +kernel

theorem wit_NoFalseResidue :
    (w1_0.CellSound 3 (cellAt true (9 : BitVec 6) (33 : BitVec 6)))
    ∧ (w1_0.cellReady 3 (cellAt true (9 : BitVec 6) (33 : BitVec 6)) (cIns 1 0 0) = true ∧ (ctxSrm (w1_0.effWord 3 (cellAt true (9 : BitVec 6) (33 : BitVec 6))) = false → cellLegal (cIns 1 0 0) = true) ∧ (ctxSrm (w1_0.effWord 3 (cellAt true (9 : BitVec 6) (33 : BitVec 6))) = true → cellLegalSr (ctxSrb (w1_0.effWord 3 (cellAt true (9 : BitVec 6) (33 : BitVec 6)))) (cIns 1 0 0) = true)) :=
  by and_intros <;> decide +kernel

theorem wit_FabricEvents :
    (w2_0.fabRuns 3 = true ∧ ((w2_0.getFab 3).live = false ∨ (w2_0.getFab 3).now < 101) ∧ (List.map Prod.fst (w2_0.getFab 3).next).Nodup ∧ List.find? (w2_0.wireEdge 3) (w2_0.wireClocked 3) = none)
    ∧ ((ctxWclk (w2_0.effWord 3 (cellAt true (9 : BitVec 6) (33 : BitVec 6))) = false ∨ w2_0.wireLevel 3 (cellAt true (9 : BitVec 6) (33 : BitVec 6)) = ctxWedge (w2_0.effWord 3 (cellAt true (9 : BitVec 6) (33 : BitVec 6)))))
    ∧ (w2_5.reaches (0 : Requester) = true ∧ decide (0 < w2_5.keyLeft 0) = true ∧ w2_5.bit Reg.fabResInject 31 = false)
    ∧ (w2_8.reaches (0 : Requester) = true ∧ decide (0 < w2_8.keyLeft 0) = true ∧ w2_8.bit Reg.fabResInject 31 = true)
    ∧ (w2_0.reaches (0 : Requester) = true ∧ decide (0 < w2_0.keyLeft 0) = false) :=
  by and_intros <;> decide +kernel

end Sys2Proof.Tests.Cell2

namespace Sys2Proof.Tests.Cell3

def cIns (op sub imm : Nat) (fctl : Nat := 1) (wr o0 o1 : Nat := 1) (dst : Nat := 5) (sa : Nat := 1) (sb : Nat := 2) (pf : Nat := 0) : BitVec 48 :=
  BitVec.ofNat 48 (op * 2^42 + dst * 2^38 + sa * 2^32 + sb * 2^26 + fctl * 2^24 + wr * 2^23 + o0 * 2^22 + o1 * 2^21 + pf * 2^19 + sub * 2^16 + imm)
def cSt (k : Nat) (c : Nat) (w : BitVec 256) (a b : Word) (f : Cell → Cell := id) (ctx : BitVec 6 := 3) : State :=
  let s : State := base.putFrame (frameOf k c ctx.toNat) ((w.setWidth 4096) <<< (256 * (keyY c % 16)))
  s.modFab k (fun x => { x with held := false, live := true, ctx := ctx, cells := [(c, f { w := ((a.setWidth 512) <<< 32) ||| ((b.setWidth 512) <<< 64) })] })
def cI (i : BitVec 48) (hi : BitVec 256 := 0) : BitVec 256 := i.setWidth 256 ||| hi
def w0_0 : State := cSt 3 (cellAt true 9 33) (cI (cIns 8 0 0 )) (0x80000001#32) (31) (fun x => { x with c := false })
def w1_15 : State := cSt 3 (cellAt true 9 33) (cI (cIns 9 0 0 )) (0) (0) (fun x => { x with c := false })
def w1_20 : State := cSt 3 (cellAt true 9 33) (cI (cIns 9 1 0 )) (0x7fffffff#32) (0xffffffff#32) (fun x => { x with c := false })
def w2_0 : State := cSt 3 (cellAt true 9 33) (cI (cIns 9 2 0 )) (0x7fffffff#32) (0xffffffff#32) (fun x => { x with c := false })
def w2_5 : State := cSt 3 (cellAt true 9 33) (cI (cIns 9 3 0 )) (0) (0) (fun x => { x with c := false })
def w2_10 : State := cSt 3 (cellAt true 9 33) (cI (cIns 10 0 0 )) (5) (5) (fun x => { x with c := false })
def w2_15 : State := cSt 3 (cellAt true 9 33) (cI (cIns 11 0 32 )) (5) (5) (fun x => { x with c := false })
def w2_20 : State := cSt 3 (cellAt true 9 33) (cI (cIns 12 0 0 )) (0xB5) (0xA3000000#32) (fun x => { x with c := false })
def w4_10 : State := cSt 3 (cellAt true 9 33) (cI (cIns 13 0 0 )) (0x7fffffff#32) (0xffffffff#32) (fun x => { x with c := false })
def w4_15 : State := cSt 3 (cellAt true 9 33) (cI (cIns 13 1 0 )) (0xdeadbeef#32) (0x12345678#32) (fun x => { x with c := false })
def w4_20 : State := cSt 3 (cellAt true 9 33) (cI (cIns 13 2 0 )) (0xB5) (0xA3000000#32) (fun x => { x with c := false })
def w5_0 : State := cSt 3 (cellAt true 9 33) (cI (cIns 13 3 0 )) (0x12345678#32) (0xdeadbee5#32) (fun x => { x with c := false })
def w6_0 : State := cSt 3 (cellAt true 9 33) (cI (cIns 14 0 0 )) (0xdeadbeef#32) (0x12345678#32) (fun x => { x with c := false })
def w6_5 : State := cSt 3 (cellAt true 9 33) (cI (cIns 14 1 0 )) (0x12345678#32) (0xdeadbee5#32) (fun x => { x with c := false })
def w6_10 : State := cSt 3 (cellAt true 9 33) (cI (cIns 14 2 0 )) (0xffffffff#32) (1) (fun x => { x with c := false })
def w6_15 : State := cSt 3 (cellAt true 9 33) (cI (cIns 14 3 0 )) (0x80000000#32) (0x80000000#32) (fun x => { x with c := false })
def w6_20 : State := cSt 3 (cellAt true 9 33) (cI (cIns 15 0 0 )) (0x80000001#32) (31) (fun x => { x with c := false })
def w7_0 : State := cSt 3 (cellAt true 9 33) (cI (cIns 15 1 0 )) (0xffffffff#32) (1) (fun x => { x with c := false })
def w7_5 : State := cSt 3 (cellAt true 9 33) (cI (cIns 16 0 0 )) (0x80000000#32) (0x80000000#32) (fun x => { x with c := false })
def w7_10 : State := cSt 3 (cellAt true 9 33) (cI (cIns 16 1 0 )) (0xffffffff#32) (1) (fun x => { x with c := false })
def w7_15 : State := cSt 3 (cellAt true 9 33) (cI (cIns 16 2 0 )) (0x12345678#32) (0xdeadbee5#32) (fun x => { x with c := false })
def w7_20 : State := cSt 3 (cellAt true 9 33) (cI (cIns 16 3 31 )) (0xffffffff#32) (1) (fun x => { x with c := false })
def w8_0 : State := cSt 3 (cellAt true 9 33) (cI (cIns 16 4 31 )) (0x12345678#32) (0xdeadbee5#32) (fun x => { x with c := false })
def w8_5 : State := cSt 3 (cellAt true 9 33) (cI (cIns 17 0 0 )) (5) (5) (fun x => { x with c := false })
def w8_10 : State := cSt 3 (cellAt true 9 33) (cI (cIns 17 1 1023 )) (0) (0) (fun x => { x with c := false })
def w8_15 : State := cSt 3 (cellAt true 9 33) (cI (cIns 17 2 62463 )) (0) (0) (fun x => { x with c := false })

theorem wit_CellSelections :
    (w0_0.CellGo 3 true (9 : BitVec 6) (33 : BitVec 6) (cIns 8 0 0) 8 0)
    ∧ (w1_15.CellGo 3 true (9 : BitVec 6) (33 : BitVec 6) (cIns 9 0 0) 9 0)
    ∧ (w1_20.CellGo 3 true (9 : BitVec 6) (33 : BitVec 6) (cIns 9 1 0) 9 1)
    ∧ (w2_0.CellGo 3 true (9 : BitVec 6) (33 : BitVec 6) (cIns 9 2 0) 9 2)
    ∧ (w2_5.CellGo 3 true (9 : BitVec 6) (33 : BitVec 6) (cIns 9 3 0) 9 3)
    ∧ (w2_10.CellGo 3 true (9 : BitVec 6) (33 : BitVec 6) (cIns 10 0 0) 10 0)
    ∧ (w2_15.CellGo 3 true (9 : BitVec 6) (33 : BitVec 6) (cIns 11 0 32) 11 0)
    ∧ (w2_20.CellGo 3 true (9 : BitVec 6) (33 : BitVec 6) (cIns 12 0 0) 12 0)
    ∧ (w4_10.CellGo 3 true (9 : BitVec 6) (33 : BitVec 6) (cIns 13 0 0) 13 0)
    ∧ (w4_15.CellGo 3 true (9 : BitVec 6) (33 : BitVec 6) (cIns 13 1 0) 13 1)
    ∧ (w4_20.CellGo 3 true (9 : BitVec 6) (33 : BitVec 6) (cIns 13 2 0) 13 2)
    ∧ (w5_0.CellGo 3 true (9 : BitVec 6) (33 : BitVec 6) (cIns 13 3 0) 13 3) :=
  by and_intros <;> first | decide +kernel | (constructor <;> decide +kernel)

theorem wit_CellCompound :
    (w6_0.CellGo 3 true (9 : BitVec 6) (33 : BitVec 6) (cIns 14 0 0) 14 0)
    ∧ (w6_5.CellGo 3 true (9 : BitVec 6) (33 : BitVec 6) (cIns 14 1 0) 14 1)
    ∧ (w6_10.CellGo 3 true (9 : BitVec 6) (33 : BitVec 6) (cIns 14 2 0) 14 2)
    ∧ (w6_15.CellGo 3 true (9 : BitVec 6) (33 : BitVec 6) (cIns 14 3 0) 14 3)
    ∧ (w6_20.CellGo 3 true (9 : BitVec 6) (33 : BitVec 6) (cIns 15 0 0) 15 0)
    ∧ (w7_0.CellGo 3 true (9 : BitVec 6) (33 : BitVec 6) (cIns 15 1 0) 15 1)
    ∧ (w7_5.CellGo 3 true (9 : BitVec 6) (33 : BitVec 6) (cIns 16 0 0) 16 0)
    ∧ (w7_10.CellGo 3 true (9 : BitVec 6) (33 : BitVec 6) (cIns 16 1 0) 16 1)
    ∧ (w7_15.CellGo 3 true (9 : BitVec 6) (33 : BitVec 6) (cIns 16 2 0) 16 2)
    ∧ (w7_20.CellGo 3 true (9 : BitVec 6) (33 : BitVec 6) (cIns 16 3 31) 16 3)
    ∧ (w8_0.CellGo 3 true (9 : BitVec 6) (33 : BitVec 6) (cIns 16 4 31) 16 4)
    ∧ (w8_5.CellGo 3 true (9 : BitVec 6) (33 : BitVec 6) (cIns 17 0 0) 17 0)
    ∧ (w8_10.CellGo 3 true (9 : BitVec 6) (33 : BitVec 6) (cIns 17 1 1023) 17 1)
    ∧ (w8_15.CellGo 3 true (9 : BitVec 6) (33 : BitVec 6) (cIns 17 2 62463) 17 2) :=
  by and_intros <;> first | decide +kernel | (constructor <;> decide +kernel)

end Sys2Proof.Tests.Cell3

namespace Sys2Proof.Tests.Cell4

def cIns (op sub imm : Nat) (fctl : Nat := 1) (wr o0 o1 : Nat := 1) (dst : Nat := 5) (sa : Nat := 1) (sb : Nat := 2) (pf : Nat := 0) : BitVec 48 :=
  BitVec.ofNat 48 (op * 2^42 + dst * 2^38 + sa * 2^32 + sb * 2^26 + fctl * 2^24 + wr * 2^23 + o0 * 2^22 + o1 * 2^21 + pf * 2^19 + sub * 2^16 + imm)
def cSt (k : Nat) (c : Nat) (w : BitVec 256) (a b : Word) (f : Cell → Cell := id) (ctx : BitVec 6 := 3) : State :=
  let s : State := base.putFrame (frameOf k c ctx.toNat) ((w.setWidth 4096) <<< (256 * (keyY c % 16)))
  s.modFab k (fun x => { x with held := false, live := true, ctx := ctx, cells := [(c, f { w := ((a.setWidth 512) <<< 32) ||| ((b.setWidth 512) <<< 64) })] })
def cI (i : BitVec 48) (hi : BitVec 256 := 0) : BitVec 256 := i.setWidth 256 ||| hi
def vst (v c : Nat) (s : State := base) : State := s.setFld (Reg.vltStat v) 29 3 c
def wrq := cI (cIns 1 0 0) (1#256 <<< 192)
def rw (w : Word) (v : Nat := 48) : State := (vst v 2 (cSt 3 (ctlCellOf (v % 16)) wrq 1 2)).modFab 3 (fun f => { f with now := 300, next := [(ctlCellOf (v % 16), { cell := { o1 := w }, wroteO1 := true })], win := (List.range 512).map (fun i => (512 * (v % 16) + i, BitVec.ofNat 32 (i * 0x01010101 + 7))) })
def iw (op t ctx fr : Nat) (tog : Nat := 1) : Word := BitVec.ofNat 32 (tog * 2^31 + op * 2^28 + t * 2^24 + fr * 2^11 + ctx * 2^5)
def ic (w a : Word) (grant : Word := 0) (s : State := base) : State := (s.wr (Reg.cfgIcpGrant 2 + 0x200) grant).modFab 2 (fun f => { f with held := false, live := true, now := 40, cells := [(cellKey 0 39 31, { o0 := w }), (cellKey 0 40 31, { o0 := a })] })
def gr : Word := 0xC000ffff#32 ||| (63#32 <<< 22)
def rm (k : Nat) (s : State) : State := s.setBit (Reg.cfgRegion k) 28 true
def jb (w a : Word) (c : BitVec 4) (d : BitVec 4096 := 5) : IcpJob := { word := w, arg := a, code := c, data := d, since := 0 }
def icj (w a : Word) (c : BitVec 4) (s : State) : State := { s with ctl := { s.ctl with icp := [(2, { (s.getIcp 2) with jobs := [jb w a c], tog := w.getLsbD 31 })] } }
def w0_0 : State := rw 0x40000005
def w0_1 : State := rw 0x803fffff 63
def w0_4 : State := (rw 0x40000001 63).modFab 3 (fun f => { f with winLast := [(63, 285)] })
def w0_3 : State := rw 0x80400001 63
def w0_2 : State := rw 0xC0000001 63
def w1_0 : State := ic (iw 2 5 0 0) 0 gr
def w1_7 : State := vst 33 2 (ic (iw 1 5 9 3) 0x400003 0 (rm 5 base))
def w1_6 : State := vst 33 2 (ic (iw 1 5 9 3) 0x400003 gr (rm 5 base))
def w2_0 : State := icj (iw 2 5 0 0) 0 0 (ic (iw 2 5 0 0) 0 gr)

theorem wit_RowWindows :
    (w0_0.winRequest 48 = some (1073741829 : Word) ∧ w0_0.winMayRequest 48 (1073741829 : Word) = true ∧ w0_0.rowRefused 48 (fldOf (1073741829 : Word) 0 22) = none ∧ fldOf (1073741829 : Word) 30 2 = 1)
    ∧ (w0_1.winRequest 63 = some (2151677951 : Word) ∧ w0_1.winMayRequest 63 (2151677951 : Word) = true ∧ w0_1.rowRefused 63 (fldOf (2151677951 : Word) 0 22) = none ∧ fldOf (2151677951 : Word) 30 2 = 2 ∧ (w0_1.getVault 63).lost = none ∧ (List.map Prod.snd (w0_1.colMap 63 (fldOf (2151677951 : Word) 0 22 % 128))).Nodup)
    ∧ (w0_4.winRequest 63 = some (1073741825 : Word) ∧ (w0_4.winMayRequest 63 (1073741825 : Word) = false ∨ (w0_4.rowRefused 63 (fldOf (1073741825 : Word) 0 22)).isSome = true) ∧ fldOf (1073741825 : Word) 30 2 = 1)
    ∧ (w0_3.winRequest 63 = some (2151677953 : Word) ∧ (w0_3.winMayRequest 63 (2151677953 : Word) = false ∨ (w0_3.rowRefused 63 (fldOf (2151677953 : Word) 0 22)).isSome = true) ∧ fldOf (2151677953 : Word) 30 2 = 2)
    ∧ (w0_2.winRequest 63 = some (3221225473 : Word) ∧ fldOf (3221225473 : Word) 30 2 = 3) :=
  by and_intros <;> decide +kernel

theorem wit_InternalPort :
    (w1_0.icpSample 2 = some (iw 2 5 0 0, (0 : Word)) ∧ icpOp (iw 2 5 0 0) ≠ 1)
    ∧ (w1_7.icpSample 2 = some (iw 1 5 9 3, (4194307 : Word)) ∧ icpOp (iw 1 5 9 3) = 1 ∧ w1_7.cfgReaches = true ∧ 1 ≤ w1_7.icpCode 2 (iw 1 5 9 3) (4194307 : Word) none ∧ w1_7.icpCode 2 (iw 1 5 9 3) (4194307 : Word) none < 4)
    ∧ (w1_6.icpSample 2 = some (iw 1 5 9 3, (4194307 : Word)) ∧ icpOp (iw 1 5 9 3) = 1 ∧ w1_6.cfgReaches = true ∧ 4 ≤ w1_6.icpCode 2 (iw 1 5 9 3) (4194307 : Word) none ∧ (w1_6.getVault (16 * 2 + fldOf (4194307 : Word) 22 4)).svc.row = none)
    ∧ ((w2_0.getIcp 2).jobs.head?.any (fun v0 => decide ((w2_0.getIcp 2).jobs = [v0] ∧ v0.word = iw 2 5 0 0)) = true) :=
  by and_intros <;> decide +kernel

end Sys2Proof.Tests.Cell4

namespace Sys2Proof.Tests.Cpu

def core (fw : Nat) (s : State := base) : State := { s.setFwState fw with cpu := { s.cpu with started := true, user := some 0x10040000, tcm := [(0x40000, 7), (0x40005, 9)] } }
def usr : State := ((core 2).setBit Reg.glbMode 7 true).wr Reg.cpuUsites 0xFFFF#32
def off : State := { base.setFwState 5 with aon := { base.aon with perst := false } }
def w0_0 : State := off
def w1_0 : State := usr
def w1_1 : State := usr
def w1_4 : State := usr
def w1_7 : State := usr.setBit Reg.cpuMboxStat 1 true
def w1_5 : State := usr
def w1_6 : State := usr.setBit Reg.cpuMboxStat 0 true
def w1_8 : State := usr

theorem wit_ControlCore :
    (w0_0.coreMayStart = true)
    ∧ (w1_0.coreMayStart = false)
    ∧ (w1_0.userRuns = true ∧ barOffset (3 : Word) = false)
    ∧ (w1_1.userRuns = true ∧ barOffset (BitVec.ofNat 32 Reg.glbKey) = true ∧ (4194304 ≤ 16 ∧ 16 < 8388608 ∨ 16 = Reg.glbKey))
    ∧ (w1_4.userRuns = true ∧ barOffset (BitVec.ofNat 32 (Reg.lnkCfg 3)) = true ∧ 8391680 ≠ Reg.glbKey ∧ isQueue (sharedSeq 8391680) = false ∧ isLock (sharedSeq 8391680) = false ∧ isMemData (sharedSeq 8391680) = false ∧ isLo (sharedSeq 8391680) = false ∧ isHi (sharedSeq 8391680) = false ∧ rcBits (sharedSeq 8391680) = (0 : Word) ∧ w1_4.reaches (3 : Requester) = true)
    ∧ (w1_1.userRuns = true ∧ barOffset (BitVec.ofNat 32 Reg.glbKey) = true ∧ w1_1.userMayWrite 16 (0 : Word) = false)
    ∧ (w1_7.userRuns = true ∧ w1_7.bit Reg.cpuMboxStat 1 = true)
    ∧ (w1_0.userRuns = true ∧ w1_0.bit Reg.cpuMboxStat 1 = false ∧ w1_0.userTcm (3 : Word) 32 = false)
    ∧ (w1_5.userRuns = true ∧ w1_5.bit Reg.cpuMboxStat 1 = false ∧ w1_5.userTcm (268697600 : Word) 32 = true ∧ w1_5.reaches (3 : Requester) = true)
    ∧ (w1_0.userRuns = true ∧ w1_0.userTcm (3 : Word) 32 = false)
    ∧ (w1_5.userRuns = true ∧ w1_5.userTcm (268697600 : Word) 32 = true ∧ w1_5.reaches (3 : Requester) = true ∧ w1_5.bit Reg.cpuMboxStat 0 = false)
    ∧ (w1_6.userRuns = true ∧ w1_6.userTcm (268697600 : Word) 32 = true ∧ w1_6.reaches (3 : Requester) = true ∧ w1_6.bit Reg.cpuMboxStat 0 = true)
    ∧ (w1_0.userRuns = true ∧ (3 % 4096 ≠ 0 ∨ 0 % 4096 ≠ 0 ∨ 1572864 < 3 + 0 ∨ w1_0.userTcm (0 : Word) 0 = false))
    ∧ (w1_8.userRuns = true ∧ (¬(4096 % 4096 ≠ 0 ∨ 4096 % 4096 ≠ 0 ∨ 1572864 < 4096 + 4096 ∨ w1_8.userTcm (268697600 : Word) 4096 = false)))
    ∧ (w1_0.userRuns = true)
    ∧ (w0_0.userRuns = false)
    ∧ (w0_0.reaches (0 : Requester) = true) :=
  by and_intros <;> decide +kernel

end Sys2Proof.Tests.Cpu

namespace Sys2Proof.Tests.Cpu2

def key (s : State) (r : Nat := 0) : State := { s with host := { s.host with keyWin := [(r, 3)] } }
def core (fw : Nat) (s : State := base) : State := { s.setFwState fw with cpu := { s.cpu with started := true, user := some 0x10040000, tcm := [(0x40000, 7), (0x40005, 9)], cwdt := 100 } }
def usr : State := ((core 2).setBit Reg.glbMode 7 true).wr Reg.cpuUsites 0xFFFF#32
def arg (o l p : Nat) (s : State) : State := ((s.wr (Reg.cpuFwarg 0) (BitVec.ofNat 32 o)).wr (Reg.cpuFwarg 1) (BitVec.ofNat 32 l)).wr (Reg.cpuFwarg 2) (BitVec.ofNat 32 p)
def jb (c o l p : Nat) : FwJob := { cmd := c, off := o, len := l, part := p }
def jst (j : FwJob) (s : State := usr) : State := let s : State := { s with cpu := { s.cpu with job := some j }, host := { s.host with linkUp := true, spd := [(0x100, 4)] } }; (s.setFld Reg.pmuVin 0 16 3300).setBit Reg.cpuFwcmd 31 true
def w0_0 : State := usr
def w0_1 : State := key (arg 0x100 64 0 usr)
def w0_2 : State := key (arg 0x100 0 0 usr)
def w0_5 : State := jst (jb 1 0x100 64 0)
def w0_9 : State := jst (jb 3 0x100 64 8)
def w0_14 : State := jst (jb 2 0x3ffffff 64 0)
def w0_10 : State := jst (jb 5 0x100 64 8)
def w0_12 : State := jst (jb 7 0x100 64 8)
def w0_13 : State := jst (jb 8 0x100 64 8)

theorem wit_FlashCommands :
    (w0_0.reaches (0 : Requester) = true ∧ decide (0 < w0_0.keyLeft 0) = false)
    ∧ ((w0_1.fwRefused 6).any (fun _ => decide (w0_1.reaches (0 : Requester) = true ∧ decide (0 < w0_1.keyLeft 0) = true)) = true)
    ∧ (w0_2.reaches (0 : Requester) = true ∧ decide (0 < w0_2.keyLeft 0) = true ∧ w0_2.fwRefused 1 = none ∧ fwRangeBad 1 (BitVec.toNat (w0_2.rd (Reg.cpuFwarg 0))) (BitVec.toNat (w0_2.rd (Reg.cpuFwarg 1))) (BitVec.toNat (w0_2.rd (Reg.cpuFwarg 2))) = true)
    ∧ (w0_1.reaches (0 : Requester) = true ∧ decide (0 < w0_1.keyLeft 0) = true ∧ w0_1.fwRefused 1 = none ∧ fwRangeBad 1 (BitVec.toNat (w0_1.rd (Reg.cpuFwarg 0))) (BitVec.toNat (w0_1.rd (Reg.cpuFwarg 1))) (BitVec.toNat (w0_1.rd (Reg.cpuFwarg 2))) = false)
    ∧ (((w0_5.coreRuns = true ∧ w0_5.inMonitor = false ∧ w0_5.cpu.job = some (jb 1 256 64 0)) ∧ w0_5.reaches (3 : Requester) = true ∧ w0_5.spdMay 3 (jb 1 256 64 0).off (jb 1 256 64 0).len false = true) ∧ ((jb 1 256 64 0).cmd = 2 ∨ (jb 1 256 64 0).cmd = 4 ∨ (jb 1 256 64 0).cmd = 1 ∨ (jb 1 256 64 0).cmd = 6))
    ∧ (((w0_5.coreRuns = true ∧ w0_5.inMonitor = false ∧ w0_5.cpu.job = some (jb 1 256 64 0)) ∧ w0_5.reaches (3 : Requester) = true ∧ w0_5.spdMay 3 (jb 1 256 64 0).off (jb 1 256 64 0).len false = true) ∧ ((jb 1 256 64 0).cmd = 2 ∨ (jb 1 256 64 0).cmd = 4 ∨ (jb 1 256 64 0).cmd = 1 ∨ (jb 1 256 64 0).cmd = 6) ∧ 0 < (jb 1 256 64 0).len)
    ∧ (((w0_9.coreRuns = true ∧ w0_9.inMonitor = false ∧ w0_9.cpu.job = some (jb 3 256 64 8)) ∧ w0_9.reaches (3 : Requester) = true ∧ w0_9.spdMay 3 (jb 3 256 64 8).off (jb 3 256 64 8).len false = true) ∧ (jb 3 256 64 8).cmd = 3)
    ∧ ((w0_14.coreRuns = true ∧ w0_14.inMonitor = false ∧ w0_14.cpu.job = some (jb 2 67108863 64 0)) ∧ 1 ≤ (jb 2 67108863 64 0).cmd ∧ (jb 2 67108863 64 0).cmd ≤ 6 ∧ (jb 2 67108863 64 0).cmd ≠ 5 ∧ w0_14.reaches (3 : Requester) = true ∧ w0_14.spdMay 3 (jb 2 67108863 64 0).off (jb 2 67108863 64 0).len false = false)
    ∧ ((w0_10.coreRuns = true ∧ w0_10.inMonitor = false ∧ w0_10.cpu.job = some (jb 5 256 64 8)) ∧ (jb 5 256 64 8).cmd = 5 ∧ w0_10.reaches (3 : Requester) = true ∧ w0_10.spdMay 3 (jb 5 256 64 8).off (min (jb 5 256 64 8).len 262144) true = true)
    ∧ ((w0_12.coreRuns = true ∧ w0_12.inMonitor = false ∧ w0_12.cpu.job = some (jb 7 256 64 8)) ∧ (jb 7 256 64 8).cmd = 7)
    ∧ ((w0_13.coreRuns = true ∧ w0_13.inMonitor = false ∧ w0_13.cpu.job = some (jb 8 256 64 8)) ∧ (jb 8 256 64 8).cmd = 8)
    ∧ ((w0_5.coreRuns = true ∧ w0_5.inMonitor = false ∧ w0_5.cpu.job = some (jb 1 256 64 0)) ∧ w0_5.host.linkUp = true)
    ∧ (w0_0.cpu.job = none) :=
  by and_intros <;> decide +kernel

end Sys2Proof.Tests.Cpu2

namespace Sys2Proof.Tests.Cpu3

def key (s : State) (r : Nat := 0) : State := { s with host := { s.host with keyWin := [(r, 3)] } }
def core (fw : Nat) (s : State := base) : State := { s.setFwState fw with cpu := { s.cpu with started := true, user := some 0x10040000, tcm := [(0x40000, 7), (0x40005, 9)], cwdt := 0x10064 } }
def usr : State := (((core 2).setBit Reg.glbMode 7 true).wr Reg.cpuUsites 0xFFFF#32).wr Reg.cpuCwdtCfg 0x1234
def cp (f : Cpu → Cpu) (s : State := usr) : State := { s with cpu := f s.cpu }
def mon : State := ((usr.setBit Reg.cpuDbgStat 0 true).wr (Reg.cpuDbgGpr 3) 5).setBit Reg.cpuDbgStat 2 true
def msk (s : State) : State := s.setBit Reg.cpuDbgCtl 4 true
def hr : State := cp (fun c => { c with haltReq := true })
def fr : State := key (cp (fun c => { c with forceReq := true })) 3
def w0_0 : State := (key usr).setBit Reg.glbMode 12 true
def w0_1 : State := ((key (msk mon)).setBit Reg.glbMode 12 true)
def w0_9 : State := cp fun c => { c with nmi := true }
def w0_2 : State := usr
def w0_4 : State := key usr
def w0_11 : State := hr
def w0_13 : State := fr

theorem wit_WatchdogsAndMonitor :
    (w0_0.reaches (0 : Requester) = true)
    ∧ (w0_0.cwdtCounts = true)
    ∧ (w0_1.cwdtCounts = false)
    ∧ (w0_0.swdtCounts = true)
    ∧ (w0_1.swdtCounts = false)
    ∧ (w0_9.reaches (3 : Requester) = true ∧ w0_9.swdtCounts = true ∧ (w0_9.cpu.nmi = true ∧ 65535 = 65535 - w0_9.fld Reg.cpuSwdtChal 0 16))
    ∧ (w0_0.reaches (3 : Requester) = true ∧ w0_0.swdtCounts = true ∧ (¬(w0_0.cpu.nmi = true ∧ 0 = 65535 - w0_0.fld Reg.cpuSwdtChal 0 16)))
    ∧ (w0_0.reaches (0 : Requester) = true ∧ ((0 : Requester) ≠ (3 : Requester) ∨ w0_0.swdtCounts = false))
    ∧ (w0_2.reaches (0 : Requester) = true ∧ decide (0 < w0_2.keyLeft 0) = false)
    ∧ (w0_0.reaches (0 : Requester) = true ∧ decide (0 < w0_0.keyLeft 0) = true)
    ∧ (w0_1.reaches (0 : Requester) = true ∧ decide (0 < w0_1.keyLeft 0) = true ∧ (true = w0_1.swdtMasked ∧ (true = false → w0_1.bit Reg.glbMode 12 = false)))
    ∧ (w0_4.reaches (0 : Requester) = true ∧ decide (0 < w0_4.keyLeft 0) = true ∧ (false = w0_4.swdtMasked ∧ (false = false → w0_4.bit Reg.glbMode 12 = false)) ∧ w0_4.inMonitor = false)
    ∧ (w0_1.reaches (0 : Requester) = true ∧ decide (0 < w0_1.keyLeft 0) = true ∧ (true = w0_1.swdtMasked ∧ (true = false → w0_1.bit Reg.glbMode 12 = false)) ∧ w0_1.inMonitor = true)
    ∧ ((w0_11.coreRuns = true ∧ w0_11.inMonitor = false ∧ (w0_11.cpu.forceReq = true ∨ w0_11.cpu.haltReq = true ∧ w0_11.keyLeft 3 ≤ 0)) ∧ True)
    ∧ ([((768 : BitVec 12), (7 : Word))].head?.any (fun v0 => decide ((w0_13.coreRuns = true ∧ w0_13.inMonitor = false ∧ (w0_13.cpu.forceReq = true ∨ w0_13.cpu.haltReq = true ∧ w0_13.keyLeft 3 ≤ 0)) ∧ [((768 : BitVec 12), (7 : Word))] = [(v0.1, v0.2)])) = true)
    ∧ (w0_0.coreRuns = true ∧ w0_0.inMonitor = false ∧ (¬(w0_0.coreRuns = true ∧ w0_0.inMonitor = false ∧ (w0_0.cpu.forceReq = true ∨ w0_0.cpu.haltReq = true ∧ w0_0.keyLeft 3 ≤ 0))))
    ∧ ((w0_1.coreRuns = false ∨ w0_1.inMonitor = true)) :=
  by and_intros <;> decide +kernel

end Sys2Proof.Tests.Cpu3

namespace Sys2Proof.Tests.Cpu4

def core (fw : Nat) (s : State := base) : State := { s.setFwState fw with cpu := { s.cpu with started := true, user := some 0x10040000, tcm := [(0x40000, 7), (0x40005, 9)] } }
def usr : State := ((core 2).setBit Reg.glbMode 7 true).wr Reg.cpuUsites 0xFFFF#32
def w0_0 : State := usr

theorem wit_ControlCore : (regInfo (sharedSeq 20971536)).any (fun v0 => decide (w0_0.userRuns = true ∧ w0_0.reaches (3 : Requester) = true ∧ barOffset (BitVec.ofNat 32 ((commitGroups (CommitReg.cap (0 : Fin 16))).flatten.headD 0)) = true ∧ w0_0.userMayWrite 20971536 (7 : Word) = true ∧ isLo (sharedSeq 20971536) = false ∧ isHi (sharedSeq 20971536) = false ∧ v0.prot = (0 : Word))) = true :=
  by decide +kernel

end Sys2Proof.Tests.Cpu4

namespace Sys2Proof.Tests.E1

def key (s : State) (r : Nat := 0) : State := { s with host := { s.host with keyWin := [(r, 3)] } }
def ax : WriteAux := ⟨false, 0, 0, 0⟩
def n26 (n : Nat) : BitVec 26 := BitVec.ofNat 26 n
def hl (a : Nat) (w : Word) (s : State := base) : State := s.setHold 0 a (some w)
def nos : State := base.setBit Reg.glbStartup 7 false
def idle : State := base.setBit (Reg.seqStatus 0) 3 true
def gl (s : State := base) (f : Glint → Glint := id) : State := let s : State := { s with aon := { s.aon with vio := true }, glint := f { s.glint with inFrame := true, unit := 500, prev := 0x1000FFC }, cpu := { s.cpu with tcm := [(4, 7)] }, host := { s.host with spd := [(4, 9)] } }; s.setBit Reg.clkStat 2 true
def c8 (op : Nat) (a : Option (BitVec 48)) (d : Option Word) : BitVec 8 := BitVec.ofNat 8 (crc8 (glintBits op a d))
def eqA : BitVec 48 := BitVec.ofNat 48 (Reg.lnkEqtab 3 1)
def w1_0 : State := (key idle).setBit (Reg.capStatus 0) 2 true
def w0_0 : State := nos
def w0_3 : State := base
def w0_4 : State := (hl (Reg.glbIntegLo 3) 5).wr (Reg.glbIntegLo 3) 0xff |>.wr (Reg.glbIntegHi 3) 0x3f
def w0_6 : State := base.wr (Reg.capIrqStat 3) 0x107
def w0_7 : State := key base
def w0_8 : State := base
def w2_0 : State := gl

theorem wit_CaptureCommands : w1_0.reaches (0 : Requester) = true ∧ 0 < w1_0.keyLeft 0 ∧ w1_0.bit (Reg.capStatus 0) 2 = true :=
  by decide +kernel

theorem wit_RegisterAccess :
    (w0_0.reaches (0 : Requester) = true ∧ (n26 Reg.vltCfg).toNat % 4 = 0 ∧ w0_0.upFor 0 (sharedSeq (n26 Reg.vltCfg).toNat) = false)
    ∧ (w0_3.reaches (0 : Requester) = true ∧ (n26 (Reg.glbIntegLo 3)).toNat % 4 = 0 ∧ w0_3.upFor 0 (sharedSeq (n26 (Reg.glbIntegLo 3)).toNat) = true ∧ sharedSeq (n26 (Reg.glbIntegLo 3)).toNat = Reg.glbIntegLo 3)
    ∧ (w0_4.reaches (0 : Requester) = true ∧ (n26 (Reg.glbIntegLo 3 + 4)).toNat % 4 = 0 ∧ w0_4.upFor 0 (sharedSeq (n26 (Reg.glbIntegLo 3 + 4)).toNat) = true ∧ sharedSeq (n26 (Reg.glbIntegLo 3 + 4)).toNat = Reg.glbIntegHi 3)
    ∧ (w0_6.reaches (0 : Requester) = true ∧ (n26 (Reg.capIrqStat 3)).toNat % 4 = 0 ∧ w0_6.upFor 0 (sharedSeq (n26 (Reg.capIrqStat 3)).toNat) = true ∧ sharedSeq (n26 (Reg.capIrqStat 3)).toNat = Reg.capIrqStat 3)
    ∧ (w0_7.reaches (0 : Requester) = true ∧ (n26 (Reg.lnkEqtab 3 1)).toNat % 4 = 0 ∧ w0_7.upFor 0 (sharedSeq (n26 (Reg.lnkEqtab 3 1)).toNat) = true ∧ sharedSeq (n26 (Reg.lnkEqtab 3 1)).toNat = Reg.lnkEqtab 3 1 ∧ decide (0 < w0_7.keyLeft 0) = true ∧ ax.race = (0 : Word))
    ∧ (w0_8.reaches (0 : Requester) = true ∧ (n26 (Reg.lnkEqtab 31 3)).toNat % 4 = 0 ∧ w0_8.upFor 0 (sharedSeq (n26 (Reg.lnkEqtab 31 3)).toNat) = true ∧ sharedSeq (n26 (Reg.lnkEqtab 31 3)).toNat = Reg.lnkEqtab 31 3 ∧ decide (0 < w0_8.keyLeft 0) = false) :=
  by and_intros <;> decide +kernel

theorem wit_GlintFrames :
    ((¬w2_0.glintOn = true ∨ (w2_0.glint.inFrame = true ∧ 0 ≤ 64 * w2_0.glint.unit) ∧ 1 ≤ 6 * w2_0.glint.unit ∨ ¬(3500 ≤ 1 ∧ 1 ≤ 36000) ∧ w2_0.glint.inFrame = false))
    ∧ ((¬(w2_0.glintOn = true ∧ w2_0.glint.inFrame = true ∧ (([] : List GlintSlot).all fun y => slotFits y w2_0.glint.unit) = true ∧ List.map (fun (y : GlintSlot) => decide (y.low ≤ 2 * w2_0.glint.unit)) [] = glintBits 1 (some eqA) none ++ bitsOf (c8 2 (some eqA) (some (77 : Word))).toNat 0 8)))
    ∧ ((¬(w2_0.glintOn = true ∧ w2_0.glint.inFrame = true ∧ (([] : List GlintSlot).all fun y => slotFits y w2_0.glint.unit) = true ∧ List.map (fun (y : GlintSlot) => decide (y.low ≤ 2 * w2_0.glint.unit)) [] = glintBits 5 none none ++ bitsOf (c8 2 (some eqA) (some (77 : Word))).toNat 0 8))) :=
  by and_intros <;> decide +kernel

end Sys2Proof.Tests.E1

namespace Sys2Proof.Tests.E2

def rg (req : Nat) (s : State := base) : State := (s.wr (Reg.spdRegion req 3 + 0x1000) (0xE0000000#32 ||| BitVec.ofNat 32 (2 + 4 * 2 ^ 14)))
def ro (a : Nat) : State := rowOk base a
def wb : List Byte := (List.range 2048).map (fun i => BitVec.ofNat 8 (3 * i + 1))
def dm (st hd tl : Nat) (s : State := base) : State := ((((s.setDmaState 1 st).setFld (Reg.glbDmaHead 1) 0 16 hd).setFld (Reg.glbDmaTail 1) 0 16 tl).setFld (Reg.glbDmaSize 1) 0 5 4).setDma 1 { holder := some 2 }
def dsc (src dst len : Nat) (ctl : Nat) : List Byte := leBytes 8 src ++ leBytes 8 dst ++ leBytes 4 len ++ leBytes 4 ctl ++ leBytes 8 0
def sp := 2 ^ 44
def sd (st : Nat) : State := { rg 2 (dm st 5 65535) with host := { (rg 2 (dm st 5 65535)).host with spd := [(0x2ffc, 7), (0x3000, 9)] } }
def lk (h : Option Nat) (s : State := base) : State := { s with host := { s.host with locks := [(3, h), (5, some 2)] } } |>.modVault 9 (fun x => { x with reserve := some (3, 3) })
def w0_0 : State := (szz 0 (ro 0x12800))
def w0_2 : State := (szz 0 (base))
def w1_0 : State := sd 1
def w2_0 : State := rowOk (lk none) 0x12345

theorem wit_HostMemory :
    ((w0_0.bar4Addr 75776).any (fun v0 => decide (w0_0.reaches (0 : Requester) = true ∧ w0_0.accessWaits 0 v0 2048 = false ∧ (w0_0.rowRefused (w0_0.locate v0).1 (w0_0.locate v0).2 = none ∧ (w0_0.getVault (w0_0.locate v0).1).svc.row ≠ some (w0_0.locate v0).2 ∧ v0 % 2048 = 0 ∧ 2048 = 2048 ∧ w0_0.reloadsIn (w0_0.vaultsOf v0 2048) = [] ∧ ((List.range 16).all fun k => !w0_0.siteWaits k (w0_0.vaultsOf v0 2048)) = true))) = true)
    ∧ ((w0_0.bar4Addr 75776).any (fun v0 => decide (w0_0.reaches (0 : Requester) = true ∧ w0_0.accessWaits 0 v0 wb.length = false ∧ (w0_0.rowRefused (w0_0.locate v0).1 (w0_0.locate v0).2 = none ∧ (w0_0.getVault (w0_0.locate v0).1).svc.row ≠ some (w0_0.locate v0).2 ∧ v0 % 2048 = 0 ∧ wb.length = 2048 ∧ w0_0.reloadsIn (w0_0.vaultsOf v0 wb.length) = [] ∧ ((List.range 16).all fun k => !w0_0.siteWaits k (w0_0.vaultsOf v0 wb.length)) = true) ∧ (w0_0.locate v0).2 < 2 ^ 22 ∧ (w0_0.getVault (w0_0.locate v0).1).lost = none ∧ (List.map Prod.snd (w0_0.colMap (w0_0.locate v0).1 ((w0_0.locate v0).2 % 128))).Nodup)) = true)
    ∧ ((w0_2.reaches (0 : Requester) = true ∧ (SpdUse.plain = SpdUse.plain ∨ (0 : Requester) ≠ (3 : Requester)) ∧ w0_2.spdTrap (0 : Requester) 268435459 8 false SpdUse.plain false = none)) :=
  by and_intros <;> decide +kernel

theorem wit_DmaEngines : w1_0.dmaMayEnd 1 (dsc (sp + 12284) 0 8 1) { data := { singles := 1, double := true, flip := [(1 : Byte), (2 : Byte), (4 : Byte)] } } = true ∧ w1_0.dmaInSpd 1 = false ∧ (DmaDesc.ofBytes (dsc (sp + 12284) 0 8 1)).bad = false ∧ BitVec.getLsbD (DmaDesc.ofBytes (dsc (sp + 12284) 0 8 1)).ctl 0 = true ∧ BitVec.getLsbD (DmaDesc.ofBytes (dsc (sp + 12284) 0 8 1)).ctl 1 = false ∧ 2 ^ 44 ≤ (DmaDesc.ofBytes (dsc (sp + 12284) 0 8 1)).src ∧ w1_0.devReach (1 + 1) (DmaDesc.ofBytes (dsc (sp + 12284) 0 8 1)).src (DmaDesc.ofBytes (dsc (sp + 12284) 0 8 1)).len false = (DmaDesc.ofBytes (dsc (sp + 12284) 0 8 1)).len :=
  by decide +kernel

theorem wit_Network : w2_0.reaches (2 : Requester) = true ∧ NocAsk.service (74565 : BitVec 41) (1 : BitVec 2) = NocAsk.service (74565 : BitVec 41) (1 : BitVec 2) :=
  by decide +kernel

end Sys2Proof.Tests.E2

namespace Sys2Proof.Tests.E3

def vst (v c : Nat) (s : State := base) : State := s.setFld (Reg.vltStat v) 29 3 c
def tr (s : State) : State := s.setBit Reg.glbStartup 7 true
def u0 := tr ((vst 17 2).setBit Reg.vltCfg 0 true)
def key (s : State) (r : Nat := 0) : State := { s with host := { s.host with keyWin := [(r, 3)] } }
def u2 := u0.modVault 17 (fun x => { x with rowReg := { row := 0x3fffff, data := (List.range 2048).map (fun i => BitVec.ofNat 8 i), poisoned := true }, svc := { row := some 5, data := List.replicate 2048 9, dirty := true, poisoned := true, written := List.range 2047 } })
def u3 := (u2.wr (Reg.vltSrep 17 0) (repEntry true 127 3 4)).wr (Reg.vltSrep 17 5) (repEntry false 127 0x7fff 63)
def u4 := { u3 with dram := (List.range 20).map (fun i => (17 * 2 ^ 36 + 5 * 8192 + i * 4, 1)) }
def m0 := (key u4).wr (Reg.vltMntAddr 17) (5 + 3 * 2^22)
def u1 := (u0.setBit Reg.glbStartup 7 false).modVault 17 (fun x => { x with rowReg := { row := 3, data := List.replicate 2048 7, poisoned := false, busy := true }, svc := { row := some 5, data := List.replicate 2048 9, dirty := true, poisoned := true, written := List.range 2048 } })
def b16 (s : State) : State := (s.setSeqState 3 3).modSite 3 (fun x => { x with restorePending := true, slicesLeft := 0 })
def fr (s : State) : State := s.modFab 3 (fun f => { f with held := false })
def w1_0 : State := u1
def w0_0 : State := u4
def w0_1 : State := m0
def w2_0 : State := b16 (fr (base.setBit Reg.safBistCfg 0 true))

theorem wit_RowOperations :
    ((w1_0.rowRefused 17 5 = none ∨ w1_0.rowRefused 17 5 = some 7 ∧ (0 : BitVec 3) = (4 : BitVec 3)) ∧ srcRank 0 ≤ w1_0.waitRank 17)
    ∧ (w1_0.vltState 17 = 2 ∧ (w1_0.getVault 17).rowReg.busy = true ∧ (w1_0.getVault 17).rowReg.data.length = 2048 ∧ (w1_0.getVault 17).goldenBad.contains (w1_0.getVault 17).rowReg.row = false ∧ (w1_0.getVault 17).lost = none ∧ (List.map Prod.snd (w1_0.colMap 17 ((w1_0.getVault 17).rowReg.row % 128))).Nodup)
    ∧ ((w1_0.getVault 17).svc.row.any (fun _ => decide (w1_0.vltState 17 = 2 ∧ 4 ≤ w1_0.waitRank 17 ∧ (w1_0.getVault 17).svc.dirty = true)) = true) :=
  by and_intros <;> decide +kernel

theorem wit_Maintenance :
    (w0_0.reaches (0 : Requester) = true ∧ ((0 : Requester) = (0 : Requester) → w0_0.bit Reg.glbStartup 7 = true))
    ∧ (w0_1.reaches (0 : Requester) = true ∧ ((0 : Requester) = (0 : Requester) → w0_1.bit Reg.glbStartup 7 = true) ∧ decide (0 < w0_1.keyLeft 0) = true)
    ∧ (w0_0.reaches (0 : Requester) = true ∧ ((0 : Requester) = (0 : Requester) → w0_0.bit Reg.glbStartup 7 = true) ∧ decide (0 < w0_0.keyLeft 0) = false) :=
  by and_intros <;> decide +kernel

theorem wit_SelfTest :
    (w2_0.sliceMay 3 = true)
    ∧ (w2_0.reaches (0 : Requester) = true ∧ (w2_0.repairing = false ∧ w2_0.siteState 3 = 0 ∧ w2_0.siteBusy 3 = false) ∧ w2_0.repairable 3 true = false)
    ∧ (w2_0.reaches (0 : Requester) = true ∧ decide (0 < w2_0.keyLeft 0) = false) :=
  by and_intros <;> decide +kernel

end Sys2Proof.Tests.E3

namespace Sys2Proof.Tests.E4

def cIns (op sub imm : Nat) (fctl : Nat := 1) (wr o0 o1 : Nat := 1) (dst : Nat := 5) (sa : Nat := 1) (sb : Nat := 2) (pf : Nat := 0) : BitVec 48 :=
  BitVec.ofNat 48 (op * 2^42 + dst * 2^38 + sa * 2^32 + sb * 2^26 + fctl * 2^24 + wr * 2^23 + o0 * 2^22 + o1 * 2^21 + pf * 2^19 + sub * 2^16 + imm)
def cSt (k : Nat) (c : Nat) (w : BitVec 256) (a b : Word) (f : Cell → Cell := id) (ctx : BitVec 6 := 3) : State :=
  let s : State := base.putFrame (frameOf k c ctx.toNat) ((w.setWidth 4096) <<< (256 * (keyY c % 16)))
  s.modFab k (fun x => { x with held := false, live := true, ctx := ctx, cells := [(c, f { w := ((a.setWidth 512) <<< 32) ||| ((b.setWidth 512) <<< 64) })] })
def cI (i : BitVec 48) (hi : BitVec 256 := 0) : BitVec 256 := i.setWidth 256 ||| hi
def C := cellAt true 9 33
def wkF := cSt 3 C (cI (cIns 1 0 0) ((1#256 <<< 61) ||| (1#256 <<< 57))) 3 4
def wv1 (lvl : Bool) (s : State) : State := s.modFab 3 (fun f => { f with wire := [(C, lvl)] })
def vok (s : State) : State := (List.range 16).foldl (fun s j => s.setFld (Reg.vltStat (240 + j)) 29 3 2) s
def b0 : BusOff := { bus := 5, ctx := 3, permanent := false }
def dFrame : Nat := frameOf 3 (cellKey 0 4 0) 3
def drv : BitVec 4096 := ((1#4096 <<< 185) ||| (2#4096 <<< 188))
def zf (gold : Bool) : State := let s : State := ((vok base).putFrame dFrame drv).modFab 3 (fun f => { f with held := false, live := true, ctx := 3, busOff := [b0] })
  let s : State := (s.setBit (Reg.cfgRegion 3) 27 gold).setBit Reg.nocIsoStat 5 false
  { s with ctl := { s.ctl with golden := [(dFrame, 99)] } }
def wrq := cI (cIns 1 0 0) (1#256 <<< 192)
def vst (v c : Nat) (s : State := base) : State := s.setFld (Reg.vltStat v) 29 3 c
def rr : WinRead := { vault := 63, since := 236, data := (List.range 2048).map (fun i => BitVec.ofNat 8 (i * 3 + 1)), poisoned := true }
def rw (_w : Word) (v : Nat := 48) : State := (vst v 2 (cSt 3 (ctlCellOf (v % 16)) wrq 1 2)).modFab 3 (fun f => { f with now := 299, winReads := [rr], win := (List.range 512).map (fun i => (512 * (v % 16) + i, BitVec.ofNat 32 (i * 0x01010101 + 7))) })
def w0_0 : State := wv1 true wkF
def w1_0 : State := zf true
def w2_0 : State := rw 0x40000001 63

theorem wit_FabricEvents :
    ((w0_0.getFab 3).live = true ∧ w0_0.fabRuns 3 = true ∧ w0_0.wireEdge 3 (cellAt true (9 : BitVec 6) (33 : BitVec 6)) = true)
    ∧ ((List.find? (fun o => o.bus == 4 * 1 + 1 && !o.permanent) (w1_0.getFab 3).busOff).any (fun v0 => decide (w1_0.bit Reg.nocIsoStat 5 = false ∧ (∀ g ∈ v0.frames, g / 32768 = 3) ∧ w1_0.goldenValid 3 = true ∧ w1_0.tileEnabled 15 = true ∧ (∀ (v : ℕ), 240 ≤ v → v < 256 → w1_0.vltState v = 2 ∧ (w1_0.getVault v).goldenBad = []))) = true) :=
  by and_intros <;> decide +kernel

theorem wit_RowWindows : (List.find? (fun r => r.vault == 63) (w2_0.getFab (63 / 16 : ℕ)).winReads).any (fun v0 => decide ((((w2_0.getFab (63 / 16 : ℕ)).winReads.all fun q => decide (q.vault % 16 = 63 % 16 → q = v0)) = true) ∧ w2_0.vltState 63 ≠ 5 ∧ v0.data.length = 2048 ∧ List.find? (w2_0.wireEdge (63 / 16 : ℕ)) (w2_0.wireClocked (63 / 16 : ℕ)) = none ∧ (((w2_0.getFab (63 / 16 : ℕ)).live = true ∧ (w2_0.getFab (63 / 16 : ℕ)).now = v0.since + 63 ∨ (w2_0.getFab (63 / 16 : ℕ)).live = false ∧ v0.since + 66 ≤ w2_0.fc)))) = true :=
  by decide +kernel

end Sys2Proof.Tests.E4

namespace Sys2Proof.Tests.E5

def core (fw : Nat) (s : State := base) : State := { s.setFwState fw with cpu := { s.cpu with started := true, user := some 0x10040000, tcm := [(0x40000, 7), (0x40005, 9)] } }
def usr : State := ((core 2).setBit Reg.glbMode 7 true).wr Reg.cpuUsites 0xFFFF#32
def iso (s : State) : State := s.setBit Reg.nocIsoStat 3 true
def w0_0 : State := core 1
def w0_2 : State := (core 2).setBit Reg.glbMode 7 false
def w1_0 : State := iso usr
def w1_1 : State := iso usr
def w1_2 : State := iso usr

theorem wit_ControlCore :
    (w0_0.coreRuns = true ∧ w0_0.fwState = fwAuthenticating)
    ∧ (w0_2.coreRuns = true ∧ w0_2.fwRunning = false ∧ (w0_2.fwState = fwSlotA ∨ w0_2.fwState = fwSlotB))
    ∧ (w1_0.userRuns = true ∧ barOffset (256 : Word) = true ∧ 256 ≠ Reg.glbKey ∧ isQueue (sharedSeq 256) = false ∧ isLock (sharedSeq 256) = false ∧ isMemData (sharedSeq 256) = false ∧ isLo (sharedSeq 256) = false ∧ isHi (sharedSeq 256) = false ∧ rcBits (sharedSeq 256) = (0 : Word) ∧ (¬w1_0.reaches (3 : Requester) = true))
    ∧ (w1_1.userRuns = true ∧ barOffset (BitVec.ofNat 32 ((commitGroups (CommitReg.cap (0 : Fin 16))).flatten.headD 0)) = true ∧ w1_1.userMayWrite 20971536 (5 : Word) = true ∧ (¬w1_1.reaches (3 : Requester) = true))
    ∧ (w1_2.userRuns = true ∧ w1_2.bit Reg.cpuMboxStat 1 = false ∧ w1_2.userTcm (268697600 : Word) 32 = true ∧ (¬w1_2.reaches (3 : Requester) = true))
    ∧ (w1_2.userRuns = true ∧ w1_2.userTcm (268697600 : Word) 32 = true ∧ (¬w1_2.reaches (3 : Requester) = true)) :=
  by and_intros <;> decide +kernel

end Sys2Proof.Tests.E5

namespace Sys2Proof.Tests.E6

def put (l : List Byte) (o n v : Nat) : List Byte := putLe l o n v
def hdr (ty regions frames : Nat) (secs : List (Nat × Nat)) (crc : Nat := 0) (flags key : Nat := 0) : List Byte :=
  let l : List Byte := List.replicate 4096 0
  let l := put (put (put (put l 0 4 0x42585250) 5 1 1) 6 2 0x1000) 8 2 0x5058
  let l := put (put (put (put l 0xA 2 0x2048) 0xC 4 0xffffffff) 0x10 1 ty) 0x12 2 regions
  let l := put (put (put (put l 0x14 4 frames) 0x18 4 (secs.map (·.2)).sum) 0x1C 4 0x40244010) 0x28 8 crc
  let l := put (put l 0xE00 2 flags) 0xE02 2 key
  let l := (secs.zipIdx.foldl (fun (p : List Byte × Nat) e => (put (put (put p.1 (0x40 + 16 * e.2) 2 e.1.1) (0x44 + 16 * e.2) 4 p.2) (0x48 + 16 * e.2) 4 e.1.2, p.2 + e.1.2)) (l, 0)).1
  put l 0xFFC 4 (crc32c (l.take 0xFFC))
def ok (s : State) : State := ((List.range 16).foldl (fun s j => s.setFld (Reg.vltStat (240 + j)) 29 3 2) s).setBit Reg.glbStartup 7 true |>.setBit Reg.glbStartup 8 false |>.setBit Reg.glbMode 5 true
def stage (s : State) : State := (s.wr (Reg.cfgCfg + 0x200) 0).wr (Reg.cfgStageLen + 0x200) 0x10000 |>.wr (Reg.cfgStageBase + 0x200) 0x2000
def ldS (st : Nat) (buf : List Byte) (s : State := ok base) (h : Option ImgHdr := none) : State := (s.setLoadState st).modLoad (fun l => { l with buf := buf, pos := buf.length, hdr := h })
def noKey (s : State) : State := s.setBit Reg.glbVariant 4 false
def sg : ImgHdr := { full := false, staged := true, regions := 4, frames := 2, bodyLen := 1248, sections := [(7, 0, 520)], bodyCrc := 0, build := 0, signed := false, key := 0, sig := [], stage := 8192 }
def i0 : State := noKey (stage (ok base))
def rcfg : RegionCfg := { inuse := 0xa5, rmode := true, park := 7, pclass := some 3, init := [(32 * 5 + 3, 77)] }
def rs : State := let s : State := (ok base).setMode 1 |>.setBit (Reg.cfgRegion 2) 27 true |>.setBit Reg.nocIsoStat 5 false; { s with ctl := { s.ctl with restore := true, golden := [(65536, 9), (65537, 8)], frames := [(3, 4), (65536, 1), (65539, 1)], goldenCfg := [(2, rcfg)] } }
def w1_0 : State := (ldS 2 [1,2] i0 (some sg))

theorem wit_ImageChecks : w1_0.ctl.load.hdr.any (fun v0 => v0.sections[w1_0.ctl.load.sec]?.any (fun v1 => decide (w1_0.loadState = ldSections ∧ v0.sections[w1_0.ctl.load.sec]? = some (7, v1.2.1, v1.2.2) ∧ (v0.staged = true → w1_0.cfgReaches = true)))) = true :=
  by decide +kernel

theorem wit_LoadCompletes : rs.ctl.restore = true ∧ rs.clocksRun = true ∧ rs.cfgReaches = true ∧ rs.mode = modeLOAD ∧ (∀ v, v < 16 → rs.vltState (240 + v) = 2) ∧ rs.poisonedGolden = [] ∧ (rs.ctl.golden.map Prod.fst).Nodup :=
  by decide +kernel

end Sys2Proof.Tests.E6

namespace Sys2Proof.Tests.E8

def fr (s : State) : State := s.modFab 3 (fun f => { f with held := false })
def w0_0 : State := fr ((base.setBit Reg.safBistCfg 0 true).setBit (Reg.seqStatus 3) 3 false)

theorem wit_SelfTest :
    (w0_0.siteBusy 3 = true ∧ (w0_0.getSite 3).slicesLeft = 0)
    ∧ (w0_0.reaches (0 : Requester) = true ∧ (¬(w0_0.repairing = false ∧ w0_0.siteState 3 = 0 ∧ w0_0.siteBusy 3 = false)))
    ∧ (w0_0.siteBusy 3 = true) :=
  by and_intros <;> decide +kernel

end Sys2Proof.Tests.E8

namespace Sys2Proof.Tests.Expo

def s0 : State := { base with aon := { base.aon with vio := true } }
def fb (k now : Nat) (s : State := s0) : State := s.modFab k (fun f => { f with held := false, now := now })
def ex (h : List Nat) (at0 : List Nat) (s : State := fb 3 100) : State := ((s.setExpo 3 { s.getExpo 3 with host := h }).modSite 3 (fun x => { x with exposeAt := at0, fc0 := 50 })) |>.wr (Reg.fabDevBase 3 1) 96 |>.wr (Reg.fabDevBase 3 0) 2048
def lt (s : State) : State := s.setExpo 3 { s.getExpo 3 with latent := some { base := 3 * 2^37, header := [1,2], cells := [], wclk := [] } }
def sp (p : Nat) (s : State := s0) : State := { s with aon := { s.aon with smbPtr := BitVec.ofNat 32 p } }
def w0_0 : State := ex [103, 104] []
def w0_3 : State := ex [104] [50, 51]
def w0_4 : State := lt (ex [103] [50, 51])
def w0_6 : State := sp 0x100
def w0_9 : State := sp Reg.pmuAlertEn
def w0_10 : State := (sp Reg.pmuEvt).wr Reg.pmuEvt 0xFF
def w0_14 : State := base

theorem wit_ExposureAndSmbus_0 :
    (w0_0.reaches (0 : Requester) = true)
    ∧ ((¬(w0_3.fabRuns 3 = false ∨ (w0_3.getFab 3).now + 3 = 105) ∨ w0_3.expTrigger 3 105 = 0))
    ∧ ((w0_4.fabRuns 3 = false ∨ (w0_4.getFab 3).now + 3 = 103) ∧ w0_4.expTrigger 3 103 ≠ 0 ∧ w0_4.expRefused 3 = true)
    ∧ ((w0_0.fabRuns 3 = false ∨ (w0_0.getFab 3).now + 3 = 103) ∧ w0_0.expTrigger 3 103 ≠ 0 ∧ w0_0.expRefused 3 = false)
    ∧ ((w0_4.getExpo 3).latent.any (fun v0 => decide (w0_4.reaches (4 : Requester) = true ∧ w0_4.accessWaits 4 v0.base recordLen = false)) = true)
    ∧ ((∀ (l : Latent), (w0_0.getExpo 3).latent = some l → w0_0.reaches (4 : Requester) = false ∨ w0_0.accessWaits 4 l.base recordLen = true))
    ∧ (w0_0.smbOn = true ∧ (∀ (q : BitVec 8), none = some q → q = smbPec ([BitVec.ofNat 8 (2 * w0_0.smbAddress), BitVec.ofNat 8 1, BitVec.ofNat 8 4] ++ leBytes 4 7)))
    ∧ (w0_6.smbOn = true ∧ BitVec.toNat w0_6.aon.smbPtr % 4 = 0 ∧ smbReadable (BitVec.toNat w0_6.aon.smbPtr) = true)
    ∧ (w0_0.smbOn = true ∧ (BitVec.toNat w0_0.aon.smbPtr % 4 ≠ 0 ∨ smbReadable (BitVec.toNat w0_0.aon.smbPtr) = false))
    ∧ ((regInfo (BitVec.toNat w0_9.aon.smbPtr)).any (fun _ => decide (w0_9.smbOn = true ∧ (∀ (q : BitVec 8), none = some q → q = smbPec ([BitVec.ofNat 8 (2 * w0_9.smbAddress), BitVec.ofNat 8 3, BitVec.ofNat 8 4] ++ leBytes 4 7)) ∧ BitVec.toNat w0_9.aon.smbPtr % 4 = 0 ∧ smbReadable (BitVec.toNat w0_9.aon.smbPtr) = true ∧ smbWritable (BitVec.toNat w0_9.aon.smbPtr) = true ∧ commitAt (BitVec.toNat w0_9.aon.smbPtr) = none ∧ isLo (BitVec.toNat w0_9.aon.smbPtr) = false ∧ isHi (BitVec.toNat w0_9.aon.smbPtr) = false)) = true)
    ∧ (w0_0.smbOn = true ∧ (∀ (q : BitVec 8), none = some q → q = smbPec ([BitVec.ofNat 8 (2 * w0_0.smbAddress), BitVec.ofNat 8 3, BitVec.ofNat 8 4] ++ leBytes 4 7)) ∧ (BitVec.toNat w0_0.aon.smbPtr % 4 ≠ 0 ∨ smbReadable (BitVec.toNat w0_0.aon.smbPtr) = false ∨ smbWritable (BitVec.toNat w0_0.aon.smbPtr) = false))
    ∧ (w0_0.smbOn = true)
    ∧ (w0_10.smbOn = true ∧ w0_10.alertAsserted = true)
    ∧ (w0_0.smbOn = true ∧ w0_0.alertAsserted = false)
    ∧ ((¬w0_14.smbOn = true)) :=
  by and_intros <;> decide +kernel

end Sys2Proof.Tests.Expo

namespace Sys2Proof.Tests.Glint

def gl (s : State := base) (f : Glint → Glint := id) : State := let s : State := { s with aon := { s.aon with vio := true }, glint := f { s.glint with inFrame := true, unit := 500, prev := 0x1000FFC }, cpu := { s.cpu with tcm := [(4, 7)] }, host := { s.host with spd := [(4, 9)] } }; s.setBit Reg.clkStat 2 true
def w0_0 : State := gl
def w0_3 : State := gl

theorem wit_GlintFrames :
    (w0_0.glintOn = true ∧ (¬((w0_0.glint.inFrame = true ∧ 0 ≤ 64 * w0_0.glint.unit) ∧ 4000 ≤ 6 * w0_0.glint.unit)))
    ∧ (w0_3.glintOn = true ∧ (¬((w0_3.glint.inFrame = true ∧ 0 ≤ 64 * w0_3.glint.unit) ∧ 3001 ≤ 6 * w0_3.glint.unit)) ∧ w0_3.glint.inFrame = true) :=
  by and_intros <;> decide +kernel

end Sys2Proof.Tests.Glint

namespace Sys2Proof.Tests.Link

def lk (k : Nat) (w : BitVec 64) (f : Site → Site := id) (st : Nat := 4) : State := { (sites.foldl (fun s i => (s.setLnkState (16*k+i) 4).setLnkState (256+16*k+i) st) (runAt k w 5 f)) with fc := 200 }
def sp0 : Span := { first := 0, len := 12, ctx := 3, tset := 1, cap := 0 }
def p0 := lk 1 0 (fun x => { x with spans := [sp0], cycle := 12 })
def p2 := ((lk 1 0).setSeqState 1 0).setBit (Reg.lnkInject 18) 31 true |>.setFld (Reg.lnkInject 18) 28 2 2
def p3 := (lk 1 0 (fun x => { x with parkReason := 8 })).setSeqState 1 0
def p4 := (lk 1 0 id 5).setSeqState 1 0 |>.setBit Reg.lnkMeasure 17 true
def sndL (kind payload info : Nat) (hdr : BitVec 2) (s : State) (l f rtt : Nat) (bad : Nat := 0): PrxFrame := { hdr := hdr ^^^ 3, body := BitVec.ofNat 158 ((s.frameBits l f kind payload info).toNat / 4 ^^^ bad), rtt := rtt }
def q (s : State) (l : Nat) (f kind : Nat) (cyc : List (Option Nat) := []) (mk : Nat := 0) : State := s.modLane l (fun x => { x with rxScr := x.txScr, sent := [{ frame := f, kind := BitVec.ofNat 2 kind, cycles := cyc, marker := mk }, { frame := f + 1, kind := 1 }] })
def c0 : List (Option Nat) := [none, none, none, none, some 0, some 1, some 2, some 3]
def q0 := q p0 17 12 0 c0
def e0 : Sent := { frame := 12, kind := 0, cycles := c0 }
def f0 := sndL 0 0xffeeddccbbaa99887766554433221100 0 1 q0 17 12 900
def q1 := q p2 16 12 1
def e1 : Sent := { frame := 12, kind := 1 }
def ln (st : Nat) : State := lk 1 0 id st
def prb (w : Nat) (s : State) : State := s.setFld (Reg.lnkCfg w + 0x200) 8 4 1
def w0_0 : State := p0
def w1_2 : State := p2
def w1_3 : State := p3
def w1_4 : State := p4
def w3_0 : State := q0
def w3_4 : State := q0
def w4_1 : State := q1
def w4_2 : State := q1
def w10_0 : State := ln 2
def w10_1 : State := ln 3
def w10_3 : State := (ln 1)
def w10_4 : State := (ln 3).setSeqState 1 0
def w10_5 : State := (ln 5).setSeqState 1 0 |>.setBit Reg.lnkMeasure 17 true |>.modLane 20 (fun x => { x with markSent := 1 })
def w10_6 : State := ln 7
def w10_7 : State := (ln 7).setBit (Reg.lnkStat 276) 24 true
def w10_8 : State := q0
def w11_0 : State := base
def w11_4 : State := prb 5 (ln 7)
def w11_8 : State := p2

theorem wit_PtxFrames_0 : (w0_0.catchUp (17 / 16 : ℕ)).canSend 17 13 = true ∧ (w0_0.catchUp (17 / 16 : ℕ)).frameKind (17 / 16 : ℕ) 13 = kindData :=
  by decide +kernel

theorem wit_PtxFrames_1 :
    (w1_2.canSend 18 24 = true ∧ w1_2.frameKind (18 / 16 : ℕ) 24 = kindIdle)
    ∧ (w1_3.canSend 31 25 = true ∧ w1_3.frameKind (31 / 16 : ℕ) 25 = kindPark)
    ∧ (w1_4.canSend 16 3 = true ∧ w1_4.frameKind (16 / 16 : ℕ) 3 ≠ kindData ∧ w1_4.measuring (16 / 16 : ℕ) = true ∧ (w1_4.getLane 16).markSent < 256 ∧ ((w1_4.getLane 16).markSent = 0 ∨ (w1_4.getLane 16).lastMark + 16 ≤ 3)) :=
  by and_intros <;> decide +kernel

theorem wit_PrxFrames :
    (w3_0.prxLocked 17 = true ∧ List.find? (fun p => p.frame == 12) (w3_0.getLane 17).sent = some e0 ∧ w3_0.rxOffset 17 = false ∧ (w3_0.prxBody 17 f0).kind = kindData)
    ∧ (w3_4.prxLocked 17 = true ∧ List.find? (fun p => p.frame == 12) (w3_4.getLane 17).sent = some e0 ∧ w3_4.rxOffset 17 = false ∧ (w3_4.prxBody 17 (sndL 1 0 0 (2 : BitVec 2) q0 17 12 5)).kind = kindIdle)
    ∧ (w4_1.prxLocked 16 = true ∧ List.find? (fun p => p.frame == 12) (w4_1.getLane 16).sent = some e1 ∧ w4_1.rxOffset 16 = false ∧ (w4_1.prxBody 16 (sndL 2 0 3 (2 : BitVec 2) q1 16 12 5)).kind = kindPark)
    ∧ (w4_2.prxLocked 16 = true ∧ List.find? (fun p => p.frame == 12) (w4_2.getLane 16).sent = some e1 ∧ w4_2.rxOffset 16 = false ∧ (w4_2.prxBody 16 (sndL 3 (markerPayload 16 0) 0 (2 : BitVec 2) q1 16 12 5)).kind = kindMarker) :=
  by and_intros <;> decide +kernel

theorem wit_LaneEvents :
    ((w10_0.lnkState (prxWin 16) = 2 ∨ w10_0.lnkState (prxWin 16) = 3 ∨ w10_0.prxLocked 16 = true))
    ∧ ((w10_1.lnkState (prxWin 31) = 3 ∨ w10_1.prxLocked 31 = true))
    ∧ (w10_3.lnkState (prxWin 20) = 1 ∧ w10_3.busUp = true)
    ∧ (w10_0.lnkState (prxWin 16) = 2)
    ∧ (w10_1.lnkState (prxWin 31) = 3 ∧ w10_1.seqRuns (31 / 16 : ℕ) = true)
    ∧ (w10_4.lnkState (prxWin 20) = 3 ∧ w10_4.seqRuns (20 / 16 : ℕ) = false)
    ∧ (w10_5.measuring (20 / 16 : ℕ) = true ∧ (w10_5.getLane 20).markGot < (w10_5.getLane 20).markSent ∧ w10_5.seqRuns (20 / 16 : ℕ) = false)
    ∧ (w10_6.lnkState (prxWin 20) = 7 ∧ w10_6.bit (Reg.lnkStat (prxWin 20)) 24 = false ∧ (w10_6.getLane 20).prbsHeld = 0 ∧ (w10_6.getLane 20).prbsRun = 0 ∧ (w10_6.getLane 20).flipNext = false ∧ (w10_6.getLane 20).flipRx = none ∧ (prbsTaps (w10_6.fldAct (Reg.lnkCfg (prxWin 20)) 8 4)).1 + 128 ≤ 255)
    ∧ (w10_6.lnkState (prxWin 20) = 7 ∧ (w10_6.prbsFeed 20 []).bit (Reg.lnkStat (prxWin 20)) 24 = false)
    ∧ (w10_7.lnkState (prxWin 20) = 7 ∧ w10_7.bit (Reg.lnkStat (prxWin 20)) 24 = true ∧ (w10_7.getLane 20).flipNext = false ∧ (w10_7.getLane 20).flipRx = none ∧ (true ^^ (w10_7.getLane 20).rxInvert) ≠ prbsNext (w10_7.fldAct (Reg.lnkCfg (prxWin 20)) 8 4) (w10_7.getLane 20).prbsReg)
    ∧ ((List.find? (fun p => p.frame == 12) (w10_8.getLane 17).sent).any (fun _ => decide (True)) = true) :=
  by and_intros <;> decide +kernel

theorem wit_LinkCommands :
    (w11_0.reaches (0 : Requester) = true)
    ∧ (w11_4.reaches (0 : Requester) = true ∧ w11_4.bit (Reg.lnkInject 5) 31 = false ∧ w11_4.prbsMode 5 = true)
    ∧ (w11_0.reaches (0 : Requester) = true ∧ w11_0.bit (Reg.lnkInject 5) 31 = false ∧ w11_0.prbsMode 5 = false)
    ∧ (w11_8.reaches (0 : Requester) = true ∧ w11_8.bit (Reg.lnkInject 18) 31 = true)
    ∧ (w11_0.reaches (0 : Requester) = true ∧ w11_0.bit (Reg.lnkInject 5) 31 = false) :=
  by and_intros <;> decide +kernel

end Sys2Proof.Tests.Link

namespace Sys2Proof.Tests.Loadw

def ok (s : State) : State := ((List.range 16).foldl (fun s j => s.setFld (Reg.vltStat (240 + j)) 29 3 2) s).setBit Reg.glbStartup 7 true |>.setBit Reg.glbStartup 8 false |>.setBit Reg.glbMode 5 true
def stage (s : State) : State := (s.wr (Reg.cfgCfg + 0x200) 0).wr (Reg.cfgStageLen + 0x200) 0x10000 |>.wr (Reg.cfgStageBase + 0x200) 0x2000
def ldS (st : Nat) (buf : List Byte) (s : State := ok base) (h : Option ImgHdr := none) : State := (s.setLoadState st).modLoad (fun l => { l with buf := buf, pos := buf.length, hdr := h })
def noKey (s : State) : State := s.setBit Reg.glbVariant 4 false
def i1 : State := noKey (stage (ldS 1 [1, 2, 3]))
def sg : ImgHdr := { full := false, staged := true, regions := 4, frames := 2, bodyLen := 1248, sections := [(2, 0, 16), (4, 16, 128), (6, 144, 64), (7, 208, 1040)], bodyCrc := 0, build := 0, signed := false, key := 0, sig := [], stage := 8192 }
def ss : ImgHdr := { sg with staged := false, regions := 0x8004, sections := [(2, 0, 32), (4, 32, 256), (6, 288, 64), (7, 352, 1040)], stage := 0 }
def sf : ImgHdr := { sg with full := true, staged := false, regions := 0xffff, frames := 524288, bodyLen := 289410320, sections := [(1, 0, 16), (2, 16, 256), (3, 272, 1024), (4, 1296, 2048), (6, 3344, 16777216), (7, 16780560, 272629760)], stage := 0 }
def sec2 : List Byte := List.replicate 8 0xa5 ++ List.replicate 8 0
def p5 (st : Nat) (h : Option ImgHdr) (s : State := i1) : State := ldS st [1,2,3] s h
def rcfg : RegionCfg := { inuse := 0xa5, rmode := true, park := 7, pclass := some 3, init := [(32 * 5 + 3, 77)] }
def done2 (h : ImgHdr) (s : State := i1) : State := (ldS 3 [] s (some h)).modLoad (fun l => { l with done := [65537, 65536], crc := 5, cfg := h.regionList.map (fun k => (k, rcfg)), written := 0 })
def sg' := { sg with bodyCrc := 5 }
def sf' := { sf with bodyCrc := 5, frames := 2 }
def v5 (h : ImgHdr) (s : State := i1) : State := (done2 h s).setLoadState 4
def rl := ((v5 sf').setLoadState 6).setMode 1 |>.modLoad (fun l => { l with accepted := some 1000 })
def rs : State := let s : State := base.setMode 1 |>.setBit (Reg.cfgRegion 2) 27 true; { s with ctl := { s.ctl with restore := true, golden := [(65536, 9), (65537, 8)], frames := [(3, 4), (65536, 1), (65539, 1)], goldenCfg := [(2, rcfg)] } }
def key (s : State) (r : Nat := 0) : State := { s with host := { s.host with keyWin := [(r, 3)] } }
def rld (rel : Bool) : Reload := { frame := 65536, relevant := rel, byRead := false }
def cu (p : Nat) : State := (ok base).setFld Reg.cfgScrub 0 20 p
def cr (rel gold : Bool) : State := let s : State := key (cu 3) |>.setBit (Reg.cfgRegion 2) 27 gold; { s with ctl := { s.ctl with reloads := [rld rel], golden := [(65536, 9)], frames := [(65536, 1)] } }
def w1_7 : State := p5 5 (some sg)
def w1_0 : State := (ldS 0 [1,2,3])
def w1_2 : State := p5 3 (some sg)
def w1_6 : State := p5 7 none
def w1_1 : State := p5 3 (some sg)
def w1_9 : State := { (p5 3 (some sg)) with tsc := 160000000, host := { (p5 3 (some sg)).host with staging := true } }
def w0_1 : State := ldS 2 (List.replicate 32 2) i1 (some ss)
def w0_0 : State := ldS 2 (sec2 ++ [9]) i1 (some sg)
def w5_0 : State := cu 65536
def w5_2 : State := cr true true
def w5_3 : State := cr true true

theorem wit_ImageSink :
    ((w1_7.busUp = false ∨ True ∨ w1_7.loadState = ldBody ∨ w1_7.loadState = ldWrite ∨ w1_7.loadState = ldRelease))
    ∧ (w1_0.busUp = true ∧ (w1_0.loadState = ldIdle ∨ w1_0.loadState = ldHeader ∨ w1_0.loadState = ldSections ∨ w1_0.loadState = ldFrames) ∧ 3 = w1_0.ctl.load.pos % 2 ^ 28)
    ∧ (w1_2.busUp = true ∧ (w1_2.loadState = ldIdle ∨ w1_2.loadState = ldHeader ∨ w1_2.loadState = ldSections ∨ w1_2.loadState = ldFrames) ∧ 4 ≠ w1_2.ctl.load.pos % 2 ^ 28)
    ∧ (w1_6.busUp = true ∧ w1_6.loadState = ldDrop)
    ∧ (w1_1.reaches (0 : Requester) = true ∧ w1_1.loading = true)
    ∧ (w1_0.reaches (0 : Requester) = true ∧ w1_0.loading = false)
    ∧ (w1_0.reaches (0 : Requester) = true)
    ∧ (w1_9.ctl.load.hdr.any (fun v0 => decide (v0.staged = true ∧ w1_9.host.staging = true ∧ (w1_9.loadState = ldSections ∨ w1_9.loadState = ldFrames) ∧ w1_9.ctl.load.lastWrite + 160000000 ≤ w1_9.tsc.toNat)) = true) :=
  by and_intros <;> decide +kernel

theorem wit_ImageChecks :
    (w0_1.ctl.load.hdr.any (fun v0 => v0.sections[w0_1.ctl.load.sec]?.any (fun v1 => decide (w0_1.loadState = ldSections ∧ v0.sections[w0_1.ctl.load.sec]? = some (v1.1, v1.2.1, v1.2.2) ∧ v1.1 ≠ 7 ∧ v1.2.2 ≤ w0_1.ctl.load.buf.length ∧ (v0.staged = true → w0_1.cfgReaches = true) ∧ sectionBad v1.1 v0.regionList (List.take v1.2.2 w0_1.ctl.load.buf) = true))) = true)
    ∧ (w0_0.ctl.load.hdr.any (fun v0 => v0.sections[w0_0.ctl.load.sec]?.any (fun v1 => decide (w0_0.loadState = ldSections ∧ v0.sections[w0_0.ctl.load.sec]? = some (v1.1, v1.2.1, v1.2.2) ∧ v1.1 ≠ 7 ∧ v1.2.2 ≤ w0_0.ctl.load.buf.length ∧ (v0.staged = true → w0_0.cfgReaches = true) ∧ sectionBad v1.1 v0.regionList (List.take v1.2.2 w0_0.ctl.load.buf) = false))) = true) :=
  by and_intros <;> decide +kernel

theorem wit_LoadCompletes :
    ((done2 sg).ctl.load.hdr = some sg ∧ ((done2 sg).loadState = ldFrames ∧ (done2 sg).ctl.load.done.length = sg.frames ∧ (done2 sg).ctl.load.buf = []) ∧ (done2 sg).ctl.load.crc ≠ sg.bodyCrc)
    ∧ ((done2 sg').ctl.load.hdr = some sg' ∧ ((done2 sg').loadState = ldFrames ∧ (done2 sg').ctl.load.done.length = sg'.frames ∧ (done2 sg').ctl.load.buf = []) ∧ (done2 sg').ctl.load.crc = sg'.bodyCrc ∧ (sg'.signed = false ∨ (done2 sg').variantE = true))
    ∧ (((done2 sg').setLoadState 5).ctl.load.hdr = some sg' ∧ ((done2 sg').setLoadState 5).loadState = ldWrite ∧ ((done2 sg').setLoadState 5).cfgReaches = true ∧ ((done2 sg').setLoadState 5).ctl.load.written + 1 < sg'.frames)
    ∧ ((((done2 sg').setLoadState 5).modLoad fun l => { pos := l.pos, buf := l.buf, hdr := l.hdr, sec := l.sec, crc := l.crc, msg := l.msg, cfg := l.cfg, rel := [(3 : BitVec 256), (4 : BitVec 256)], last := l.last, done := l.done, written := 1, accepted := l.accepted, lastWrite := l.lastWrite }).ctl.load.hdr = some sg' ∧ (((done2 sg').setLoadState 5).modLoad fun l => { pos := l.pos, buf := l.buf, hdr := l.hdr, sec := l.sec, crc := l.crc, msg := l.msg, cfg := l.cfg, rel := [(3 : BitVec 256), (4 : BitVec 256)], last := l.last, done := l.done, written := 1, accepted := l.accepted, lastWrite := l.lastWrite }).loadState = ldWrite ∧ (((done2 sg').setLoadState 5).modLoad fun l => { pos := l.pos, buf := l.buf, hdr := l.hdr, sec := l.sec, crc := l.crc, msg := l.msg, cfg := l.cfg, rel := [(3 : BitVec 256), (4 : BitVec 256)], last := l.last, done := l.done, written := 1, accepted := l.accepted, lastWrite := l.lastWrite }).cfgReaches = true ∧ sg'.frames = (((done2 sg').setLoadState 5).modLoad fun l => { pos := l.pos, buf := l.buf, hdr := l.hdr, sec := l.sec, crc := l.crc, msg := l.msg, cfg := l.cfg, rel := [(3 : BitVec 256), (4 : BitVec 256)], last := l.last, done := l.done, written := 1, accepted := l.accepted, lastWrite := l.lastWrite }).ctl.load.written + 1)
    ∧ (rl.ctl.load.accepted.any (fun _ => decide (rl.clocksRun = true ∧ (rl.mode = modeLOAD ∨ rl.mode = modeSAFE) ∧ rl.loadState = ldRelease ∧ rl.anyRuns = false)) = true)
    ∧ (rs.ctl.restore = true ∧ rs.clocksRun = true ∧ rs.cfgReaches = true ∧ rs.mode = modeLOAD ∧ rs.vltState 240 ≠ 2) :=
  by and_intros <;> decide +kernel

theorem wit_ConfigUpkeep :
    ((w5_0.cfgValid = true ∧ w5_0.busUp = true ∧ w5_0.ctl.gated = false ∧ w5_0.ctl.restore = false ∧ w5_0.frameBusy (w5_0.fld Reg.cfgScrub 0 20) = false ∧ w5_0.regState (w5_0.fld Reg.cfgScrub 0 20 / 32768) ≠ regLoading))
    ∧ ((¬(w5_0.waitRank (goldenRow 65536).1 = 3 ∧ (w5_0.reloadsIn [(goldenRow 65536).1]).head? = some 65536)))
    ∧ ((w5_2.waitRank (goldenRow 65536).1 = 3 ∧ (w5_2.reloadsIn [(goldenRow 65536).1]).head? = some 65536) ∧ w5_2.goldenValid (65536 / 32768 : ℕ) = true ∧ (w5_2.vltState (goldenRow 65536).1 = 2 ∧ w5_2.tileEnabled 15 = true ∧ (w5_2.getVault (goldenRow 65536).1).goldenBad.contains (goldenRow 65536).2 = false))
    ∧ ((w5_3.waitRank (goldenRow 65536).1 = 3 ∧ (w5_3.reloadsIn [(goldenRow 65536).1]).head? = some 65536) ∧ (w5_3.goldenValid (65536 / 32768 : ℕ) = false ∨ true = true ∨ ¬(w5_3.vltState (goldenRow 65536).1 = 2 ∧ w5_3.tileEnabled 15 = true ∧ (w5_3.getVault (goldenRow 65536).1).goldenBad.contains (goldenRow 65536).2 = false)))
    ∧ (w5_2.reaches (0 : Requester) = true ∧ decide (0 < w5_2.keyLeft 0) = true)
    ∧ (w5_0.reaches (0 : Requester) = true ∧ decide (0 < w5_0.keyLeft 0) = false) :=
  by and_intros <;> decide +kernel

end Sys2Proof.Tests.Loadw

namespace Sys2Proof.Tests.Mode

def vst (v c : Nat) (s : State := base) : State := s.setFld (Reg.vltStat v) 29 3 c
def vd : State := (vst 17 2 (vst 18 3)).modVault 17 (fun x => { x with svc := { x.svc with row := some 5, data := List.replicate 2048 9, dirty := true } })
def bst (m : Nat) : State := (bud base).setMode m
def run3 : State := { ((runAt 1 0).modSite 1 (fun x => { x with wait := .waitf 3 true 2, restorePending := true }) |>.setBit Reg.pmuStat 25 true) with aon := { (runAt 1 0).aon with target := some 2 } }
def tg (m : Nat) (s : State := base) : State := { s with aon := { s.aon with target := some m } } |>.setBit Reg.glbMode 3 true
def gt (s : State) : State := { s with ctl := { s.ctl with gated := true, frames := [(3, 5)] } }
def fb (s : State) : State := s.modFab 3 (fun f => { f with held := false, live := true, cells := [(77, { o0 := 5 })], next := [(77, { cell := {} })], init := [(32 * 5 + 1, 99)] })
def w0_0 : State := base
def w0_2 : State := base.setBit Reg.glbMode 3 true
def w0_1 : State := vd
def w0_3 : State := runAt 1 0
def w0_4 : State := bst 2
def w0_5 : State := bst 3
def w0_8 : State := (bst 3).setBit Reg.glbMode 4 true
def w0_9 : State := (base.setMode 5)
def w0_11 : State := (base.setMode 5).setBit Reg.glbMode 9 true
def w1_0 : State := base
def w1_3 : State := base.setMode 5
def w1_1 : State := run3
def w2_0 : State := base
def w2_1 : State := tg 2
def w2_3 : State := tg 3
def w2_5 : State := tg 3 (gt (fb (base.setMode 2)))

theorem wit_ModeCommands :
    (w0_0.reaches (0 : Requester) = true)
    ∧ (w0_2.reaches (0 : Requester) = true ∧ w0_2.modeBusy = true)
    ∧ (w0_1.reaches (0 : Requester) = true ∧ (false = false ∧ w0_1.modeBusy = false) ∧ w0_1.mode = modeREADY ∧ w0_1.sitesQuiet = true ∧ w0_1.loading = false ∧ w0_1.boost = false)
    ∧ (w0_3.reaches (0 : Requester) = true ∧ (false = false ∧ w0_3.modeBusy = false) ∧ (w0_3.mode ≠ modeREADY ∨ w0_3.sitesQuiet = false ∨ w0_3.loading = true ∨ w0_3.boost = true))
    ∧ (w0_4.reaches (0 : Requester) = true ∧ (false = false ∧ w0_4.modeBusy = false) ∧ w0_4.mode = modeSTANDBY)
    ∧ (w0_1.reaches (0 : Requester) = true ∧ (false = false ∧ w0_1.modeBusy = false) ∧ w0_1.mode ≠ modeSTANDBY)
    ∧ (w0_5.reaches (3 : Requester) = true ∧ (false = false ∧ w0_5.modeBusy = false) ∧ (w0_5.mode = modeREADY ∧ w0_5.sitesQuiet = true ∧ w0_5.boost = false) ∧ w0_5.rd Reg.thmCapred = (0 : Word) ∧ w0_5.allocForce + w0_5.pmuForce.boostW ≤ w0_5.pmuForce.budget)
    ∧ (w0_8.reaches (0 : Requester) = true ∧ (false = false ∧ w0_8.modeBusy = false) ∧ w0_8.mode = modeREADY ∧ w0_8.sitesQuiet = true ∧ w0_8.boost = true)
    ∧ (w0_1.reaches (0 : Requester) = true ∧ (false = false ∧ w0_1.modeBusy = false) ∧ (w0_1.mode = modeREADY ∧ w0_1.sitesQuiet = true ∧ w0_1.boost = false) ∧ (w0_1.rd Reg.thmCapred ≠ (0 : Word) ∨ w0_1.pmuForce.budget < w0_1.allocForce + w0_1.pmuForce.boostW))
    ∧ (w0_3.reaches (0 : Requester) = true ∧ (false = false ∧ w0_3.modeBusy = false) ∧ (w0_3.mode ≠ modeREADY ∨ w0_3.sitesQuiet = false))
    ∧ (w0_1.reaches (0 : Requester) = true ∧ (false = false ∧ w0_1.modeBusy = false))
    ∧ (w0_9.reaches (0 : Requester) = true ∧ (false = false ∧ w0_9.modeBusy = false) ∧ w0_9.mode = modeSAFE ∧ w0_9.safeLive = 0)
    ∧ (w0_11.reaches (0 : Requester) = true ∧ (false = false ∧ w0_11.modeBusy = false) ∧ w0_11.mode = modeSAFE ∧ w0_11.safeLive ≠ 0)
    ∧ (w0_1.reaches (0 : Requester) = true ∧ (false = false ∧ w0_1.modeBusy = false) ∧ w0_1.mode ≠ modeSAFE)
    ∧ (w0_1.reaches (0 : Requester) = true ∧ (false = false ∧ w0_1.modeBusy = false) ∧ w0_1.mode = modeREADY ∧ w0_1.anyRuns = false)
    ∧ (w0_3.reaches (0 : Requester) = true ∧ (false = false ∧ w0_3.modeBusy = false) ∧ (w0_3.mode ≠ modeREADY ∨ w0_3.anyRuns = true)) :=
  by and_intros <;> decide +kernel

theorem wit_SafeEntry :
    (w1_0.reaches (0 : Requester) = true ∧ (w1_0.mode ≠ modeRESET ∧ w1_0.mode ≠ modeSAFE))
    ∧ (w1_3.reaches (0 : Requester) = true ∧ w1_3.mode = modeSAFE)
    ∧ (w1_1.bit Reg.pmuStat 25 = true ∧ w1_1.bit Reg.glbMode 10 = false ∧ (w1_1.mode ≠ modeRESET ∧ w1_1.mode ≠ modeSAFE))
    ∧ (w1_0.causeGone 3 = true)
    ∧ ((0 = 0 ∨ 4 ≤ 0 ∨ w1_0.causeGone 0 = false)) :=
  by and_intros <;> decide +kernel

theorem wit_Transitions :
    (w2_0.aon.target = none)
    ∧ (w2_1.aon.target = some modeSTANDBY)
    ∧ (w2_3.aon.target.any (fun v0 => decide ((v0 = modeREADY ∨ v0 = modeLOAD) ∧ w2_3.anyRuns = false ∧ w2_3.ctl.gated = false)) = true)
    ∧ (w2_5.aon.target.any (fun v0 => decide ((v0 = modeREADY ∨ v0 = modeLOAD) ∧ w2_5.anyRuns = false ∧ w2_5.ctl.gated = true)) = true) :=
  by and_intros <;> decide +kernel

end Sys2Proof.Tests.Mode

namespace Sys2Proof.Tests.N1

def wb (k : Nat) (w : Word) (f : Wfe → Wfe := id) (pc : Nat := 5) (s : State := base) : State :=
  let s : State := ((s.setWfeState k 1).setFld (Reg.wfePc k) 0 14 pc).wr (Reg.wfeStrRing k + 0x200) 0x100010
  s.modWfe k (fun x => f { x with p := [(pc, w)] })
def W (op imm : Nat) : Word := BitVec.ofNat 32 (op * 2^26 + imm)
def dsc (a out inY n at0 : Nat) : List (Nat × Word) := [(4, BitVec.ofNat 32 a), (5, BitVec.ofNat 32 (a / 2^32 + inY * 2^30 + out * 2^31)), (6, BitVec.ofNat 32 ((n-1) * 2^16 + at0))].filter (fun p => p.2 != 0)
def job (a : Nat) (out inY : Bool) (n at0 : Nat) : WfeXfer := { addr := a, out := out, inY := inY, words := n, at0 := at0 }
def ad : Nat := 3 * 2^37 + 0x1000 + 64
def vb : State := rowOk base ad
def buf (s : State) : State := s.modVault (s.locate ad).1 (fun v => { v with svc := { v.svc with row := some (s.locate ad).2, data := (List.range 2048).map (fun i => BitVec.ofNat 8 i) } })
def wt (w : WfeWait) (f : Wfe → Wfe := id) (s : State := base) : State := (wb 3 0 (fun x => f { x with wait := w }) 5 s).setWfeState 3 (match w with | .none => 1 | .words _ => 2 | _ => 3)
def mv (out inY : Bool) (w : WfeWait) (f : Wfe → Wfe := id) (s : State := buf vb) : State :=
  ((wt w (fun x => f { x with job := some (job ad out inY 4 100), x := [(100, 9), (101, 8)], y := dsc ad 0 0 4 100, p := [(5, W 0x27 4)] }) s).setBit (Reg.wfeStatus 3) 3 true)
def pz (s : State) : State := s.modVault (s.locate ad).1 (fun v => { v with svc := { v.svc with poisoned := true } })
def sg (l f : Nat) (k : BitVec 2) (bad : Bool) : SideFrame := { lane := l, frame := f, bytes := 0x1122334455667788, kind := k, bad := bad, cycle := some 5 }
def sx (mode nl : Nat) (l : List SideFrame) (p wp : Nat) (trig : Nat := 0) (s : State := base) : State :=
  (((((s.wr (Reg.wfeStrRing 3 + 0x200) 0x100010).wr (Reg.wfeStrCfg 3 + 0x200) (BitVec.ofNat 32 (mode * 2^28 + (nl - 1) * 2^24 + trig * 2^16 + 0x21)))).setBit (Reg.wfeStatus 3) 4 true).modWfe 3 (fun x => { x with sides := l, wp := wp, ptr := [(3, { p := p })] }))
def w0_0 : State := mv false false .none
def w0_4 : State := mv true true .xfer
def w1_0 : State := sx 1 2 [sg 1 7 1 false, sg 2 7 1 true] 20 30
def w0_3 : State := mv false true .transfer (s := pz (buf vb))

theorem wit_WaveformControl :
    (((w0_0.getWfe 3).wait ≠ WfeWait.transfer ∨ (w0_0.getWfe 3).job ≠ none ∨ w0_0.wclkOn 3 = false))
    ∧ ((w0_0.getWfe 3).job.any (fun v0 => decide ((w0_0.accessWaits (16 + 3) v0.addr (4 * v0.words) = false ∧ w0_0.reaches (BitVec.ofNat 5 (16 + 3)) = true) ∧ (w0_0.getWfe 3).wait ≠ WfeWait.xfer)) = true)
    ∧ ((w0_4.getWfe 3).job.any (fun v0 => decide ((w0_4.accessWaits (16 + 3) v0.addr (4 * v0.words) = false ∧ w0_4.reaches (BitVec.ofNat 5 (16 + 3)) = true) ∧ (w0_4.getWfe 3).wait = WfeWait.xfer)) = true)
    ∧ ((w0_0.getWfe 3).job.any (fun v0 => decide ((w0_0.accessWaits (16 + 3) v0.addr (4 * v0.words) = false ∧ w0_0.reaches (BitVec.ofNat 5 (16 + 3)) = true) ∧ (w0_0.getWfe 3).wait ≠ WfeWait.xfer ∧ 0 < v0.words ∧ v0.addr % 2048 + 4 * v0.words ≤ 2048 ∧ w0_0.rowRefused (w0_0.locate v0.addr).1 (w0_0.locate v0.addr).2 = none ∧ w0_0.bufferHeld (w0_0.locate v0.addr).1 (16 + 3) = false ∧ (w0_0.getVault (w0_0.locate v0.addr).1).svc.row = some (w0_0.locate v0.addr).2 ∧ (w0_0.getVault (w0_0.locate v0.addr).1).svc.data.length = 2048)) = true)
    ∧ (((w1_0.getWfe 3).job = none ∨ w1_0.reaches (BitVec.ofNat 5 (16 + 3)) = false ∨ ∃ j, (w1_0.getWfe 3).job = some j ∧ w1_0.accessWaits (16 + 3) j.addr (4 * j.words) = true))
    ∧ (w1_0.reaches (0 : Requester) = true ∧ w1_0.wfeState 3 = 0 ∧ w1_0.wclkOn 3 = true)
    ∧ (w0_0.reaches (0 : Requester) = true ∧ (w0_0.wfeState 3 ≠ 0 ∨ w0_0.wclkOn 3 = false))
    ∧ (w0_0.reaches (0 : Requester) = true ∧ w0_0.wfeState 3 = 1)
    ∧ (w0_3.reaches (0 : Requester) = true ∧ (w0_3.wfeState 3 = 2 ∨ w0_3.wfeState 3 = 3))
    ∧ (w1_0.reaches (0 : Requester) = true ∧ (w1_0.wfeState 3 = 0 ∨ 4 ≤ w1_0.wfeState 3))
    ∧ (w0_0.reaches (0 : Requester) = true ∧ w0_0.wfeState 3 ≠ 4)
    ∧ (w1_0.reaches (0 : Requester) = true ∧ w1_0.fld (Reg.wfeMemAddr 3) 30 2 = 0 ∧ w1_0.fld (Reg.wfeMemAddr 3) 0 15 < 2 ^ 14 ∧ w1_0.wfeRuns 3 = false)
    ∧ (w0_0.reaches (0 : Requester) = true ∧ w0_0.fld (Reg.wfeMemAddr 3) 30 2 = 0 ∧ w0_0.fld (Reg.wfeMemAddr 3) 0 15 < 2 ^ 14 ∧ w0_0.wfeRuns 3 = true)
    ∧ ((w0_0.wfeMemPeek 3).any (fun _ => decide (w0_0.reaches (0 : Requester) = true ∧ Ecc.ok = Ecc.ok)) = true)
    ∧ (w0_0.reaches (0 : Requester) = true ∧ (¬w0_0.bit (Reg.wfeStatus 3) 4 = true))
    ∧ (w1_0.reaches (0 : Requester) = true ∧ w1_0.bit (Reg.wfeStatus 3) 4 = true)
    ∧ (w0_0.reaches (0 : Requester) = true)
    ∧ ((¬w0_0.bit (Reg.wfeStatus 3) 4 = true ∨ w0_0.strFrame 3 = none))
    ∧ ((w1_0.strFrame 3).any (fun v0 => decide (w1_0.bit (Reg.wfeStatus 3) 4 = true ∧ (w1_0.fldAct (Reg.wfeStrCfg 3) 28 2 = 1 ∨ w1_0.fldAct (Reg.wfeStrCfg 3) 28 2 = 2 ∧ (w1_0.strLanes 3).length = 2 ∨ w1_0.fldAct (Reg.wfeStrCfg 3) 28 2 = 3) ∧ (∀ (n : ℕ), w1_0.strLast 3 = some n → v0 ≤ n) ∧ ((w1_0.wfePtr 3 3).base ≤ (w1_0.getWfe 3).wp ∧ (w1_0.getWfe 3).wp < (w1_0.wfePtr 3 3).base + (w1_0.wfePtr 3 3).len) ∧ ((w1_0.wfePtr 3 3).base ≤ (w1_0.wfePtr 3 3).p ∧ (w1_0.wfePtr 3 3).p < (w1_0.wfePtr 3 3).base + (w1_0.wfePtr 3 3).len) ∧ (BitVec.toNat (w1_0.rd (Reg.wfeStrLen 3)) = 0 ∨ w1_0.fld (Reg.wfeStrCnt 3) 0 32 < BitVec.toNat (w1_0.rd (Reg.wfeStrLen 3))))) = true) :=
  by and_intros <;> decide +kernel

end Sys2Proof.Tests.N1

namespace Sys2Proof.Tests.N10

def s0 : State := { base with aon := { base.aon with vio := true } }
def sp (p : Nat) (s : State := s0) : State := { s with aon := { s.aon with smbPtr := BitVec.ofNat 32 p } }
def x1 : WriteAux := ⟨false, 0, 0, 0⟩
def w0_0 : State := sp 0x100
def w1_0 : State := s0

theorem wit_ExposureAndSmbus_0 :
    (w0_0.smbOn = true ∧ (¬∀ (q : BitVec 8), some (3 : BitVec 8) = some q → q = smbPec ([BitVec.ofNat 8 (2 * w0_0.smbAddress), BitVec.ofNat 8 1, BitVec.ofNat 8 4] ++ leBytes 4 7)))
    ∧ (w0_0.smbOn = true ∧ (¬∀ (q : BitVec 8), some (3 : BitVec 8) = some q → q = smbPec ([BitVec.ofNat 8 (2 * w0_0.smbAddress), BitVec.ofNat 8 3, BitVec.ofNat 8 4] ++ leBytes 4 7))) :=
  by and_intros <;> decide +kernel

theorem wit_ExposureAndSmbus_1 : w1_0.reaches (0 : Requester) = true ∧ x1.race = (0 : Word) :=
  by decide +kernel

end Sys2Proof.Tests.N10

namespace Sys2Proof.Tests.N2

def lk (k : Nat) (w : BitVec 64) (f : Site → Site := id) (st : Nat := 4) : State := { (sites.foldl (fun s i => (s.setLnkState (16*k+i) 4).setLnkState (256+16*k+i) st) (runAt k w 5 f)) with fc := 200 }
def sp0 : Span := { first := 0, len := 12, ctx := 3, tset := 1, cap := 0 }
def p0 := lk 1 0 (fun x => { x with spans := [sp0], cycle := 12 })
def p2 := ((lk 1 0).setSeqState 1 0).setBit (Reg.lnkInject 18) 31 true |>.setFld (Reg.lnkInject 18) 28 2 2
def sndL (kind payload info : Nat) (hdr : BitVec 2) (s : State) (l f rtt : Nat) (bad : Nat := 0): PrxFrame := { hdr := hdr ^^^ 3, body := BitVec.ofNat 158 ((s.frameBits l f kind payload info).toNat / 4 ^^^ bad), rtt := rtt }
def q (s : State) (l : Nat) (f kind : Nat) (cyc : List (Option Nat) := []) (mk : Nat := 0) : State := s.modLane l (fun x => { x with rxScr := x.txScr, sent := [{ frame := f, kind := BitVec.ofNat 2 kind, cycles := cyc, marker := mk }, { frame := f + 1, kind := 1 }] })
def c0 : List (Option Nat) := [none, none, none, none, some 0, some 1, some 2, some 3]
def q0 := q p0 17 12 0 c0
def e0 : Sent := { frame := 12, kind := 0, cycles := c0 }
def f0 := sndL 0 0xffeeddccbbaa99887766554433221100 0 1 q0 17 12 900
def q1 := q p2 16 12 1
def e1 : Sent := { frame := 12, kind := 1 }
def of (l : Nat) (s : State) : State := s.setBit (Reg.safCalStat (272 + l)) 31 true
def ns (l : Nat) (s : State) : State := s.modLane l (fun x => { x with sent := [] })
def sc (trig : Nat) (f : Wfe → Wfe) (s : State := q0) (S : Nat := 2) : State := (((((s.wr (Reg.wfeStrRing 1 + 0x200) 0x100010).wr (Reg.wfeStrCfg 1 + 0x200) (BitVec.ofNat 32 (2^28 + trig * 2^16 + 1))).setBit (Reg.wfeStatus 1) 4 true).wr (Reg.wfeStrTrigLo 1) (BitVec.ofNat 32 S)).modWfe 1 f)
def w0_0 : State := of 17 q0
def w0_1 : State := of 16 q1
def w0_2 : State := of 16 q1
def w0_3 : State := of 16 q1
def w2_0 : State := sc 0 id
def w1_0 : State := ns 17 q0
def w1_1 : State := q1.setLnkState 272 3
def w1_2 : State := ns 16 q1
def w1_3 : State := q1.setLnkState 272 3

theorem wit_PrxFrames :
    (w0_0.prxLocked 17 = true ∧ List.find? (fun p => p.frame == 12) (w0_0.getLane 17).sent = some e0 ∧ w0_0.rxOffset 17 = true ∧ (w0_0.prxBody 17 f0).kind = kindData)
    ∧ (w0_1.prxLocked 16 = true ∧ List.find? (fun p => p.frame == 12) (w0_1.getLane 16).sent = some e1 ∧ w0_1.rxOffset 16 = true ∧ (w0_1.prxBody 16 (sndL 1 0 0 (2 : BitVec 2) q1 16 12 5)).kind = kindIdle)
    ∧ (w0_2.prxLocked 16 = true ∧ List.find? (fun p => p.frame == 12) (w0_2.getLane 16).sent = some e1 ∧ w0_2.rxOffset 16 = true ∧ (w0_2.prxBody 16 (sndL 2 0 3 (2 : BitVec 2) q1 16 12 5)).kind = kindPark)
    ∧ (w0_3.prxLocked 16 = true ∧ List.find? (fun p => p.frame == 12) (w0_3.getLane 16).sent = some e1 ∧ w0_3.rxOffset 16 = true ∧ (w0_3.prxBody 16 (sndL 3 (markerPayload 16 0) 0 (2 : BitVec 2) q1 16 12 5)).kind = kindMarker)
    ∧ (w2_0.prxLocked 17 = true ∧ List.find? (fun p => p.frame == 12) (w2_0.getLane 17).sent = some e0 ∧ w2_0.rxOffset 17 = false ∧ (w2_0.prxBody 17 f0).kind = kindData ∧ w2_0.bit (Reg.wfeStatus (17 / 16 : ℕ)) 4 = true ∧ (w2_0.strLanes (17 / 16 : ℕ)).contains (17 % 16) = true)
    ∧ ((w1_0.lnkState (prxWin 17) = 3 ∨ w1_0.prxLocked 17 = true ∧ List.find? (fun p => p.frame == 12) (w1_0.getLane 17).sent = none) ∧ (w1_0.prxBody 17 f0).kind = kindData)
    ∧ ((w1_1.lnkState (prxWin 16) = 3 ∨ w1_1.prxLocked 16 = true ∧ List.find? (fun p => p.frame == 12) (w1_1.getLane 16).sent = none) ∧ (w1_1.prxBody 16 (sndL 1 0 0 (2 : BitVec 2) q1 16 12 5)).kind = kindIdle)
    ∧ ((w1_2.lnkState (prxWin 16) = 3 ∨ w1_2.prxLocked 16 = true ∧ List.find? (fun p => p.frame == 12) (w1_2.getLane 16).sent = none) ∧ (w1_2.prxBody 16 (sndL 2 0 3 (2 : BitVec 2) q1 16 12 5)).kind = kindPark)
    ∧ ((w1_3.lnkState (prxWin 16) = 3 ∨ w1_3.prxLocked 16 = true ∧ List.find? (fun p => p.frame == 12) (w1_3.getLane 16).sent = none) ∧ (w1_3.prxBody 16 (sndL 3 (markerPayload 16 0) 0 (2 : BitVec 2) q1 16 12 5)).kind = kindMarker) :=
  by and_intros <;> decide +kernel

end Sys2Proof.Tests.N2

namespace Sys2Proof.Tests.N3

def vs (s : State) : State := (List.range 40).foldl (fun s v => s.setFld (Reg.vltStat v) 29 3 2) s
def geo (s : State) : State := vs (((s.wr (Reg.capGeom 0 + 0x200) 0x60003f).wr (Reg.capCtrBase 0 0 + 0x200) 0x8000).wr (Reg.capSpare 0 + 0x200) 0x101 |>.wr (Reg.rpaSolBase 0 0 + 0x200) 0x10000 |>.wr (Reg.capCmpmask 0 0 + 0x200) 0xffffffff|>.wr (Reg.capLogBase 0 0 + 0x200) 0xc000|>.wr (Reg.capLogLen 0 + 0x200) 1)
def ml (o : Nat) (c : Bool) : MapLine := { addr := 0, block := 0, openFc := o, firstCycle := 3, closed := c, bits := [3, 77] }
def run0 : State := geo ((runAt 0 0 5 (fun x => { x with mapLines := [ml 1 false, ml 2 true], ctrQueue := [{ block := 0, row := 3, col := 4 }] })).wr (Reg.capFcycLo 0) 7)
def ci := run0.setSeqState 0 0
def w0_0 : State := ci.setBit (Reg.capCommit 0) 31 true
def w0_1 : State := ci.setBit (Reg.capStatus 0) 17 true
def w0_2 : State := ci.setBit (Reg.capStatus 0) 16 true

theorem wit_CaptureCommands :
    (w0_0.reaches (0 : Requester) = true ∧ w0_0.seqRuns 0 = false ∧ (w0_0.bit (Reg.capCommit 0) 31 = true ∨ w0_0.bit (Reg.capStatus 0) 16 = true ∨ w0_0.bit (Reg.capStatus 0) 17 = true))
    ∧ (w0_1.reaches (0 : Requester) = true ∧ w0_1.seqRuns 0 = false ∧ w0_1.bit (Reg.capStatus 0) 17 = true)
    ∧ (w0_2.reaches (0 : Requester) = true ∧ w0_2.seqRuns 0 = false ∧ w0_2.bit (Reg.capStatus 0) 17 = false ∧ w0_2.bit (Reg.capStatus 0) 16 = true) :=
  by and_intros <;> decide +kernel

end Sys2Proof.Tests.N3

namespace Sys2Proof.Tests.N4

def vst (v c : Nat) (s : State := base) : State := s.setFld (Reg.vltStat v) 29 3 c
def bn : State := (((vst 17 2).setFld Reg.vltFuseCmd 0 8 17).setBit Reg.vltFuseCmd 31 true).modVault 17 (fun x => { x with burn := some [0, 1, 2] }) |>.wr (Reg.vltSrep 17 0) 0x80000005 |>.wr (Reg.vltSrep 17 1) 0x80010006 |>.wr (Reg.vltSrep 17 2) 0x80020007
def w0_0 : State := vst 17 2 (base.modVault 17 (fun x => { x with goldenBad := [5], rowReg := { row := 5, busy := true, data := List.replicate 2048 7 } }))
def w1_0 : State := bn

theorem wit_RowOperations : w0_0.vltState 17 = 2 ∧ (w0_0.getVault 17).rowReg.busy = true ∧ (w0_0.getVault 17).rowReg.data.length = 2048 ∧ (w0_0.getVault 17).goldenBad.contains (w0_0.getVault 17).rowReg.row = true :=
  by decide +kernel

theorem wit_Maintenance :
    (w1_0.reaches (0 : Requester) = true ∧ w1_0.bit Reg.glbStartup 7 = false)
    ∧ (w1_0.burning.any (fun v0 => decide (w1_0.burning = some (17, v0.2))) = true) :=
  by and_intros <;> decide +kernel

end Sys2Proof.Tests.N4

namespace Sys2Proof.Tests.N5

def cIns (op sub imm : Nat) (fctl : Nat := 1) (wr o0 o1 : Nat := 1) (dst : Nat := 5) (sa : Nat := 1) (sb : Nat := 2) (pf : Nat := 0) : BitVec 48 :=
  BitVec.ofNat 48 (op * 2^42 + dst * 2^38 + sa * 2^32 + sb * 2^26 + fctl * 2^24 + wr * 2^23 + o0 * 2^22 + o1 * 2^21 + pf * 2^19 + sub * 2^16 + imm)
def cSt (k : Nat) (c : Nat) (w : BitVec 256) (a b : Word) (f : Cell → Cell := id) (ctx : BitVec 6 := 3) : State :=
  let s : State := base.putFrame (frameOf k c ctx.toNat) ((w.setWidth 4096) <<< (256 * (keyY c % 16)))
  s.modFab k (fun x => { x with held := false, live := true, ctx := ctx, cells := [(c, f { w := ((a.setWidth 512) <<< 32) ||| ((b.setWidth 512) <<< 64) })] })
def cI (i : BitVec 48) (hi : BitVec 256 := 0) : BitVec 256 := i.setWidth 256 ||| hi
def tl : State := ((((List.range 16).foldl (fun s v => s.setFld (Reg.vltStat (240 + v)) 29 3 2) base).setLoadState 0).setBit Reg.cfgStatus 24 true)
def zb (val : Bool) (p : Bool := false) : State := let s := { tl with ctl := { tl.ctl with golden := [(3 * 32768 + 5, 77)] } }
  (s.setBit (Reg.cfgRegion 3) 27 val).modFab 3 (fun x => { x with busOff := [{ bus := 9, ctx := 3, permanent := p, frames := [3 * 32768 + 5, 3 * 32768 + 6] }, { bus := 9, ctx := 4, permanent := true }] })
def w0_0 : State := cSt 3 (cellAt true 9 33) (cI (cIns 16 0 32)) 5 7
def w1_2 : State := zb false

theorem wit_CellCompound : w0_0.cellReady 3 (cellAt true (9 : BitVec 6) (33 : BitVec 6)) (cIns 16 0 32) = true ∧ ctxSrm (w0_0.effWord 3 (cellAt true (9 : BitVec 6) (33 : BitVec 6))) = false ∧ (cellOp (cIns 16 0 32) = 16 ∧ (cellSub (cIns 16 0 32) = 0 ∧ 32 ≤ (w0_0.aluIn 3 (cellAt true (9 : BitVec 6) (33 : BitVec 6)) (cIns 16 0 32)).imm ∨ (cellSub (cIns 16 0 32) = 3 ∨ cellSub (cIns 16 0 32) = 4) ∧ (1024 ≤ (w0_0.aluIn 3 (cellAt true (9 : BitVec 6) (33 : BitVec 6)) (cIns 16 0 32)).imm ∨ 32 < (w0_0.aluIn 3 (cellAt true (9 : BitVec 6) (33 : BitVec 6)) (cIns 16 0 32)).imm % 32 + ((w0_0.aluIn 3 (cellAt true (9 : BitVec 6) (33 : BitVec 6)) (cIns 16 0 32)).imm / 32 % 32 + 1))) ∨ cellOp (cIns 16 0 32) = 17 ∧ (cellSub (cIns 16 0 32) = 0 ∧ 8 ≤ (w0_0.aluIn 3 (cellAt true (9 : BitVec 6) (33 : BitVec 6)) (cIns 16 0 32)).imm ∨ cellSub (cIns 16 0 32) = 1 ∧ 1024 ≤ (w0_0.aluIn 3 (cellAt true (9 : BitVec 6) (33 : BitVec 6)) (cIns 16 0 32)).imm ∨ cellSub (cIns 16 0 32) = 2 ∧ (w0_0.aluIn 3 (cellAt true (9 : BitVec 6) (33 : BitVec 6)) (cIns 16 0 32)).imm / 1024 % 4 ≠ 0)) :=
  by decide +kernel

theorem wit_FabricEvents : (List.find? (fun o => o.bus == 4 * 2 + 1 && !o.permanent) (w1_2.getFab 3).busOff).any (fun v0 => decide (w1_2.bit Reg.nocIsoStat 5 = false ∧ (∀ g ∈ v0.frames, g / 32768 = 3) ∧ v0.frames ≠ [] ∧ w1_2.goldenValid 3 = false)) = true :=
  by decide +kernel

end Sys2Proof.Tests.N5

namespace Sys2Proof.Tests.N6

def core (fw : Nat) (s : State := base) : State := { s.setFwState fw with cpu := { s.cpu with started := true, user := some 0x10040000, tcm := [(0x40000, 7), (0x40005, 9)], cwdt := 100 } }
def usr : State := ((core 2).setBit Reg.glbMode 7 true).wr Reg.cpuUsites 0xFFFF#32
def jb (c o l p : Nat) : FwJob := { cmd := c, off := o, len := l, part := p }
def jst (j : FwJob) (s : State := usr) : State := let s : State := { s with cpu := { s.cpu with job := some j }, host := { s.host with linkUp := true, spd := [(0x100, 4)] } }; (s.setFld Reg.pmuVin 0 16 3300).setBit Reg.cpuFwcmd 31 true
def rg (req : Nat) (s : State := base) : State := (s.wr (Reg.spdRegion req 3 + 0x1000) (0xE0000000#32 ||| BitVec.ofNat 32 (2 + 4 * 2 ^ 14)))
def rin (n : Nat) (s : State) : State := { s with aon := { s.aon with railsIn := n } }
def w1_0 : State := rin 8 base
def w1_1 : State := rin 2 base
def w2_0 : State := (rg 3 (jst (jb 2 0x2000 64 0))).setBit Reg.nocIsoStat 3 true

theorem wit_Supply :
    (w1_0.aon.up = true)
    ∧ ((w1_1.aon.up = false ∨ w1_1.aon.railsIn ≤ railOrder 16 ∨ w1_1.railTarget 16 = 0))
    ∧ (w1_0.aon.up = true ∧ railOrder 22 < w1_0.aon.railsIn ∧ w1_0.railTarget 22 ≠ 0)
    ∧ (w1_0.aon.up = true ∧ w1_0.aon.tele.n + 1 < 10)
    ∧ (w1_0.admitted 3 = false) :=
  by and_intros <;> decide +kernel

theorem wit_FlashCommands : (w2_0.coreRuns = true ∧ w2_0.inMonitor = false ∧ w2_0.cpu.job = some (jb 2 8192 64 0)) ∧ 1 ≤ (jb 2 8192 64 0).cmd ∧ (jb 2 8192 64 0).cmd ≤ 6 ∧ w2_0.reaches (3 : Requester) = false :=
  by decide +kernel

end Sys2Proof.Tests.N6

namespace Sys2Proof.Tests.N7

def rls : State := let s : State := (base.setMode 1); { s with ctl := { s.ctl with release := some 77, reloads := [] }, fc := 5 } |>.modFab 3 (fun x => { x with held := true, init := [(32 * 5 + 3, 77)], cells := [(7, { w := 5 })] }) |>.modSite 4 (fun x => { x with isoIncomplete := true })

theorem wit_LoadCompletes : rls.ctl.release.any (fun _ => decide (rls.ctl.load.accepted = none ∧ rls.clocksRun = true ∧ (rls.mode = modeLOAD ∨ rls.mode = modeSAFE) ∧ rls.anyRuns = false)) = true :=
  by decide +kernel

end Sys2Proof.Tests.N7

namespace Sys2Proof.Tests.N8

def hv (s : State) : State := rowOk s 0x12345 |> fun s => let (v, r) := s.locate 0x12345; s.modVault v (fun x => { x with svc := { row := some r, data := (List.range 2048).map (fun i => BitVec.ofNat 8 i), poisoned := true } })
def rg (req : Nat) (s : State := base) : State := (s.wr (Reg.spdRegion req 3 + 0x1000) (0xE0000000#32 ||| BitVec.ofNat 32 (2 + 4 * 2 ^ 14)))
def own (s : State) : State := let (v, r) := s.locate 0x12345; s.modVault v (fun x => { x with reserve := some (2, r) })
def hk (s : State) : State := { s with cpu := { s.cpu with resv := some 0x60004ffc, hart := { s.cpu.hart with pc := 0x1234, csr := [(0x305, 0x10000101), (0x300, 8)] } }, host := { s.host with spd := [(0x4ffc, 0x80), (0x4ffd, 0x7)] } }
def w0_0 : State := own (hv base)
def w0_3 : State := base
def w1_2 : State := hk (rg 3)
def w1_4 : State := hk (rg 3)
def w1_6 : State := hk (rg 3)

theorem wit_HostMemory :
    ((w0_0.bar4Addr 74565).any (fun v0 => decide (w0_0.reaches (0 : Requester) = true ∧ w0_0.accessWaits 0 v0 5 = true)) = true)
    ∧ ((w0_0.bar4Addr 74565).any (fun v0 => decide (w0_0.reaches (0 : Requester) = true ∧ w0_0.accessWaits 0 v0 [(1 : Byte), (2 : Byte), (3 : Byte)].length = true)) = true)
    ∧ ((w0_3.reaches (2 : Requester) = true ∧ (SpdUse.plain = SpdUse.plain ∨ (2 : Requester) ≠ (3 : Requester)) ∧ w0_3.spdTrap (2 : Requester) 67108862 [(1 : Byte), (2 : Byte), (3 : Byte)].length true SpdUse.plain false = none) ∧ 2 ^ 26 < 67108862 + [(1 : Byte), (2 : Byte), (3 : Byte)].length)
    ∧ ((w0_3.reaches (2 : Requester) = true ∧ (SpdUse.plain = SpdUse.plain ∨ (2 : Requester) ≠ (3 : Requester)) ∧ w0_3.spdTrap (2 : Requester) 67108862 8 false SpdUse.plain false = none))
    ∧ ((w1_2.reaches (3 : Requester) = true ∧ (3 : Requester) = (3 : Requester) ∧ w1_2.spdTrap (3 : Requester) 20476 4 true SpdUse.lr false = none ∧ w1_2.spdTrap (3 : Requester) 20476 4 false SpdUse.lr false = none ∧ [(1 : Byte), (2 : Byte), (3 : Byte), (4 : Byte)].length = 4 ∧ (4 : BitVec 13) = (4 : BitVec 13)) ∧ SpdUse.lr = SpdUse.lr)
    ∧ ((w1_4.reaches (3 : Requester) = true ∧ (3 : Requester) = (3 : Requester) ∧ w1_4.spdTrap (3 : Requester) 20476 4 true SpdUse.sc false = none ∧ w1_4.spdTrap (3 : Requester) 20476 4 false SpdUse.sc false = none ∧ [(1 : Byte), (2 : Byte), (3 : Byte), (4 : Byte)].length = 4 ∧ (4 : BitVec 13) = (4 : BitVec 13)) ∧ SpdUse.sc = SpdUse.sc ∧ w1_4.spdMay 3 20476 4 true = true)
    ∧ ((w1_6.reaches (3 : Requester) = true ∧ (3 : Requester) = (3 : Requester) ∧ w1_6.spdTrap (3 : Requester) 20476 4 true (SpdUse.amo AmoOp.min) false = none ∧ w1_6.spdTrap (3 : Requester) 20476 4 false (SpdUse.amo AmoOp.min) false = none ∧ [(1 : Byte), (2 : Byte), (3 : Byte), (255 : Byte)].length = 4 ∧ (4 : BitVec 13) = (4 : BitVec 13)) ∧ SpdUse.amo AmoOp.min = SpdUse.amo AmoOp.min ∧ w1_6.spdMay 3 20476 4 false = true ∧ w1_6.spdMay 3 20476 4 true = true) :=
  by and_intros <;> decide +kernel

end Sys2Proof.Tests.N8

namespace Sys2Proof.Tests.N9

def key (s : State) (r : Nat := 0) : State := { s with host := { s.host with keyWin := [(r, 3)] } }
def gl (s : State := base) (f : Glint → Glint := id) : State := let s : State := { s with aon := { s.aon with vio := true }, glint := f { s.glint with inFrame := true, unit := 500, prev := 0x1000FFC }, cpu := { s.cpu with tcm := [(4, 7)] }, host := { s.host with spd := [(4, 9)] } }; s.setBit Reg.clkStat 2 true
def c8 (op : Nat) (a : Option (BitVec 48)) (d : Option Word) : BitVec 8 := BitVec.ofNat 8 (crc8 (glintBits op a d))
def sl2 (op : Nat) (a : Option (BitVec 48)) (d : Option Word) (c : BitVec 8) : List GlintSlot := (glintBits op a d ++ bitsOf c.toNat 0 8).map (fun b => { gap := 2500, low := if b then 500 else 1500 })
def sl (op : Nat) (a : Option (BitVec 48)) (d : Option Word) : List GlintSlot := sl2 op a d (c8 op a d)
def hv2 (a : Nat) (s : State := gl) (pz : Bool := false) : State := rowOk s a |> fun s => let (v, r) := s.locate a; s.modVault v (fun x => { x with svc := { row := some r, data := (List.range 2048).map (fun i => BitVec.ofNat 8 i), poisoned := pz } })
def rs2 (a : Nat) (s : State) : State := let (v, r) := s.locate a; s.modVault v (fun x => { x with reserve := some (2, r) })
def D (a : Nat) : BitVec 48 := BitVec.ofNat 48 (2 * 2 ^ 44 + a)
def nr : State := (List.range 8).foldl (fun s r => s.wr (Reg.spdRegion 4 r + 0x1000) 0) gl
def w1_4 : State := gl
def w3_3 : State := rs2 0x12344 (hv2 0x12344)
def w1_3 : State := gl.setBit Reg.nocIsoStat 4 true
def w0_5 : State := gl
def w0_7 : State := gl
def w7_0 : State := nr
def w3_0 : State := hv2 0x12344
def w3_2 : State := gl
def w1_1 : State := gl
def w1_2 : State := gl
def w2_5 : State := gl.setMode 0
def w3_6 : State := rs2 0x12344 (hv2 0x12344)
def w2_0 : State := key (gl.setBit Reg.nocIsoStat 4 true) 4
def w1_5 : State := gl
def w1_7 : State := key gl 4
def w1_6 : State := gl
def w2_1 : State := gl
def w7_1 : State := nr
def w3_4 : State := hv2 0x12344
def w3_5 : State := gl
def w2_2 : State := gl
def w2_3 : State := gl
def w0_3 : State := gl
def w5_7 : State := gl

theorem wit_GlintFrames :
    ((w1_4.glintRefused true 258 (glintBits 1 (some (258 : BitVec 48)) none) (c8 1 (some (258 : BitVec 48)) none)).any (fun _ => decide ((w1_4.glintOn = true ∧ w1_4.glint.inFrame = true ∧ ((sl 1 (some (258 : BitVec 48)) none).all fun y => slotFits y w1_4.glint.unit) = true ∧ List.map (fun (y : GlintSlot) => decide (y.low ≤ 2 * w1_4.glint.unit)) (sl 1 (some (258 : BitVec 48)) none) = glintBits 1 (some (258 : BitVec 48)) none ++ bitsOf (c8 1 (some (258 : BitVec 48)) none).toNat 0 8))) = true)
    ∧ ((w3_3.glintOn = true ∧ w3_3.glint.inFrame = true ∧ ((sl 1 (some (D 74564)) none).all fun y => slotFits y w3_3.glint.unit) = true ∧ List.map (fun (y : GlintSlot) => decide (y.low ≤ 2 * w3_3.glint.unit)) (sl 1 (some (D 74564)) none) = glintBits 1 (some (D 74564)) none ++ bitsOf (c8 1 (some (D 74564)) none).toNat 0 8) ∧ w3_3.glintRefused true (D 74564).toNat (glintBits 1 (some (D 74564)) none) (c8 1 (some (D 74564)) none) = none ∧ w3_3.glintWaits (D 74564).toNat = true)
    ∧ ((w1_3.glintOn = true ∧ w1_3.glint.inFrame = true ∧ ((sl 1 (some (52777631875076 : BitVec 48)) none).all fun y => slotFits y w1_3.glint.unit) = true ∧ List.map (fun (y : GlintSlot) => decide (y.low ≤ 2 * w1_3.glint.unit)) (sl 1 (some (52777631875076 : BitVec 48)) none) = glintBits 1 (some (52777631875076 : BitVec 48)) none ++ bitsOf (c8 1 (some (52777631875076 : BitVec 48)) none).toNat 0 8) ∧ w1_3.glintRefused true 52777631875076 (glintBits 1 (some (52777631875076 : BitVec 48)) none) (c8 1 (some (52777631875076 : BitVec 48)) none) = none ∧ w1_3.glintWaits 52777631875076 = false ∧ (¬w1_3.dbgReaches (52777631875076 / 2 ^ 44) (52777631875076 % 2 ^ 41) = true))
    ∧ ((w0_5.glintOn = true ∧ w0_5.glint.inFrame = true ∧ ((sl 1 (some (256 : BitVec 48)) none).all fun y => slotFits y w0_5.glint.unit) = true ∧ List.map (fun (y : GlintSlot) => decide (y.low ≤ 2 * w0_5.glint.unit)) (sl 1 (some (256 : BitVec 48)) none) = glintBits 1 (some (256 : BitVec 48)) none ++ bitsOf (c8 1 (some (256 : BitVec 48)) none).toNat 0 8) ∧ w0_5.glintRefused true 256 (glintBits 1 (some (256 : BitVec 48)) none) (c8 1 (some (256 : BitVec 48)) none) = none ∧ w0_5.glintWaits 256 = false ∧ w0_5.dbgReaches (256 / 2 ^ 44) (256 % 2 ^ 41) = true)
    ∧ ((w0_7.glintOn = true ∧ w0_7.glint.inFrame = true ∧ ((sl 1 (some (17592186044420 : BitVec 48)) none).all fun y => slotFits y w0_7.glint.unit) = true ∧ List.map (fun (y : GlintSlot) => decide (y.low ≤ 2 * w0_7.glint.unit)) (sl 1 (some (17592186044420 : BitVec 48)) none) = glintBits 1 (some (17592186044420 : BitVec 48)) none ++ bitsOf (c8 1 (some (17592186044420 : BitVec 48)) none).toNat 0 8) ∧ w0_7.glintRefused true 17592186044420 (glintBits 1 (some (17592186044420 : BitVec 48)) none) (c8 1 (some (17592186044420 : BitVec 48)) none) = none ∧ w0_7.glintWaits 17592186044420 = false ∧ w0_7.dbgReaches (17592186044420 / 2 ^ 44) (17592186044420 % 2 ^ 41) = true ∧ w0_7.spdMay 4 (17592186044420 % 2 ^ 41 % 2 ^ 26) 4 false = true)
    ∧ ((w7_0.glintOn = true ∧ w7_0.glint.inFrame = true ∧ ((sl 1 (some (17592186064896 : BitVec 48)) none).all fun y => slotFits y w7_0.glint.unit) = true ∧ List.map (fun (y : GlintSlot) => decide (y.low ≤ 2 * w7_0.glint.unit)) (sl 1 (some (17592186064896 : BitVec 48)) none) = glintBits 1 (some (17592186064896 : BitVec 48)) none ++ bitsOf (c8 1 (some (17592186064896 : BitVec 48)) none).toNat 0 8) ∧ w7_0.glintRefused true 17592186064896 (glintBits 1 (some (17592186064896 : BitVec 48)) none) (c8 1 (some (17592186064896 : BitVec 48)) none) = none ∧ w7_0.glintWaits 17592186064896 = false ∧ w7_0.dbgReaches (17592186064896 / 2 ^ 44) (17592186064896 % 2 ^ 41) = true ∧ w7_0.spdMay 4 (17592186064896 % 2 ^ 41 % 2 ^ 26) 4 false = false)
    ∧ ((w3_0.glintOn = true ∧ w3_0.glint.inFrame = true ∧ ((sl 1 (some (D 74564)) none).all fun y => slotFits y w3_0.glint.unit) = true ∧ List.map (fun (y : GlintSlot) => decide (y.low ≤ 2 * w3_0.glint.unit)) (sl 1 (some (D 74564)) none) = glintBits 1 (some (D 74564)) none ++ bitsOf (c8 1 (some (D 74564)) none).toNat 0 8) ∧ w3_0.glintRefused true (D 74564).toNat (glintBits 1 (some (D 74564)) none) (c8 1 (some (D 74564)) none) = none ∧ w3_0.glintWaits (D 74564).toNat = false ∧ w3_0.dbgReaches ((D 74564).toNat / 2 ^ 44) ((D 74564).toNat % 2 ^ 41) = true ∧ (D 74564).toNat / 2 ^ 44 = 2 ∧ ((w3_0.reloadsIn (w3_0.vaultsOf ((D 74564).toNat % 2 ^ 41) 4) = [] ∧ ((List.range 16).all fun k => !w3_0.siteWaits k (w3_0.vaultsOf ((D 74564).toNat % 2 ^ 41) 4)) = true) ∧ w3_0.rowRefused (w3_0.locate ((D 74564).toNat % 2 ^ 41)).1 (w3_0.locate ((D 74564).toNat % 2 ^ 41)).2 = none ∧ w3_0.bufferHeld (w3_0.locate ((D 74564).toNat % 2 ^ 41)).1 4 = false ∧ (w3_0.getVault (w3_0.locate ((D 74564).toNat % 2 ^ 41)).1).svc.row = some (w3_0.locate ((D 74564).toNat % 2 ^ 41)).2 ∧ (w3_0.getVault (w3_0.locate ((D 74564).toNat % 2 ^ 41)).1).svc.data.length = 2048))
    ∧ ((w3_2.rowRefused (w3_2.locate ((D 74564).toNat % 2 ^ 41)).1 (w3_2.locate ((D 74564).toNat % 2 ^ 41)).2).any (fun _ => decide ((w3_2.glintOn = true ∧ w3_2.glint.inFrame = true ∧ ((sl 1 (some (D 74564)) none).all fun y => slotFits y w3_2.glint.unit) = true ∧ List.map (fun (y : GlintSlot) => decide (y.low ≤ 2 * w3_2.glint.unit)) (sl 1 (some (D 74564)) none) = glintBits 1 (some (D 74564)) none ++ bitsOf (c8 1 (some (D 74564)) none).toNat 0 8) ∧ w3_2.glintRefused true (D 74564).toNat (glintBits 1 (some (D 74564)) none) (c8 1 (some (D 74564)) none) = none ∧ w3_2.glintWaits (D 74564).toNat = false ∧ w3_2.dbgReaches ((D 74564).toNat / 2 ^ 44) ((D 74564).toNat % 2 ^ 41) = true ∧ (D 74564).toNat / 2 ^ 44 = 2 ∧ (w3_2.reloadsIn (w3_2.vaultsOf ((D 74564).toNat % 2 ^ 41) 4) = [] ∧ ((List.range 16).all fun k => !w3_2.siteWaits k (w3_2.vaultsOf ((D 74564).toNat % 2 ^ 41) 4)) = true))) = true)
    ∧ ((w1_1.coreBytes (52776826568708 % 2 ^ 41 % 2 ^ 32)).any (fun _ => decide ((w1_1.glintOn = true ∧ w1_1.glint.inFrame = true ∧ ((sl 1 (some (52776826568708 : BitVec 48)) none).all fun y => slotFits y w1_1.glint.unit) = true ∧ List.map (fun (y : GlintSlot) => decide (y.low ≤ 2 * w1_1.glint.unit)) (sl 1 (some (52776826568708 : BitVec 48)) none) = glintBits 1 (some (52776826568708 : BitVec 48)) none ++ bitsOf (c8 1 (some (52776826568708 : BitVec 48)) none).toNat 0 8) ∧ w1_1.glintRefused true 52776826568708 (glintBits 1 (some (52776826568708 : BitVec 48)) none) (c8 1 (some (52776826568708 : BitVec 48)) none) = none ∧ w1_1.glintWaits 52776826568708 = false ∧ w1_1.dbgReaches (52776826568708 / 2 ^ 44) (52776826568708 % 2 ^ 41) = true)) = true)
    ∧ ((w1_2.glintOn = true ∧ w1_2.glint.inFrame = true ∧ ((sl 1 (some (52777631875076 : BitVec 48)) none).all fun y => slotFits y w1_2.glint.unit) = true ∧ List.map (fun (y : GlintSlot) => decide (y.low ≤ 2 * w1_2.glint.unit)) (sl 1 (some (52777631875076 : BitVec 48)) none) = glintBits 1 (some (52777631875076 : BitVec 48)) none ++ bitsOf (c8 1 (some (52777631875076 : BitVec 48)) none).toNat 0 8) ∧ w1_2.glintRefused true 52777631875076 (glintBits 1 (some (52777631875076 : BitVec 48)) none) (c8 1 (some (52777631875076 : BitVec 48)) none) = none ∧ w1_2.glintWaits 52777631875076 = false ∧ w1_2.dbgReaches (52777631875076 / 2 ^ 44) (52777631875076 % 2 ^ 41) = true ∧ w1_2.coreBytes (52777631875076 % 2 ^ 41 % 2 ^ 32) = none)
    ∧ ((w2_5.glintRefused false (w2_5.glint.prev + (4 : BitVec 48)).toNat (glintBits 4 none (some (77 : Word))) (c8 4 none (some (77 : Word)))).any (fun _ => decide ((w2_5.glintOn = true ∧ w2_5.glint.inFrame = true ∧ ((sl 4 none (some (77 : Word))).all fun y => slotFits y w2_5.glint.unit) = true ∧ List.map (fun (y : GlintSlot) => decide (y.low ≤ 2 * w2_5.glint.unit)) (sl 4 none (some (77 : Word))) = glintBits 4 none (some (77 : Word)) ++ bitsOf (c8 4 none (some (77 : Word))).toNat 0 8))) = true)
    ∧ ((w3_6.glintOn = true ∧ w3_6.glint.inFrame = true ∧ ((sl 2 (some (D 74564)) (some (77 : Word))).all fun y => slotFits y w3_6.glint.unit) = true ∧ List.map (fun (y : GlintSlot) => decide (y.low ≤ 2 * w3_6.glint.unit)) (sl 2 (some (D 74564)) (some (77 : Word))) = glintBits 2 (some (D 74564)) (some (77 : Word)) ++ bitsOf (c8 2 (some (D 74564)) (some (77 : Word))).toNat 0 8) ∧ w3_6.glintRefused false (D 74564).toNat (glintBits 2 (some (D 74564)) (some (77 : Word))) (c8 2 (some (D 74564)) (some (77 : Word))) = none ∧ w3_6.glintWaits (D 74564).toNat = true)
    ∧ ((w2_0.glintOn = true ∧ w2_0.glint.inFrame = true ∧ ((sl 2 (some (8912948 : BitVec 48)) (some (77 : Word))).all fun y => slotFits y w2_0.glint.unit) = true ∧ List.map (fun (y : GlintSlot) => decide (y.low ≤ 2 * w2_0.glint.unit)) (sl 2 (some (8912948 : BitVec 48)) (some (77 : Word))) = glintBits 2 (some (8912948 : BitVec 48)) (some (77 : Word)) ++ bitsOf (c8 2 (some (8912948 : BitVec 48)) (some (77 : Word))).toNat 0 8) ∧ w2_0.glintRefused false 8912948 (glintBits 2 (some (8912948 : BitVec 48)) (some (77 : Word))) (c8 2 (some (8912948 : BitVec 48)) (some (77 : Word))) = none ∧ w2_0.glintWaits 8912948 = false ∧ (¬w2_0.dbgReaches (8912948 / 2 ^ 44) (8912948 % 2 ^ 41) = true))
    ∧ ((regInfo (sharedSeq (3145732 % 2 ^ 41 % 2 ^ 26))).any (fun v0 => decide ((w1_5.glintOn = true ∧ w1_5.glint.inFrame = true ∧ ((sl 2 (some (3145732 : BitVec 48)) (some (77 : Word))).all fun y => slotFits y w1_5.glint.unit) = true ∧ List.map (fun (y : GlintSlot) => decide (y.low ≤ 2 * w1_5.glint.unit)) (sl 2 (some (3145732 : BitVec 48)) (some (77 : Word))) = glintBits 2 (some (3145732 : BitVec 48)) (some (77 : Word)) ++ bitsOf (c8 2 (some (3145732 : BitVec 48)) (some (77 : Word))).toNat 0 8) ∧ w1_5.glintRefused false 3145732 (glintBits 2 (some (3145732 : BitVec 48)) (some (77 : Word))) (c8 2 (some (3145732 : BitVec 48)) (some (77 : Word))) = none ∧ w1_5.glintWaits 3145732 = false ∧ w1_5.dbgReaches (3145732 / 2 ^ 44) (3145732 % 2 ^ 41) = true ∧ isLo (sharedSeq (3145732 % 2 ^ 41 % 2 ^ 26)) = false ∧ isHi (sharedSeq (3145732 % 2 ^ 41 % 2 ^ 26)) = false ∧ v0.prot = (0 : Word))) = true)
    ∧ ((w1_7.glintOn = true ∧ w1_7.glint.inFrame = true ∧ ((sl 2 (some (8912948 : BitVec 48)) (some (77 : Word))).all fun y => slotFits y w1_7.glint.unit) = true ∧ List.map (fun (y : GlintSlot) => decide (y.low ≤ 2 * w1_7.glint.unit)) (sl 2 (some (8912948 : BitVec 48)) (some (77 : Word))) = glintBits 2 (some (8912948 : BitVec 48)) (some (77 : Word)) ++ bitsOf (c8 2 (some (8912948 : BitVec 48)) (some (77 : Word))).toNat 0 8) ∧ w1_7.glintRefused false 8912948 (glintBits 2 (some (8912948 : BitVec 48)) (some (77 : Word))) (c8 2 (some (8912948 : BitVec 48)) (some (77 : Word))) = none ∧ w1_7.glintWaits 8912948 = false ∧ w1_7.dbgReaches (8912948 / 2 ^ 44) (8912948 % 2 ^ 41) = true ∧ sharedSeq (8912948 % 2 ^ 41 % 2 ^ 26) = Reg.lnkEqtab 3 1 ∧ decide (0 < w1_7.keyLeft 4) = true)
    ∧ ((w1_6.glintOn = true ∧ w1_6.glint.inFrame = true ∧ ((sl 2 (some (8912948 : BitVec 48)) (some (77 : Word))).all fun y => slotFits y w1_6.glint.unit) = true ∧ List.map (fun (y : GlintSlot) => decide (y.low ≤ 2 * w1_6.glint.unit)) (sl 2 (some (8912948 : BitVec 48)) (some (77 : Word))) = glintBits 2 (some (8912948 : BitVec 48)) (some (77 : Word)) ++ bitsOf (c8 2 (some (8912948 : BitVec 48)) (some (77 : Word))).toNat 0 8) ∧ w1_6.glintRefused false 8912948 (glintBits 2 (some (8912948 : BitVec 48)) (some (77 : Word))) (c8 2 (some (8912948 : BitVec 48)) (some (77 : Word))) = none ∧ w1_6.glintWaits 8912948 = false ∧ w1_6.dbgReaches (8912948 / 2 ^ 44) (8912948 % 2 ^ 41) = true ∧ sharedSeq (8912948 % 2 ^ 41 % 2 ^ 26) = Reg.lnkEqtab 3 1 ∧ decide (0 < w1_6.keyLeft 4) = false)
    ∧ ((w2_1.glintOn = true ∧ w2_1.glint.inFrame = true ∧ ((sl 2 (some (17592186044420 : BitVec 48)) (some (77 : Word))).all fun y => slotFits y w2_1.glint.unit) = true ∧ List.map (fun (y : GlintSlot) => decide (y.low ≤ 2 * w2_1.glint.unit)) (sl 2 (some (17592186044420 : BitVec 48)) (some (77 : Word))) = glintBits 2 (some (17592186044420 : BitVec 48)) (some (77 : Word)) ++ bitsOf (c8 2 (some (17592186044420 : BitVec 48)) (some (77 : Word))).toNat 0 8) ∧ w2_1.glintRefused false 17592186044420 (glintBits 2 (some (17592186044420 : BitVec 48)) (some (77 : Word))) (c8 2 (some (17592186044420 : BitVec 48)) (some (77 : Word))) = none ∧ w2_1.glintWaits 17592186044420 = false ∧ w2_1.dbgReaches (17592186044420 / 2 ^ 44) (17592186044420 % 2 ^ 41) = true ∧ w2_1.spdMay 4 (17592186044420 % 2 ^ 41 % 2 ^ 26) 4 true = true)
    ∧ ((w7_1.glintOn = true ∧ w7_1.glint.inFrame = true ∧ ((sl 2 (some (17592186064896 : BitVec 48)) (some (77 : Word))).all fun y => slotFits y w7_1.glint.unit) = true ∧ List.map (fun (y : GlintSlot) => decide (y.low ≤ 2 * w7_1.glint.unit)) (sl 2 (some (17592186064896 : BitVec 48)) (some (77 : Word))) = glintBits 2 (some (17592186064896 : BitVec 48)) (some (77 : Word)) ++ bitsOf (c8 2 (some (17592186064896 : BitVec 48)) (some (77 : Word))).toNat 0 8) ∧ w7_1.glintRefused false 17592186064896 (glintBits 2 (some (17592186064896 : BitVec 48)) (some (77 : Word))) (c8 2 (some (17592186064896 : BitVec 48)) (some (77 : Word))) = none ∧ w7_1.glintWaits 17592186064896 = false ∧ w7_1.dbgReaches (17592186064896 / 2 ^ 44) (17592186064896 % 2 ^ 41) = true ∧ w7_1.spdMay 4 (17592186064896 % 2 ^ 41 % 2 ^ 26) 4 true = false)
    ∧ ((w3_4.glintOn = true ∧ w3_4.glint.inFrame = true ∧ ((sl 2 (some (D 74564)) (some (77 : Word))).all fun y => slotFits y w3_4.glint.unit) = true ∧ List.map (fun (y : GlintSlot) => decide (y.low ≤ 2 * w3_4.glint.unit)) (sl 2 (some (D 74564)) (some (77 : Word))) = glintBits 2 (some (D 74564)) (some (77 : Word)) ++ bitsOf (c8 2 (some (D 74564)) (some (77 : Word))).toNat 0 8) ∧ w3_4.glintRefused false (D 74564).toNat (glintBits 2 (some (D 74564)) (some (77 : Word))) (c8 2 (some (D 74564)) (some (77 : Word))) = none ∧ w3_4.glintWaits (D 74564).toNat = false ∧ w3_4.dbgReaches ((D 74564).toNat / 2 ^ 44) ((D 74564).toNat % 2 ^ 41) = true ∧ (D 74564).toNat / 2 ^ 44 = 2 ∧ ((w3_4.reloadsIn (w3_4.vaultsOf ((D 74564).toNat % 2 ^ 41) 4) = [] ∧ ((List.range 16).all fun k => !w3_4.siteWaits k (w3_4.vaultsOf ((D 74564).toNat % 2 ^ 41) 4)) = true) ∧ w3_4.rowRefused (w3_4.locate ((D 74564).toNat % 2 ^ 41)).1 (w3_4.locate ((D 74564).toNat % 2 ^ 41)).2 = none ∧ w3_4.bufferHeld (w3_4.locate ((D 74564).toNat % 2 ^ 41)).1 4 = false ∧ (w3_4.getVault (w3_4.locate ((D 74564).toNat % 2 ^ 41)).1).svc.row = some (w3_4.locate ((D 74564).toNat % 2 ^ 41)).2 ∧ (w3_4.getVault (w3_4.locate ((D 74564).toNat % 2 ^ 41)).1).svc.data.length = 2048))
    ∧ ((w3_5.rowRefused (w3_5.locate ((D 74564).toNat % 2 ^ 41)).1 (w3_5.locate ((D 74564).toNat % 2 ^ 41)).2).any (fun _ => decide ((w3_5.glintOn = true ∧ w3_5.glint.inFrame = true ∧ ((sl 2 (some (D 74564)) (some (77 : Word))).all fun y => slotFits y w3_5.glint.unit) = true ∧ List.map (fun (y : GlintSlot) => decide (y.low ≤ 2 * w3_5.glint.unit)) (sl 2 (some (D 74564)) (some (77 : Word))) = glintBits 2 (some (D 74564)) (some (77 : Word)) ++ bitsOf (c8 2 (some (D 74564)) (some (77 : Word))).toNat 0 8) ∧ w3_5.glintRefused false (D 74564).toNat (glintBits 2 (some (D 74564)) (some (77 : Word))) (c8 2 (some (D 74564)) (some (77 : Word))) = none ∧ w3_5.glintWaits (D 74564).toNat = false ∧ w3_5.dbgReaches ((D 74564).toNat / 2 ^ 44) ((D 74564).toNat % 2 ^ 41) = true ∧ (D 74564).toNat / 2 ^ 44 = 2 ∧ (w3_5.reloadsIn (w3_5.vaultsOf ((D 74564).toNat % 2 ^ 41) 4) = [] ∧ ((List.range 16).all fun k => !w3_5.siteWaits k (w3_5.vaultsOf ((D 74564).toNat % 2 ^ 41) 4)) = true))) = true)
    ∧ ((w2_2.glintOn = true ∧ w2_2.glint.inFrame = true ∧ ((sl 2 (some (52776826568708 : BitVec 48)) (some (77 : Word))).all fun y => slotFits y w2_2.glint.unit) = true ∧ List.map (fun (y : GlintSlot) => decide (y.low ≤ 2 * w2_2.glint.unit)) (sl 2 (some (52776826568708 : BitVec 48)) (some (77 : Word))) = glintBits 2 (some (52776826568708 : BitVec 48)) (some (77 : Word)) ++ bitsOf (c8 2 (some (52776826568708 : BitVec 48)) (some (77 : Word))).toNat 0 8) ∧ w2_2.glintRefused false 52776826568708 (glintBits 2 (some (52776826568708 : BitVec 48)) (some (77 : Word))) (c8 2 (some (52776826568708 : BitVec 48)) (some (77 : Word))) = none ∧ w2_2.glintWaits 52776826568708 = false ∧ w2_2.dbgReaches (52776826568708 / 2 ^ 44) (52776826568708 % 2 ^ 41) = true)
    ∧ ((w2_3.glintOn = true ∧ w2_3.glint.inFrame = true ∧ ((sl 2 (some (52776827092992 : BitVec 48)) (some (77 : Word))).all fun y => slotFits y w2_3.glint.unit) = true ∧ List.map (fun (y : GlintSlot) => decide (y.low ≤ 2 * w2_3.glint.unit)) (sl 2 (some (52776827092992 : BitVec 48)) (some (77 : Word))) = glintBits 2 (some (52776827092992 : BitVec 48)) (some (77 : Word)) ++ bitsOf (c8 2 (some (52776827092992 : BitVec 48)) (some (77 : Word))).toNat 0 8) ∧ w2_3.glintRefused false 52776827092992 (glintBits 2 (some (52776827092992 : BitVec 48)) (some (77 : Word))) (c8 2 (some (52776827092992 : BitVec 48)) (some (77 : Word))) = none ∧ w2_3.glintWaits 52776827092992 = false ∧ w2_3.dbgReaches (52776827092992 / 2 ^ 44) (52776827092992 % 2 ^ 41) = true)
    ∧ ((w0_3.glintOn = true ∧ w0_3.glint.inFrame = true ∧ ((sl 5 none none).all fun y => slotFits y w0_3.glint.unit) = true ∧ List.map (fun (y : GlintSlot) => decide (y.low ≤ 2 * w0_3.glint.unit)) (sl 5 none none) = glintBits 5 none none ++ bitsOf (c8 5 none none).toNat 0 8) ∧ crc8 (glintBits 5 none none) = (c8 5 none none).toNat)
    ∧ ((w5_7.glintOn = true ∧ w5_7.glint.inFrame = true ∧ ((sl2 5 none none (9 : BitVec 8)).all fun y => slotFits y w5_7.glint.unit) = true ∧ List.map (fun (y : GlintSlot) => decide (y.low ≤ 2 * w5_7.glint.unit)) (sl2 5 none none (9 : BitVec 8)) = glintBits 5 none none ++ bitsOf 9 0 8) ∧ crc8 (glintBits 5 none none) ≠ 9) :=
  by and_intros <;> decide +kernel

end Sys2Proof.Tests.N9

namespace Sys2Proof.Tests.Pow

def key (s : State) (r : Nat := 0) : State := { s with host := { s.host with keyWin := [(r, 3)] } }
def vst (v c : Nat) (s : State := base) : State := s.setFld (Reg.vltStat v) 29 3 c
def tel (n : Nat) (h : List Nat) (s : State := bud base) : State := { s with aon := { s.aon with tele := { s.aon.tele with n := n, vin := 120000, iin := 3000, hist := h, railV := List.replicate 23 100, railI := List.replicate 23 100 } } }
def adm (s : State) : State := (bud s).setBit (Reg.pmuSite 3) 12 true
def ck (s : State) : State := { (s.setBit Reg.clkStat 6 true) with aon := { s.aon with step := 0 } } |>.setFld Reg.clkStat 0 3 7
def vd : State := (vst 17 2 (vst 18 3)).modVault 17 (fun x => { x with svc := { x.svc with row := some 5, data := List.replicate 2048 9, dirty := true } })
def rd12 : List (BitVec 12 × Bool) := [(100, true), (0xff0, true), (700, false)]
def svc (n : Nat) (l : Nat) (s : State := base) : State := (List.range n).foldl (fun s i => s.wr (Reg.thmSensor l i) (BitVec.ofNat 32 (0x3000 + 40 * i))) s
def rise (l : Nat) (h : Nat) (s : State := base) : State := s.setTherm l { s.getTherm l with hat := (h : Rat) }
def w0_3 : State := tel 9 []
def w0_4 : State := tel 20 (List.replicate 12 12001)
def w0_5 : State := adm base
def w1_0 : State := vd
def w1_2 : State := ck base
def w1_1 : State := key (runAt 1 0)
def w1_4 : State := key base
def w1_5 : State := key (base.setBit Reg.clkFsel 31 true)
def w1_7 : State := ((base.setBit Reg.clkFmeasCtl 31 true))
def w2_0 : State := base
def w2_4 : State := svc 5 0 (rise 0 5000 (runAt 1 0))
def w2_1 : State := svc 3 3
def w2_3 : State := svc 5 3 (rise 3 2000)
def w2_7 : State := ((svc 9 3).setBit Reg.thmSuspect 3 true |>.setTherm 3 { (base.getTherm 3) with mayClear := true }).setFld (Reg.thmLayer 3) 24 5 8

theorem wit_Supply :
    (w0_3.aon.up = true ∧ 10 ≤ w0_3.aon.tele.n + 1)
    ∧ (w0_4.aon.up = true ∧ w0_4.aon.tele.hist ≠ [])
    ∧ (w0_5.admitted 3 = true) :=
  by and_intros <;> decide +kernel

theorem wit_Clocks :
    (w1_0.aon.up = true ∧ w1_0.clocksRun = true ∧ (w1_0.mode ≠ modeRESET ∧ w1_0.mode ≠ modeSAFE))
    ∧ (w1_2.aon.up = true ∧ w1_2.clocksRun = false ∧ w1_2.aon.step = 0 ∧ w1_2.fld Reg.clkStat 0 3 = 7)
    ∧ (w1_1.reaches (0 : Requester) = true ∧ decide (0 < w1_1.keyLeft 0) = true ∧ w1_1.bit Reg.clkFsel 31 = false ∧ w1_1.fselRefused 1 = none)
    ∧ ((w1_4.fselRefused 3).any (fun _ => decide (w1_4.reaches (0 : Requester) = true ∧ decide (0 < w1_4.keyLeft 0) = true ∧ w1_4.bit Reg.clkFsel 31 = false)) = true)
    ∧ (w1_5.reaches (0 : Requester) = true ∧ decide (0 < w1_5.keyLeft 0) = true ∧ w1_5.bit Reg.clkFsel 31 = true)
    ∧ (w1_0.reaches (0 : Requester) = true ∧ decide (0 < w1_0.keyLeft 0) = false)
    ∧ (w1_5.bit Reg.clkFsel 31 = true)
    ∧ (w1_0.reaches (0 : Requester) = true)
    ∧ (w1_7.aon.count = (w1_7.aon.count.1, w1_7.aon.count.2.1, w1_7.aon.count.2.2) ∧ w1_7.bit Reg.clkFmeasCtl 31 = true ∧ w1_7.clockGoes w1_7.aon.count.2.1 = true)
    ∧ ((w1_0.bit Reg.clkFmeasCtl 31 = false ∨ w1_0.clockGoes w1_0.aon.count.2.1 = false)) :=
  by and_intros <;> decide +kernel

theorem wit_Thermal :
    (w2_0.aon.up = true ∧ rd12.length ≤ 16)
    ∧ (w2_4.aon.up = true ∧ ([] : List (BitVec 12 × Bool)).length ≤ 16 ∧ (∀ j < 16, (w2_4.inService 3 j && ([] : List (BitVec 12 × Bool))[j]?.elim (w2_4.bit (Reg.thmSensor 3 j) 13) Prod.snd) = false))
    ∧ (w2_1.aon.up = true ∧ w2_1.inService 3 2 = true ∧ w2_1.sensorBad 3 2 = true)
    ∧ (w2_0.sensorBad 3 5 = false)
    ∧ (w2_1.sensorGood 3 2 = false)
    ∧ (w2_0.aon.up = true)
    ∧ (w2_3.aon.up = true ∧ w2_3.offModel 3 < (-64 : ℚ) ∧ w2_3.suspect 3 = false)
    ∧ ((w2_0.suspect 3 = true ∨ (-64 : ℚ) ≤ w2_0.offModel 3))
    ∧ (w2_0.offModel 3 ≤ (64 : ℚ))
    ∧ (w2_0.reaches (0 : Requester) = true)
    ∧ (w2_7.suspect 3 = true ∧ (w2_7.getTherm 3).mayClear = true ∧ 8 ≤ w2_7.fld (Reg.thmLayer 3) 24 5 ∧ (-32 : ℚ) ≤ w2_7.offModel 3 ∧ w2_7.offModel 3 ≤ (32 : ℚ)) :=
  by and_intros <;> decide +kernel

end Sys2Proof.Tests.Pow

namespace Sys2Proof.Tests.Rst

def key (s : State) (r : Nat := 0) : State := { s with host := { s.host with keyWin := [(r, 3)] } }
def dirt : State := [0x0,0x10,0x14,0x44,0x100,0x200,0x400,0x104,0x800000,0xC00008,0xC00010,0xC00208,0x1400010,0x1800008,0x2000004,0x2000008,0x2100008,0x6004, 0x180010, 0x200010,0x280020,0x300010,0x380010].foldl (fun s a => s.wr a (s.rd a ^^^ 0x00770000)) (key base)
def d2 := { dirt with flash := [(3, 9)], cpu := { dirt.cpu with started := true }, dram := [(3, 4)], ctl := { dirt.ctl with golden := [(3,4)], frames := [(3, 4)] } }
def wd (s : State) (k : ResetKind) : State := { s.setMode 0 with aon := { s.aon with kind := k, vio := true, perst := false } }
def stp (n : Nat) (s : State := State.reset) : State := { s with aon := { s.aon with up := true, step := n, perst := false, vinOk := true } }
def dn : State := State.reset
def w0_0 : State := d2
def w0_2 : State := wd d2 .warm
def w0_5 : State := { d2 with aon := { d2.aon with perst := false, vio := true } }
def w0_4 : State := wd base .por
def w1_0 : State := dn
def w1_3 : State := stp 1
def w1_4 : State := (stp 1).setFld Reg.glbStartup 16 4 1
def w1_6 : State := stp 2
def w1_8 : State := stp 3
def w1_10 : State := stp 3
def w1_12 : State := stp 4

theorem wit_Resets :
    (w0_0.reaches (0 : Requester) = true ∧ decide (0 < w0_0.keyLeft 0) = true)
    ∧ (w0_2.aon.up = true ∧ w0_2.aon.vio = true ∧ (w0_2.mode ≠ modeRESET ∨ w0_2.aon.kind ≠ ResetKind.por))
    ∧ (w0_5.aon.perst = false ∧ w0_5.aon.up = true ∧ w0_5.mode ≠ modeRESET)
    ∧ (w0_4.aon.perst = false ∧ w0_4.aon.up = true ∧ w0_4.mode = modeRESET ∧ w0_4.aon.kind ≠ ResetKind.warm)
    ∧ (w0_0.mode ≠ modeRESET)
    ∧ (w0_2.mode = modeRESET) :=
  by and_intros <;> decide +kernel

theorem wit_StartUp :
    (w1_0.aon.up = false)
    ∧ (w1_3.atStep 1 = true)
    ∧ (w1_4.atStep 1 = true)
    ∧ (w1_6.atStep 2 = true)
    ∧ (w1_8.atStep 3 = true)
    ∧ (w1_10.atStep 3 = true)
    ∧ (w1_3.aon.up = true)
    ∧ (w1_12.sequencing = true)
    ∧ (w1_12.sequencing = true ∧ w1_12.aon.railsIn ≤ railOrder 22 ∧ w1_12.ctl.gated = false)
    ∧ ((w1_0.sequencing = false ∨ railOrder 0 < w1_0.aon.railsIn)) :=
  by and_intros <;> decide +kernel

end Sys2Proof.Tests.Rst

namespace Sys2Proof.Tests.Rst2

def w0_0 : State := base

theorem wit_Resets : w0_0.reaches (0 : Requester) = true ∧ decide (0 < w0_0.keyLeft 0) = false :=
  by decide +kernel

end Sys2Proof.Tests.Rst2

namespace Sys2Proof.Tests.Seq

def rA (k op imm aux : Nat) (cnd : Nat := 0) (pc : Nat := 5) (f : Site → Site := id) (g : State → State := id) : State := g (runAt k (seqW op imm aux cnd) pc f)
def w0_0 : State := rA 0 2 0 7
def w0_2 : State := rA 3 3 99 0
def w0_4 : State := rA 15 14 0xffffffff 7
def w0_5 : State := rA 15 15 77 15
def w0_6 : State := rA 0 16 0xffffffff 15 (g := fun s => s.wr (Reg.seqX 0 15) 3)
def w0_7 : State := rA 0 17 5 0
def w1_0 : State := rA 0 4 0x7fff 0 0 0x7fff
def w1_1 : State := rA 0 5 0 0 13
def w1_3 : State := rA 1 6 3 0
def w1_8 : State := rA 1 7 0 0
def w2_0 : State := rA 0 12 0 0x1f
def w2_3 : State := rA 2 20 0 0
def w2_4 : State := rA 2 21 255 0
def w2_5 : State := rA 2 21 2 1
def w2_6 : State := rA 2 22 0 0
def w2_7 : State := rA 2 23 0xff 0
def w3_0 : State := rA 0 8 3 7 (f := fun x => { x with hUse := 40 })
def w3_1 : State := rA 0 11 0x8001 15
def w3_2 : State := rA 0 13 0 0x1f
def w3_3 : State := rA 0 13 0 0xf
def w3_4 : State := rA 4 18 9 0
def w3_5 : State := rA 4 19 9 0

theorem wit_SeqData_1 :
    (w0_0.CanIssue 0 (seqW 2 0 7) Ecc.ok 2 1)
    ∧ (w0_0.seqPc 0 + 1 < 32768)
    ∧ (w0_2.CanIssue 3 (seqW 3 99 0) Ecc.ok 3 1)
    ∧ ((1 < BitVec.toNat (w0_2.rd (Reg.seqLc 3 (seqAux (seqW 3 99 0)))) ∨ w0_2.seqPc 3 + 1 < 32768))
    ∧ (w0_4.CanIssue 15 (seqW 14 4294967295 7) Ecc.single 14 1)
    ∧ (w0_4.seqPc 15 + 1 < 32768)
    ∧ (w0_5.CanIssue 15 (seqW 15 77 15) Ecc.ok 15 1)
    ∧ (w0_5.seqPc 15 + 1 < 32768)
    ∧ (w0_6.CanIssue 0 (seqW 16 4294967295 15) Ecc.ok 16 1)
    ∧ (w0_6.seqPc 0 + 1 < 32768)
    ∧ (w0_7.CanIssue 0 (seqW 17 5 0) Ecc.ok 17 1)
    ∧ (w0_7.seqPc 0 + 1 < 32768) :=
  by and_intros <;> first | decide +kernel | exact canIssue_of (by decide +kernel)

theorem wit_SeqBranches_0 :
    (w1_0.CanIssue 0 (seqW 4 32767 0) Ecc.ok 4 1)
    ∧ (w1_1.CanIssue 0 (seqW 5 0 0 13) Ecc.ok 5 1)
    ∧ ((w1_1.seqCond 0 (seqW 5 0 0 13) (w1_1.getSite 0).cycle = true ∨ w1_1.seqPc 0 + 1 < 32768))
    ∧ (w1_3.CanIssue 1 (seqW 6 3 0) Ecc.ok 6 1)
    ∧ ((w1_3.seqCond 1 (seqW 6 3 0) (w1_3.getSite 1).cycle = true ∨ w1_3.seqPc 1 + 1 < 32768))
    ∧ (w1_8.CanIssue 1 (seqW 7 0 0) Ecc.ok 7 1)
    ∧ ((w1_8.seqCond 1 (seqW 7 0 0) (w1_8.getSite 1).cycle = true ∨ w1_8.seqPc 1 + 1 < 32768)) :=
  by and_intros <;> first | decide +kernel | exact canIssue_of (by decide +kernel)

theorem wit_SeqEffects :
    (w2_0.CanIssue 0 (seqW 12 0 31) Ecc.ok 12 1)
    ∧ (w2_0.seqPc 0 + 1 < 32768)
    ∧ (w2_3.CanIssue 2 (seqW 20 0 0) Ecc.ok 20 1)
    ∧ (w2_3.seqPc 2 + 1 < 32768)
    ∧ (w2_4.CanIssue 2 (seqW 21 255 0) Ecc.ok 21 1)
    ∧ (w2_4.seqPc 2 + 1 < 32768 ∧ seqAux (seqW 21 255 0) = 0)
    ∧ (w2_5.CanIssue 2 (seqW 21 2 1) Ecc.ok 21 1)
    ∧ (w2_5.seqPc 2 + 1 < 32768 ∧ seqAux (seqW 21 2 1) = 1)
    ∧ (w2_6.CanIssue 2 (seqW 22 0 0) Ecc.ok 22 1)
    ∧ (w2_6.seqPc 2 + 1 < 32768)
    ∧ (w2_7.CanIssue 2 (seqW 23 255 0) Ecc.ok 23 1)
    ∧ (w2_7.seqPc 2 + 1 < 32768) :=
  by and_intros <;> first | decide +kernel | exact canIssue_of (by decide +kernel)

theorem wit_SeqWaits :
    (w3_0.CanIssue 0 (seqW 8 3 7) Ecc.ok 8 ((w3_0.getSite 0).hUse - 1))
    ∧ (w3_1.CanIssue 0 (seqW 11 32769 15) Ecc.ok 11 1)
    ∧ (w3_2.CanIssue 0 (seqW 13 0 31) Ecc.ok 13 1)
    ∧ (w3_2.flagSeen (seqAux (seqW 13 0 31) % 16) ((w3_2.getSite 0).fc0 + (w3_2.getSite 0).cycle) ≠ (seqAux (seqW 13 0 31)).testBit 4)
    ∧ (w3_3.CanIssue 0 (seqW 13 0 15) Ecc.ok 13 1)
    ∧ (w3_3.flagSeen (seqAux (seqW 13 0 15) % 16) ((w3_3.getSite 0).fc0 + (w3_3.getSite 0).cycle) = (seqAux (seqW 13 0 15)).testBit 4 ∧ w3_3.seqPc 0 + 1 < 32768)
    ∧ (w3_4.CanIssue 4 (seqW 18 9 0) Ecc.ok 18 (seqImm (seqW 18 9 0)))
    ∧ (w3_4.seqPc 4 + 1 < 32768)
    ∧ (w3_5.CanIssue 4 (seqW 19 9 0) Ecc.ok 19 (seqImm (seqW 19 9 0)))
    ∧ (w3_5.seqPc 4 + 1 < 32768) :=
  by and_intros <;> first | decide +kernel | exact canIssue_of (by decide +kernel)

end Sys2Proof.Tests.Seq

namespace Sys2Proof.Tests.Seq2

def wt (k : Nat) (f : Site → Site) (g : State → State := id) : State := g ((runAt k 0 5 f).setSeqState k 4)
def mw := seqW 8 3 7
def two : State := ((runAt 0 0 5 (fun x => {x with wait := .sync 3 1 9 })).setSeqState 0 4 |>.setSeqState 1 4).modSite 1 (fun x => { x with wait := .sync 3 1 0, cycle := 1, fc0 := 250})
def w0_0 : State := wt 0 (fun x => { x with wait := .matching mw, hUse := 5})
def w0_12 : State := two
def w0_5 : State := wt 0 (fun x => { x with wait := .waitf 3 true 5 }) (fun s => { s with xflags := [(200, 8#16, 0)] })
def w0_8 : State := wt 0 (fun x => { x with wait := .waitf 3 true 5 }) (fun s =>  (s.wr (Reg.seqCfg 0 + 0x200) 0x100))
def w0_10 : State := wt 0 (fun x => { x with restorePending := true, wait := .bistwin 4 4 })

theorem wit_SeqWaitEnds :
    (w0_0.seqState 0 = 4 ∧ (w0_0.getSite 0).wait = Wait.matching mw ∧ (w0_0.getSite 0).after ≠ After.cut ∧ seqLegal 0 mw = true ∧ seqOp mw = 8 ∧ w0_0.seqPc 0 + 1 < 32768)
    ∧ (members (BitVec.ofNat 16 3) ≠ [] ∧ (∀ j ∈ members (BitVec.ofNat 16 3), (w0_12.getSite j).stopAt = none ∧ w0_12.seqPc j + 1 < 32768 ∧ ∃ since, w0_12.syncSince (BitVec.ofNat 16 3) (BitVec.ofNat 4 1) j = some since ∧ (w0_12.waitLimit j = 0 ∨ List.foldl max 0 (List.filterMap (w0_12.syncSince (BitVec.ofNat 16 3) (BitVec.ofNat 4 1)) (members (BitVec.ofNat 16 3))) + 6 - since ≤ w0_12.waitLimit j)))
    ∧ ((w0_5.flagFc 3 ((w0_5.getSite 0).fc0 + 5) true).any (fun v0 => decide (w0_5.seqState 0 = 4 ∧ (w0_5.getSite 0).wait = Wait.waitf (3 : BitVec 4) true 5 ∧ (w0_5.waitLimit 0 = 0 ∨ v0 + 1 - ((w0_5.getSite 0).fc0 + 5) ≤ w0_5.waitLimit 0) ∧ (w0_5.getSite 0).stopAt = none ∧ w0_5.seqPc 0 + 1 < 32768)) = true)
    ∧ (w0_8.seqState 0 = 4 ∧ w0_8.waitLimit 0 ≠ 0 ∧ (w0_8.getSite 0).stopAt = none ∧ ((∃ f v, (w0_8.getSite 0).wait = Wait.waitf f v 5 ∧ ∀ (e : ℕ), w0_8.flagFc f.toNat ((w0_8.getSite 0).fc0 + 5) v = some e → w0_8.waitLimit 0 < e + 1 - ((w0_8.getSite 0).fc0 + 5)) ∨ ∃ m i, (w0_8.getSite 0).wait = Wait.sync m i 5 ∧ ∀ (u : ℕ), w0_8.barrier m i = some u → w0_8.waitLimit 0 < u + 6 - ((w0_8.getSite 0).fc0 + 5)))
    ∧ ((w0_10.getSite 0).restorePending = true ∧ w0_10.slicesOver 0 = true) :=
  by and_intros <;> decide +kernel

end Sys2Proof.Tests.Seq2

namespace Sys2Proof.Tests.Seq3

def rA (k op imm aux : Nat) (cnd : Nat := 0) (pc : Nat := 5) (f : Site → Site := id) (g : State → State := id) : State := g (runAt k (seqW op imm aux cnd) pc f)
def w0_0 : State := rA 0 0 0 0 0 0x7fff
def w0_40 : State := rA 0 1 1 0 0 0x7fff
def w0_1 : State := rA 0 0 0 0 0 0x7fff (fun x => { x with after := .past, cycle := 9 })

theorem wit_SeqBranches_1 :
    (w0_0.CanIssue 0 (seqW 0 0 0) Ecc.ok (seqOp (seqW 0 0 0)) 1)
    ∧ (w0_0.seqPc 0 = 32767 ∧ (seqOp (seqW 0 0 0) ∈ [0, 2, 12, 14, 15, 16, 17, 20, 21, 22, 23] ∨ seqOp (seqW 0 0 0) = 3 ∧ BitVec.toNat (w0_0.rd (Reg.seqLc 0 (seqAux (seqW 0 0 0)))) ≤ 1 ∨ seqOp (seqW 0 0 0) ∈ [5, 6, 7, 9, 10] ∧ w0_0.seqCond 0 (seqW 0 0 0) (w0_0.getSite 0).cycle = false ∨ seqOp (seqW 0 0 0) = 13 ∧ w0_0.flagSeen (seqAux (seqW 0 0 0) % 16) ((w0_0.getSite 0).fc0 + (w0_0.getSite 0).cycle) = (seqAux (seqW 0 0 0)).testBit 4))
    ∧ (w0_40.CanIssue 0 (seqW 1 1 0) Ecc.ok 1 (seqImm (seqW 1 1 0)))
    ∧ (w0_40.seqPc 0 = 32767)
    ∧ (w0_1.seqReady 0 = true ∧ (w0_1.getSite 0).after = After.past ∧ w0_1.imemWord 0 = seqW 0 0 0) :=
  by and_intros <;> first | decide +kernel | exact canIssue_of (by decide +kernel)

end Sys2Proof.Tests.Seq3

namespace Sys2Proof.Tests.St

def key (s : State) (r : Nat := 0) : State := { s with host := { s.host with keyWin := [(r, 3)] } }
def cf (b : Bist) (s : State := base) : State := s.setBist 3 b
def w0_0 : State := base.wr (Reg.thmSensor 3 2) 0
def w1_1 : State := cf { run := some { col := 3, lap := true, again := true }, pos := 128 }
def w1_3 : State := cf { run := some { col := 3, lap := true }, pos := 5, sig := 77 }
def w1_4 : State := cf { run := some { col := 3, lap := false, again := true } }
def w1_8 : State := cf { confirmed := 3 } ((base.setBit Reg.safRepairCfg 0 true).setFld (Reg.safFault 3) 8 7 5)
def w1_9 : State := cf { repair := some (false, true), confirmed := 3 } ((base.setBit Reg.safRepairCfg 0 true).setFld (Reg.safFault 3) 0 7 63)
def w1_11 : State := key (((cf { confirmed := 3 }).setBit (Reg.fabColmap 3) 15 true).wr Reg.pmuVin 3000)
def w1_12 : State := { base with burn := some (3, true) }

theorem wit_Thermal : w0_0.aon.up = true ∧ w0_0.inService 3 2 = false ∧ w0_0.sensorGood 3 2 = true :=
  by decide +kernel

theorem wit_SelfTest :
    ((w1_1.getBist 3).run.any (fun v0 => decide (v0.lap = true ∧ (w1_1.getBist 3).pos + 1 < 130)) = true)
    ∧ ((w1_3.getBist 3).run.any (fun v0 => decide (v0.again = false)) = true)
    ∧ ((w1_4.getBist 3).run.any (fun v0 => decide (v0.again = true ∧ v0.lap = false ∧ v0.col < 130)) = true)
    ∧ (w1_8.bit Reg.safRepairCfg 0 = true ∧ w1_8.repairable 3 true = true ∧ (w1_8.repairing = false ∧ w1_8.siteState 3 = 0 ∧ w1_8.siteBusy 3 = false))
    ∧ (w1_8.reaches (0 : Requester) = true ∧ (w1_8.repairing = false ∧ w1_8.siteState 3 = 0 ∧ w1_8.siteBusy 3 = false) ∧ w1_8.repairable 3 true = true)
    ∧ ((w1_9.getBist 3).repair.any (fun v0 => decide ((w1_9.getBist 3).repair = some (false, v0.2) ∧ w1_9.siteBusy 3 = false)) = true)
    ∧ (w1_11.reaches (0 : Requester) = true ∧ decide (0 < w1_11.keyLeft 0) = true ∧ 3000 ≤ w1_11.fld Reg.pmuVin 0 16 ∧ w1_11.repairing = false ∧ w1_11.siteBusy 3 = false ∧ w1_11.planeRepaired 3 (planeN true) = true ∧ w1_11.bit Reg.vltFuseCmd 31 = false ∧ w1_11.bit (Reg.fabColmap 3) (16 + planeN true) = false)
    ∧ (w1_12.burn = some (3, true)) :=
  by and_intros <;> decide +kernel

end Sys2Proof.Tests.St

namespace Sys2Proof.Tests.Therm

def svc (n : Nat) (l : Nat) (s : State := base) : State := (List.range n).foldl (fun s i => s.wr (Reg.thmSensor l i) (BitVec.ofNat 32 (0x3000 + 40 * i))) s
def w0_6 : State := ((svc 9 3).setFld (Reg.thmLayer 3) 12 12 100)

theorem wit_Thermal : w0_6.aon.up = true ∧ (64 : ℚ) < w0_6.offModel 3 :=
  by decide +kernel

end Sys2Proof.Tests.Therm

namespace Sys2Proof.Tests.Vk0

def vst (v c : Nat) (s : State := base) : State := s.setFld (Reg.vltStat v) 29 3 c
def u0 := (vst 17 2).setBit Reg.vltCfg 0 true
def w0_0 : State := u0.wr (Reg.vltScrub 17) 0xffffffff

theorem wit_VaultUpkeep_0 :
    ((w0_0.vltState 17 = 2 ∨ w0_0.vltState 17 = 1))
    ∧ (w0_0.vltState 17 = 2 ∧ w0_0.bit Reg.vltCfg 0 = true ∧ w0_0.waitRank 17 = 5)
    ∧ (w0_0.acted (15 + 1) ≤ (656 : ℤ)) :=
  by and_intros <;> decide +kernel

end Sys2Proof.Tests.Vk0

namespace Sys2Proof.Tests.Vk1

def vst (v c : Nat) (s : State := base) : State := s.setFld (Reg.vltStat v) 29 3 c
def u0 := (vst 17 2).setBit Reg.vltCfg 0 true
def w0_0 : State := { (u0.setFld Reg.vltCfg 16 16 1) with tsc := 1600000001 }

theorem wit_VaultUpkeep_0 : w0_0.vltState 17 = 2 ∧ w0_0.fld Reg.vltCfg 16 16 ≠ 0 ∧ w0_0.bit (Reg.vltStat 17) 25 = false ∧ w0_0.fld Reg.vltCfg 16 16 * 1600000000 < w0_0.lapTime 17 :=
  by decide +kernel

end Sys2Proof.Tests.Vk1

namespace Sys2Proof.Tests.Vk2

def vst (v c : Nat) (s : State := base) : State := s.setFld (Reg.vltStat v) 29 3 c
def w0_0 : State := vst 0 3

theorem wit_VaultUpkeep_0 : w0_0.vltState 0 = 3 ∧ w0_0.busUp = true ∧ w0_0.mode ≠ modeSTANDBY ∧ w0_0.aon.target ≠ some modeSTANDBY ∧ w0_0.tileEnabled (0 / 16 : ℕ) = true :=
  by decide +kernel

end Sys2Proof.Tests.Vk2

namespace Sys2Proof.Tests.Vk7

def vst (v c : Nat) (s : State := base) : State := s.setFld (Reg.vltStat v) 29 3 c
def u0 := (vst 17 2).setBit Reg.vltCfg 0 true
def w0_0 : State := u0
def w0_2 : State := vst 17 1 (runAt 1 0)
def w0_3 : State := vst 17 1

theorem wit_VaultUpkeep_1 :
    (w0_0.vltState 17 ≠ 0 ∧ w0_0.vltState 17 ≠ 5)
    ∧ (w0_2.vltState 17 = 1)
    ∧ (w0_3.vltState 17 = 1 ∧ True ∧ (∀ p ∈ (w0_3.getVault 17).mirror, p.1 < 256)) :=
  by and_intros <;> decide +kernel

end Sys2Proof.Tests.Vk7

namespace Sys2Proof.Tests.Vlt2

def vst (v c : Nat) (s : State := base) : State := s.setFld (Reg.vltStat v) 29 3 c
def u0 := (vst 17 2).setBit Reg.vltCfg 0 true
def u1 := u0.modVault 17 (fun x => { x with rowReg := { row := 3, data := List.replicate 2048 7, poisoned := false }, svc := { row := some 5, data := List.replicate 2048 9, dirty := true, poisoned := true, written := List.range 2048 } })
def u2 := u1.modVault 17 (fun x => { x with rowReg := { row := 0x3fffff, data := (List.range 2048).map (fun i => BitVec.ofNat 8 i), poisoned := true }, svc := { row := some 5, data := List.replicate 2048 9, dirty := true, poisoned := true, written := List.range 2047 } })
def u3 := (u2.wr (Reg.vltSrep 17 0) (repEntry true 127 3 4)).wr (Reg.vltSrep 17 5) (repEntry false 127 0x7fff 63)
def u4 := { u3 with dram := (List.range 20).map (fun i => (17 * 2 ^ 36 + 5 * 8192 + i * 4, 1)) }
def mj (c r w : Nat) (s : State := u4) : State := s.modVault 17 (fun x => { x with mnt := some { cmd := BitVec.ofNat 4 c, row := r, word := w } }) |>.wr64 (Reg.vltMntDataLo 17) 0x123456789abcdef0
def w0_3 : State := vst 240 2
def w1_5 : State := mj 1 6 3
def w1_6 : State := mj 2 6 323
def w1_9 : State := mj 3 5 3
def w1_10 : State := mj 4 5 3
def w1_12 : State := mj 5 5 3

theorem wit_RowOperations : (w0_3.rowRefused 240 4194303).any (fun v0 => decide ((v0 ≠ 7 ∨ (3 : BitVec 3) ≠ (4 : BitVec 3)) ∧ srcRank 3 ≤ w0_3.waitRank 240)) = true :=
  by decide +kernel

theorem wit_Maintenance :
    ((w1_5.getVault 17).mnt.any (fun v0 => decide ((w1_5.vltState 17 = 2 ∧ 4 ≤ w1_5.waitRank 17) ∧ v0.cmd = (1 : BitVec 4) ∧ (w1_5.getVault 17).svc.row ≠ some v0.row)) = true)
    ∧ ((w1_6.getVault 17).mnt.any (fun v0 => decide ((w1_6.vltState 17 = 2 ∧ 4 ≤ w1_6.waitRank 17) ∧ v0.cmd = (2 : BitVec 4) ∧ (w1_6.getVault 17).svc.row ≠ some v0.row ∧ ((w1_6.getVault 17).lost = none ∧ (List.map Prod.snd (w1_6.colMap 17 (v0.row % 128))).Nodup) ∧ v0.word < 324)) = true)
    ∧ ((w1_9.getVault 17).mnt.any (fun v0 => (w1_9.freeEntry 17).any (fun _ => (w1_9.freeSpareRow 17 (v0.row % 128)).any (fun _ => decide ((w1_9.vltState 17 = 2 ∧ 4 ≤ w1_9.waitRank 17) ∧ v0.cmd = (3 : BitVec 4) ∧ v0.row < 2 ^ 22)))) = true)
    ∧ ((w1_10.getVault 17).mnt.any (fun v0 => (w1_10.freeEntry 17).any (fun _ => (w1_10.freeSpareCol 17 (v0.row % 128)).any (fun _ => decide ((w1_10.vltState 17 = 2 ∧ 4 ≤ w1_10.waitRank 17) ∧ v0.cmd = (4 : BitVec 4) ∧ v0.word < 256)))) = true)
    ∧ ((w1_12.getVault 17).mnt.any (fun v0 => decide ((w1_12.vltState 17 = 2 ∧ 4 ≤ w1_12.waitRank 17) ∧ v0.cmd = (5 : BitVec 4))) = true) :=
  by and_intros <;> decide +kernel

end Sys2Proof.Tests.Vlt2

namespace Sys2Proof.Tests.Wfe1

def wb (k : Nat) (w : Word) (f : Wfe → Wfe := id) (pc : Nat := 5) : State :=
  let s : State := ((base.setWfeState k 1).setFld (Reg.wfePc k) 0 14 pc).wr (Reg.wfeStrRing k + 0x200) 0x100010
  s.modWfe k (fun x => f { x with p := [(pc, w)] })
def w0_0 : State := (wb 3 68016384 (fun x => { x with ptr := [(0, { p := 8, step := 1, base := 8, len := 0 }), (1, { p := 32767, step := 5, base := 0, len := 0 }), (2, { p := 8, step := 65535, base := 8, len := 0 }), (3, { p := 32752, step := 5, base := 32752, len := 0 }), (4, { p := 3, step := 65535, base := 0, len := 4 }), (5, { p := 3, step := 65535, base := 0, len := 0 }), (6, { p := 0, step := 65535, base := 0, len := 0 }), (7, { p := 0, step := 32768, base := 0, len := 0 })], x := [(8, 2147516416), (32752, 4294967295), (32767, 4294967295)], y := [(0, 2147516416)], d := 148279500978120254961734321166175148259386562487716093418787024404480, a0 := { re := 549755813888, im := 529074572422 }, a1 := { re := 549755813888, im := 0 }, rep := some { first := 4, len := 2, left := 1 } }) 5)
def w0_7 : State := (wb 3 134836480 (fun x => { x with ptr := [(0, { p := 3, step := 32768, base := 32752, len := 0 }), (1, { p := 32767, step := 32768, base := 8, len := 0 }), (2, { p := 23, step := 32768, base := 8, len := 16 }), (3, { p := 3, step := 32768, base := 32752, len := 4 }), (4, { p := 8176, step := 65535, base := 8176, len := 0 }), (5, { p := 0, step := 1, base := 0, len := 16 }), (6, { p := 0, step := 65535, base := 0, len := 0 }), (7, { p := 3, step := 32768, base := 8, len := 0 })], x := [(3, 2147516415), (23, 3821562596), (32767, 2147450879)], y := [(0, 2147516416), (3, 2147516416), (8176, 2147516415)], d := 115792089210356248787805853898261804772135577383231621185151345728465877827583, a0 := { re := 0, im := 549755813888 }, a1 := { re := 0, im := 501110214330 }, rep := some { first := 5, len := 1, left := 2 } }) 5)
def w0_14 : State := (wb 3 201433344 (fun x => { x with ptr := [(0, { p := 3, step := 5, base := 0, len := 4 }), (1, { p := 3, step := 65535, base := 32752, len := 0 }), (2, { p := 32767, step := 65535, base := 8, len := 0 }), (3, { p := 0, step := 32768, base := 0, len := 0 }), (4, { p := 8191, step := 5, base := 0, len := 0 }), (5, { p := 8176, step := 1, base := 8176, len := 16 }), (6, { p := 3, step := 1, base := 0, len := 0 }), (7, { p := 8176, step := 32768, base := 8176, len := 16 })], x := [(0, 2147516416), (3, 2147516415)], y := [(3, 5), (8176, 4294967295), (8191, 5)], d := 57896928015230540268185153044129723941867501439040363042376389632548143593702, a0 := { re := 0, im := 549755813887 }, a1 := { re := 549755813888, im := 209512444213 }, rep := some { first := 3, len := 3, left := 5 } }) 5)
def w0_21 : State := (wb 3 268437504 (fun x => { x with ptr := [(0, { p := 3, step := 65535, base := 0, len := 0 }), (1, { p := 3, step := 65535, base := 32752, len := 0 }), (2, { p := 32767, step := 65535, base := 32752, len := 0 }), (3, { p := 32767, step := 1, base := 32752, len := 0 }), (4, { p := 3, step := 1, base := 0, len := 0 }), (5, { p := 8, step := 32768, base := 8, len := 0 }), (6, { p := 3, step := 5, base := 8176, len := 0 }), (7, { p := 3, step := 65535, base := 0, len := 0 })], x := [(3, 2147516415)], y := [(3, 5), (8, 5)], d := 161759679996626737039922917946808064823767986936762838529360953081855, a0 := { re := 549755813887, im := 549755813888 }, a1 := { re := 0, im := 549755813887 }, rep := some { first := 5, len := 1, left := 2 } }) 5)
def w0_28 : State := (wb 3 336330759 (fun x => { x with ptr := [(0, { p := 23, step := 32768, base := 8, len := 16 }), (1, { p := 23, step := 32768, base := 8, len := 16 }), (2, { p := 32767, step := 1, base := 0, len := 16 }), (3, { p := 32767, step := 32768, base := 0, len := 0 }), (4, { p := 8, step := 32768, base := 8, len := 0 }), (5, { p := 3, step := 32768, base := 8176, len := 0 }), (6, { p := 8191, step := 1, base := 8176, len := 0 }), (7, { p := 8176, step := 1, base := 8176, len := 0 })], x := [(23, 2147516416), (32767, 2147450879)], y := [(3, 2147516415), (8, 2147516416), (8176, 2147516415), (8191, 4294967295)], d := 35535866030409531906837367847545924506721118493879931978276477077329411047424, a0 := { re := 549755813887, im := 549755813888 }, a1 := { re := 91388459737, im := 0 }, rep := some { first := 4, len := 2, left := 1 } }) 5)

theorem wit_WaveformMultiply :
    (w0_0.WfeReady 3 (68016384 : Word) { p := Ecc.single, x := Ecc.double, y := Ecc.double, flipX := (2800454814 : Word), flipY := (3961355680 : Word), stall := 4294967296 } 8)
    ∧ (w0_7.WfeReady 3 (134836480 : Word) { p := Ecc.ok, x := Ecc.ok, y := Ecc.double, flipX := (2110743250 : Word), flipY := (3524433764 : Word), stall := 0 } 16)
    ∧ (w0_14.WfeReady 3 (201433344 : Word) { p := Ecc.ok, x := Ecc.single, y := Ecc.double, flipX := (3092496044 : Word), flipY := (315146110 : Word), stall := 0 } 24)
    ∧ (w0_21.WfeReady 3 (268437504 : Word) { p := Ecc.single, x := Ecc.single, y := Ecc.single, flipX := (2047067293 : Word), flipY := (1241657009 : Word), stall := 4294967296 } 32)
    ∧ (w0_28.WfeReady 3 (336330759 : Word) { p := Ecc.ok, x := Ecc.double, y := Ecc.ok, flipX := (1904416612 : Word), flipY := (2866806761 : Word), stall := 0 } 40) :=
  by and_intros <;> first | decide +kernel | (constructor <;> decide +kernel)

end Sys2Proof.Tests.Wfe1

namespace Sys2Proof.Tests.Wfe2

def wb (k : Nat) (w : Word) (f : Wfe → Wfe := id) (pc : Nat := 5) : State :=
  let s : State := ((base.setWfeState k 1).setFld (Reg.wfePc k) 0 14 pc).wr (Reg.wfeStrRing k + 0x200) 0x100010
  s.modWfe k (fun x => f { x with p := [(pc, w)] })
def w0_0 : State := (wb 3 0 (fun x => { x with ptr := [(0, { p := 15, step := 32768, base := 0, len := 16 }), (1, { p := 32755, step := 5, base := 32752, len := 4 }), (2, { p := 32767, step := 32768, base := 0, len := 0 }), (3, { p := 32767, step := 1, base := 0, len := 16 }), (4, { p := 3, step := 32768, base := 8176, len := 0 }), (5, { p := 3, step := 5, base := 8, len := 0 }), (6, { p := 8176, step := 32768, base := 8176, len := 16 }), (7, { p := 3, step := 32768, base := 0, len := 16 })], x := [(15, 5), (32767, 5)], y := [(3, 2147450879)], d := 148279912359729174140881280258764119351586730923119536696330633117696, a0 := { re := 549755813888, im := 549755813888 }, a1 := { re := 466574916266, im := 430719006569 }, rep := none }) 5)
def w0_2 : State := (wb 3 444858368 (fun x => { x with ptr := [(0, { p := 32752, step := 65535, base := 32752, len := 16 }), (1, { p := 23, step := 1, base := 8, len := 16 }), (2, { p := 23, step := 1, base := 8, len := 16 }), (3, { p := 3, step := 65535, base := 32752, len := 0 }), (4, { p := 3, step := 1, base := 8, len := 4 }), (5, { p := 8191, step := 1, base := 8176, len := 0 }), (6, { p := 0, step := 1, base := 0, len := 0 }), (7, { p := 3, step := 65535, base := 8, len := 4 })], x := [(3, 2147516415), (23, 4294967295), (32752, 5)], y := [(0, 2147516415), (3, 2147450879), (8191, 2147516415)], d := 108888516918133299194747717198676977886039456526010110524107976614673823858687, a0 := { re := 20977061, im := 246448098828 }, a1 := { re := 18630156, im := 904652401292 }, rep := some { first := 5, len := 1, left := 2 } }) 5)
def w0_4 : State := (wb 3 470810624 (fun x => { x with ptr := [(0, { p := 32752, step := 1, base := 32752, len := 0 }), (1, { p := 32767, step := 5, base := 0, len := 0 }), (2, { p := 32767, step := 32768, base := 32752, len := 16 }), (3, { p := 8, step := 32768, base := 8, len := 16 }), (4, { p := 0, step := 5, base := 0, len := 0 }), (5, { p := 8176, step := 65535, base := 8176, len := 4 }), (6, { p := 8176, step := 65535, base := 8176, len := 0 }), (7, { p := 8191, step := 5, base := 0, len := 4 })], x := [(8, 2147516416), (32752, 4294967295), (32767, 2147516415)], y := [(0, 2147450879), (8176, 2147450879), (8191, 1053270819)], d := 57735168739626836441961523951692326929753020764143904400410450876204650070015, a0 := { re := 549755813887, im := 549755813887 }, a1 := { re := 25902124, im := 549755813888 }, rep := none }) 5)
def w0_6 : State := (wb 3 578822144 (fun x => { x with ptr := [(0, { p := 3, step := 1, base := 32752, len := 4 }), (1, { p := 32767, step := 32768, base := 32752, len := 0 }), (2, { p := 32752, step := 1, base := 32752, len := 4 }), (3, { p := 32767, step := 5, base := 32752, len := 0 }), (4, { p := 0, step := 1, base := 0, len := 4 }), (5, { p := 15, step := 65535, base := 0, len := 16 }), (6, { p := 0, step := 1, base := 0, len := 4 }), (7, { p := 8176, step := 32768, base := 8176, len := 0 })], x := [(3, 2147450879), (32767, 1842454146)], y := [(0, 4294967295), (15, 238993950)], d := 137980106055992738307707534181181866406703856813292404193383428358143, a0 := { re := 549755813887, im := 549755813887 }, a1 := { re := 6627752, im := 549755813888 }, rep := some { first := 4, len := 2, left := 1 } }) 5)
def w0_8 : State := (wb 3 616562688 (fun x => { x with ptr := [(0, { p := 32767, step := 65535, base := 32752, len := 4 }), (1, { p := 3, step := 65535, base := 32752, len := 0 }), (2, { p := 3, step := 1, base := 32752, len := 0 }), (3, { p := 32767, step := 32768, base := 32752, len := 16 }), (4, { p := 0, step := 1, base := 0, len := 0 }), (5, { p := 8, step := 5, base := 8, len := 0 }), (6, { p := 8191, step := 65535, base := 0, len := 16 }), (7, { p := 8191, step := 65535, base := 8176, len := 0 })], x := [(3, 5), (32767, 2147516415)], y := [(0, 2147516416), (8, 2147516415), (8191, 4294967295)], d := 57896928055670665925595269199721600665153101021189510734776079043367004012549, a0 := { re := 549755813888, im := 549755813888 }, a1 := { re := 24951612, im := 801395820511 }, rep := some { first := 4, len := 2, left := 1 } }) 5)
def w1_4 : State := (wb 3 746062107 (fun x => { x with ptr := [(0, { p := 0, step := 5, base := 0, len := 0 }), (1, { p := 32767, step := 1, base := 0, len := 0 }), (2, { p := 32767, step := 5, base := 8, len := 16 }), (3, { p := 32752, step := 5, base := 32752, len := 0 }), (4, { p := 8176, step := 65535, base := 8176, len := 0 }), (5, { p := 0, step := 1, base := 0, len := 16 }), (6, { p := 8176, step := 1, base := 8176, len := 0 }), (7, { p := 8, step := 32768, base := 8, len := 0 })], x := [(0, 5), (32752, 3384087337), (32767, 2147516415)], y := [(0, 4294967295), (8, 2861406686), (8176, 2147516415)], d := 57895161181645940877253644866613225438808814271117290767352099925644680331263, a0 := { re := 0, im := 580543889645 }, a1 := { re := 4293651, im := 549755813888 }, rep := some { first := 4, len := 2, left := 1 } }) 5)
def w1_6 : State := (wb 3 2155882861 (fun x => { x with ptr := [(0, { p := 15, step := 32768, base := 0, len := 16 }), (1, { p := 32767, step := 32768, base := 32752, len := 4 }), (2, { p := 8, step := 32768, base := 8, len := 16 }), (3, { p := 32752, step := 65535, base := 32752, len := 0 }), (4, { p := 8191, step := 32768, base := 0, len := 0 }), (5, { p := 8191, step := 32768, base := 8, len := 16 }), (6, { p := 8176, step := 5, base := 8176, len := 16 }), (7, { p := 3, step := 5, base := 8, len := 0 })], x := [(8, 5), (15, 4294967295), (32752, 2147516416), (32767, 4294967295)], y := [(3, 2147450879), (8176, 2147450879), (8191, 2147450879)], d := 57895161181645940878885504853338965462543721672153826194841550882518048178175, a0 := { re := 549755813887, im := 549755813888 }, a1 := { re := 416602468159, im := 0 }, rep := none }) 16383)
def w1_10 : State := (wb 3 2257321984 (fun x => { x with ptr := [(0, { p := 32767, step := 5, base := 32752, len := 16 }), (1, { p := 32767, step := 1, base := 0, len := 16 }), (2, { p := 32752, step := 1, base := 32752, len := 0 }), (3, { p := 8, step := 5, base := 8, len := 4 }), (4, { p := 8191, step := 1, base := 8176, len := 16 }), (5, { p := 8191, step := 1, base := 0, len := 0 }), (6, { p := 8191, step := 32768, base := 8176, len := 4 }), (7, { p := 0, step := 65535, base := 0, len := 0 })], x := [(8, 3382650521), (32752, 2147516416), (32767, 2147450879)], y := [(0, 2147516415), (8191, 2147516416)], d := 134799733338891797732244829845421204869428891938811681806082430238720, a0 := { re := 0, im := 549755813888 }, a1 := { re := 22473827, im := 866575444406 }, rep := none }) 5)
def w1_14 : State := (wb 3 2281716431 (fun x => { x with ptr := [(0, { p := 23, step := 1, base := 8, len := 16 }), (1, { p := 32767, step := 32768, base := 32752, len := 0 }), (2, { p := 3, step := 5, base := 0, len := 16 }), (3, { p := 3, step := 1, base := 8, len := 0 }), (4, { p := 8176, step := 32768, base := 8176, len := 0 }), (5, { p := 8191, step := 1, base := 0, len := 0 }), (6, { p := 0, step := 5, base := 0, len := 0 }), (7, { p := 8191, step := 32768, base := 0, len := 0 })], x := [(3, 2620479223), (32767, 1738332224)], y := [(8176, 2147516415), (8191, 2147450879)], d := 31385508677664143487301660722556178450412951345632500514821, a0 := { re := 26729940, im := 504068131173 }, a1 := { re := 0, im := 549755813888 }, rep := none }) 5)
def w1_18 : State := (wb 3 2399219027 (fun x => { x with ptr := [(0, { p := 32767, step := 65535, base := 8, len := 0 }), (1, { p := 3, step := 1, base := 32752, len := 16 }), (2, { p := 32752, step := 1, base := 32752, len := 0 }), (3, { p := 32752, step := 32768, base := 32752, len := 0 }), (4, { p := 0, step := 5, base := 0, len := 0 }), (5, { p := 3, step := 32768, base := 8, len := 0 }), (6, { p := 8191, step := 65535, base := 8176, len := 0 }), (7, { p := 3, step := 5, base := 8, len := 4 })], x := [(3, 3800540351), (32752, 547609544), (32767, 3712287813)], y := [(0, 2147516415), (3, 5), (8191, 2147516415)], d := 57895161181645529494837212828835615594198881488778062693374147450265594265600, a0 := { re := 10512779, im := 0 }, a1 := { re := 0, im := 0 }, rep := none }) 5)
def w1_22 : State := (wb 3 2455055243 (fun x => { x with ptr := [(0, { p := 32767, step := 5, base := 8, len := 0 }), (1, { p := 8, step := 65535, base := 8, len := 0 }), (2, { p := 32767, step := 5, base := 32752, len := 16 }), (3, { p := 8, step := 1, base := 8, len := 16 }), (4, { p := 3, step := 5, base := 0, len := 0 }), (5, { p := 8191, step := 32768, base := 0, len := 0 }), (6, { p := 3, step := 32768, base := 0, len := 16 }), (7, { p := 8191, step := 65535, base := 8, len := 0 })], x := [(8, 2147450879), (32767, 5)], y := [(3, 2147450879), (8191, 2147450879)], d := 149284774160294441251207068085302463176039685706544538074517281439743, a0 := { re := 20966480, im := 0 }, a1 := { re := 4368077, im := 0 }, rep := none }) 16383)
def w1_26 : State := (wb 3 2526412800 (fun x => { x with ptr := [(0, { p := 32767, step := 32768, base := 0, len := 4 }), (1, { p := 3, step := 65535, base := 8, len := 16 }), (2, { p := 0, step := 1, base := 0, len := 0 }), (3, { p := 3, step := 1, base := 8, len := 0 }), (4, { p := 3, step := 5, base := 8, len := 4 }), (5, { p := 8191, step := 65535, base := 8176, len := 16 }), (6, { p := 3, step := 1, base := 8, len := 16 }), (7, { p := 3, step := 65535, base := 8176, len := 16 })], x := [(0, 2147516415), (3, 2147516415), (32767, 2147516415)], y := [(3, 5), (8191, 2147516416)], d := 115792089237316195420432482030749479861915917678942544445194622409252397907968, a0 := { re := 519842803913, im := 0 }, a1 := { re := 0, im := 549755813887 }, rep := none }) 5)
def w0_3 : State := (wb 3 411959296 (fun x => { x with ptr := [(0, { p := 3, step := 1, base := 0, len := 0 }), (1, { p := 3, step := 32768, base := 32752, len := 4 }), (2, { p := 32767, step := 32768, base := 32752, len := 0 }), (3, { p := 32767, step := 65535, base := 8, len := 4 }), (4, { p := 8, step := 5, base := 8, len := 0 }), (5, { p := 0, step := 32768, base := 0, len := 4 }), (6, { p := 3, step := 32768, base := 0, len := 4 }), (7, { p := 8191, step := 5, base := 0, len := 16 })], x := [(3, 1049221820), (32767, 2147516416)], y := [(0, 2147516415), (8, 2147516416), (8191, 2147516416)], d := 57896928062671817461209764923097008615613522273339716935120516907703769782586, a0 := { re := 549755813887, im := 0 }, a1 := { re := 549755813888, im := 549755813888 }, rep := some { first := 5, len := 1, left := 2 } }) 5)
def w0_22 : State := (wb 3 648021760 (fun x => { x with ptr := [(0, { p := 3, step := 5, base := 32752, len := 4 }), (1, { p := 8, step := 5, base := 8, len := 0 }), (2, { p := 0, step := 5, base := 0, len := 16 }), (3, { p := 8, step := 1, base := 8, len := 0 }), (4, { p := 8191, step := 32768, base := 8176, len := 16 }), (5, { p := 8176, step := 1, base := 8176, len := 16 }), (6, { p := 3, step := 65535, base := 0, len := 0 }), (7, { p := 11, step := 1, base := 8, len := 4 })], x := [(0, 5), (8, 1052757082)], y := [(3, 1888556942), (11, 2147516415), (8176, 2147516415), (8191, 5)], d := 134799733342030300707990994229555609700098650357909564538728266601664, a0 := { re := 513031, im := 0 }, a1 := { re := 28423469, im := 422349265747 }, rep := some { first := 4, len := 2, left := 1 } }) 5)
def w1_9 : State := (wb 3 2172731489 (fun x => { x with ptr := [(0, { p := 32752, step := 1, base := 32752, len := 0 }), (1, { p := 3, step := 1, base := 0, len := 0 }), (2, { p := 32752, step := 32768, base := 32752, len := 0 }), (3, { p := 32767, step := 32768, base := 8, len := 0 }), (4, { p := 3, step := 32768, base := 8176, len := 0 }), (5, { p := 8191, step := 1, base := 0, len := 16 }), (6, { p := 8176, step := 1, base := 8176, len := 0 }), (7, { p := 8, step := 32768, base := 8, len := 16 })], x := [(3, 2147516416), (32767, 2147450879)], y := [(3, 4294967295), (8, 1329991484), (8176, 2147516416), (8191, 5)], d := 57895161176339644209165596610965548899274432323726749833746198129371418460165, a0 := { re := 549755813887, im := 549755813887 }, a1 := { re := 549755813888, im := 549755813887 }, rep := some { first := 5, len := 1, left := 2 } }) 5)

theorem wit_WaveformOther :
    (w0_0.WfeReady 3 (0 : Word) { p := Ecc.ok, x := Ecc.double, y := Ecc.single, flipX := (3350663215 : Word), flipY := (3799463795 : Word), stall := 0 } 0)
    ∧ (w0_2.WfeReady 3 (444858368 : Word) { p := Ecc.ok, x := Ecc.ok, y := Ecc.single, flipX := (4215799479 : Word), flipY := (4023044023 : Word), stall := 0 } 48)
    ∧ (w0_4.WfeReady 3 (470810624 : Word) { p := Ecc.ok, x := Ecc.single, y := Ecc.single, flipX := (349927903 : Word), flipY := (3739430345 : Word), stall := 0 } 56)
    ∧ (w0_6.WfeReady 3 (578822144 : Word) { p := Ecc.ok, x := Ecc.ok, y := Ecc.double, flipX := (1201134075 : Word), flipY := (1179411901 : Word), stall := 4294967296 } 64)
    ∧ (w0_8.WfeReady 3 (616562688 : Word) { p := Ecc.ok, x := Ecc.ok, y := Ecc.double, flipX := (2731518151 : Word), flipY := (3578851094 : Word), stall := 4294967296 } 72)
    ∧ (w1_4.WfeReady 3 (746062107 : Word) { p := Ecc.ok, x := Ecc.ok, y := Ecc.single, flipX := (1036887675 : Word), flipY := (2878199392 : Word), stall := 0 } 88)
    ∧ ((BitVec.getLsbD (746062107 : Word) 8 = true ∧ BitVec.getLsbD ((w1_4.getWfe 3).dreg (wS (746062107 : Word))) 31 = false))
    ∧ (w1_6.WfeReady 3 (2155882861 : Word) { p := Ecc.ok, x := Ecc.ok, y := Ecc.double, flipX := (84430099 : Word), flipY := (2125442865 : Word), stall := 0 } 256)
    ∧ (w1_10.WfeReady 3 (2257321984 : Word) { p := Ecc.ok, x := Ecc.single, y := Ecc.single, flipX := (374482889 : Word), flipY := (238231812 : Word), stall := 3 } 264)
    ∧ (w1_14.WfeReady 3 (2281716431 : Word) { p := Ecc.ok, x := Ecc.single, y := Ecc.ok, flipX := (2458170450 : Word), flipY := (336153587 : Word), stall := 3 } 272)
    ∧ (w1_18.WfeReady 3 (2399219027 : Word) { p := Ecc.ok, x := Ecc.single, y := Ecc.double, flipX := (4120526128 : Word), flipY := (1413604872 : Word), stall := 4294967296 } 280)
    ∧ (w1_22.WfeReady 3 (2455055243 : Word) { p := Ecc.ok, x := Ecc.double, y := Ecc.ok, flipX := (985849958 : Word), flipY := (4141613071 : Word), stall := 3 } 288)
    ∧ (w1_26.WfeReady 3 (2526412800 : Word) { p := Ecc.ok, x := Ecc.single, y := Ecc.double, flipX := (3463982461 : Word), flipY := (3588147634 : Word), stall := 4294967296 } 296)
    ∧ ((w0_3.wclkOn 3 = true ∧ w0_3.wfeState 3 = 1 ∧ (w0_3.wfeFetch 3).1 = (411959296 : Word)) ∧ (Ecc.double = Ecc.double ∧ (w0_3.wfeFetch 3).2 = false))
    ∧ ((w0_0.wclkOn 3 = true ∧ w0_0.wfeState 3 = 1 ∧ (w0_0.wfeFetch 3).1 = (0 : Word)) ∧ (¬(Ecc.ok = Ecc.double ∧ (w0_0.wfeFetch 3).2 = false)) ∧ wRow (0 : Word) ≠ 8)
    ∧ ((w0_22.wclkOn 3 = true ∧ w0_22.wfeState 3 = 1 ∧ (w0_22.wfeFetch 3).1 = (648021760 : Word)) ∧ (¬(Ecc.ok = Ecc.double ∧ (w0_22.wfeFetch 3).2 = false)) ∧ wRow (648021760 : Word) = 0 ∧ w0_22.wfeLegal 3 (648021760 : Word) = false)
    ∧ ((w1_9.wclkOn 3 = true ∧ w1_9.wfeState 3 = 1 ∧ (w1_9.wfeFetch 3).1 = (2172731489 : Word)) ∧ (¬(Ecc.ok = Ecc.double ∧ (w1_9.wfeFetch 3).2 = false)) ∧ wRow (2172731489 : Word) = 256 ∧ w1_9.wfeLegal 3 (2172731489 : Word) = true ∧ (w1_9.getWfe 3).rep ≠ none ∧ 32 ≤ wOp (2172731489 : Word)) :=
  by and_intros <;> first | decide +kernel | (constructor <;> decide +kernel)

end Sys2Proof.Tests.Wfe2

namespace Sys2Proof.Tests.Wfe3

def wb (k : Nat) (w : Word) (f : Wfe → Wfe := id) (pc : Nat := 5) : State :=
  let s : State := ((base.setWfeState k 1).setFld (Reg.wfePc k) 0 14 pc).wr (Reg.wfeStrRing k + 0x200) 0x100010
  s.modWfe k (fun x => f { x with p := [(pc, w)] })
def w0_0 : State := wb 3 738197504 (fun x => { x with ptr := [(0, { p := 0, step := 0, base := 32752, len := 16 })], x := [(32767, 0xffffffff), (32755, 7)], d := 15 }) 5

theorem wit_WaveformOther :
    (w0_0.WfeReady 3 (738197504 : Word) { p := Ecc.ok, x := Ecc.single, y := Ecc.single, flipX := (2224521667 : Word), flipY := (1292799047 : Word), stall := 0 } 88)
    ∧ ((BitVec.getLsbD (738197504 : Word) 8 = false ∨ BitVec.getLsbD ((w0_0.getWfe 3).dreg (wS (738197504 : Word))) 31 = true)) :=
  by and_intros <;> first | decide +kernel | (constructor <;> decide +kernel)

end Sys2Proof.Tests.Wfe3

namespace Sys2Proof.Tests.Wfe4

def wb (k : Nat) (w : Word) (f : Wfe → Wfe := id) (pc : Nat := 5) (s : State := base) : State :=
  let s : State := ((s.setWfeState k 1).setFld (Reg.wfePc k) 0 14 pc).wr (Reg.wfeStrRing k + 0x200) 0x100010
  s.modWfe k (fun x => f { x with p := [(pc, w)] })
def o0 : WfeObs := { p := .ok, x := .single, y := .single, flipX := 3, flipY := 5, stall := 2 }
def W (op imm : Nat) : Word := BitVec.ofNat 32 (op * 2^26 + imm)
def dsc (a out inY n at0 : Nat) : List (Nat × Word) := [(4, BitVec.ofNat 32 a), (5, BitVec.ofNat 32 (a / 2^32 + inY * 2^30 + out * 2^31)), (6, BitVec.ofNat 32 ((n-1) * 2^16 + at0))].filter (fun p => p.2 != 0)
def job (a : Nat) (out inY : Bool) (n at0 : Nat) : WfeXfer := { addr := a, out := out, inY := inY, words := n, at0 := at0 }
def ad : Nat := 3 * 2^37 + 0x1000 + 64
def vb : State := rowOk base ad
def wt (w : WfeWait) (f : Wfe → Wfe := id) (s : State := base) : State := (wb 3 0 (fun x => f { x with wait := w }) 5 s).setWfeState 3 (match w with | .none => 1 | .words _ => 2 | _ => 3)
def mm (sp a inc : Nat) (s : State := base) : State := (s.wr (Reg.wfeMemAddr 3) (BitVec.ofNat 32 (sp * 2^30 + inc * 2^29 + a))).modWfe 3 (fun x => { x with p := [(16383, 4)], x := [(32767, 6)], y := [(8191, 9)] })
def sm (f : Wfe → Wfe) (s : State := base) (mode : Nat := 1) (sel : Nat := 1) : State := (((s.wr (Reg.wfeStrRing 3 + 0x200) 0x100010).wr (Reg.wfeStrCfg 3 + 0x200) (BitVec.ofNat 32 (mode * 2^28 + sel))).setBit (Reg.wfeStatus 3) 4 true).modWfe 3 f
def sd (l f : Nat) : SideFrame := { lane := l, frame := f, bytes := 0x1122334455667788, kind := 1, bad := false, cycle := some 5 }
def w0_0 : State := wb 3 (W 0x26 16)
def w0_1 : State := wb 3 (W 0x26 15) (fun x => { x with wp := 31, ptr := [(3, { p := 16 })] })
def w0_2 : State := wb 3 (W 0x26 15) (fun x => { x with wp := 30, ptr := [(3, { p := 16 })] })
def w0_11 : State := wt (.words 15) (fun x => { x with wp := 31, haltReq := true, ptr := [(3, { p := 16 })] })
def w0_12 : State := wt (.words 15) (fun x => { x with wp := 30, ptr := [(3, { p := 16 })] })
def w0_3 : State := wb 3 (W 0x27 4) (fun x => { x with y := dsc (ad.xor 5) 0 0 4 100 })
def w0_5 : State := wb 3 (W 0x27 4) (fun x => { x with job := some (job ad false false 4 100) }) 5 vb
def w0_6 : State := wb 3 (W 0x28 0) (fun x => { x with job := some (job ad true false 4 100) }) 5 vb
def w0_8 : State := wb 3 (W 0x28 0)
def w0_13 : State := wt .transfer (fun x => { x with rep := some { first := 5, len := 1, left := 2 } })
def w0_9 : State := wb 3 (W 0x29 0x77) id 16383
def w0_10 : State := wb 3 (W 0x2A 0) id 16383
def w1_8 : State := mm 0 3 0 ((wt .none).setWfeState 3 4)
def w1_3 : State := mm 1 32767 1
def w1_4 : State := mm 2 8191 1
def w1_1 : State := mm 0 16383 1
def w1_2 : State := mm 0 16384 1
def w2_0 : State := sm (fun x => { x with sides := [sd 0 7, sd 1 7, sd 2 7], wp := 16, ptr := [(3, { p := 20 })] })

theorem wit_WaveformControl :
    (w0_0.WfeReady 3 (W 38 16) o0 304)
    ∧ (w0_0.fldAct (Reg.wfeStrRing 3) 16 16 < wImm (W 38 16) + 1)
    ∧ (w0_1.WfeReady 3 (W 38 15) o0 304)
    ∧ (wImm (W 38 15) + 1 ≤ w0_1.fldAct (Reg.wfeStrRing 3) 16 16 ∧ wImm (W 38 15) ≤ w0_1.strAvail 3)
    ∧ (w0_2.WfeReady 3 (W 38 15) o0 304)
    ∧ (wImm (W 38 15) + 1 ≤ w0_2.fldAct (Reg.wfeStrRing 3) 16 16 ∧ w0_2.strAvail 3 < wImm (W 38 15))
    ∧ ((w0_11.getWfe 3).wait = WfeWait.words 15 ∧ 15 ≤ w0_11.strAvail 3 ∧ w0_11.wclkOn 3 = true)
    ∧ ((w0_12.getWfe 3).wait = WfeWait.words 15 ∧ (w0_12.strAvail 3 < 15 ∨ w0_12.wclkOn 3 = false))
    ∧ (w0_3.WfeReady 3 (W 39 4) o0 312)
    ∧ ((w0_3.getWfe 3).job = none ∧ w0_3.wfeDescriptor 3 (List.map (fun i => delivered (((o0.y, o0.flipY) :: o0.desc).getD i (Ecc.ok, (0 : Word))).1 (((o0.y, o0.flipY) :: o0.desc).getD i (Ecc.ok, (0 : Word))).2 (wfeGet (w0_3.getWfe 3).y ((fldOf (W 39 4) 0 13 + i) % wfeYSize))) (List.range 4)) = none)
    ∧ (w0_5.WfeReady 3 (W 39 4) o0 312)
    ∧ ((w0_5.getWfe 3).job ≠ none)
    ∧ (w0_6.WfeReady 3 (W 40 0) o0 320)
    ∧ ((w0_6.getWfe 3).job ≠ none)
    ∧ (w0_8.WfeReady 3 (W 40 0) o0 320)
    ∧ ((w0_8.getWfe 3).job = none)
    ∧ ((w0_13.getWfe 3).wait = WfeWait.transfer ∧ (w0_13.getWfe 3).job = none ∧ w0_13.wclkOn 3 = true)
    ∧ (w0_9.WfeReady 3 (W 41 119) o0 328)
    ∧ (w0_10.WfeReady 3 (W 42 0) o0 336)
    ∧ (w1_8.reaches (0 : Requester) = true ∧ w1_8.wfeState 3 = 4)
    ∧ (w1_3.reaches (0 : Requester) = true ∧ w1_3.fld (Reg.wfeMemAddr 3) 30 2 = 1)
    ∧ (w1_4.reaches (0 : Requester) = true ∧ w1_4.fld (Reg.wfeMemAddr 3) 30 2 = 2 ∧ w1_4.fld (Reg.wfeMemAddr 3) 0 15 < wfeYSize)
    ∧ ((w1_1.wfeMemPeek 3).any (fun _ => decide (w1_1.reaches (0 : Requester) = true ∧ Ecc.double = Ecc.double ∧ w1_1.fld (Reg.wfeMemAddr 3) 30 2 = 0)) = true)
    ∧ (w1_2.reaches (0 : Requester) = true ∧ w1_2.wfeMemPeek 3 = none)
    ∧ ((w2_0.strLanes 3).head?.any (fun v0 => (w2_0.strFrame 3).any (fun v1 => (List.find? (fun q => q.lane == v0 && q.frame == v1) (w2_0.getWfe 3).sides).any (fun v2 => decide (w2_0.bit (Reg.wfeStatus 3) 4 = true ∧ w2_0.strLanes 3 = [v0] ∧ w2_0.fldAct (Reg.wfeStrCfg 3) 28 2 = 1 ∧ w2_0.strLast 3 = none ∧ v2.bad = false ∧ v2.kind = (1 : BitVec 2) ∧ w2_0.rd (Reg.wfeStrLen 3) = (0 : Word) ∧ (w2_0.wfePtr 3 3).len ≠ 0 ∧ ({ p := (w2_0.getWfe 3).wp, step := (w2_0.wfePtr 3 3).step, base := (w2_0.wfePtr 3 3).base, len := (w2_0.wfePtr 3 3).len } : Ptr).plus wfeXSize (1 : ℤ) ≠ (w2_0.wfePtr 3 3).p ∧ ({ p := ({ p := (w2_0.getWfe 3).wp, step := (w2_0.wfePtr 3 3).step, base := (w2_0.wfePtr 3 3).base, len := (w2_0.wfePtr 3 3).len } : Ptr).plus wfeXSize (1 : ℤ), step := (w2_0.wfePtr 3 3).step, base := (w2_0.wfePtr 3 3).base, len := (w2_0.wfePtr 3 3).len } : Ptr).plus wfeXSize (1 : ℤ) ≠ (w2_0.wfePtr 3 3).p)))) = true) :=
  by and_intros <;> first | decide +kernel | (constructor <;> decide +kernel)

end Sys2Proof.Tests.Wfe4

namespace Sys2Proof.Tests.Wfe5

def wb (k : Nat) (w : Word) (f : Wfe → Wfe := id) (pc : Nat := 5) (s : State := base) : State :=
  let s : State := ((s.setWfeState k 1).setFld (Reg.wfePc k) 0 14 pc).wr (Reg.wfeStrRing k + 0x200) 0x100010
  s.modWfe k (fun x => f { x with p := [(pc, w)] })
def o0 : WfeObs := { p := .ok, x := .single, y := .single, flipX := 3, flipY := 5, stall := 2 }
def W (op imm : Nat) : Word := BitVec.ofNat 32 (op * 2^26 + imm)
def dsc (a out inY n at0 : Nat) : List (Nat × Word) := [(4, BitVec.ofNat 32 a), (5, BitVec.ofNat 32 (a / 2^32 + inY * 2^30 + out * 2^31)), (6, BitVec.ofNat 32 ((n-1) * 2^16 + at0))].filter (fun p => p.2 != 0)
def ad : Nat := 3 * 2^37 + 0x1000 + 64
def w1_0 : State := base
def w0_0 : State := wb 3 (W 0x27 4) (fun x => { x with y := dsc ad 0 0 4 100 })

theorem wit_WaveformOther : (¬(w1_0.wclkOn 0 = true ∧ w1_0.wfeState 0 = 1 ∧ (w1_0.wfeFetch 0).1 = W 0 0)) :=
  by decide +kernel

theorem wit_WaveformControl :
    (w0_0.WfeReady 3 (W 39 4) o0 312)
    ∧ ((w0_0.wfeDescriptor 3 (List.map (fun i => delivered (((o0.y, o0.flipY) :: o0.desc).getD i (Ecc.ok, (0 : Word))).1 (((o0.y, o0.flipY) :: o0.desc).getD i (Ecc.ok, (0 : Word))).2 (wfeGet (w0_0.getWfe 3).y ((fldOf (W 39 4) 0 13 + i) % wfeYSize))) (List.range 4))).any (fun _ => decide ((w0_0.getWfe 3).job = none)) = true) :=
  by and_intros <;> first | decide +kernel | (constructor <;> decide +kernel)

end Sys2Proof.Tests.Wfe5

namespace Sys2Proof.Tests.Wfe6

def sm (f : Wfe → Wfe) (s : State := base) (mode : Nat := 1) (sel : Nat := 1) : State := (((s.wr (Reg.wfeStrRing 3 + 0x200) 0x100010).wr (Reg.wfeStrCfg 3 + 0x200) (BitVec.ofNat 32 (mode * 2^28 + sel))).setBit (Reg.wfeStatus 3) 4 true).modWfe 3 f
def sd (l f : Nat) : SideFrame := { lane := l, frame := f, bytes := 0x1122334455667788, kind := 1, bad := false, cycle := some 5 }
def se : State := (sm (fun x => { x with sides := [sd 1 9], wp := 31, ptr := [(3, { p := 20 })] })).modSite 3 (fun x => { x with fc0 := 50, cycle := 10 })
def se3 : State := se.wr (Reg.wfeStrCfg 3 + 0x200) 0x10010001
def w0_0 : State := se3

theorem wit_WaveformControl : (w0_0.strFrame 3).any (fun v0 => (w0_0.strLast 3).any (fun v1 => decide (w0_0.bit (Reg.wfeStatus 3) 4 = true ∧ v1 < v0))) = true :=
  by decide +kernel

end Sys2Proof.Tests.Wfe6

namespace Sys2Proof.Tests.X3

def wd0 := seqW 0 0 2
def e0 := runAt 3 wd0
def e1 := runAt 3 wd0 5 (fun x => { x with ovl := some (false, 3, 1) })
def wi := seqW 0 1 2
def e3 := runAt 3 wi
def e4 := runAt 3 wd0 5 (fun x => { x with stopAt := some (10, 2) })
def wh := seqW 9 0 0xf3
def w1_0 : State := runAt 3 wh
def w1_2 : State := runAt 3 (seqW 10 0 0xf3)
def w1_6 : State := e4
def w2_0 : State := base
def w3_0 : State := base

theorem wit_SeqEnds_0 :
    (e0.seqReady 3 = true ∧ (e0.getSite 3).after = After.go ∧ e0.imemWord 3 = wd0 ∧ seqOp wd0 = 0 ∧ Ecc.double = Ecc.double)
    ∧ (e1.seqReady 3 = true ∧ (e1.getSite 3).after = After.go ∧ e1.imemWord 3 = wd0 ∧ seqOp wd0 = 0 ∧ Ecc.ok ≠ Ecc.double ∧ ((e1.getSite 3).ovl.any fun q => (if q.1 then 1 else 0) == e1.seqPc 3 / 16384) = true)
    ∧ (e3.seqReady 3 = true ∧ (e3.getSite 3).after = After.go ∧ e3.imemWord 3 = wi ∧ seqOp wi = 0 ∧ Ecc.ok ≠ Ecc.double ∧ (e3.getSite 3).ovl = none ∧ seqLegal 3 wi = false)
    ∧ (e0.seqRuns 3 = true ∧ (e0.getSite 3).stopAt = none ∧ (e0.getSite 3).after ≠ After.past) :=
  by and_intros <;> decide +kernel

theorem wit_SeqEnds_1 :
    (w1_0.CanIssue 3 wh Ecc.ok 9 1)
    ∧ ((w1_0.seqCond 3 wh (w1_0.getSite 3).cycle = true ∨ w1_0.seqPc 3 + 1 < 32768))
    ∧ (w1_2.CanIssue 3 (seqW 10 0 243) Ecc.ok 10 1)
    ∧ ((w1_2.seqCond 3 (seqW 10 0 243) (w1_2.getSite 3).cycle = true ∨ w1_2.seqPc 3 + 1 < 32768))
    ∧ (w1_0.reaches (0 : Requester) = true ∧ (w1_0.getSite 3).after ≠ After.past ∧ (∀ (p : ℕ × ℕ), (w1_0.getSite 3).stopAt = some p → w1_0.inWait 3 = false ∧ w1_0.nowCyc 3 < (w1_0.getSite 3).cycle))
    ∧ (w1_0.reaches (0 : Requester) = true ∧ (∀ j ∈ members (BitVec.ofNat 16 0), (w1_0.getSite j).stopAt = none ∧ (w1_0.getSite j).after ≠ After.past))
    ∧ ((w1_6.getSite 3).stopAt.any (fun v0 => decide (w1_6.seqReady 3 = true ∧ w1_6.imemWord 3 = wd0 ∧ (w1_6.getSite 3).stopAt = some (v0.1, v0.2) ∧ v0.1 ≤ (w1_6.getSite 3).cycle ∧ ((w1_6.getSite 3).after = After.cut ∨ (w1_6.getSite 3).after = After.go ∧ w1_6.fetchFault 3 wd0 Ecc.ok = none ∧ (seqOp wd0 = 6 → w1_6.seqCond 3 wd0 (w1_6.getSite 3).cycle = true → w1_6.fld (Reg.seqSp 3) 0 5 < 16) ∧ (seqOp wd0 = 7 → w1_6.seqCond 3 wd0 (w1_6.getSite 3).cycle = true → 0 < w1_6.fld (Reg.seqSp 3) 0 5) ∧ (seqOp wd0 = 24 → w1_6.ovlFault 3 wd0 = none)))) = true) :=
  by and_intros <;> first | decide +kernel | exact canIssue_of (by decide +kernel)

theorem wit_SeqControl_0 :
    (w2_0.reaches (0 : Requester) = true)
    ∧ (¬w2_0.CanStart 1 ∨ w2_0.admits [1] = false)
    ∧ ((∃ j ∈ members (BitVec.ofNat 16 1), ¬w2_0.CanStart j) ∨ w2_0.admits (members (BitVec.ofNat 16 1)) = false)
    ∧ (w2_0.reaches (0 : Requester) = true ∧ members (BitVec.ofNat 16 1) ≠ []) :=
  by and_intros <;> first | decide +kernel | (simp only [State.CanStart]; decide +kernel)

theorem wit_SeqControl_1 : w3_0.reaches (0 : Requester) = true :=
  by decide +kernel

end Sys2Proof.Tests.X3

namespace Sys2Proof.Tests.X4

def wo := seqW 24 (2^27+7) 0x82
def r2 := rowOk (rowOk (runAt 2 wo) ((2^27+7)*2048)) ((2^27+8)*2048)
def w0_0 : State := r2

theorem wit_SeqRows :
    (w0_0.CanIssue 2 wo Ecc.ok 24 1)
    ∧ (w0_0.seqPc 2 + 1 < 32768 ∧ (w0_0.getSite 2).ovl = none ∧ (if (seqAux wo).testBit 7 = true then 1 else 0) ≠ w0_0.seqPc 2 / 16384 ∧ w0_0.ovlRowsOk 2 (seqImm wo) (seqAux wo % 128) = true)
    ∧ (w0_0.seqState 2 ≠ 0 ∧ w0_0.seqState 2 ≠ 5 ∧ w0_0.waitRank (w0_0.svVault 2 0) ≠ 0) :=
  by and_intros <;> first | decide +kernel | exact canIssue_of (by decide +kernel)

end Sys2Proof.Tests.X4

namespace Sys2Proof.Tests.X5

def cp (i : Nat) (f : Nat) (s : State := base) : State := s.setBit (Reg.safCalStat i) f true
def flr (m n : Nat) (s : State := base) : State := { s with aon := { s.aon with floors := (List.range 3).map (fun i => (3 * m + i, n)) } }
def st1 : State := bud ((base.setBit Reg.glbMode 5 true).setBit (Reg.seqHorizon 1) 31 true |>.setSeqState 1 2)
def st2 : State := (st1.setBit (Reg.seqHorizon 0) 31 true).setSeqState 0 2
def lpp (s : State) : State := ((s.setSeqState 2 1).setFld (Reg.seqProgRow 2) 0 30 (2^27+7)).setFld (Reg.seqProgLen 2) 0 8 1
def r1 : State := rowOk base ((2^27+7)*2048)
def w2_0 : State := st1
def w2_2 : State := st2
def w3_0 : State := lpp r1
def w3_2 : State := r1.modSite 2 (fun x => { x with ovl := some (true, 2^27+7, 1)})
def w3_3 : State := r1.setSeqState 2 2
def w0_0 : State := cp 5 30
def w0_1 : State := cp 5 31
def w0_2 : State := flr 3 30 ((cp 5 31).setFld (Reg.safCalStat 5) 12 4 2)

theorem wit_SeqControl_0 :
    (w2_0.CanStart 1)
    ∧ (w2_0.reaches (0 : Requester) = true ∧ w2_0.admits [1] = true)
    ∧ (∀ j ∈ members (BitVec.ofNat 16 1), w2_2.CanStart j)
    ∧ (w2_2.reaches (0 : Requester) = true ∧ members (BitVec.ofNat 16 1) ≠ [] ∧ w2_2.admits (members (BitVec.ofNat 16 1)) = true) :=
  by and_intros <;> first | decide +kernel | (simp only [State.CanStart]; decide +kernel)

theorem wit_SeqRows :
    (w3_0.seqState 2 = 1)
    ∧ ((w3_2.getSite 2).ovl.any (fun v0 => decide ((w3_2.getSite 2).ovl = some (v0.1, v0.2.1, v0.2.2))) = true)
    ∧ (w3_3.reaches (0 : Requester) = true ∧ w3_3.seqState 2 = 2) :=
  by and_intros <;> decide +kernel

theorem wit_CalibrationAndAgeing :
    (w0_0.calFlag 5 calPending = true ∧ w0_0.calFlag 5 calRunning = false ∧ w0_0.calMayRun 5 0 = true ∧ w0_0.calFirst 5 0 = true)
    ∧ (w0_1.calFlag 5 calRunning = true ∧ ((BitVec.toInt (244 : BitVec 8) - BitVec.toInt (245 : BitVec 8)).natAbs ≤ 1 ∧ (BitVec.toInt (244 : BitVec 8)).natAbs ≤ 12 ∧ (BitVec.toInt (245 : BitVec 8)).natAbs ≤ 12))
    ∧ (w0_2.calFlag 5 calRunning = true ∧ (¬((BitVec.toInt (3 : BitVec 8) - BitVec.toInt (5 : BitVec 8)).natAbs ≤ 1 ∧ (BitVec.toInt (3 : BitVec 8)).natAbs ≤ 12 ∧ (BitVec.toInt (5 : BitVec 8)).natAbs ≤ 12))) :=
  by and_intros <;> decide +kernel

end Sys2Proof.Tests.X5

namespace Sys2Proof.Tests.X6

def pc (c : CommitReg) (g : BitVec 8) (snap : List (Nat × Word)) (s : State := base) : State := (s.setCommit (commitAddr c) (some { groups := g, snap := snap })).setBit (commitAddr c) 31 true
def w0_0 : State := ((pc (.cap 3) 1 [(Reg.capGeom 3, 5)]).setSeqState 3 3).setBit (Reg.seqStatus 3) 3 false

theorem wit_Commits : (w0_0.getCommit (commitAddr (CommitReg.cap (3 : Fin 16)))).any (fun v0 => decide (w0_0.reaches (0 : Requester) = true ∧ w0_0.commitReady (CommitReg.cap (3 : Fin 16)) v0.groups.toNat = false)) = true :=
  by decide +kernel

end Sys2Proof.Tests.X6

end
end

section
/-! The refutation of "every step keeps the shape": the frames of a disabled Z-bus have no bound in State.Shape, and a reload of one that finds its golden
row beyond repair activates that row for a soft repair. -/

namespace Sys2Proof.Machine

/-- Z-bus 0 of region 0 is disabled, and waits for a frame with the number 2^20, whose golden row would be row 2^22 of vault 240; that vault
is ready, and the bit that stands for the golden copy of the frame's region is set. -/
def strayReload : State :=
  { pending := [.zbusReloadDone 0 0 0 true]
    regs := [(Reg.cfgRegion 32, 0x08000000#32), (Reg.vltStat 240, 0x40000000#32)]
    fab := [(0, { busOff := [{ bus := 0, ctx := 0, permanent := false, frames := [2 ^ 20] }] })] }

theorem strayReload_next (k : Nat) : (strayReload.getFab k).next = [] := by
  unfold State.getFab strayReload
  simp only [Sparse.get]
  split <;> rfl

theorem strayReload_shape : strayReload.Shape where
  regs := by decide +kernel
  vault := List.Pairwise.nil
  locks := List.Pairwise.nil
  golden := List.Pairwise.nil
  next k := by rw [strayReload_next]; exact List.nodup_nil
  svc _ _ h := nomatch h
  rowReg _ := Nat.zero_lt_succ _
  mnt _ _ h := nomatch h
  commits _ _ h := nomatch h

/-- The soft repair of the golden row leaves a row number of 23 bits in the row register. -/
theorem strayReload_step : ∃ t, step strayReload = .next t ∧ (t.getVault 240).rowReg.row = 2 ^ 22 := ⟨_, rfl, by decide +kernel⟩

/-- Refutes O59: ZBUS_RELOAD_DONE in `strayReload` puts row 2^22 into the row register of vault 240. -/
theorem not_shapeKept : ¬ Obligations.ShapeKept := by
  unfold Obligations.ShapeKept
  intro h
  obtain ⟨t, ht, hrow⟩ := strayReload_step
  have hlt := (h strayReload t strayReload_shape ht).rowReg 240
  omega

end Sys2Proof.Machine
end

section
/-! The refutation of the commits' frame: a commit of a sequencer that waits lets it issue the cycles that have passed first (R110), a stop planned
among them stops it, and the stop aborts the self-test slice of its region (R89), which the frame of a commit that acts at once leaves out. -/

namespace Sys2Proof.Machine

/-- Sequencer 0 waits in a WAITF with five cycles due and a stop planned before cycle 2; a self-test slice runs in its region. -/
def waitingWithSlice : State :=
  { regs := [(Reg.glbMode, 4), (Reg.clkStat, 0), (Reg.seqStatus 0, 4)], fc := 5
    site := [(0, { wait := .waitf 0 true 0, stopAt := some (2, 1) })]
    bist := [(0, { run := some { col := 0, lap := true } })] }

/-- The go write of group 0 finds a ready safe point, so it acts at once. -/
theorem waitingWithSlice_ready : waitingWithSlice.reaches 0 = true ∧ waitingWithSlice.upFor 0 (commitAddr (.seq 0)) = true
    ∧ waitingWithSlice.bit (commitAddr (.seq 0)) 31 = false ∧ waitingWithSlice.badField (.seq 0) 1 = none
    ∧ waitingWithSlice.commitReady (.seq 0) 1 = true ∧ (∀ p, (waitingWithSlice.getIcp p).jobs = []) := by
  refine ⟨?_, ?_, ?_, ?_, ?_, fun _ => rfl⟩ <;> decide +kernel

/-- It ends the slice. -/
theorem waitingWithSlice_commit : ∃ t, exec (.commitGo 0 (.seq 0) 1) waitingWithSlice = .next t
    ∧ (waitingWithSlice.getBist 0).run.isSome = true ∧ (t.getBist 0).run = none := ⟨_, rfl, by decide +kernel, by decide +kernel⟩

/-- Refutes O44: the go write of SEQ_COMMIT in `waitingWithSlice` changes the self-test of region 0. -/
theorem not_commits : ¬ Obligations.Commits := by
  unfold Obligations.Commits
  intro h
  obtain ⟨hreach, hup, hbit, hbad, hready, hjobs⟩ := waitingWithSlice_ready
  have hbusy : ¬ ∃ k : SiteIx, CommitReg.seq 0 = .cap k ∧ waitingWithSlice.bit (Reg.capStatus k) 17 = true := nofun
  obtain ⟨-, -, -, -, -, -, -, acts, -⟩ := h 0 (.seq 0) 1 waitingWithSlice hreach (by decide)
  obtain ⟨t, ht, -, -, -, -, -, only⟩ := acts hup ⟨.inl rfl, hbit, by decide, hbusy, hbad⟩ rfl hready (fun p _ => hjobs p)
  obtain ⟨u, hu, hrun, hnone⟩ := waitingWithSlice_commit
  obtain rfl : t = u := Host.Outcome.next.inj (ht.symm.trans hu)
  have hsame := only.bist 0 id
  rw [hsame] at hnone
  simp [hnone] at hrun

end Sys2Proof.Machine
end

section
/-! What the end of a command leaves as the command made it, and one lemma for every statement of the form "the command answers". -/

namespace Sys2Proof.Machine

variable {m : May} {s t u : State}

/-- A command whose meaning is `fin s u` answers the settled `u`. -/
theorem Answers.of_fin {c : Instr} {P : State → Prop} (h : exec c s = fin s u) (hp : P (State.settle s u)) : Answers c s P := ⟨_, h, hp⟩

theorem State.settle_quiet (s u : State) : (State.settle s u).host.quiet = u.host.quiet := (State.messages_frame s u).1

@[simp] theorem State.settle_fld (s u : State) (a lo len : Nat) : (State.settle s u).fld a lo len = u.fld a lo len := rfl
@[simp] theorem State.settle_bit (s u : State) (a i : Nat) : (State.settle s u).bit a i = u.bit a i := rfl
@[simp] theorem State.settle_rd64 (s u : State) (a : Nat) : (State.settle s u).rd64 a = u.rd64 a := rfl
@[simp] theorem State.settle_keyLeft (s u : State) (r : Nat) : (State.settle s u).keyLeft r = u.keyLeft r :=
  congrArg (Sparse.get _ · r) (State.messages_frame s u).2.2
@[simp] theorem State.settle_staging (s u : State) : (State.settle s u).host.staging = u.host.staging :=
  (congrArg HostIf.staging (State.settle_quiet s u) :)
@[simp] theorem State.settle_locks (s u : State) : (State.settle s u).host.locks = u.host.locks :=
  (congrArg HostIf.locks (State.settle_quiet s u) :)
@[simp] theorem State.settle_lockHolder (s u : State) (l : Nat) : (State.settle s u).lockHolder l = u.lockHolder l :=
  congrArg (Sparse.get _ · l) (State.settle_locks s u)
@[simp] theorem State.settle_getLive (s u : State) (j : Nat) : (State.settle s u).getLive j = u.getLive j :=
  (congrArg (fun h => Sparse.get _ (HostIf.live h) j) (State.settle_quiet s u) :)
@[simp] theorem State.settle_latched (s u : State) (req : Requester) (a : Nat) : (State.settle s u).latched req a = u.latched req a :=
  (congrArg (fun h => Sparse.get _ (HostIf.latch h) _) (State.settle_quiet s u) :)
@[simp] theorem State.settle_held (s u : State) (req : Requester) (a : Nat) : (State.settle s u).held req a = u.held req a :=
  (congrArg (fun h => Sparse.get _ (HostIf.hold h) _) (State.settle_quiet s u) :)

/-! ### Registers of the host's and of other requesters' writes -/

@[simp] theorem State.txn_rd (r a : Nat) : (s.txn r).rd a = s.rd a := rfl

@[simp] theorem State.setKey_keyLeft (r n j : Nat) : (s.setKey r n).keyLeft j = if j = r then n else s.keyLeft j := Sparse.get_set _ _ _ _ _

@[simp] theorem State.txn_keyLeft (r j : Nat) : (s.txn r).keyLeft j = if j = r then s.keyLeft r - 1 else s.keyLeft j :=
  s.setKey_keyLeft r _ j

theorem State.onWrite_of_reaches {req : Requester} (f : State → State) (h : s.reaches req = true) : s.onWrite req f = f (s.txn req.toNat) := by
  rw [State.onWrite, if_pos h]

theorem State.onKeyed_of_reaches {req : Requester} (f : Bool → State → State) (h : s.reaches req = true) :
    s.onKeyed req f = f (decide (0 < s.keyLeft req.toNat)) (s.txn req.toNat) := by
  rw [State.onKeyed, if_pos h]

/-- What replaces the host interface: what the frame names beside the scratchpad and the key windows stays, or may change. -/
theorem Only.setHost {x : HostIf} (h : Only m s t) (hq : ¬ m.host → x.quiet = t.host.quiet) (hspd : x.spd = t.host.spd)
    (hkey : x.keyWin = t.host.keyWin) : Only m s { t with host := x } := by
  refine h.trans ?_
  constructor <;> intros <;> first | rfl | exact ⟨rfl, rfl, rfl⟩ | (apply hq; assumption) | exact congrArg (Sparse.get _ · _) hspd | exact congrArg (Sparse.get _ · _) hkey

theorem Only.setCtl {x : CtxLayer} (h : Only m s t) (hc : m.ctl) : Only m s { t with ctl := x } := by
  refine h.trans ?_
  constructor <;> intros <;> first | rfl | exact ⟨rfl, rfl, rfl⟩ | contradiction

theorem Only.setCpl {x : Completion} (h : Only m s t) (hc : m.cpl) : Only m s { t with cpl := x } := by
  refine h.trans ?_
  constructor <;> intros <;> first | rfl | exact ⟨rfl, rfl, rfl⟩ | contradiction


/-- A protected write outside a key window is recorded. -/
theorem Only.keyRefused {req a : Nat} (h : Only m s t) (h1 : m.reg Reg.glbKeyErr) (h2 : m.reg Reg.glbKeyCnt) :
    Only m s (t.keyRefused req a) := by
  have hc := h.satAdd 0 16 1 h2
  unfold State.keyRefused
  extract_lets u
  split
  · exact hc
  · exact hc.wr _ h1

theorem State.keyRefused_bit (req a : Nat) : (s.keyRefused req a).bit Reg.glbKeyErr 31 = true := by
  unfold State.keyRefused
  extract_lets u cause
  split
  · assumption
  · have hc : cause ≤ 2 := by simp only [cause]; split <;> omega
    have hn : 2 ^ 31 ≤ 2 ^ 31 + cause * 2 ^ 29 + req % 32 * 2 ^ 24 + a / 4 % 2 ^ 24
        ∧ 2 ^ 31 + cause * 2 ^ 29 + req % 32 * 2 ^ 24 + a / 4 % 2 ^ 24 < 2 ^ 32 := by omega
    simp only [State.bit, State.wr_rd, if_true, BitVec.getLsbD_ofNat, Nat.testBit_eq_decide_div_mod_eq]
    simp; omega

/-- Do one thing for each of a list: what holds before and is kept by each holds after. -/
theorem State.forAll_keeps {P : State → Prop} {f : State → Nat → State} {l : List Nat} (h : P s) (hf : ∀ u k, k ∈ l → P u → P (f u k)) :
    P (s.forAll l f) := by
  unfold State.forAll
  induction l generalizing s with
  | nil => exact h
  | cons k l ih => exact ih (hf s k List.mem_cons_self h) fun u j hj hu => hf u j (List.mem_cons_of_mem _ hj) hu

/-- What a step for `k` brings about, and steps for others keep, holds of every member of the list in the end. -/
theorem State.forAll_each {P : Nat → State → Prop} {f : State → Nat → State} {l : List Nat} (hset : ∀ u k, k ∈ l → P k (f u k))
    (hkeep : ∀ u j k, j ∈ l → k ∈ l → j ≠ k → P k u → P k (f u j)) : ∀ k ∈ l, P k (s.forAll l f) := by
  intro k hk
  obtain ⟨front, back, rfl⟩ := List.append_of_mem hk
  unfold State.forAll
  rw [List.foldl_append, List.foldl_cons]
  refine State.forAll_keeps (l := back) (P := P k) (hset _ k hk) fun u j hj hu => ?_
  by_cases hjk : j = k
  · exact hjk ▸ hset u j (by simp [hj])
  · exact hkeep u j k (by simp [hj]) hk hjk hu

end Sys2Proof.Machine
end

section
/-! The end of a load by refusal or abort (R307, R323, R325), and the image sink (R306): what each changes, and what it leaves. -/

namespace Sys2Proof.Machine

variable {m : May} {s t u : State}

theorem ImgHdr.lt_of_mem_regionList {h : ImgHdr} {k : Nat} (hk : k ∈ h.regionList) : k < 16 :=
  List.mem_range.mp (List.mem_filter.mp hk).1

theorem State.lt_of_mem_loadRegions {k : Nat} (hk : k ∈ s.loadRegions) : k < 16 := by
  unfold State.loadRegions at hk
  cases hh : s.ctl.load.hdr with
  | none => simp [hh] at hk
  | some g => exact ImgHdr.lt_of_mem_regionList (h := g) (by simpa [hh] using hk)

/-! ### The state of one site -/

theorem Only.leaveIncomplete {k : Nat} (h : Only m s t) (hr : ∀ a, regionRegs k a → m.reg a) (hs : m.site k) :
    Only m s (t.leaveIncomplete k) := by
  have h1 : m.reg (Reg.cfgRegion k) := hr _ (.inl rfl)
  unfold State.leaveIncomplete
  exact (((h.setBit 27 false h1).modSite _ hs).setFld 29 3 _ h1).followSite k (hr _ (by simp [regionRegs])) (hr _ (by simp [regionRegs]))
    (hr _ (by simp [regionRegs]))

/-- The mode follows a site without a change of GLB_SITE_STATE. -/
theorem State.followSite_siteState {k j : Nat} (hk : k < 16) (hj : j < 16) :
    (s.followSite k).siteState j = if j = k then s.siteStateNow k % 4 else s.siteState j := by
  have hset : (s.setFld Reg.glbSiteState (2 * k) 2 (s.siteStateNow k)).siteState j = if j = k then s.siteStateNow k % 4 else s.siteState j := by
    split
    case isTrue h => subst h; exact s.setFld_fld _ _ _ _ (by omega)
    case isFalse h => exact s.setFld_fld_other _ _ _ _ _ _ _ (by omega) (by omega)
  have hpen (v : State) (b : Bool) : (v.setBit Reg.fabPenStat k b).siteState j = v.siteState j :=
    v.setFld_fld_other _ _ _ _ _ _ _ (by omega) (.inl (by decide))
  have hmode (v : State) (n : Nat) : (v.setMode n).siteState j = v.siteState j := v.setFld_fld_other _ _ _ _ _ _ _ (by omega) (.inl (by decide))
  unfold State.followSite
  extract_lets s1 s2
  have h2 : s2.siteState j = if j = k then s.siteStateNow k % 4 else s.siteState j := (hpen _ _).trans hset
  split
  · exact (hmode _ _).trans h2
  · split
    · exact (hmode _ _).trans h2
    · exact h2

/-- What a load that stopped in its write phase leaves of region `k` (R313). -/
structure Incomplete (s : State) (k : Nat) : Prop where
  golden : s.goldenValid k = false
  state : s.regState k = regIncomplete
  iso : (s.getSite k).isoIncomplete = true
  site : s.seqRuns k = false → s.siteState k = 3

/-- A site whose load stopped in its write phase. -/
def Site.incomplete (x : Site) : Site := { x with reconf := false, isoIncomplete := true }

/-- The registers that follow a site's state are none of a region's or a sequencer's. -/
theorem followSite_rd {k a : Nat} (h : a ≠ Reg.glbSiteState) (h' : a ≠ Reg.fabPenStat) (h'' : a ≠ Reg.glbMode) : (s.followSite k).rd a = s.rd a :=
  ((Only.refl { reg := fun a => a = Reg.glbSiteState ∨ a = Reg.fabPenStat ∨ a = Reg.glbMode } s).followSite k (.inl rfl) (.inr (.inl rfl))
    (.inr (.inr rfl))).reg a (by simp [h, h', h''])

theorem followSite_getSite (k j : Nat) : (s.followSite k).getSite j = s.getSite j :=
  ((Only.refl { reg := fun a => a = Reg.glbSiteState ∨ a = Reg.fabPenStat ∨ a = Reg.glbMode } s).followSite k (.inl rfl) (.inr (.inl rfl))
    (.inr (.inr rfl))).site j id

theorem followSite_cfgRegion {k j : Nat} (hj : j < 16) : (s.followSite k).rd (Reg.cfgRegion j) = s.rd (Reg.cfgRegion j) := by
  refine followSite_rd ?_ ?_ ?_ <;> simp only [Reg.cfgRegion, Reg.glbSiteState, Reg.fabPenStat, Reg.glbMode] <;> omega

theorem followSite_seqRuns (k j : Nat) : (s.followSite k).seqRuns j = s.seqRuns j := by
  have : (s.followSite k).rd (Reg.seqStatus j) = s.rd (Reg.seqStatus j) := by
    refine followSite_rd ?_ ?_ ?_ <;> simp only [Reg.seqStatus, Reg.glbSiteState, Reg.fabPenStat, Reg.glbMode] <;> omega
  simp only [State.seqRuns, State.seqState, State.fld, this]

theorem showRegion_rd_of_ne {k a : Nat} (h : a ≠ Reg.cfgRegion k) : (s.showRegion k).rd a = s.rd a := by
  simp [State.showRegion, State.setRegState, h]

theorem State.setFld_getSite (a lo len v j : Nat) : (s.setFld a lo len v).getSite j = s.getSite j := s.wr_getSite a _ j

theorem State.setBit_getSite (a i : Nat) (b : Bool) (j : Nat) : (s.setBit a i b).getSite j = s.getSite j := s.wr_getSite a _ j

theorem showRegion_getSite (k j : Nat) : (s.showRegion k).getSite j = s.getSite j := by
  rw [State.showRegion, State.setRegState, State.setFld_getSite]

/-- The state shown of a region leaves GOLDEN_VALID beside it. -/
theorem setRegState_goldenValid (k j c : Nat) : (s.setRegState k c).goldenValid j = s.goldenValid j := by
  unfold State.goldenValid State.setRegState
  by_cases h : Reg.cfgRegion j = Reg.cfgRegion k
  · rw [State.bit, State.setFld_rd, if_pos h, setFldOf_getLsbD _ _ _ _ _ (by decide), if_neg (by decide), ← h, State.bit]
  · rw [State.bit, State.setFld_rd, if_neg h, State.bit]

theorem setRegState_regState (k c : Nat) : (s.setRegState k c).regState k = c % 8 := State.setFld_fld _ _ _ _ _ (by decide)

/-- A load stopped in its write phase, before the mode follows the site. -/
def State.stopWrite (s : State) (k : Nat) : State := ((s.setBit (Reg.cfgRegion k) 27 false).modSite k Site.incomplete).showRegion k

theorem leaveIncomplete_eq (k : Nat) : s.leaveIncomplete k = (s.stopWrite k).followSite k := rfl

theorem stopWrite_rd_of_ne {k a : Nat} (h : a ≠ Reg.cfgRegion k) : (s.stopWrite k).rd a = s.rd a := by
  rw [State.stopWrite, showRegion_rd_of_ne h, State.modSite_rd, State.setBit_rd, if_neg h]

theorem stopWrite_getSite (k j : Nat) : (s.stopWrite k).getSite j = if j = k then (s.getSite k).incomplete else s.getSite j := by
  rw [State.stopWrite, showRegion_getSite, State.modSite_getSite, State.setBit_getSite, State.setBit_getSite]

theorem stopWrite_goldenValid (k : Nat) : (s.stopWrite k).goldenValid k = false := by
  rw [State.stopWrite, State.showRegion, setRegState_goldenValid, State.goldenValid, State.bit, State.modSite_rd]
  exact State.setBit_bit s _ 27 false (by decide)

theorem stopWrite_regState (k : Nat) : (s.stopWrite k).regState k = regIncomplete := by
  have hsite : (s.stopWrite k).getSite k = (s.getSite k).incomplete := (stopWrite_getSite k k).trans (if_pos rfl)
  rw [State.stopWrite, showRegion_getSite] at hsite
  rw [State.stopWrite, State.showRegion, setRegState_regState, hsite]
  rfl

theorem glbSiteState_lt_cfgRegion (k : Nat) : Reg.glbSiteState < Reg.cfgRegion k :=
  Nat.lt_of_lt_of_le (by decide) (Nat.le_add_right _ _)

theorem stopWrite_seqRuns {j : Nat} (hj : j < 16) (k : Nat) : (s.stopWrite j).seqRuns k = s.seqRuns k := by
  have : (s.stopWrite j).rd (Reg.seqStatus k) = s.rd (Reg.seqStatus k) := stopWrite_rd_of_ne (by simp only [Reg.seqStatus, Reg.cfgRegion]; omega)
  simp only [State.seqRuns, State.seqState, State.fld, this]

theorem leaveIncomplete_self {k : Nat} (hk : k < 16) : Incomplete (s.leaveIncomplete k) k := by
  have hsite : (s.stopWrite k).getSite k = (s.getSite k).incomplete := (stopWrite_getSite k k).trans (if_pos rfl)
  rw [leaveIncomplete_eq]
  refine ⟨?_, ?_, ?_, fun hruns => ?_⟩
  · rw [State.goldenValid, State.bit, followSite_cfgRegion hk]; exact stopWrite_goldenValid k
  · rw [State.regState, State.fld, followSite_cfgRegion hk]; exact stopWrite_regState k
  · rw [followSite_getSite, hsite]; rfl
  · rw [State.followSite_siteState hk hk, if_pos rfl, State.siteStateNow, hsite, ← followSite_seqRuns k k, hruns]
    rfl

theorem leaveIncomplete_other {j k : Nat} (hj : j < 16) (hk : k < 16) (hjk : j ≠ k) (h : Incomplete s k) :
    Incomplete (s.leaveIncomplete j) k := by
  have hregion : (s.stopWrite j).rd (Reg.cfgRegion k) = s.rd (Reg.cfgRegion k) :=
    stopWrite_rd_of_ne (by simp only [Reg.cfgRegion]; omega)
  rw [leaveIncomplete_eq]
  refine ⟨?_, ?_, ?_, fun hruns => ?_⟩
  · rw [State.goldenValid, State.bit, followSite_cfgRegion hk, hregion]; exact h.golden
  · rw [State.regState, State.fld, followSite_cfgRegion hk, hregion]; exact h.state
  · rw [followSite_getSite, stopWrite_getSite, if_neg (Ne.symm hjk)]; exact h.iso
  · rw [State.followSite_siteState hj hk, if_neg (Ne.symm hjk), State.siteState, State.fld,
      stopWrite_rd_of_ne (Nat.ne_of_lt (glbSiteState_lt_cfgRegion j))]
    exact h.site (by rw [← hruns, followSite_seqRuns, stopWrite_seqRuns hj k])

/-- What a full load that is refused leaves of region `k` (R323). -/
structure Emptied (s t : State) (k : Nat) : Prop where
  golden : t.goldenValid k = false
  state : t.regState k = 0
  site : t.getSite k = s.getSite k

/-- One region of a full load that is refused. -/
def State.emptyRegion (s : State) (k : Nat) : State := (s.setBit (Reg.cfgRegion k) 27 false).setRegState k 0

theorem emptyRegion_golden (k : Nat) : (s.emptyRegion k).goldenValid k = false :=
  (setRegState_goldenValid k k 0).trans (State.setBit_bit s _ 27 false (by decide))

theorem emptyRegion_regState (k : Nat) : (s.emptyRegion k).regState k = 0 := setRegState_regState k 0

theorem emptyRegion_rd_of_ne {j a : Nat} (h : a ≠ Reg.cfgRegion j) : (s.emptyRegion j).rd a = s.rd a := by
  simp [State.emptyRegion, State.setRegState, h]

/-! ### What the load leaves of its regions -/

/-- The regions of the load in progress as its refusal leaves them, before CFG_STATUS shows it. -/
def State.leaveRegions (s : State) : State :=
  match s.ctl.load.hdr with
  | none => s
  | some h =>
    if h.full then (s.setBit Reg.glbMode 5 false).forAll h.regionList State.emptyRegion
    else if !h.staged || s.loadState == ldWrite then s.forAll h.regionList State.leaveIncomplete
    else s

/-- CFG_STATUS as a refusal with `code` leaves it. -/
def State.showReject (s : State) (code : Nat) : State :=
  ((s.setFld Reg.cfgStatus 24 2 (if code = 0x15 then 3 else 2)).setFld Reg.cfgStatus 16 8 code).setLoadState ldDrop

/-- The configuration controller gives up its lease on the staging area. -/
def State.endStaging (s : State) : State := { s with host := { s.host with staging := false } }

theorem State.endStaging_rd (a : Nat) : s.endStaging.rd a = s.rd a := rfl
theorem State.endStaging_getSite (k : Nat) : s.endStaging.getSite k = s.getSite k := rfl
theorem State.endStaging_ctl : s.endStaging.ctl = s.ctl := rfl
theorem State.endStaging_staging : s.endStaging.host.staging = false := rfl
theorem State.modLoad_rd (f : Loader → Loader) (a : Nat) : (s.modLoad f).rd a = s.rd a := rfl
theorem State.modLoad_getSite (f : Loader → Loader) (k : Nat) : (s.modLoad f).getSite k = s.getSite k := rfl
theorem State.modLoad_host (f : Loader → Loader) : (s.modLoad f).host = s.host := rfl
theorem State.modLoad_release (f : Loader → Loader) : (s.modLoad f).ctl.release = s.ctl.release := rfl
theorem State.showReject_ctl (code : Nat) : (s.showReject code).ctl = s.ctl := by
  rw [State.showReject, State.setLoadState, State.setFld, State.wr_ctl, State.setFld, State.wr_ctl, State.setFld, State.wr_ctl]

theorem State.loadReject_eq (code : Nat) :
    s.loadReject code = ((s.leaveRegions.showReject code).endStaging).modLoad (fun l => { pos := l.pos }) := by
  unfold State.loadReject State.leaveRegions
  cases s.ctl.load.hdr <;> rfl

theorem cfgStatus_lt_cfgRegion (k : Nat) : Reg.cfgStatus < Reg.cfgRegion k := by simp only [Reg.cfgStatus, Reg.cfgRegion]; omega

theorem State.showReject_rd_of_ne {code a : Nat} (h : a ≠ Reg.cfgStatus) : (s.showReject code).rd a = s.rd a := by
  simp [State.showReject, State.setLoadState, h]

theorem State.showReject_loadState (code : Nat) : (s.showReject code).loadState = ldDrop := State.setFld_fld _ _ _ _ _ (by decide)

theorem State.showReject_outcome (code : Nat) : (s.showReject code).fld Reg.cfgStatus 24 2 = if code = 0x15 then 3 else 2 := by
  rw [State.showReject, State.setLoadState, State.setFld_fld_other _ _ _ _ _ _ _ _ (by decide) (by decide),
    State.setFld_fld_other _ _ _ _ _ _ _ _ (by decide) (by decide), State.setFld_fld _ _ _ _ _ (by decide)]
  split <;> rfl

theorem State.showReject_code {code : Nat} (hc : code < 256) : (s.showReject code).fld Reg.cfgStatus 16 8 = code := by
  rw [State.showReject, State.setLoadState, State.setFld_fld_other _ _ _ _ _ _ _ _ (by decide) (by decide),
    State.setFld_fld _ _ _ _ _ (by decide), Nat.mod_eq_of_lt (by simpa using hc)]

theorem Only.showReject (code : Nat) (h : Only m s t) (hst : m.reg Reg.cfgStatus) : Only m s (t.showReject code) :=
  ((h.setFld _ _ _ hst).setFld _ _ _ hst).setFld _ _ _ hst

theorem Only.endStaging (h : Only m s t) (hh : m.host) : Only m s t.endStaging := h.setHost (absurd hh) rfl rfl

theorem Only.modLoad (f : Loader → Loader) (h : Only m s t) (hc : m.ctl) : Only m s (t.modLoad f) := h.setCtl hc

/-- The registers that a refusal changes of the regions of `l`. -/
def leaveMay (l : List Nat) : May := { reg := fun a => a = Reg.glbMode ∨ ∃ k ∈ l, regionRegs k a, site := fun k => k ∈ l }

theorem Only.leaveRegions (h : Only m s t) (hr : ∀ a, (leaveMay t.loadRegions).reg a → m.reg a) (hs : ∀ k ∈ t.loadRegions, m.site k) :
    Only m s t.leaveRegions := by
  unfold State.leaveRegions
  unfold State.loadRegions at hr hs
  split
  · exact h
  · next g hg =>
    simp only [hg, Option.map_some, Option.getD_some] at hr hs
    split
    · exact (h.setBit 5 false (hr _ (.inl rfl))).forAll fun v k hk hv =>
        (hv.setBit 27 false (hr _ (.inr ⟨k, hk, .inl rfl⟩))).setFld 29 3 0 (hr _ (.inr ⟨k, hk, .inl rfl⟩))
    · split
      · exact h.forAll fun v k hk hv => hv.leaveIncomplete (fun a ha => hr a (.inr ⟨k, hk, ha⟩)) (hs k hk)
      · exact h

theorem leaveRegions_only (s : State) : Only (leaveMay s.loadRegions) s s.leaveRegions := (Only.refl _ s).leaveRegions (fun _ h => h) fun _ h => h

theorem leaveRegions_ctl (s : State) : s.leaveRegions.ctl = s.ctl := by
  have only := leaveRegions_only s
  exact only.ctl id

theorem emptyRegion_getSite (j k : Nat) : (s.emptyRegion j).getSite k = s.getSite k := by
  rw [State.emptyRegion, State.setRegState, State.setFld_getSite, State.setBit_getSite]

theorem leaveRegions_full {h : ImgHdr} (hh : s.ctl.load.hdr = some h) (hf : h.full = true) :
    s.leaveRegions.cfgValid = false ∧ ∀ k ∈ h.regionList, Emptied s s.leaveRegions k := by
  have he : s.leaveRegions = (s.setBit Reg.glbMode 5 false).forAll h.regionList State.emptyRegion := by simp [State.leaveRegions, hh, hf]
  rw [he]
  constructor
  · refine State.forAll_keeps (P := fun u => u.cfgValid = false) (State.setBit_bit s _ 5 false (by decide)) fun u k _ hu => ?_
    rw [State.cfgValid, State.bit, emptyRegion_rd_of_ne (by simp only [Reg.cfgRegion, Reg.glbMode]; omega)]
    exact hu
  · refine fun k hk => ⟨?_, ?_, ?_⟩
    · refine State.forAll_each (P := fun k u => u.goldenValid k = false) (fun u k _ => emptyRegion_golden k) (fun u j k _ _ hjk hu => ?_) k hk
      rw [State.goldenValid, State.bit, emptyRegion_rd_of_ne (by simp only [Reg.cfgRegion]; omega)]
      exact hu
    · refine State.forAll_each (P := fun k u => u.regState k = 0) (fun u k _ => emptyRegion_regState k) (fun u j k _ _ hjk hu => ?_) k hk
      rw [State.regState, State.fld, emptyRegion_rd_of_ne (by simp only [Reg.cfgRegion]; omega)]
      exact hu
    · exact State.forAll_keeps (P := fun u => u.getSite k = s.getSite k) (s.setBit_getSite _ _ _ k)
        fun u j _ hu => (emptyRegion_getSite j k).trans hu

theorem leaveRegions_incomplete {h : ImgHdr} (hh : s.ctl.load.hdr = some h) (hf : h.full = false)
    (hw : h.staged = false ∨ s.loadState = ldWrite) : ∀ k ∈ h.regionList, Incomplete s.leaveRegions k := by
  have he : s.leaveRegions = s.forAll h.regionList State.leaveIncomplete := by
    have : (!h.staged || s.loadState == ldWrite) = true := by simpa using hw
    simp [State.leaveRegions, hh, hf, this]
  rw [he]
  exact State.forAll_each (P := fun k u => Incomplete u k) (fun u k hk => leaveIncomplete_self (ImgHdr.lt_of_mem_regionList hk))
    fun u j k hj hk hjk hu => leaveIncomplete_other (ImgHdr.lt_of_mem_regionList hj) (ImgHdr.lt_of_mem_regionList hk) hjk hu

theorem leaveRegions_untouched {h : ImgHdr} (hh : s.ctl.load.hdr = some h) (hf : h.full = false) (hs : h.staged = true)
    (hw : s.loadState ≠ ldWrite) : s.leaveRegions = s := by
  simp [State.leaveRegions, hh, hf, hs, hw]

theorem leaveRegions_seqRuns {k : Nat} (hk : k < 16) : s.leaveRegions.seqRuns k = s.seqRuns k := by
  rw [State.seqRuns, State.seqRuns, State.seqState, State.seqState, State.fld, State.fld, (leaveRegions_only s).reg (Reg.seqStatus k)]
  rintro (h | ⟨j, hj, h⟩)
  · simp only [Reg.seqStatus, Reg.glbMode] at h; omega
  · have hlt : j < 16 := State.lt_of_mem_loadRegions hj
    simp only [Reg.seqStatus, regionRegs, Reg.cfgRegion, Reg.cfgInuseLo, Reg.cfgInuseHi, Reg.fabResInject, Reg.fabZbusStat, Reg.fabWclkCells, Reg.glbSiteState, Reg.fabPenStat, Reg.glbMode,
      Reg.safBistDebt] at h
    omega

/-! ### The refusal -/

theorem Only.loadReject {code : Nat} (h : Only m s t) (hr : ∀ a, (loadMay t.loadRegions).reg a → m.reg a)
    (hs : ∀ k ∈ t.loadRegions, m.site k) (hctl : m.ctl) (hhost : m.host) : Only m s (t.loadReject code) := by
  have hl : Only m s t.leaveRegions := h.leaveRegions (fun a ha => hr a (.inr ha)) hs
  rw [State.loadReject_eq]
  exact ((hl.showReject code (hr _ (.inl (.inl rfl)))).endStaging hhost).modLoad _ hctl

theorem loadReject_rd (code a : Nat) : (s.loadReject code).rd a = (s.leaveRegions.showReject code).rd a := by
  rw [State.loadReject_eq, State.modLoad_rd, State.endStaging_rd]

theorem loadReject_rd_of_ne {code a : Nat} (h : a ≠ Reg.cfgStatus) : (s.loadReject code).rd a = s.leaveRegions.rd a :=
  (loadReject_rd code a).trans (State.showReject_rd_of_ne h)

theorem loadReject_getSite (code k : Nat) : (s.loadReject code).getSite k = s.leaveRegions.getSite k := by
  rw [State.loadReject_eq, State.modLoad_getSite, State.endStaging_getSite, State.showReject, State.setLoadState]
  simp only [State.setFld_getSite]

/-- A refusal ends the load as R323 says. -/
theorem loadReject_rejected {code : Nat} (hc : code < 256) : Rejected s (s.loadReject code) code where
  state := (congrArg (fldOf · 28 4) (loadReject_rd code _)).trans (State.showReject_loadState code)
  outcome := (congrArg (fldOf · 24 2) (loadReject_rd code _)).trans (State.showReject_outcome code)
  code := (congrArg (fldOf · 16 8) (loadReject_rd code _)).trans (State.showReject_code hc)
  lease := by rw [State.loadReject_eq, State.modLoad_host, State.endStaging_staging]
  lap := by rw [State.loadReject_eq, State.modLoad_release, State.endStaging_ctl, State.showReject_ctl, leaveRegions_ctl]
  full h hh hf := by
    obtain ⟨hvalid, heach⟩ := leaveRegions_full hh hf
    refine ⟨?_, fun k hk => ⟨?_, ?_, ?_⟩⟩
    · rw [State.cfgValid, State.bit, loadReject_rd_of_ne (by decide)]; exact hvalid
    · rw [State.goldenValid, State.bit, loadReject_rd_of_ne (Nat.ne_of_gt (cfgStatus_lt_cfgRegion k))]; exact (heach k hk).golden
    · rw [State.regState, State.fld, loadReject_rd_of_ne (Nat.ne_of_gt (cfgStatus_lt_cfgRegion k))]; exact (heach k hk).state
    · rw [loadReject_getSite]; exact (heach k hk).site
  untouched h hh hf hs hw k := by
    have he := leaveRegions_untouched hh hf hs hw
    refine ⟨?_, ?_, ?_, ?_⟩
    · rw [loadReject_rd_of_ne (Nat.ne_of_gt (cfgStatus_lt_cfgRegion k)), he]
    · rw [loadReject_getSite, he]
    · rw [State.inuse, loadReject_rd_of_ne (by simp only [Reg.cfgInuseLo, Reg.cfgStatus]; omega),
        loadReject_rd_of_ne (by simp only [Reg.cfgInuseHi, Reg.cfgStatus]; omega), he, State.inuse]
    · rw [State.siteState, State.fld, loadReject_rd_of_ne (by decide), he, State.siteState, State.fld]
  incomplete h hh hf hw k hk := by
    have hi := leaveRegions_incomplete hh hf hw k hk
    refine ⟨?_, ?_, ?_, fun hruns => ?_⟩
    · rw [State.goldenValid, State.bit, loadReject_rd_of_ne (Nat.ne_of_gt (cfgStatus_lt_cfgRegion k))]; exact hi.golden
    · rw [State.regState, State.fld, loadReject_rd_of_ne (Nat.ne_of_gt (cfgStatus_lt_cfgRegion k))]; exact hi.state
    · rw [loadReject_getSite]; exact hi.iso
    · rw [State.siteState, State.fld, loadReject_rd_of_ne (by decide)]
      exact hi.site ((leaveRegions_seqRuns (ImgHdr.lt_of_mem_regionList hk)).trans hruns)

/-- What a refusal leaves does not depend on what a command's end adds. -/
theorem Rejected.settle {code : Nat} (h : Rejected s t code) (s0 : State) : Rejected s (State.settle s0 t) code :=
  { state := h.state, outcome := h.outcome, code := h.code, lease := (State.settle_staging s0 t).trans h.lease, lap := h.lap, full := h.full
    untouched := h.untouched, incomplete := h.incomplete }

/-- It does not depend on the key windows before. -/
theorem Rejected.of_txn {r code : Nat} (h : Rejected (s.txn r) t code) : Rejected s t code :=
  { state := h.state, outcome := h.outcome, code := h.code, lease := h.lease, lap := h.lap, full := h.full
    untouched := h.untouched, incomplete := h.incomplete }

end Sys2Proof.Machine
end

section
/-! The image sink (R306, R307), the abort and the reset of it (R325), and the end of the lease on the staging area (R377). -/

namespace Sys2Proof.Machine

variable {m : May} {s t : State}

/-! ### What a write to the sink does -/

/-- The first write of an image starts a load. -/
def State.sinkOpen (s : State) : State := if s.loadState = ldIdle then s.setLoadState ldHeader else s

/-- The sink takes `data`. -/
def State.sinkAdd (s : State) (data : List Byte) : State :=
  s.modLoad (fun l => { l with buf := l.buf ++ data, pos := l.pos + data.length, lastWrite := s.tsc.toNat })

theorem sinkWrite_held {off : Nat} {data : List Byte}
    (h : s.busUp = false ∨ data = [] ∨ s.loadState = ldBody ∨ s.loadState = ldWrite ∨ s.loadState = ldRelease) : s.sinkWrite off data = s := by
  unfold State.sinkWrite
  split
  · rfl
  · next hn =>
    obtain ⟨hup, hd⟩ : s.busUp = true ∧ data ≠ [] := by simpa using hn
    exact if_pos (by simpa [hup, hd] using h)

/-- A write that the sink does not hold back. -/
theorem sinkWrite_counted {off : Nat} {data : List Byte} (hup : s.busUp = true) (hd : data ≠ [])
    (hst : ¬ (s.loadState = ldBody ∨ s.loadState = ldWrite ∨ s.loadState = ldRelease)) :
    s.sinkWrite off data = if s.loadState = ldDrop then (s.txn 0).satAdd Reg.cfgSinkDrop 0 32 1
      else if off ≠ s.ctl.load.pos % 2 ^ 28 then (s.txn 0).loadReject 0x16 else (s.txn 0).sinkOpen.sinkAdd data := by
  unfold State.sinkWrite
  rw [if_neg (by simp [hup, hd]), if_neg hst]
  rfl

theorem not_held_of_taking (h : s.loadState = ldIdle ∨ s.loadState = ldHeader ∨ s.loadState = ldSections ∨ s.loadState = ldFrames) :
    ¬ (s.loadState = ldBody ∨ s.loadState = ldWrite ∨ s.loadState = ldRelease) ∧ s.loadState ≠ ldDrop := by
  simp only [ldIdle, ldHeader, ldSections, ldFrames, ldBody, ldWrite, ldRelease, ldDrop] at *
  omega

theorem sinkOpen_ctl (s : State) : s.sinkOpen.ctl = s.ctl := by
  unfold State.sinkOpen
  split
  · exact s.wr_ctl _ _
  · rfl

theorem sinkOpen_host (s : State) : s.sinkOpen.host = s.host := by
  unfold State.sinkOpen
  split
  · exact s.wr_host _ _
  · rfl

theorem sinkOpen_loadState (s : State) : s.sinkOpen.loadState = if s.loadState = ldIdle then ldHeader else s.loadState := by
  unfold State.sinkOpen
  split
  · exact s.setFld_fld Reg.cfgStatus 28 4 ldHeader (by decide)
  · rfl

theorem sinkAdd_buf (data : List Byte) : (s.sinkAdd data).ctl.load.buf = s.ctl.load.buf ++ data := rfl
theorem sinkAdd_pos (data : List Byte) : (s.sinkAdd data).ctl.load.pos = s.ctl.load.pos + data.length := rfl
theorem sinkAdd_loadState (data : List Byte) : (s.sinkAdd data).loadState = s.loadState := rfl
theorem sinkAdd_host (data : List Byte) : (s.sinkAdd data).host = s.host := rfl

theorem Only.sinkOpen (h : Only m s t) (hr : m.reg Reg.cfgStatus) : Only m s t.sinkOpen := by
  unfold State.sinkOpen
  split
  · exact h.setFld 28 4 ldHeader hr
  · exact h

theorem State.satAdd_fld (a lo len n : Nat) (h : lo + len ≤ 32) :
    (s.satAdd a lo len n).fld a lo len = min (s.fld a lo len + n) (2 ^ len - 1) :=
  (s.setFld_fld a lo len _ h).trans (Nat.mod_eq_of_lt (Nat.lt_of_le_of_lt (Nat.min_le_right _ _) (Nat.sub_lt (by positivity) one_pos)))

/-! ### Abort and reset -/

theorem loadAbort_of_loading (h : s.loading = true) : s.loadAbort = s.loadReject 0x15 := if_pos h

theorem loadAbort_of_not_loading (h : s.loading = false) : s.loadAbort = s := if_neg (by simp [h])

theorem Only.loadAbort (h : Only m s t) (hr : ∀ a, (loadMay t.loadRegions).reg a → m.reg a) (hs : ∀ k ∈ t.loadRegions, m.site k)
    (hctl : m.ctl) (hhost : m.host) : Only m s t.loadAbort := by
  unfold State.loadAbort
  split
  · exact h.loadReject hr hs hctl hhost
  · exact h

theorem loadAbort_idle_or_drop (s : State) : s.loadAbort.loadState = ldIdle ∨ s.loadAbort.loadState = ldDrop := by
  cases h : s.loading with
  | true => exact .inr (by rw [loadAbort_of_loading h]; exact (loadReject_rejected (s := s) (by decide : 0x15 < 256)).state)
  | false =>
    rw [loadAbort_of_not_loading h]
    by_contra hn
    simp_all [State.loading]

theorem loadAbort_release (s : State) : s.loadAbort.ctl.release = s.ctl.release := by
  cases h : s.loading with
  | true => rw [loadAbort_of_loading h]; exact (loadReject_rejected (s := s) (by decide : 0x15 < 256)).lap
  | false => rw [loadAbort_of_not_loading h]

/-- The sink drops no longer. -/
def State.endDrop (s : State) : State := if s.loadState = ldDrop then s.setLoadState ldIdle else s

theorem sinkReset_eq (s : State) : s.sinkReset = s.loadAbort.endDrop.modLoad (fun _ => {}) := rfl

theorem endDrop_loadState (h : s.loadState = ldIdle ∨ s.loadState = ldDrop) : s.endDrop.loadState = ldIdle := by
  unfold State.endDrop
  split
  · exact s.setFld_fld Reg.cfgStatus 28 4 ldIdle (by decide)
  · next hd => exact h.resolve_right hd

theorem endDrop_fld (lo len : Nat) (h : lo + len ≤ 28) : s.endDrop.fld Reg.cfgStatus lo len = s.fld Reg.cfgStatus lo len := by
  unfold State.endDrop
  split
  · exact s.setFld_fld_other _ _ _ _ _ _ _ (by decide) (.inr (.inl h))
  · rfl

theorem endDrop_ctl (s : State) : s.endDrop.ctl = s.ctl := by
  unfold State.endDrop
  split
  · exact s.wr_ctl _ _
  · rfl

theorem Only.sinkReset (h : Only m s t) (hr : ∀ a, (loadMay t.loadRegions).reg a → m.reg a) (hs : ∀ k ∈ t.loadRegions, m.site k)
    (hctl : m.ctl) (hhost : m.host) : Only m s t.sinkReset := by
  have ha : Only m s t.loadAbort := h.loadAbort hr hs hctl hhost
  rw [sinkReset_eq]
  refine Only.modLoad _ ?_ hctl
  unfold State.endDrop
  split
  · exact ha.setFld _ _ _ (hr _ (.inl (.inl rfl)))
  · exact ha

theorem sinkReset_state (s : State) : s.sinkReset.loadState = ldIdle := endDrop_loadState (loadAbort_idle_or_drop s)

theorem sinkReset_release (s : State) : s.sinkReset.ctl.release = s.ctl.release := by
  rw [sinkReset_eq, State.modLoad_release, endDrop_ctl, loadAbort_release]

/-- A reset during a load ends it as an abort does. -/
theorem sinkReset_outcome (h : s.loading = true) : s.sinkReset.fld Reg.cfgStatus 24 2 = 3 ∧ s.sinkReset.fld Reg.cfgStatus 16 8 = 0x15 := by
  have hj : Rejected s s.loadAbort 0x15 := by rw [loadAbort_of_loading h]; exact loadReject_rejected (by decide)
  exact ⟨(endDrop_fld 24 2 (by decide)).trans hj.outcome, (endDrop_fld 16 8 (by decide)).trans hj.code⟩

/-! ### The lease on the staging area -/

/-- What a refusal leaves does not rest on SPD_EVT. -/
theorem Rejected.setSpdEvt {code : Nat} (i : Nat) (b : Bool) (h : Rejected s t code) : Rejected s (t.setBit Reg.spdEvt i b) code := by
  have keep : ∀ a, a ≠ Reg.spdEvt → (t.setBit Reg.spdEvt i b).rd a = t.rd a := fun a ha => (State.setBit_rd t _ i b a).trans (if_neg ha)
  have hregion : ∀ k, (t.setBit Reg.spdEvt i b).rd (Reg.cfgRegion k) = t.rd (Reg.cfgRegion k) := fun k =>
    keep _ (Nat.ne_of_gt (Nat.lt_of_lt_of_le (by decide) (Nat.le_add_right _ _)))
  have hsite : (t.setBit Reg.spdEvt i b).rd Reg.glbSiteState = t.rd Reg.glbSiteState := keep _ (by decide)
  have hstatus : (t.setBit Reg.spdEvt i b).rd Reg.cfgStatus = t.rd Reg.cfgStatus := keep _ (by decide)
  have hmode : (t.setBit Reg.spdEvt i b).rd Reg.glbMode = t.rd Reg.glbMode := keep _ (by decide)
  have hinuse : ∀ k, (t.setBit Reg.spdEvt i b).inuse k = t.inuse k := fun k => by
    rw [State.inuse, State.inuse, keep _ (by simp only [Reg.cfgInuseLo, Reg.spdEvt]; omega), keep _ (by simp only [Reg.cfgInuseHi, Reg.spdEvt]; omega)]
  obtain ⟨state, outcome, code, lease, lap, full, untouched, incomplete⟩ := h
  constructor
  case state => rwa [State.loadState, State.fld, hstatus]
  case outcome => rwa [State.fld, hstatus]
  case code => rwa [State.fld, hstatus]
  case lease => exact lease
  case lap => exact lap
  case full =>
    simp only [State.cfgValid, State.goldenValid, State.regState, State.bit, State.fld, hmode, hregion, State.setBit_getSite]
    exact full
  case untouched =>
    simp only [State.siteState, State.fld, hinuse, hregion, hsite, State.setBit_getSite]
    exact untouched
  case incomplete =>
    simp only [State.siteState, State.goldenValid, State.regState, State.bit, State.fld, hregion, hsite, State.setBit_getSite]
    exact incomplete

/-- Settles O29, by what each write to the sink does and what a refusal leaves. -/
theorem imageSink : Obligations.ImageSink := by
  intro req off data s l st taking may counted
  have host (m : May) (h0 : m.key 0) : Only m s (s.txn 0) := (Only.refl m s).txn h0
  have reject (code : Nat) (hc : code < 256) (r : Nat) : Rejected s (State.settle s ((s.txn r).loadReject code)) code :=
    (loadReject_rejected hc).of_txn.settle s
  refine ⟨fun h => ?_, fun hup hd ht hoff => ?_, fun hup hd ht hoff => ?_, fun hup hd ht => ?_, fun hr hl => ?_, fun hr hl => ?_, fun hr => ?_,
    fun h hh hs hlease ht htime => ?_⟩
  · refine Answers.of_fin rfl ?_
    rw [sinkWrite_held h]
    exact (Only.refl _ s).settle s
  · refine Answers.of_fin rfl ?_
    obtain ⟨hheld, hdrop⟩ := not_held_of_taking ht
    rw [sinkWrite_counted hup hd hheld, if_neg hdrop, if_neg (not_not_intro hoff)]
    rw [State.settle_keyLeft, State.keyLeft, sinkAdd_host, sinkOpen_host]
    refine ⟨?_, ?_, sinkOpen_loadState _, ?_, (((host _ rfl).sinkOpen rfl).modLoad _ trivial).settle s⟩
    · exact (sinkAdd_buf _).trans (by rw [sinkOpen_ctl]; rfl)
    · exact (sinkAdd_pos _).trans (by rw [sinkOpen_ctl]; rfl)
    · exact (s.txn_keyLeft 0 0).trans (if_pos rfl)
  · refine Answers.of_fin rfl ?_
    obtain ⟨hheld, hdrop⟩ := not_held_of_taking ht
    rw [sinkWrite_counted hup hd hheld, if_neg hdrop, if_pos hoff]
    exact ⟨reject 0x16 (by decide) 0, ((host { loadMay s.loadRegions with key := counted } rfl).loadReject (t := s.txn 0) (fun _ h => h) (fun _ h => h) trivial trivial).settle s⟩
  · refine Answers.of_fin rfl ?_
    have ht : s.loadState = ldDrop := ht
    rw [sinkWrite_counted hup hd (by rw [ht]; decide), if_pos ht]
    exact ⟨(s.txn 0).satAdd_fld _ 0 32 1 (by decide), ((host _ rfl).satAdd _ _ _ rfl).settle s⟩
  · refine Answers.of_fin rfl ?_
    rw [State.onWrite_of_reaches _ hr, loadAbort_of_loading (s := s.txn _) hl]
    exact ⟨reject 0x15 (by decide) _, (((Only.refl may s).txn rfl).loadReject (t := s.txn _) (fun _ h => h) (fun _ h => h) trivial trivial).settle s⟩
  · refine Answers.of_fin rfl ?_
    rw [State.onWrite_of_reaches _ hr, loadAbort_of_not_loading (s := s.txn _) hl]
    exact ((Only.refl _ s).txn rfl).settle s
  · refine Answers.of_fin rfl ?_
    rw [State.onWrite_of_reaches _ hr]
    exact ⟨sinkReset_state _, rfl, sinkReset_release (s.txn req.toNat), fun hl => sinkReset_outcome (s := s.txn req.toNat) hl,
      (((Only.refl may s).txn rfl).sinkReset (fun _ h => h) (fun _ h => h) trivial trivial).settle s⟩
  · have hregions : s.loadRegions = h.regionList := by simp [State.loadRegions, show s.ctl.load.hdr = some h from hh]
    refine Answers.of_fin (u := (s.loadReject 0x15).setBit Reg.spdEvt 2 true) ?_ ?_
    · unfold exec execStagingLeaseTimeout
      rw [show s.ctl.load.hdr = some h from hh]
      exact congrArg (fin s) (if_pos (by simpa [hs, hlease] using ⟨ht, htime⟩))
    · have hj : Rejected s (s.loadReject 0x15) 0x15 := loadReject_rejected (by decide)
      have only : Only { loadMay h.regionList with reg := fun a => (loadMay h.regionList).reg a ∨ a = Reg.spdEvt } s (s.loadReject 0x15) :=
        (Only.refl _ s).loadReject (fun a ha => .inl (hregions ▸ ha)) (fun k hk => hregions ▸ hk) trivial trivial
      exact ⟨(hj.setSpdEvt 2 true).settle s, (State.settle_bit ..).trans (State.setBit_bit _ _ 2 true (by decide)), (only.setBit 2 true (.inr rfl)).settle s⟩

end Sys2Proof.Machine
end

section
/-! Leases that are revoked (R377, R378, R380): what the end of a requester's locks, reservations, rings and staging lease leaves. -/

namespace Sys2Proof.Machine

variable {m : May} {s t : State}

/-! ### The rings -/

theorem Only.sendMsg (v : Nat) (h : Only m s t) : Only m s (t.sendMsg v) :=
  h.setHost (fun _ => t.host.send_quiet v) (t.host.send_spd v) (t.host.send_keyWin v)

theorem Only.setDma {e : Nat} (d : Dma) (h : Only m s t) (hh : m.host) : Only m s (t.setDma e d) := h.setHost (absurd hh) rfl rfl

theorem Only.spdPut (a : Nat) (l : List Byte) (h : Only m s t) (hs : ∀ j, m.spd j) : Only m s (t.spdPut a l) := by
  refine h.trans ?_
  constructor <;> intros <;> first | rfl | exact ⟨rfl, rfl, rfl⟩ | exact absurd (hs _) ‹_›

theorem Only.breakResv (req a n : Nat) (h : Only m s t) (hc : m.cpu) : Only m s (t.breakResv req a n) := by
  unfold State.breakResv
  split
  · refine h.trans ?_
    constructor <;> intros <;> first | rfl | exact ⟨rfl, rfl, rfl⟩ | contradiction
  · exact h

/-- What an access to the scratchpad that is denied, or a write there, changes. -/
theorem Only.spdWrite (req a : Nat) (bs : List Byte) (h : Only m s t) (hs : ∀ j, m.spd j) (hc : m.cpu) (hq : m.queue Reg.spdErrLog)
    (hr : m.reg Reg.spdEvt) : Only m s (t.spdWrite req a bs).1 := by
  unfold State.spdWrite
  split
  · exact (h.spdPut _ _ hs).breakResv _ _ _ hc
  · exact (h.pushQ _ _ hq).setBit _ _ hr

/-- What the end of a descriptor or of a ring of engine `e` changes. -/
structure May.Dma (m : May) (e : Nat) : Prop where
  stat : m.reg (Reg.glbDmaStat e)
  tail : m.reg (Reg.glbDmaTail e)
  evt : m.reg Reg.spdEvt
  log : m.queue Reg.spdErrLog
  spd : ∀ j, m.spd j
  cpu : m.cpu
  host : m.host
  free : m.free

theorem Only.dmaLeaseEnds {e : Nat} (h : Only m s t) (hm : m.Dma e) : Only m s (t.dmaLeaseEnds e) := h.setDma _ hm.host

theorem Only.dmaStatus {e : Nat} (code : Nat) (moved : Word) (irq fatal : Bool) (h : Only m s t) (hm : m.Dma e) :
    Only m s (t.dmaStatus e code moved irq fatal) := by
  unfold State.dmaStatus
  extract_lets words src s1 st s2 s3 s4
  have h1 : Only m s s1 := by
    simp only [s1]
    split
    · exact h
    · split
      · exact h.spdWrite _ _ _ hm.spd hm.cpu hm.log hm.evt
      · exact h.setHost (absurd hm.host) rfl rfl
  have h2 : Only m s s2 := by
    simp only [s2]
    split
    · exact h1.setFld _ _ _ hm.stat
    · exact h1
  have h3 : Only m s s3 := h2.setFld _ _ _ hm.tail
  have h4 : Only m s s4 := by
    simp only [s4]
    split
    · exact ((h3.setFld _ _ _ hm.stat).setFld _ _ _ hm.stat).dmaLeaseEnds hm
    · split
      · exact (h3.setFld _ _ _ hm.stat).dmaLeaseEnds hm
      · exact h3
  split
  · exact h4.sendMsg _
  · exact h4

theorem Only.dmaAbort {e : Nat} (h : Only m s t) (hm : m.Dma e) : Only m s (t.dmaAbort e) := by
  unfold State.dmaAbort
  split
  · exact (h.tickFree hm.free).dmaStatus _ _ _ _ hm
  · split
    · exact (h.setFld _ _ _ hm.stat).dmaLeaseEnds hm
    · exact h

/-! ### The locks stay as they are when a ring or a load ends -/

theorem setFld_locks (a lo len v : Nat) : (s.setFld a lo len v).host.locks = s.host.locks := congrArg HostIf.locks (s.wr_host a _)

theorem dmaLeaseEnds_locks (e : Nat) : (s.dmaLeaseEnds e).host.locks = s.host.locks := rfl

theorem sendMsg_locks (v : Nat) : (s.sendMsg v).host.locks = s.host.locks := (congrArg HostIf.locks (s.host.send_quiet v) :)

theorem spdDenied_locks (req a : Nat) (wr : Bool) : (s.spdDenied req a wr).host.locks = s.host.locks := by
  have only : Only { queue := fun q => q = Reg.spdErrLog, reg := fun r => r = Reg.spdEvt } s (s.spdDenied req a wr) :=
    ((Only.refl _ s).pushQ _ _ rfl).setBit _ _ rfl
  exact (congrArg HostIf.locks (only.host id) :)

theorem spdWrite_locks (req a : Nat) (bs : List Byte) : (s.spdWrite req a bs).1.host.locks = s.host.locks := by
  unfold State.spdWrite
  split
  · obtain ⟨-, -, hhost, -⟩ := breakResv_mem (s := s.spdPut a bs) req (0x60000000 + a) bs.length
    exact (congrArg HostIf.locks hhost :)
  · exact spdDenied_locks req a true

theorem dmaStatus_locks (e code : Nat) (moved : Word) (irq fatal : Bool) : (s.dmaStatus e code moved irq fatal).host.locks = s.host.locks := by
  unfold State.dmaStatus
  extract_lets words src s1 st s2 s3 s4
  have h1 : s1.host.locks = s.host.locks := by
    simp only [s1]
    split
    · rfl
    · split
      · exact spdWrite_locks _ _ _
      · rfl
  have h2 : s2.host.locks = s.host.locks := by
    simp only [s2]
    split
    · exact (setFld_locks _ _ _ _).trans h1
    · exact h1
  have h3 : s3.host.locks = s.host.locks := (setFld_locks _ _ _ _).trans h2
  have h4 : s4.host.locks = s.host.locks := by
    simp only [s4]
    split
    · rw [dmaLeaseEnds_locks, State.setDmaState, setFld_locks, setFld_locks, h3]
    · split
      · rw [dmaLeaseEnds_locks, State.setDmaState, setFld_locks, h3]
      · exact h3
  split
  · exact (sendMsg_locks _).trans h4
  · exact h4

theorem dmaAbort_locks (e : Nat) : (s.dmaAbort e).host.locks = s.host.locks := by
  unfold State.dmaAbort
  split
  · exact dmaStatus_locks (s := s.tickFree) _ _ _ _ _
  · split
    · rw [dmaLeaseEnds_locks, State.setDmaState, setFld_locks]
    · rfl

theorem loadAbort_locks (s : State) : s.loadAbort.host.locks = s.host.locks := by
  have hl : s.leaveRegions.host.locks = s.host.locks := (congrArg HostIf.locks ((leaveRegions_only s).host id) :)
  unfold State.loadAbort
  split
  · rw [State.loadReject_eq, State.modLoad_host]
    refine Eq.trans ?_ hl
    rw [State.endStaging, State.showReject, State.setLoadState]
    simp only [setFld_locks]
  · rfl

/-! ### What a requester loses -/

/-- The locks that requester `i` holds are free. -/
def State.revokeLocks (s : State) (i : Nat) : State :=
  let u := if s.host.locks.any (fun p => p.2 == some i) then s.setBit Reg.spdEvt 2 true else s
  { u with host := { u.host with locks := u.host.locks.filter (fun p : Nat × Option Nat => p.2 != some i) } }

/-- Requester `i` holds the row buffer of vault `x`. -/
def Vault.heldBy (x : Vault) (i : Nat) : Bool := x.reserve.any (fun h => h.1 == i)

/-- The rows that requester `i` has reserved are free. -/
def State.revokeRows (s : State) (i : Nat) : State :=
  let u := if s.vault.any (fun p => p.2.heldBy i) then s.setBit Reg.nocEvt 4 true else s
  u.forAll ((u.vault.filter (fun p => p.2.heldBy i)).map (fun p => p.1)) (fun s v => s.modVault v (fun x => { x with reserve := none }))

/-- The ring of engine `e` ends where requester `i` holds it. -/
def State.revokeRing (s : State) (i e : Nat) : State :=
  if (s.getDma e).holder = some i then (s.dmaAbort e).setBit Reg.nocEvt 4 true else s

/-- The load of a configuration controller that is revoked ends. -/
def State.revokeStaging (s : State) (i : Nat) : State :=
  if i = 5 ∧ s.host.staging then s.loadAbort.setBit Reg.spdEvt 2 true else s

theorem revoke_eq (i : Nat) : s.revoke i = (((s.revokeLocks i).revokeRows i).forAll [0, 1] (fun s e => s.revokeRing i e)).revokeStaging i := rfl

theorem revokeLocks_locks (i : Nat) : (s.revokeLocks i).host.locks = s.host.locks.filter (fun p : Nat × Option Nat => p.2 != some i) := by
  unfold State.revokeLocks
  extract_lets u
  have hu : u.host = s.host := by
    simp only [u]
    split
    · exact s.wr_host _ _
    · rfl
  exact congrArg (fun h : HostIf => h.locks.filter (fun p : Nat × Option Nat => p.2 != some i)) hu

theorem Sparse.get_mem_or_default {α : Type} (d : Nat → α) (l : List (Nat × α)) (k : Nat) : (k, Sparse.get d l k) ∈ l ∨ Sparse.get d l k = d k := by
  induction l with
  | nil => exact .inr rfl
  | cons p l ih =>
    obtain ⟨j, v⟩ := p
    by_cases h : j = k
    · subst h
      simp [Sparse.get]
    · simp only [Sparse.get, if_neg h]
      exact ih.imp_left (List.mem_cons_of_mem _)

/-- Requester `i` holds no lock after. -/
theorem revokeLocks_lockHolder (i l : Nat) : (s.revokeLocks i).lockHolder l ≠ some i := by
  unfold State.lockHolder
  rw [revokeLocks_locks]
  intro h
  rcases Sparse.get_mem_or_default (fun _ => none) (s.host.locks.filter (fun p : Nat × Option Nat => p.2 != some i)) l with hm | hd
  · rw [h] at hm
    simp at hm
  · rw [h] at hd
    cases hd

/-- Freeing one row leaves the others and frees this one. -/
theorem freeRow_heldBy (u v i : Nat) (s : State) :
    ((s.modVault v (fun x => { x with reserve := none })).getVault u).heldBy i = (decide (u ≠ v) && (s.getVault u).heldBy i) := by
  rw [State.modVault_getVault]
  split
  case isTrue h => simp [h, Vault.heldBy]
  case isFalse h => simp [h]

/-- Requester `i` has no row after. -/
theorem revokeRows_heldBy (i u : Nat) : ((s.revokeRows i).getVault u).heldBy i = false := by
  unfold State.revokeRows
  extract_lets w
  by_cases hu : u ∈ (w.vault.filter (fun p => p.2.heldBy i)).map (fun p => p.1)
  · exact State.forAll_each (P := fun u t => (t.getVault u).heldBy i = false) (fun t v _ => by rw [freeRow_heldBy]; simp)
      (fun t v u _ _ _ h => by rw [freeRow_heldBy, h, Bool.and_false]) u hu
  · refine State.forAll_keeps (P := fun t => (t.getVault u).heldBy i = false) ?_ fun t v _ h => by rw [freeRow_heldBy, h, Bool.and_false]
    rcases Sparse.get_mem_or_default (fun _ => ({} : Vault)) w.vault u with hm | hd
    · by_contra hh
      have hheld : (w.getVault u).heldBy i = true := by simpa using hh
      exact hu (List.mem_map.mpr ⟨_, List.mem_filter.mpr ⟨hm, hheld⟩, rfl⟩)
    · rw [State.getVault, hd]; rfl

/-! ### What stays -/

/-- Requester `i` holds no lock and no row. -/
structure Revoked (i : Nat) (t : State) : Prop where
  locks : ∀ l, t.lockHolder l ≠ some i
  rows : ∀ u, (t.getVault u).heldBy i = false

/-- The interfaces that are isolated stay so, and so do the events of the network other than the one of revoked leases. -/
structure NocKept (s t : State) : Prop where
  iso : t.rd Reg.nocIsoStat = s.rd Reg.nocIsoStat
  evt : ∀ j, j ≠ 4 → t.bit Reg.nocEvt j = s.bit Reg.nocEvt j

theorem NocKept.trans {u : State} (h : NocKept s t) (g : NocKept t u) : NocKept s u :=
  ⟨g.iso.trans h.iso, fun j hj => (g.evt j hj).trans (h.evt j hj)⟩

/-- A command that leaves the network's registers alone. -/
theorem Only.nocKept (h : Only m s t) (h1 : ¬ m.reg Reg.nocIsoStat) (h2 : ¬ m.reg Reg.nocEvt) : NocKept s t :=
  ⟨h.reg _ h1, fun j _ => by rw [State.bit, State.bit, h.reg _ h2]⟩

theorem NocKept.setEvt (h : NocKept s t) : NocKept s (t.setBit Reg.nocEvt 4 true) where
  iso := (State.setBit_rd t _ 4 true _).trans ((if_neg (by decide)).trans h.iso)
  evt j hj := (State.setBit_bit_other t _ 4 true _ j (by decide) (.inr hj)).trans (h.evt j hj)

theorem revokeLocks_only (i : Nat) : Only { reg := fun a => a = Reg.spdEvt, host := True } s (s.revokeLocks i) := by
  unfold State.revokeLocks
  extract_lets u
  have hu : Only { reg := fun a => a = Reg.spdEvt, host := True } s u := by
    simp only [u]
    split
    · exact (Only.refl _ s).setBit _ _ rfl
    · exact Only.refl _ s
  exact hu.setHost (absurd trivial) rfl rfl

theorem revokeRows_kept (i : Nat) : NocKept s (s.revokeRows i) ∧ (s.revokeRows i).host = s.host := by
  unfold State.revokeRows
  extract_lets u
  refine State.forAll_keeps (P := fun t => NocKept s t ∧ t.host = s.host) ?_ fun t v _ ⟨hk, hh⟩ => ⟨⟨hk.iso, hk.evt⟩, hh⟩
  simp only [u]
  split
  · exact ⟨NocKept.setEvt ⟨rfl, fun _ _ => rfl⟩, s.wr_host _ _⟩
  · exact ⟨⟨rfl, fun _ _ => rfl⟩, rfl⟩

/-- What the end of the ring of engine `e` may change. -/
def ringMay (e : Nat) : May :=
  { reg := fun a => a = Reg.glbDmaStat e ∨ a = Reg.glbDmaTail e ∨ a = Reg.spdEvt, queue := fun q => q = Reg.spdErrLog, spd := fun _ => True
    cpu := True, host := True, free := True }

theorem dmaAbort_only (e : Nat) : Only (ringMay e) s (s.dmaAbort e) :=
  (Only.refl _ s).dmaAbort ⟨.inl rfl, .inr (.inl rfl), .inr (.inr rfl), rfl, fun _ => trivial, trivial, trivial, trivial⟩

/-- The locks and the rows stay with their holders when the state changes elsewhere. -/
theorem Revoked.of_same {i : Nat} (h : Revoked i s) (hl : t.host.locks = s.host.locks) (hv : ∀ u, t.getVault u = s.getVault u) : Revoked i t :=
  ⟨fun l => by rw [State.lockHolder, hl]; exact h.locks l, fun u => by rw [hv]; exact h.rows u⟩

theorem revokeRing_kept (i e : Nat) : NocKept s (s.revokeRing i e) := by
  unfold State.revokeRing
  split
  · refine ((dmaAbort_only e).nocKept ?_ ?_).setEvt <;>
      simp only [ringMay, Reg.nocIsoStat, Reg.nocEvt, Reg.glbDmaStat, Reg.glbDmaTail, Reg.spdEvt] <;> omega
  · exact ⟨rfl, fun _ _ => rfl⟩

theorem Revoked.revokeRing {j : Nat} (i e : Nat) (h : Revoked j s) : Revoked j (s.revokeRing i e) := by
  unfold State.revokeRing
  split
  · exact h.of_same ((setFld_locks _ _ _ _).trans (dmaAbort_locks e)) fun u => (dmaAbort_only e).vault u id
  · exact h

theorem loadAbort_only : Only (loadMay s.loadRegions) s s.loadAbort :=
  (Only.refl _ s).loadAbort (fun _ h => h) (fun _ h => h) trivial trivial

/-- The registers of a load are none of the network's. -/
theorem loadMay_reg_ge {a : Nat} (h : (loadMay s.loadRegions).reg a) : a < 0x280100 ∨ 0x1000000 ≤ a := by
  simp only [loadMay, loadRegs, Reg.cfgStatus, Reg.cfgProgress, Reg.cfgBadIndex, Reg.cfgBadAddr, Reg.cfgSig, Reg.cfgBuildLo, Reg.cfgBuildHi,
    Reg.glbMode] at h
  rcases h with h | h | ⟨k, hk, h⟩
  · omega
  · omega
  · have := State.lt_of_mem_loadRegions hk
    simp only [regionRegs, Reg.cfgRegion, Reg.cfgInuseLo, Reg.cfgInuseHi, Reg.fabResInject, Reg.fabZbusStat, Reg.fabWclkCells, Reg.glbSiteState,
      Reg.fabPenStat, Reg.glbMode, Reg.safBistDebt] at h
    omega

theorem loadAbort_kept (s : State) : NocKept s s.loadAbort :=
  loadAbort_only.nocKept (fun h => absurd (loadMay_reg_ge h) (by decide)) fun h => absurd (loadMay_reg_ge h) (by decide)

theorem revokeStaging_kept (i : Nat) : NocKept s (s.revokeStaging i) := by
  unfold State.revokeStaging
  split
  · have hspd : Only { reg := fun a => a = Reg.spdEvt } s.loadAbort (s.loadAbort.setBit Reg.spdEvt 2 true) := (Only.refl _ _).setBit _ _ rfl
    exact (loadAbort_kept s).trans (hspd.nocKept (by decide) (by decide))
  · exact ⟨rfl, fun _ _ => rfl⟩

theorem Revoked.revokeStaging {j : Nat} (i : Nat) (h : Revoked j s) : Revoked j (s.revokeStaging i) := by
  unfold State.revokeStaging
  split
  · exact h.of_same ((setFld_locks _ _ _ _).trans (loadAbort_locks s)) fun u => loadAbort_only.vault u id
  · exact h

theorem revoke_kept (i : Nat) : NocKept s (s.revoke i) := by
  rw [revoke_eq]
  have hlocks : NocKept s (s.revokeLocks i) := (revokeLocks_only i).nocKept (by decide) (by decide)
  have hrows := hlocks.trans (revokeRows_kept i).1
  exact (State.forAll_keeps (P := NocKept s) hrows fun u e _ hu => hu.trans (revokeRing_kept i e)).trans (revokeStaging_kept i)

/-- A requester whose leases are revoked holds neither lock nor row. -/
theorem revoke_revoked (i : Nat) : Revoked i (s.revoke i) := by
  rw [revoke_eq]
  have hrows : Revoked i ((s.revokeLocks i).revokeRows i) :=
    ⟨fun l => by rw [State.lockHolder, (revokeRows_kept i).2]; exact revokeLocks_lockHolder i l, fun u => revokeRows_heldBy i u⟩
  exact (State.forAll_keeps (P := Revoked i) hrows fun u e _ hu => hu.revokeRing i e).revokeStaging i

end Sys2Proof.Machine
end

section
/-! Packets, isolation and statistics (R370, R373, R380), and the messages of the end of interrupt and of MSI-X (R366). -/

namespace Sys2Proof.Machine

variable {m : May} {s t : State}

/-! ### Isolation -/

/-- The interface of requester `i` is isolated, with its leases revoked. -/
structure Isolated (t : State) (i : Nat) : Prop where
  iso : t.bit Reg.nocIsoStat i = true
  evt : t.bit Reg.nocEvt 3 = true
  locks : ∀ l, t.lockHolder l ≠ some i
  rows : ∀ u r, (t.getVault u).reserve ≠ some (i, r)

/-- The state in which the leases of an isolated requester are revoked. -/
def State.markIsolated (s : State) (i : Nat) : State := (s.setBit Reg.nocIsoStat i true).setBit Reg.nocEvt 3 true

theorem isolate_eq {i : Nat} (h : i ≠ 0) : s.isolate i = (s.markIsolated i).revoke i := if_neg h

theorem markIsolated_iso {i : Nat} (hi : i < 32) (j : Nat) : (s.markIsolated i).bit Reg.nocIsoStat j = if j = i then true else s.bit Reg.nocIsoStat j := by
  rw [State.markIsolated, State.setBit_bit_other _ _ _ _ _ _ (by decide) (.inl (by decide))]
  split
  case isTrue h => rw [h]; exact s.setBit_bit _ i true hi
  case isFalse h => exact s.setBit_bit_other _ i true _ j hi (.inr h)

theorem markIsolated_evt (i : Nat) {j : Nat} : (s.markIsolated i).bit Reg.nocEvt j = if j = 3 then true else s.bit Reg.nocEvt j := by
  rw [State.markIsolated]
  split
  case isTrue h => rw [h]; exact State.setBit_bit _ _ 3 true (by decide)
  case isFalse h =>
    rw [State.setBit_bit_other _ _ _ _ _ _ (by decide) (.inr h), State.bit, State.setBit_rd, if_neg (by decide), State.bit]

theorem isolate_iso {i : Nat} (hi : i < 32) (h : i ≠ 0) (j : Nat) :
    (s.isolate i).bit Reg.nocIsoStat j = if j = i then true else s.bit Reg.nocIsoStat j := by
  rw [isolate_eq h, ← markIsolated_iso hi, State.bit, (revoke_kept i).iso, State.bit]

theorem isolate_evt {i j : Nat} (h : i ≠ 0) (hj : j ≠ 4) : (s.isolate i).bit Reg.nocEvt j = if j = 3 then true else s.bit Reg.nocEvt j := by
  rw [isolate_eq h, (revoke_kept i).evt j hj, markIsolated_evt]

theorem isolate_isolated {i : Nat} (hi : i < 32) (h : i ≠ 0) : Isolated (s.isolate i) i := by
  have hr : Revoked i (s.isolate i) := by rw [isolate_eq h]; exact revoke_revoked i
  refine ⟨by rw [isolate_iso hi h, if_pos rfl], by rw [isolate_evt h (by decide), if_pos rfl], hr.locks, fun u r hu => ?_⟩
  have hv := hr.rows u
  rw [Vault.heldBy, hu] at hv
  simp at hv

/-- What a command's end adds leaves the interface isolated. -/
theorem Isolated.settle {i : Nat} (h : Isolated t i) (s0 : State) : Isolated (State.settle s0 t) i :=
  ⟨h.iso, h.evt, fun l => (State.settle_lockHolder s0 t l) ▸ h.locks l, h.rows⟩

/-! ### Packets -/

/-- The counters of requester `i`, and of CRC failures, as a packet leaves them. -/
def State.countPacket (s : State) (i fails bytes latency : Nat) : State :=
  let s := s.setLiveCnt i ((s.getLive i).count bytes latency)
  if 1 ≤ fails then (s.setBit Reg.nocEvt 0 true).satAdd Reg.nocCrcCnt 0 32 1 else s

/-- A request that fails twice completes with an error. -/
def State.packetLost (s : State) (i : Nat) (ask : NocAsk) : State :=
  let s := if ask = .read then { s with cpl := { status := .ca } } else s
  let s := if ask = .write ∨ i = 3 then s.txn i else s
  (s.setBit Reg.nocEvt 1 true).safEvent 0x07 i

theorem nocPacket_malformed (req : Requester) (fails : Nat) (ask : NocAsk) (bytes latency : Nat) :
    s.nocPacket req fails true ask bytes latency = (s.setBit Reg.nocEvt 2 true).isolate req.toNat := rfl

theorem nocPacket_lost {req : Requester} {fails : Nat} (h : 2 ≤ fails) (ask : NocAsk) (bytes latency : Nat) :
    s.nocPacket req fails false ask bytes latency = (s.countPacket req.toNat fails bytes latency).packetLost req.toNat ask :=
  if_pos h

theorem nocPacket_service {req : Requester} {fails : Nat} (h : fails < 2) (a : BitVec 41) (attr : BitVec 2) (bytes latency : Nat) :
    s.nocPacket req fails false (.service a attr) bytes latency
      = (s.countPacket req.toNat fails bytes latency).reserveRow req.toNat a.toNat attr.toNat :=
  if_neg (Nat.not_le.mpr h)

theorem nocPacket_plain {req : Requester} {fails : Nat} (h : fails < 2) {ask : NocAsk} (ha : ask = .read ∨ ask = .write ∨ ask = .other)
    (bytes latency : Nat) : s.nocPacket req fails false ask bytes latency = s.countPacket req.toNat fails bytes latency := by
  obtain rfl | rfl | rfl := ha <;> exact if_neg (Nat.not_le.mpr h)

section Count
variable {i fails bytes latency : Nat}

theorem Only.countPacket (h : Only m s t) (h1 : m.reg Reg.nocEvt) (h2 : m.reg Reg.nocCrcCnt) (hh : m.host) :
    Only m s (t.countPacket i fails bytes latency) := by
  have hl : Only m s (t.setLiveCnt i ((t.getLive i).count bytes latency)) := h.setHost (absurd hh) rfl rfl
  unfold State.countPacket
  dsimp only
  split
  · exact (hl.setBit _ _ h1).satAdd _ _ _ h2
  · exact hl

theorem setLiveCnt_getLive (x : NocLive) : (s.setLiveCnt i x).getLive i = x := (Sparse.get_set _ _ _ _ _).trans (if_pos rfl)

theorem setFld_getLive (a lo len v j : Nat) : (s.setFld a lo len v).getLive j = s.getLive j := by
  rw [State.getLive, State.setFld, State.wr_host, State.getLive]

theorem countPacket_getLive : (s.countPacket i fails bytes latency).getLive i = (s.getLive i).count bytes latency := by
  unfold State.countPacket
  dsimp only
  split
  · rw [State.satAdd, setFld_getLive, State.setBit, setFld_getLive, setLiveCnt_getLive]
  · exact setLiveCnt_getLive _

theorem countPacket_crc : (s.countPacket i fails bytes latency).fld Reg.nocCrcCnt 0 32
    = if fails = 0 then s.fld Reg.nocCrcCnt 0 32 else min (s.fld Reg.nocCrcCnt 0 32 + 1) (2 ^ 32 - 1) := by
  unfold State.countPacket
  dsimp only
  split
  case isTrue h =>
    rw [State.satAdd_fld _ _ _ _ (by decide), if_neg (by omega), State.fld, State.setBit_rd, if_neg (by decide)]
    rfl
  case isFalse h => rw [if_pos (by omega)]; rfl

theorem countPacket_evt (h : 1 ≤ fails) : (s.countPacket i fails bytes latency).bit Reg.nocEvt 0 = true := by
  unfold State.countPacket
  dsimp only
  rw [if_pos h, State.bit, State.satAdd_rd, if_neg (by decide)]
  exact State.setBit_bit _ _ 0 true (by decide)

end Count

/-- What a packet that is lost changes. -/
def lostMay (i : Nat) (ask : NocAsk) : May :=
  { reg := fun a => a = Reg.nocEvt ∨ a = Reg.safEvtCnt, queue := fun q => q = Reg.safEvtLog, cpl := ask = .read, key := fun r => r = i }

theorem Only.packetLost {i : Nat} {ask : NocAsk} (h : Only m s t) (h1 : m.reg Reg.nocEvt) (h2 : m.reg Reg.safEvtCnt) (hq : m.queue Reg.safEvtLog)
    (hc : ask = .read → m.cpl) (hk : m.key i) : Only m s (t.packetLost i ask) := by
  unfold State.packetLost
  extract_lets u v
  have hu : Only m s u := by
    simp only [u]
    split
    case isTrue ha => exact h.setCpl (hc ha)
    case isFalse => exact h
  have hv : Only m s v := by
    simp only [v]
    split
    · exact hu.txn hk
    · exact hu
  exact (hv.setBit _ _ h1).safEvent _ _ hq h2

theorem safEvent_rd_of_ne {src detail a : Nat} (h : a ≠ Reg.safEvtCnt) : (s.safEvent src detail).rd a = s.rd a :=
  ((Only.refl { queue := fun q => q = Reg.safEvtLog, reg := fun b => b = Reg.safEvtCnt } s).safEvent src detail rfl rfl).reg a h

section Lost
variable {i : Nat} {ask : NocAsk}

/-- What is written before the event of a lost packet. -/
def State.answerLost (s : State) (i : Nat) (ask : NocAsk) : State :=
  let s := if ask = .read then { s with cpl := { status := .ca } } else s
  if ask = .write ∨ i = 3 then s.txn i else s

theorem packetLost_eq : s.packetLost i ask = ((s.answerLost i ask).setBit Reg.nocEvt 1 true).safEvent 0x07 i := rfl

theorem answerLost_regs : (s.answerLost i ask).regs = s.regs := by
  unfold State.answerLost
  split <;> split <;> rfl

theorem answerLost_cpl (h : ask = .read) : (s.answerLost i ask).cpl.status = .ca := by
  unfold State.answerLost
  rw [if_pos h]
  split <;> rfl

theorem answerLost_live : (s.answerLost i ask).host.live = s.host.live := by
  unfold State.answerLost
  split <;> split <;> rfl

theorem answerLost_keyLeft : (s.answerLost i ask).keyLeft i = s.keyLeft i - if ask = .write ∨ i = 3 then 1 else 0 := by
  have hcpl (u : State) : (if ask = .write ∨ i = 3 then u.txn i else u).keyLeft i = u.keyLeft i - if ask = .write ∨ i = 3 then 1 else 0 := by
    split
    · exact (u.txn_keyLeft i i).trans (if_pos rfl)
    · rfl
  unfold State.answerLost
  dsimp only
  rw [hcpl]
  split <;> rfl

/-- The event of a lost packet leaves the host interface and the completion. -/
theorem lostEvent_only : Only { reg := fun a => a = Reg.nocEvt ∨ a = Reg.safEvtCnt, queue := fun q => q = Reg.safEvtLog } s
    ((s.setBit Reg.nocEvt 1 true).safEvent 0x07 i) := by
  have h : Only { reg := fun a => a = Reg.nocEvt ∨ a = Reg.safEvtCnt, queue := fun q => q = Reg.safEvtLog } s (s.setBit Reg.nocEvt 1 true) :=
    (Only.refl _ s).setBit _ _ (.inl rfl)
  exact h.safEvent _ _ rfl (.inr rfl)

theorem packetLost_cpl (h : ask = .read) : (s.packetLost i ask).cpl.status = .ca := by
  rw [packetLost_eq, lostEvent_only.cpl id, answerLost_cpl h]

theorem packetLost_getLive (j : Nat) : (s.packetLost i ask).getLive j = s.getLive j := by
  have hlive : (s.packetLost i ask).host.live = s.host.live := by
    rw [packetLost_eq]
    exact (congrArg HostIf.live (lostEvent_only.host id) :).trans answerLost_live
  rw [State.getLive, hlive, State.getLive]

theorem packetLost_keyLeft : (s.packetLost i ask).keyLeft i = s.keyLeft i - if ask = .write ∨ i = 3 then 1 else 0 := by
  rw [packetLost_eq, lostEvent_only.key i id, answerLost_keyLeft]

theorem packetLost_evt (j : Nat) : (s.packetLost i ask).bit Reg.nocEvt j = if j = 1 then true else s.bit Reg.nocEvt j := by
  have hs : (s.answerLost i ask).bit Reg.nocEvt j = s.bit Reg.nocEvt j := by rw [State.bit, State.rd, answerLost_regs, State.bit, State.rd]
  rw [packetLost_eq, State.bit, safEvent_rd_of_ne (by decide), ← hs]
  split
  case isTrue h => subst h; exact State.setBit_bit _ _ 1 true (by decide)
  case isFalse h => exact State.setBit_bit_other _ _ 1 true _ j (by decide) (.inr h)

theorem packetLost_crc : (s.packetLost i ask).fld Reg.nocCrcCnt 0 32 = s.fld Reg.nocCrcCnt 0 32 := by
  rw [packetLost_eq, State.fld, lostEvent_only.reg _ (by decide), State.rd, answerLost_regs, State.fld, State.rd]

end Lost

/-! ### The service buffer -/

theorem rowRefused_congr {v r : Nat} (h1 : t.rd (Reg.vltStat v) = s.rd (Reg.vltStat v)) (h2 : t.rdAct Reg.vltTileen = s.rdAct Reg.vltTileen) :
    t.rowRefused v r = s.rowRefused v r := by
  unfold State.rowRefused State.vltState State.tileEnabled State.fld
  rw [h1, h2]

theorem locate_congr (a : Nat) (h : t.rdAct Reg.vltMap = s.rdAct Reg.vltMap) : t.locate a = s.locate a := by
  unfold State.locate State.globalMap
  rw [h]

theorem locate_lt (a : Nat) : (s.locate a).1 < 256 := by
  unfold State.locate
  split <;> dsimp only <;> omega

theorem bufferHeld_congr {v req : Nat} (h : t.getVault v = s.getVault v) : t.bufferHeld v req = s.bufferHeld v req := by
  simp only [State.bufferHeld, h]

/-- The row of a vault's service buffer that requester `i` holds after a request for row `row` with attribute `attr` (R377). -/
def State.reserved (s : State) (i v row attr : Nat) : Option (Nat × Nat) :=
  if attr = 1 ∧ s.rowRefused v row = none ∧ s.bufferHeld v i = false then some (i, row)
  else if attr = 2 ∧ ((s.getVault v).reserve.any fun h => h.1 == i) = true then none else (s.getVault v).reserve

theorem Only.reserveRow {i a attr : Nat} (h : Only m s t) (hv : m.vault (t.locate a).1) : Only m s (t.reserveRow i a attr) := by
  unfold State.reserveRow
  dsimp only
  split
  · split
    · exact h
    · exact h.modVault _ hv
  · split
    · exact h.modVault _ hv
    · exact h
  · exact h

theorem reserveRow_reserve {i a attr v row : Nat} (ha : s.locate a = (v, row)) :
    ((s.reserveRow i a attr).getVault v).reserve = s.reserved i v row attr := by
  unfold State.reserveRow State.reserved
  rw [ha]
  dsimp only
  split
  case h_1 => cases hr : s.rowRefused v row <;> cases hb : s.bufferHeld v i <;> simp
  case h_2 =>
    rw [if_neg (fun hn : 2 = 1 ∧ _ => absurd hn.1 (by decide))]
    split
    case isTrue h => rw [if_pos ⟨rfl, h⟩, State.modVault_getVault, if_pos rfl]
    case isFalse h => rw [if_neg fun hn => h hn.2]
  case h_3 h1 h2 => rw [if_neg fun hn => h1 hn.1, if_neg fun hn => h2 hn.1]

theorem reserveRow_host (i a attr : Nat) : (s.reserveRow i a attr).host = s.host := by
  unfold State.reserveRow
  dsimp only
  split
  · split <;> rfl
  · split <;> rfl
  · rfl

/-! ### Commands of the network's control registers -/

/-- A write of NOC_ISO_CMD names its requester in bits 4:0 and asks for a release with bit 5. -/
theorem isoCmd_isolate (req i : Requester) : s.isoCmd req (i.setWidth 32) true = s.isolate i.toNat := by
  have h : ∀ i : Requester, ¬ (i.setWidth 32).getLsbD 5 = true ∧ fldOf (i.setWidth 32) 0 5 = i.toNat := by decide
  rw [State.isoCmd, if_neg (by decide), if_neg (h i).1, (h i).2]

theorem isoCmd_release (req i : Requester) : s.isoCmd req (i.setWidth 32 ||| 0x20#32) true = s.isoRelease i.toNat := by
  have h : ∀ i : Requester, (i.setWidth 32 ||| 0x20#32).getLsbD 5 = true ∧ fldOf (i.setWidth 32 ||| 0x20#32) 0 5 = i.toNat := by decide
  rw [State.isoCmd, if_neg (by decide), if_pos (h i).1, (h i).2]

theorem isoCmd_refused (req : Requester) (v : Word) : s.isoCmd req v false = s.keyRefused req.toNat Reg.nocIsoCmd := rfl

end Sys2Proof.Machine
end

section
/-! Statistics (R373), and the messages of an end of interrupt and of MSI-X (R366): a command that changes neither registers nor queues sends none of its
own at its end. -/

namespace Sys2Proof.Machine

variable {m : May} {s t : State}

/-! ### The snapshot of the statistics -/

/-- The snapshot of the counters of requester `i`. -/
def State.snapOne (s : State) (i : Nat) : State :=
  let x := s.getLive i
  let s := (s.wr64 (Reg.nocStat i 0) x.bytes).wr (Reg.nocStat i 2) (BitVec.ofNat 32 x.packets)
  s.forAll (List.range 8) (fun s n => s.wr (Reg.nocStat i (4 + n)) (BitVec.ofNat 32 (x.bins.getD n 0)))

/-- The counters start again. -/
def State.clearLive (s : State) : State := { s with host := { s.host with live := [] } }

theorem nocSnap_eq (s : State) : s.nocSnap = (s.forAll (List.range 32) State.snapOne).clearLive := rfl

theorem Only.snapOne {i : Nat} (h : Only m s t) (hr : ∀ a, Reg.nocStat i 0 ≤ a → a < Reg.nocStat (i + 1) 0 → m.reg a) : Only m s (t.snapOne i) := by
  have hreg (j : Nat) (hj : j < 16) : m.reg (Reg.nocStat i j) := hr _ (by simp only [Reg.nocStat]; omega) (by simp only [Reg.nocStat]; omega)
  unfold State.snapOne
  exact ((h.wr64 _ (hreg 0 (by decide)) (hreg 1 (by decide))).wr _ (hreg 2 (by decide))).forAll fun u n hn hu =>
    hu.wr _ (hreg _ (by have := List.mem_range.mp hn; omega))

theorem snapOne_only (s : State) (i : Nat) : Only { reg := fun a => Reg.nocStat i 0 ≤ a ∧ a < Reg.nocStat (i + 1) 0 } s (s.snapOne i) :=
  (Only.refl _ s).snapOne fun _ h h' => ⟨h, h'⟩

theorem snapOne_host (s : State) (i : Nat) : (s.snapOne i).host = s.host := by
  unfold State.snapOne
  refine State.forAll_keeps (P := fun t => t.host = s.host) ?_ fun t n _ h => (t.wr_host _ _).trans h
  rw [State.wr_host, State.wr64, State.wr_host, State.wr_host]

/-- The words that a snapshot of `x` leaves for requester `i`. -/
structure Snapped (x : NocLive) (i : Nat) (t : State) : Prop where
  lo : t.rd (Reg.nocStat i 0) = BitVec.ofNat 32 x.bytes
  hi : t.rd (Reg.nocStat i 0 + 4) = BitVec.ofNat 32 (x.bytes / 2 ^ 32)
  packets : t.rd (Reg.nocStat i 2) = BitVec.ofNat 32 x.packets

theorem snapOne_snapped (s : State) (i : Nat) : Snapped (s.getLive i) i (s.snapOne i) := by
  unfold State.snapOne
  refine State.forAll_keeps ⟨?_, ?_, ?_⟩ fun t n _ h => ⟨?_, ?_, ?_⟩
  · simp [Reg.nocStat]
  · simp [Reg.nocStat]
  · simp
  · rw [State.wr_rd, if_neg (by simp only [Reg.nocStat]; omega)]; exact h.lo
  · rw [State.wr_rd, if_neg (by simp only [Reg.nocStat]; omega)]; exact h.hi
  · rw [State.wr_rd, if_neg (by simp only [Reg.nocStat]; omega)]; exact h.packets

theorem Snapped.snapOne {x : NocLive} {i j : Nat} (hij : j ≠ i) (h : Snapped x i s) : Snapped x i (s.snapOne j) := by
  obtain ⟨hlo, hhi, hpackets⟩ := h
  refine ⟨?_, ?_, ?_⟩
  · rw [(snapOne_only s j).reg _ (by simp only [Reg.nocStat]; omega)]; exact hlo
  · rw [(snapOne_only s j).reg _ (by simp only [Reg.nocStat]; omega)]; exact hhi
  · rw [(snapOne_only s j).reg _ (by simp only [Reg.nocStat]; omega)]; exact hpackets

theorem snapAll_snapped {i : Nat} (hi : i < 32) : Snapped (s.getLive i) i (s.forAll (List.range 32) State.snapOne) := by
  have hhost : (s.forAll (List.range 32) State.snapOne).host = s.host :=
    State.forAll_keeps (P := fun t => t.host = s.host) rfl fun t j _ h => (snapOne_host t j).trans h
  refine State.forAll_each (P := fun i t => t.host = s.host → Snapped (s.getLive i) i t) (fun t i _ h => ?_) (fun t j i _ _ hji ht h => ?_) i
    (List.mem_range.mpr hi) hhost
  · have hlive : t.getLive i = s.getLive i := by rw [State.getLive, (snapOne_host t i).symm.trans h, State.getLive]
    exact hlive ▸ snapOne_snapped t i
  · exact (ht ((snapOne_host t j).symm.trans h)).snapOne hji

theorem Snapped.rd64 {x : NocLive} {i : Nat} (h : Snapped x i t) : t.rd64 (Reg.nocStat i 0) = x.bytes % 2 ^ 64 := by
  rw [State.rd64, h.lo, h.hi, BitVec.toNat_ofNat, BitVec.toNat_ofNat]
  omega

theorem Snapped.count {x : NocLive} {i : Nat} (h : Snapped x i t) : t.fld (Reg.nocStat i 2) 0 32 = x.packets % 2 ^ 32 := by
  rw [State.fld, h.packets]
  simp [fldOf]

/-! ### Messages -/

/-- The OR of a vector rests on registers and queues alone. -/
theorem irqOr_congr (hr : t.regs = s.regs) (hq : t.queues = s.queues) (v : Nat) : t.irqOr v = s.irqOr v := by
  unfold State.irqOr State.fld State.bit State.rd State.getQ
  rw [hr, hq]

theorem mustSend_of_same (hr : t.regs = s.regs) (hq : t.queues = s.queues) (v : Nat) : s.mustSend t v = false := by
  unfold State.mustSend State.mode State.fld State.rd
  rw [irqOr_congr hr hq, hr]
  simp

/-- The end of a command that changes neither registers nor queues sends no message. -/
theorem settle_host_of_same (hr : t.regs = s.regs) (hq : t.queues = s.queues) : (State.settle s t).host = t.host := by
  show s.messages t = t.host
  unfold State.messages
  generalize t.host = h
  induction List.range 41 with
  | nil => rfl
  | cons v l ih => rw [List.foldl_cons, mustSend_of_same hr hq v]; exact ih

theorem send_of_open {h : HostIf} (v : Nat) (hl : h.linkUp = true) (he : h.msixEnable = true) (hf : h.msixFuncMask = false)
    (hm : h.msixMask.getLsbD v = false) : (h.send v).msgs = h.msgs ++ [v] := by
  unfold HostIf.send
  rw [if_neg (by simp [hl]), if_pos (by simp [he, hf, hm])]

theorem send_msgs (h : HostIf) (v : Nat) : ∃ l, (h.send v).msgs = h.msgs ++ l := by
  unfold HostIf.send
  split
  · exact ⟨[], (List.append_nil _).symm⟩
  · split
    · exact ⟨[v], rfl⟩
    · exact ⟨[], (List.append_nil _).symm⟩

/-- A message is sent, or its bit is pending. -/
theorem send_or_pending {h : HostIf} {v : Nat} (hv : v < 64) (hl : h.linkUp = true) :
    (h.send v).msgs = h.msgs ++ [v] ∨ (h.send v).pba.getLsbD v = true := by
  unfold HostIf.send
  rw [if_neg (by simp [hl])]
  split
  · exact .inl rfl
  · refine .inr ?_
    rw [BitVec.getLsbD_or, BitVec.getLsbD_ofNat, Nat.testBit_two_pow_self, decide_eq_true hv, Bool.true_and, Bool.or_true]

/-! ### MSI-X -/

/-- One vector is evaluated. -/
def State.evalVector (s : State) (v : Nat) : State :=
  if s.irqOr v || (!s.host.msixMask.getLsbD v && s.host.pba.getLsbD v) then
    ({ s with host := { s.host with pba := s.host.pba &&& ~~~BitVec.ofNat 64 (2 ^ v) } } : State).sendMsg v
  else s

theorem msixEval_eq (s : State) : s.msixEval = s.forAll (List.range 41) State.evalVector := rfl

theorem Only.evalVector (v : Nat) (h : Only m s t) (hh : m.host) : Only m s (t.evalVector v) := by
  unfold State.evalVector
  split
  · exact Only.sendMsg v (h.setHost (absurd hh) rfl rfl)
  · exact h

/-- What the evaluation of a vector leaves as it is: what the vectors wait for, and the masks. -/
structure EvalKept (s t : State) : Prop where
  regs : t.regs = s.regs
  queues : t.queues = s.queues
  quiet : t.host.quiet = s.host.quiet
  msgs : ∃ l, t.host.msgs = s.host.msgs ++ l

theorem EvalKept.refl (s : State) : EvalKept s s := ⟨rfl, rfl, rfl, [], (List.append_nil _).symm⟩

theorem EvalKept.trans {u : State} (h : EvalKept s t) (g : EvalKept t u) : EvalKept s u := by
  obtain ⟨l, hl⟩ := h.msgs
  obtain ⟨l', hl'⟩ := g.msgs
  exact ⟨g.regs.trans h.regs, g.queues.trans h.queues, g.quiet.trans h.quiet, l ++ l', by rw [hl', hl, List.append_assoc]⟩

theorem evalVector_kept (s : State) (v : Nat) : EvalKept s (s.evalVector v) := by
  unfold State.evalVector
  split
  · exact ⟨rfl, rfl, HostIf.send_quiet _ v, send_msgs _ v⟩
  · exact EvalKept.refl s

theorem evalVectors_kept (s : State) (l : List Nat) : EvalKept s (s.forAll l State.evalVector) :=
  State.forAll_keeps (EvalKept.refl s) fun t v _ h => h.trans (evalVector_kept t v)

theorem msixEval_kept (s : State) : EvalKept s s.msixEval := evalVectors_kept s _

/-- An open vector whose OR is 1 has its message sent. -/
theorem evalVector_sends {v : Nat} (hl : s.host.linkUp = true) (he : s.host.msixEnable = true) (hf : s.host.msixFuncMask = false)
    (hm : s.host.msixMask.getLsbD v = false) (hv : s.irqOr v = true) : (s.evalVector v).host.msgs = s.host.msgs ++ [v] := by
  unfold State.evalVector
  rw [if_pos (by rw [hv]; rfl)]
  exact send_of_open v hl he hf hm

theorem msixEval_sends {v : Nat} (hv : v < 41) (hl : s.host.linkUp = true) (he : s.host.msixEnable = true) (hf : s.host.msixFuncMask = false)
    (hm : s.host.msixMask.getLsbD v = false) (hor : s.irqOr v = true) : ∃ l, s.msixEval.host.msgs = s.host.msgs ++ l ∧ v ∈ l := by
  obtain ⟨front, back, hsplit⟩ := List.append_of_mem (List.mem_range.mpr hv)
  have hrun : s.msixEval = ((s.forAll front State.evalVector).evalVector v).forAll back State.evalVector := by
    rw [msixEval_eq, hsplit]
    simp only [State.forAll, List.foldl_append, List.foldl_cons]
  have hk := evalVectors_kept s front
  have hquiet := hk.quiet
  have hsent : ((s.forAll front State.evalVector).evalVector v).host.msgs = (s.forAll front State.evalVector).host.msgs ++ [v] :=
    evalVector_sends ((congrArg HostIf.linkUp hquiet :).trans hl) ((congrArg HostIf.msixEnable hquiet :).trans he)
      ((congrArg HostIf.msixFuncMask hquiet :).trans hf) ((congrArg (fun h => h.msixMask.getLsbD v) hquiet :).trans hm)
      ((irqOr_congr hk.regs hk.queues v).trans hor)
  obtain ⟨l, hl⟩ := hk.msgs
  obtain ⟨l', hl'⟩ := (evalVectors_kept ((s.forAll front State.evalVector).evalVector v) back).msgs
  exact ⟨l ++ [v] ++ l', by rw [hrun, hl', hsent, hl]; simp, by simp⟩

end Sys2Proof.Machine
end

section
/-! The packets' statement, from what each command changes. -/

namespace Sys2Proof.Machine

variable {m : May} {s t : State}

/-- Bits of the MSI-X state that the host sets (R366). -/
def State.msixPut (s : State) (enable funcMask : Bool) (mask : BitVec 64) : State :=
  { s with host := { s.host with msixEnable := enable, msixFuncMask := funcMask, msixMask := mask } }

/-- The link is up, with the configuration space that the host has set. -/
def State.linkSet (s : State) (conf : Option PciConf) : State := ({ s with host := { s.host with linkUp := true } } : State).pciSet conf

theorem msixSet_kept (enable funcMask : Bool) (mask : BitVec 64) : EvalKept (s.msixPut enable funcMask mask) (s.msixSet enable funcMask mask) := by
  unfold State.msixSet
  dsimp only
  split
  · exact msixEval_kept _
  · exact EvalKept.refl _

theorem Only.msixSet (enable funcMask : Bool) (mask : BitVec 64) (h : Only m s t) (hh : m.host) : Only m s (t.msixSet enable funcMask mask) := by
  have hp : Only m s (t.msixPut enable funcMask mask) := h.setHost (absurd hh) rfl rfl
  unfold State.msixSet
  dsimp only
  split
  · exact Only.forAll hp fun u v _ hu => hu.evalVector v hh
  · exact hp

theorem msixSet_evaluates {mask : BitVec 64} (h : s.host.msixEnable = false) : s.msixSet true false mask = (s.msixPut true false mask).msixEval := by
  unfold State.msixSet
  dsimp only
  rw [if_pos (by simp [h])]
  rfl

theorem linkSet_pci (conf : Option PciConf) : (s.linkSet conf).host.pci = match conf with
    | some c => { s.host.pci with conf := c }
    | none => s.host.pci := by
  cases conf <;> rfl

theorem linkSet_same (conf : Option PciConf) : (s.linkSet conf).regs = s.regs ∧ (s.linkSet conf).queues = s.queues
    ∧ (s.linkSet conf).host.msgs = s.host.msgs ∧ (s.linkSet conf).host.linkUp = true ∧ (s.linkSet conf).host.msixEnable = s.host.msixEnable := by
  cases conf <;> exact ⟨rfl, rfl, rfl, rfl, rfl⟩

theorem Only.linkSet (conf : Option PciConf) (h : Only m s t) (hh : m.host) : Only m s (t.linkSet conf) := by
  cases conf <;> exact h.setHost (absurd hh) rfl rfl

/-! ### A packet that is no service request -/

section Packet
variable {req : Requester} {fails bytes latency : Nat} {ask : NocAsk}

/-- What a packet that asks for no service may change. -/
def packetMay (req : Requester) (fails : Nat) (ask : NocAsk) : May :=
  { reg := fun a => a = Reg.nocEvt ∨ a = Reg.nocCrcCnt ∨ a = Reg.safEvtCnt, queue := fun q => q = Reg.safEvtLog, host := True
    cpl := fails = 2 ∧ ask = .read, key := fun r => fails = 2 ∧ r = req.toNat }

/-- What a packet that asks for no service leaves (R366, R370, R373). -/
structure Counted (s : State) (req : Requester) (fails bytes latency : Nat) (ask : NocAsk) (t : State) : Prop where
  live : t.getLive req.toNat = (s.getLive req.toNat).count bytes latency
  crc : t.fld Reg.nocCrcCnt 0 32 = if fails = 0 then s.fld Reg.nocCrcCnt 0 32 else min (s.fld Reg.nocCrcCnt 0 32 + 1) (2 ^ 32 - 1)
  evt : 1 ≤ fails → t.bit Reg.nocEvt 0 = true
  lost : fails = 2 → t.bit Reg.nocEvt 1 = true ∧ (ask = .read → t.cpl.status = .ca)
  only : Only (packetMay req fails ask) s t
  key : fails = 2 → t.keyLeft req.toNat = s.keyLeft req.toNat - if ask = .write ∨ req = 3 then 1 else 0

theorem countPacket_counted (hf : fails < 2) : Counted s req fails bytes latency ask (s.countPacket req.toNat fails bytes latency) where
  live := countPacket_getLive
  crc := countPacket_crc
  evt := countPacket_evt
  lost h := absurd h (by omega)
  only := (Only.refl _ s).countPacket (.inl rfl) (.inr (.inl rfl)) trivial
  key h := absurd h (by omega)

theorem packetLost_counted (hf : fails = 2) :
    Counted s req fails bytes latency ask ((s.countPacket req.toNat fails bytes latency).packetLost req.toNat ask) where
  live := (packetLost_getLive _).trans countPacket_getLive
  crc := packetLost_crc.trans countPacket_crc
  evt h := by rw [packetLost_evt, if_neg (by decide)]; exact countPacket_evt h
  lost _ := ⟨by rw [packetLost_evt, if_pos rfl], packetLost_cpl⟩
  only := by
    have hc : Only (packetMay req fails ask) s (s.countPacket req.toNat fails bytes latency) :=
      (Only.refl _ s).countPacket (.inl rfl) (.inr (.inl rfl)) trivial
    exact hc.packetLost (.inl rfl) (.inr (.inr rfl)) rfl (fun h => ⟨hf, h⟩) ⟨hf, rfl⟩
  key _ := by
    have h3 : req.toNat = 3 ↔ req = 3 := ⟨fun h => BitVec.eq_of_toNat_eq h, fun h => h ▸ rfl⟩
    have hc : (s.countPacket req.toNat fails bytes latency).keyLeft req.toNat = s.keyLeft req.toNat :=
      ((Only.refl { reg := fun a => a = Reg.nocEvt ∨ a = Reg.nocCrcCnt, host := True } s).countPacket (.inl rfl) (.inr rfl) trivial).key _ id
    simp only [packetLost_keyLeft, hc, h3]

theorem nocPacket_counted (hf : fails < 3) (hp : fails = 2 ∨ ask = .read ∨ ask = .write ∨ ask = .other) :
    Counted s req fails bytes latency ask (s.nocPacket req fails false ask bytes latency) := by
  by_cases h : fails = 2
  · rw [nocPacket_lost (Nat.le_of_eq h.symm)]
    exact packetLost_counted h
  · have hlt : fails < 2 := by omega
    rw [nocPacket_plain hlt (hp.resolve_left h)]
    exact countPacket_counted hlt

theorem nocPacket_reserves {a : BitVec 41} {attr : BitVec 2} {v row : Nat} (hf : fails < 2) (hloc : s.locate a.toNat = (v, row)) :
    let t := s.nocPacket req fails false (.service a attr) bytes latency
    t.getLive req.toNat = (s.getLive req.toNat).count bytes latency ∧ (t.getVault v).reserve = s.reserved req.toNat v row attr.toNat
      ∧ Only { reg := fun b => b = Reg.nocEvt ∨ b = Reg.nocCrcCnt, host := True, vault := fun u => u = v } s t := by
  intro t
  have hv : v < 256 := by have h := locate_lt (s := s) a.toNat; rwa [hloc] at h
  have hc : Only { reg := fun b => b = Reg.nocEvt ∨ b = Reg.nocCrcCnt, host := True } s (s.countPacket req.toNat fails bytes latency) :=
    (Only.refl _ s).countPacket (.inl rfl) (.inr rfl) trivial
  have hw : Only { reg := fun b => b = Reg.nocEvt ∨ b = Reg.nocCrcCnt, host := True, vault := fun u => u = v } s
      (s.countPacket req.toNat fails bytes latency) := (Only.refl _ s).countPacket (.inl rfl) (.inr rfl) trivial
  have hloc' : (s.countPacket req.toNat fails bytes latency).locate a.toNat = (v, row) := by
    rw [locate_congr a.toNat (hc.reg _ (by decide)), hloc]
  have hvault : (s.countPacket req.toNat fails bytes latency).getVault v = s.getVault v := hc.vault v id
  have hrow : (s.countPacket req.toNat fails bytes latency).rowRefused v row = s.rowRefused v row :=
    rowRefused_congr (hc.reg _ (by simp only [Reg.vltStat, Reg.nocEvt, Reg.nocCrcCnt]; omega)) (hc.reg _ (by decide))
  simp only [t, nocPacket_service hf]
  refine ⟨?_, ?_, hw.reserveRow (by rw [hloc'])⟩
  · rw [State.getLive, reserveRow_host]; exact countPacket_getLive
  · rw [reserveRow_reserve hloc', State.reserved, State.reserved, hrow, hvault, bufferHeld_congr hvault]

end Packet

/-- What a write of GLB_IRQ_EOI sends, at the end of its command. -/
theorem irqEoi_sends (r : Nat) {v : Nat} (hv : v < 64) (hor : s.irqOr v = true) (hl : s.host.linkUp = true) :
    (State.settle s ((s.txn r).irqEoi v)).host.msgs = s.host.msgs ++ [v] ∨ (State.settle s ((s.txn r).irqEoi v)).host.pba.getLsbD v = true := by
  have heq : (s.txn r).irqEoi v = (s.txn r).sendMsg v := if_pos hor
  rw [heq, settle_host_of_same (s := s) (t := (s.txn r).sendMsg v) rfl rfl]
  exact send_or_pending (h := (s.txn r).host) hv hl

theorem irqEoi_quiet (r : Nat) {v : Nat} (hor : s.irqOr v = false) :
    (State.settle s ((s.txn r).irqEoi v)).host.msgs = s.host.msgs ∧ (State.settle s ((s.txn r).irqEoi v)).host.pba = s.host.pba := by
  have heq : (s.txn r).irqEoi v = s.txn r := if_neg (by rw [show (s.txn r).irqOr v = false from hor]; decide)
  rw [heq, settle_host_of_same (s := s) (t := s.txn r) rfl rfl]
  exact ⟨rfl, rfl⟩

theorem Only.irqEoi (v : Nat) (h : Only m s t) : Only m s (t.irqEoi v) := by
  unfold State.irqEoi
  split
  · exact h.sendMsg v
  · exact h

/-- What the MSI-X settings leave at the end of their command. -/
structure MsixSet (s : State) (enable funcMask : Bool) (mask : BitVec 64) (conf : Option PciConf) (t : State) : Prop where
  on : t.host.msixEnable = enable
  func : t.host.msixFuncMask = funcMask
  masked : t.host.msixMask = mask
  link : t.host.linkUp = true
  pci : t.host.pci = match conf with
    | some c => { s.host.pci with conf := c }
    | none => s.host.pci
  sends : enable = true → funcMask = false → s.host.msixEnable = false → ∀ u, u < 41 → mask.getLsbD u = false → s.irqOr u = true →
    ∃ l, t.host.msgs = s.host.msgs ++ l ∧ u ∈ l
  only : Only { host := True } s t

theorem msixSet_settled (enable funcMask : Bool) (mask : BitVec 64) (conf : Option PciConf) :
    MsixSet s enable funcMask mask conf (State.settle s ((s.linkSet conf).msixSet enable funcMask mask)) := by
  obtain ⟨hregs, hqueues, hmsgs, hlink, hen⟩ := linkSet_same (s := s) conf
  have hk := msixSet_kept (s := s.linkSet conf) enable funcMask mask
  have hhost := settle_host_of_same (s := s) (hk.regs.trans hregs) (hk.queues.trans hqueues)
  have hquiet := hk.quiet
  constructor
  case on => rw [hhost]; exact (congrArg HostIf.msixEnable hquiet :)
  case func => rw [hhost]; exact (congrArg HostIf.msixFuncMask hquiet :)
  case masked => rw [hhost]; exact (congrArg HostIf.msixMask hquiet :)
  case link => rw [hhost]; exact (congrArg HostIf.linkUp hquiet :).trans hlink
  case pci => rw [hhost]; exact (congrArg HostIf.pci hquiet :).trans (linkSet_pci conf)
  case sends =>
    rintro rfl rfl hoff u hu hm hor
    rw [hhost, msixSet_evaluates (hen.trans hoff), ← hmsgs]
    exact msixEval_sends hu hlink rfl rfl hm ((irqOr_congr hregs hqueues u).trans hor)
  case only => exact (Only.msixSet enable funcMask mask ((Only.refl { host := True } s).linkSet conf trivial) trivial).settle s

theorem clearLive_getLive (j : Nat) : s.clearLive.getLive j = {} := rfl
theorem clearLive_rd64 (a : Nat) : s.clearLive.rd64 a = s.rd64 a := rfl
theorem clearLive_fld (a lo len : Nat) : s.clearLive.fld a lo len = s.fld a lo len := rfl

/-- What a snapshot leaves at the end of its command. -/
theorem nocSnap_settled (r : Nat) {j : Nat} (hj : j < 32) :
    (State.settle s (s.txn r).nocSnap).rd64 (Reg.nocStat j 0) = (s.getLive j).bytes % 2 ^ 64
      ∧ (State.settle s (s.txn r).nocSnap).fld (Reg.nocStat j 2) 0 32 = (s.getLive j).packets % 2 ^ 32
      ∧ (State.settle s (s.txn r).nocSnap).getLive j = {} := by
  have hsnap := snapAll_snapped (s := s.txn r) hj
  rw [State.settle_rd64, State.settle_fld, State.settle_getLive, nocSnap_eq, clearLive_getLive, clearLive_rd64, clearLive_fld]
  exact ⟨hsnap.rd64, hsnap.count, rfl⟩

theorem Only.nocSnap (h : Only m s t) (hr : ∀ a, Reg.nocStat 0 0 ≤ a → a < Reg.nocStat 32 0 → m.reg a) (hh : m.host) : Only m s t.nocSnap := by
  rw [nocSnap_eq]
  refine Only.setHost (Only.forAll h fun u i hi hu => hu.snapOne fun a h1 h2 => ?_) (absurd hh) rfl rfl
  have := List.mem_range.mp hi
  simp only [Reg.nocStat] at h1 h2
  exact hr a (by simp only [Reg.nocStat]; omega) (by simp only [Reg.nocStat]; omega)

theorem nocSnap_only (r : Nat) :
    Only { reg := fun a => Reg.nocStat 0 0 ≤ a ∧ a < Reg.nocStat 32 0, host := True, key := fun j => j = r } s (s.txn r).nocSnap :=
  Only.nocSnap ((Only.refl _ s).txn rfl) (fun _ h h' => ⟨h, h'⟩) trivial

/-- A write of NOC_ISO_CMD outside the key window. -/
theorem isoCmd_exec {req i : Requester} {c : Instr} (hc : c = .nocIsolate req i ∨ c = .nocRelease req i) (hr : s.reaches req = true)
    (hk : decide (0 < s.keyLeft req.toNat) = false) : exec c s = fin s ((s.txn req.toNat).keyRefused req.toNat Reg.nocIsoCmd) := by
  have h (w : Word) : s.onKeyed req (fun keyed s => s.isoCmd req w keyed) = (s.txn req.toNat).keyRefused req.toNat Reg.nocIsoCmd := by
    rw [State.onKeyed_of_reaches _ hr, hk, isoCmd_refused]
  obtain rfl | rfl := hc
  · exact congrArg (fin s) (h (i.setWidth 32))
  · exact congrArg (fin s) (h (i.setWidth 32 ||| 0x20#32))

theorem isoCmd_refusal (req : Requester) : (State.settle s ((s.txn req.toNat).keyRefused req.toNat Reg.nocIsoCmd)).bit Reg.glbKeyErr 31 = true
    ∧ Only { reg := fun r => r = Reg.glbKeyErr ∨ r = Reg.glbKeyCnt, key := fun r => r = req.toNat } s
      (State.settle s ((s.txn req.toNat).keyRefused req.toNat Reg.nocIsoCmd)) := by
  have htxn : Only { reg := fun r => r = Reg.glbKeyErr ∨ r = Reg.glbKeyCnt, key := fun r => r = req.toNat } s (s.txn req.toNat) :=
    (Only.refl _ s).txn rfl
  exact ⟨(State.settle_bit ..).trans (State.keyRefused_bit ..), (htxn.keyRefused (.inl rfl) (.inr rfl)).settle s⟩

/-- Settles O47, by what each command of the network leaves. -/
theorem network : Obligations.Network := by
  intro req i fails ask enable funcMask conf bytes latency v mask s key keyed live isolated
  have htxn (m : May) (h : m.key req.toNat) : Only m s (s.txn req.toNat) := (Only.refl m s).txn h
  have isolates {t : State} {j : Nat} (h : Isolated t j) : isolated (State.settle s t) j := by
    obtain ⟨h1, h2, h3, h4⟩ := h.settle s
    exact ⟨h1, h2, h3, h4⟩
  refine ⟨fun hr hp => ?_, fun a attr u row hr hf hask hloc => ?_, fun hr hreq _ _ => ?_, fun hr hk hi _ _ => ?_, fun hr hk => ?_, fun hr hk hi => ?_,
    fun hr hk => ?_, fun c hc hr hk => ?_, fun hr => ?_, fun hr => ?_, fun hmode => ?_⟩
  · obtain ⟨hlive, hcrc, hevt, hlost, honly, hkey⟩ := nocPacket_counted (s := s) (req := req) (bytes := bytes) (latency := latency) fails.isLt hp
    refine Answers.of_fin (congrArg (fin s) (if_pos hr)) ?_
    exact ⟨(State.settle_getLive ..).trans hlive, hcrc, hevt, hlost, honly.settle s, fun h => (State.settle_keyLeft ..).trans (hkey h)⟩
  · subst hask
    obtain ⟨hlive, hreserve, honly⟩ := nocPacket_reserves (req := req) (attr := attr) (bytes := bytes) (latency := latency) hf hloc
    refine Answers.of_fin (congrArg (fin s) (if_pos hr)) ?_
    refine ⟨(State.settle_getLive ..).trans hlive, hreserve.trans ?_, honly.settle s⟩
    have h1 : attr = 1 ↔ attr.toNat = 1 := ⟨fun h => h ▸ rfl, fun h => BitVec.eq_of_toNat_eq h⟩
    have h2 : attr = 2 ↔ attr.toNat = 2 := ⟨fun h => h ▸ rfl, fun h => BitVec.eq_of_toNat_eq h⟩
    simp only [State.reserved, h1, h2]
  · refine Answers.of_fin (congrArg (fin s) (if_pos hr)) ?_
    have hne : req.toNat ≠ 0 := fun h => hreq (BitVec.eq_of_toNat_eq h)
    refine ⟨isolates (isolate_isolated req.isLt hne), ?_⟩
    rw [State.settle_bit, nocPacket_malformed, isolate_evt hne (by decide), if_neg (by decide)]
    exact State.setBit_bit _ _ 2 true (by decide)
  · have hne : i.toNat ≠ 0 := fun h => hi (BitVec.eq_of_toNat_eq h)
    refine Answers.of_fin (congrArg (fin s) (State.onKeyed_of_reaches _ hr)) ?_
    rw [show decide (0 < s.keyLeft req.toNat) = true from hk, isoCmd_isolate]
    refine ⟨isolates (isolate_isolated i.isLt hne), fun j _ hj => ?_⟩
    rw [State.settle_bit, isolate_iso i.isLt hne, if_neg hj]
    rfl
  · refine Answers.of_fin (congrArg (fin s) (State.onKeyed_of_reaches _ hr)) ?_
    rw [show decide (0 < s.keyLeft req.toNat) = true from hk, isoCmd_isolate]
    exact (htxn _ rfl).settle s
  · refine Answers.of_fin (congrArg (fin s) (State.onKeyed_of_reaches _ hr)) ?_
    have hne : i.toNat ≠ 3 := fun h => hi (BitVec.eq_of_toNat_eq h)
    rw [show decide (0 < s.keyLeft req.toNat) = true from hk, isoCmd_release, State.isoRelease, if_neg hne]
    exact ⟨(State.settle_bit ..).trans (State.setBit_bit _ _ _ _ i.isLt), ((htxn _ rfl).setBit _ _ rfl).settle s⟩
  · refine Answers.of_fin (congrArg (fin s) (State.onKeyed_of_reaches _ hr)) ?_
    rw [show decide (0 < s.keyLeft req.toNat) = true from hk, isoCmd_release]
    exact (htxn _ rfl).settle s
  · obtain rfl | rfl : c = .nocIsolate req i ∨ c = .nocRelease req i := by simpa using hc
    · exact Answers.of_fin (isoCmd_exec (.inl rfl) hr hk) (isoCmd_refusal req)
    · exact Answers.of_fin (isoCmd_exec (.inr rfl) hr hk) (isoCmd_refusal req)
  · refine Answers.of_fin (congrArg (fin s) (State.onWrite_of_reaches _ hr)) ?_
    exact ⟨fun j hj => nocSnap_settled _ hj, (nocSnap_only req.toNat).settle s⟩
  · refine Answers.of_fin (congrArg (fin s) (State.onWrite_of_reaches _ hr)) ?_
    exact ⟨fun h _ hl => irqEoi_sends _ v.isLt h hl, fun h => irqEoi_quiet _ h, ((htxn _ rfl).irqEoi _).settle s⟩
  · obtain ⟨h1, h2, h3, h4, h5, h6, h7⟩ := msixSet_settled (s := s) enable funcMask mask conf
    exact Answers.of_fin (congrArg (fin s) (if_neg hmode)) ⟨h1, h2, h3, h4, h5, h6, h7⟩

end Sys2Proof.Machine
end

section
/-! The addresses of BAR0 by kind (R6 to R11): which registers are queues, locks, halves of pairs or read-clear, and which a plain write reaches. -/

namespace Sys2Proof.Machine

/-! ### Banks of registers -/

/-- A bank of registers: `n1` × `n2` of them, `s1` and `s2` bytes apart. -/
structure Bank where
  base : Nat
  n1 : Nat
  s1 : Nat
  n2 : Nat
  s2 : Nat

/-- The address of a register of the bank. -/
def Bank.at (b : Bank) (i j : Nat) : Nat := b.base + b.s1 * i + b.s2 * j

def Bank.has (b : Bank) (a : Nat) : Bool := inBank b.base b.n1 b.s1 b.n2 b.s2 a

/-- Its addresses. -/
def Bank.list (b : Bank) : List Nat := (List.range b.n1).flatMap fun i => (List.range b.n2).map fun j => b.at i j

theorem Bank.mem_list {b : Bank} {i j : Nat} (hi : i < b.n1) (hj : j < b.n2) : b.at i j ∈ b.list :=
  List.mem_flatMap.mpr ⟨i, List.mem_range.mpr hi, List.mem_map.mpr ⟨j, List.mem_range.mpr hj, rfl⟩⟩

/-- An offset is its indices' steps where nothing is left over. -/
theorem offset_eq {o s1 s2 : Nat} (h : o % s1 % s2 = 0) : o = s1 * (o / s1) + s2 * (o % s1 / s2) := by
  have h1 := Nat.div_add_mod o s1
  have h2 := Nat.div_add_mod (o % s1) s2
  omega

theorem Bank.mem_list_of_has {b : Bank} {a : Nat} (h : b.has a = true) : a ∈ b.list := by
  obtain ⟨⟨⟨hbase, hi⟩, hj⟩, hrest⟩ : ((b.base ≤ a ∧ (a - b.base) / b.s1 < b.n1) ∧ (a - b.base) % b.s1 / b.s2 < b.n2)
      ∧ (a - b.base) % b.s1 % b.s2 = 0 := by
    simpa [Bank.has, inBank] using h
  have ha : a = b.at ((a - b.base) / b.s1) ((a - b.base) % b.s1 / b.s2) := by
    have := offset_eq hrest
    rw [Bank.at]
    omega
  exact ha ▸ Bank.mem_list hi hj

/-- Every address of some banks. -/
def bankList (l : List Bank) : List Nat := l.flatMap Bank.list

theorem mem_bankList {l : List Bank} {a : Nat} (h : l.any (fun b => b.has a) = true) : a ∈ bankList l := by
  obtain ⟨b, hb, ha⟩ := List.any_eq_true.mp h
  exact List.mem_flatMap.mpr ⟨b, hb, Bank.mem_list_of_has ha⟩

/-! ### Queues, locks, memory windows and pairs -/

/-- The lo halves of pairs and of their active copies. -/
def loBanks : List Bank :=
  [⟨Reg.glbUidLo, 1, 8, 1, 8⟩, ⟨Reg.glbIrqPendLo, 1, 8, 1, 8⟩, ⟨Reg.glbDmaRingLo 0, 2, 0x40, 1, 8⟩,
    ⟨Reg.glbIntegLo 0, 16, 8, 1, 8⟩, ⟨Reg.safCalTscLo 0, 529, 16, 1, 8⟩, ⟨Reg.nocStat 0 0, 32, 0x40, 1, 8⟩,
    ⟨Reg.seqCycleLo 0, 16, 0x10000, 2, 8⟩, ⟨Reg.seqSvmask 0 0, 16, 0x10000, 3, 8⟩,
    ⟨Reg.seqSvmask 0 0 + 0x200, 16, 0x10000, 3, 8⟩, ⟨Reg.cfgBuildLo, 1, 8, 1, 8⟩, ⟨Reg.cfgInuseLo 0, 16, 8, 1, 8⟩,
    ⟨Reg.capMapBase 0 0, 16, 0x10000, 2, 8⟩, ⟨Reg.capLogBase 0 0, 16, 0x10000, 1, 8⟩,
    ⟨Reg.capCmpmask 0 0, 16, 0x10000, 1, 8⟩, ⟨Reg.capMapBase 0 0 + 0x200, 16, 0x10000, 2, 8⟩,
    ⟨Reg.capLogBase 0 0 + 0x200, 16, 0x10000, 1, 8⟩, ⟨Reg.capCmpmask 0 0 + 0x200, 16, 0x10000, 1, 8⟩,
    ⟨Reg.capFcycLo 0, 16, 0x10000, 4, 8⟩, ⟨Reg.capFallbackLo 0, 16, 0x10000, 1, 8⟩,
    ⟨Reg.rpaSolBase 0 0, 16, 0x10000, 1, 8⟩, ⟨Reg.rpaSolBase 0 0 + 0x200, 16, 0x10000, 1, 8⟩,
    ⟨Reg.vltMntDataLo 0, 256, 0x1000, 1, 8⟩, ⟨Reg.wfeStrTrigLo 0, 16, 0x10000, 1, 8⟩,
    ⟨Reg.fabDevBase 0 0, 16, 8, 1, 8⟩]

theorem isLo_eq (a : Nat) : isLo a = loBanks.any (fun b => b.has a) := by
  simp [isLo, loBanks, Bank.has, Bool.or_assoc]

theorem mem_lo {a : Nat} (h : isLo a = true) : a ∈ bankList loBanks := mem_bankList (isLo_eq a ▸ h)

/-- The banks of queues, of locks and of the memory windows of the waveform engines. -/
def sideBanks : List Bank :=
  [⟨Reg.seqIrq 0, 16, 0x10000, 1, 4⟩, ⟨Reg.vltPoisonLog 0, 256, 0x1000, 1, 4⟩, ⟨Reg.wfeIrq 0, 16, 0x10000, 1, 4⟩,
    ⟨Reg.spdLock 0, 16, 4, 1, 4⟩, ⟨Reg.wfeMemData 0, 16, 0x10000, 1, 4⟩]

/-- The registers of one address each that a read shows otherwise than as they are stored (R9, R16, R366, R396). -/
def sideSingles : List Nat :=
  [Reg.fabResLog, Reg.fabZbusLog, Reg.cfgUpsetLog, Reg.safEvtLog, Reg.spdErrLog, Reg.glbKey, Reg.glbIrqPendLo, Reg.glbIrqPendHi, Reg.cpuDbgCsrData]

/-- The register at `a` is read otherwise than as it is stored. -/
def readsAside (a : Nat) : Bool := sideSingles.contains a || sideBanks.any (fun b => b.has a)

theorem readsAside_of_queue {a : Nat} (h : isQueue a = true) : readsAside a = true := by
  simp only [isQueue, Bool.or_eq_true, beq_iff_eq] at h
  simp only [readsAside, sideSingles, sideBanks, Bank.has, List.any_cons, Bool.or_eq_true, List.contains_cons, beq_iff_eq]
  tauto

theorem readsAside_of_lock {a : Nat} (h : isLock a = true) : readsAside a = true := by
  simp only [readsAside, sideBanks, Bank.has, List.any_cons, show inBank (Reg.spdLock 0) 16 4 1 4 a = true from h, Bool.or_true, Bool.true_or]

theorem readsAside_of_memData {a : Nat} (h : isMemData a = true) : readsAside a = true := by
  simp only [readsAside, sideBanks, Bank.has, List.any_cons, show inBank (Reg.wfeMemData 0) 16 0x10000 1 4 a = true from h, Bool.or_true, Bool.true_or]

/-- An address that is read as it is stored is no queue, lock or memory window, and none of the registers that show something else. -/
theorem not_aside {a : Nat} (h : readsAside a = false) : isQueue a = false ∧ isLock a = false ∧ isMemData a = false ∧ a ≠ Reg.glbKey
    ∧ a ≠ Reg.glbIrqPendLo ∧ a ≠ Reg.glbIrqPendHi ∧ a ≠ Reg.cpuDbgCsrData := by
  refine ⟨?_, ?_, ?_, ?_, ?_, ?_, ?_⟩
  · exact Bool.eq_false_iff.mpr fun hq => by simp [readsAside_of_queue hq] at h
  · exact Bool.eq_false_iff.mpr fun hq => by simp [readsAside_of_lock hq] at h
  · exact Bool.eq_false_iff.mpr fun hq => by simp [readsAside_of_memData hq] at h
  all_goals
    rintro rfl
    exact absurd h (by decide)

/-- Each has an entry in the register map. -/
theorem regInfo_isSome_of_aside {a : Nat} (h : readsAside a = true) : (regInfo a).isSome = true := by
  have hall : ∀ b ∈ sideSingles ++ bankList sideBanks, (regInfo b).isSome = true := by decide +kernel
  refine hall a (List.mem_append.mpr ?_)
  rcases (Bool.or_eq_true _ _).mp h with h | h
  · exact .inl (List.contains_iff_mem.mp h)
  · exact .inr (mem_bankList h)

/-- A lo half is no queue, lock or memory window, and neither is its hi half, which is no lo half. -/
theorem lo_plain {a : Nat} (h : isLo a = true) : (isQueue a = false ∧ isLock a = false ∧ isMemData a = false)
    ∧ (isQueue (a + 4) = false ∧ isLock (a + 4) = false ∧ isMemData (a + 4) = false ∧ isLo (a + 4) = false) := by
  have hall : ∀ b ∈ bankList loBanks, (isQueue b = false ∧ isLock b = false ∧ isMemData b = false)
    ∧ (isQueue (b + 4) = false ∧ isLock (b + 4) = false ∧ isMemData (b + 4) = false ∧ isLo (b + 4) = false) := by decide +kernel
  exact hall a (mem_lo h)

theorem hi_plain {a : Nat} (h : isHi a = true) : isQueue a = false ∧ isLock a = false ∧ isMemData a = false ∧ isLo a = false := by
  obtain ⟨h4, hlo⟩ : 4 ≤ a ∧ isLo (a - 4) = true := by simpa [isHi] using h
  have := (lo_plain hlo).2
  rwa [Nat.sub_add_cancel h4] at this

/-! ### The register map -/

/-- The addresses of a family's registers at base `b`. -/
def RegFam.bank (f : RegFam) (b : Nat) : Bank := ⟨b, f.n1, f.s1, f.n2, f.s2⟩

theorem RegFam.mem_of_indexAt {f : RegFam} {b a i j : Nat} (h : f.indexAt b a = some (i, j)) : a ∈ (f.bank b).list := by
  unfold RegFam.indexAt at h
  split at h
  · cases h
  · next hb =>
    dsimp only at h
    split at h
    · next hin =>
      obtain ⟨hi, hj, hrest⟩ := hin
      exact Bank.mem_list_of_has (b := f.bank b) (by simp [Bank.has, RegFam.bank, inBank, Nat.not_lt.mp hb, hi, hj, hrest])
    · cases h

/-- What the map says of an address comes from a family that holds it. -/
theorem lookupReg_mem {fs : List RegFam} {a : Nat} {r : RegInfo} (h : lookupReg fs a = some r) :
    ∃ f ∈ fs, r.rc = f.rc ∧ (a ∈ (f.bank f.base).list ∨ a ∈ (f.bank (f.base + f.act)).list) := by
  induction fs with
  | nil => cases h
  | cons f fs ih =>
    have later (h : lookupReg fs a = some r) : ∃ g ∈ f :: fs, r.rc = g.rc ∧ (a ∈ (g.bank g.base).list ∨ a ∈ (g.bank (g.base + g.act)).list) := by
      obtain ⟨g, hg, hrest⟩ := ih h
      exact ⟨g, List.mem_cons_of_mem _ hg, hrest⟩
    unfold lookupReg at h
    split at h
    · next i j hi =>
      obtain rfl := Option.some.inj h
      exact ⟨f, List.mem_cons_self, rfl, .inl (RegFam.mem_of_indexAt hi)⟩
    · split at h
      · exact later h
      · split at h
        · next i j hi =>
          obtain rfl := Option.some.inj h
          exact ⟨f, List.mem_cons_self, rfl, .inr (RegFam.mem_of_indexAt hi)⟩
        · exact later h

/-- The families of every block. -/
def regBlocks : List (List RegFam) :=
  [regsGlb, regsPmu, regsClk, regsThm, regsSaf, regsNoc, regsSpd, regsCpu, regsLnk, regsSeq, regsCfg, regsCap, regsRpa, regsVlt, regsWfe, regsFab, []]

theorem mem_ite {α : Type} {p : Prop} [Decidable p] {x y : α} {l : List α} (hx : x ∈ l) (hy : y ∈ l) : (if p then x else y) ∈ l := by
  split
  · exact hx
  · exact hy

theorem blockRegs_mem (a : Nat) : blockRegs a ∈ regBlocks := by
  have at_ (i : Nat) {l : List RegFam} (h : regBlocks[i]? = some l) : l ∈ regBlocks := List.mem_of_getElem? h
  unfold blockRegs
  refine mem_ite (at_ 0 rfl) ?_
  refine mem_ite (at_ 1 rfl) ?_
  refine mem_ite (at_ 2 rfl) ?_
  refine mem_ite (at_ 3 rfl) ?_
  refine mem_ite (at_ 4 rfl) ?_
  refine mem_ite (at_ 5 rfl) ?_
  refine mem_ite (at_ 6 rfl) ?_
  refine mem_ite (at_ 7 rfl) ?_
  refine mem_ite (at_ 8 rfl) ?_
  refine mem_ite (at_ 9 rfl) ?_
  refine mem_ite (at_ 10 rfl) ?_
  refine mem_ite (at_ 11 rfl) ?_
  refine mem_ite (at_ 12 rfl) ?_
  refine mem_ite (at_ 13 rfl) ?_
  refine mem_ite (at_ 14 rfl) ?_
  refine mem_ite (at_ 15 rfl) ?_
  exact at_ 16 rfl

/-- The addresses of the families with bits that a read clears. -/
def rcList : List Nat :=
  (regBlocks.flatten.filter (fun f => f.rc != 0)).flatMap fun f => (f.bank f.base).list ++ (f.bank (f.base + f.act)).list

theorem mem_rcList {a : Nat} (h : rcBits a ≠ 0) : a ∈ rcList := by
  unfold rcBits at h
  split at h
  · next r hr =>
    obtain ⟨f, hf, hrc, ha⟩ := lookupReg_mem hr
    have hall : f ∈ regBlocks.flatten := List.mem_flatten.mpr ⟨_, blockRegs_mem a, hf⟩
    exact List.mem_flatMap.mpr ⟨f, List.mem_filter.mpr ⟨hall, by simpa [← hrc] using h⟩, List.mem_append.mpr ha⟩
  · exact absurd rfl h

/-- The register at `a` shows what its unit does now. -/
def isLive (a : Nat) : Bool :=
  [Reg.fabPenStat, Reg.cpuDbgStat, Reg.vltLapDev].contains a
    || [(⟨Reg.seqCycleLo 0, 16, 0x10000, 1, 4⟩ : Bank), ⟨Reg.seqCycleHi 0, 16, 0x10000, 1, 4⟩, ⟨Reg.seqStatus 0, 16, 0x10000, 1, 4⟩,
      ⟨Reg.seqX 0 15, 16, 0x10000, 1, 4⟩, ⟨Reg.seqPc 0, 16, 0x10000, 1, 4⟩, ⟨Reg.safBistDebt 0, 16, 4, 1, 4⟩, ⟨Reg.safMargin 0, 16, 4, 1, 4⟩].any
        (fun b => b.has a)

theorem liveValue_of_not_isLive {a : Nat} (s : State) (h : isLive a = false) : s.liveValue a = none := by
  simp only [isLive, Bank.has, List.any_cons, List.any_nil, List.contains_cons, List.contains_nil, Bool.or_eq_false_iff, Bool.or_false, beq_eq_false_iff_ne] at h
  simp [State.liveValue, h]

/-- A register with bits that a read clears is stored, no half of a pair, and shows what is stored. -/
theorem rc_plain {a : Nat} (h : rcBits a ≠ 0) : readsAside a = false ∧ isLo a = false ∧ isHi a = false ∧ isLive a = false
    ∧ (regInfo a).isNone = false := by
  have hall : ∀ b ∈ rcList, readsAside b = false ∧ isLo b = false ∧ isHi b = false ∧ isLive b = false ∧ (regInfo b).isNone = false := by
    decide +kernel
  exact hall a (mem_rcList h)

/-! ### Which writes are plain -/

/-- The writes of block GLB that do more (R16, R51, R57, R366, R369, R455). -/
def glbActs (a : Nat) : Bool :=
  [Reg.glbKey, Reg.glbKeyErr, Reg.glbIrqEoi, Reg.glbModeCmd, Reg.glbResetCtl, Reg.glbIntegClr].contains a || inBank (Reg.glbDmaCtl 0) 2 0x40 8 4 a

/-- The writes of block SEQ that do more (R85, R104, R105). -/
def seqActs (a : Nat) : Bool :=
  [Reg.seqGstart, Reg.seqGstop, Reg.seqXflags, Reg.seqXflagsClr].contains a || [0, 0x38, 0x15C].contains ((a - Reg.seqCtl 0) % 0x10000)
    || (decide (0x100 ≤ (a - Reg.seqCtl 0) % 0x10000) && decide ((a - Reg.seqCtl 0) % 0x10000 < 0x1C0))

/-- The writes of block WFE that do more (R341, R344, R352). -/
def wfeActs (a : Nat) : Bool := [0, 0x14, 0x20].contains ((a - Reg.wfeCtl 0) % 0x10000)

/-- A write at `a` is stored by the access types of its register, and does nothing else; of the blocks that hold shadow registers. -/
def writesPlainly (a : Nat) : Bool :=
  (commitAt a).isNone &&
  if a < 0x100000 then !glbActs a
  else if a < 0x180000 then true
  else if a < 0x300000 then false
  else if a < 0x380000 then a != Reg.nocIsoCmd && a != Reg.nocStatCtl
  else if a < 0x400000 then !isLock a
  else if a < 0x800000 then false
  else if a < 0xC00000 then !inBank (Reg.lnkInject 0) 512 0x400 1 4 a && a != Reg.lnkMeasure
  else if a < 0x1000000 then
    !seqActs a
  else if a < 0x1400000 then a != Reg.cfgCtl && a != Reg.cfgRelease
  else if a < 0x1800000 then !inBank (Reg.capCtl 0) 16 0x10000 1 4 a
  else if a < 0x2000000 then !inBank (Reg.rpaCtl 0) 16 0x10000 1 4 a
  else if a < 0x2800000 then !inBank (Reg.vltMntCmd 0) 256 0x1000 1 4 a && a != Reg.vltCfg && a != Reg.vltFuseCmd
  else if a < 0x3000000 then !wfeActs a
  else false

section Plain
variable {s : State} {req : Requester} {a : Nat} {v : Word} {keyed : Bool} {x : WriteAux}

theorem writeGlb_plain (h : glbActs a = false) : s.writeGlb req a v keyed x = s.plainWrite req a v keyed := by
  simp only [glbActs, List.contains_cons, List.contains_nil, Bool.or_eq_false_iff, Bool.or_false, beq_eq_false_iff_ne] at h
  obtain ⟨⟨h1, h2, h3, h4, h5, h6⟩, h7⟩ := h
  unfold State.writeGlb
  rw [if_neg h1, if_neg h2, if_neg h3, if_neg h4, if_neg h5, if_neg h6, h7]
  rfl

theorem writeNoc_plain (h1 : a ≠ Reg.nocIsoCmd) (h2 : a ≠ Reg.nocStatCtl) : s.writeNoc req a v keyed = s.plainWrite req a v keyed := by
  unfold State.writeNoc
  rw [if_neg h1, if_neg h2]

theorem writeLnk_plain (h1 : inBank (Reg.lnkInject 0) 512 0x400 1 4 a = false) (h2 : a ≠ Reg.lnkMeasure) :
    s.writeLnk req a v keyed = s.plainWrite req a v keyed := by
  unfold State.writeLnk
  rw [if_neg (by rw [h1]; decide), if_neg h2]

theorem writeSeq_plain (h : seqActs a = false) : s.writeSeq req a v keyed x = s.plainWrite req a v keyed := by
  simp only [seqActs, List.contains_cons, List.contains_nil, Bool.or_eq_false_iff, Bool.or_false, beq_eq_false_iff_ne] at h
  obtain ⟨⟨⟨h1, h2, h3, h4⟩, h5, h6, h7⟩, h8⟩ := h
  unfold State.writeSeq
  dsimp only
  rw [if_neg h1, if_neg h2, if_neg h3, if_neg h4, if_neg h5, if_neg h6, if_neg h7, if_neg (by simpa using h8)]

theorem writeCfg_plain (h1 : a ≠ Reg.cfgCtl) (h2 : a ≠ Reg.cfgRelease) : s.writeCfg req a v keyed = s.plainWrite req a v keyed := by
  unfold State.writeCfg
  rw [if_neg h1, if_neg h2]

theorem writeVlt_plain (h1 : inBank (Reg.vltMntCmd 0) 256 0x1000 1 4 a = false) (h2 : a ≠ Reg.vltCfg) (h3 : a ≠ Reg.vltFuseCmd) :
    s.writeVlt req a v keyed = s.plainWrite req a v keyed := by
  unfold State.writeVlt
  rw [if_neg (by rw [h1]; decide), if_neg h2, if_neg h3]

theorem writeWfe_plain (h : wfeActs a = false) : s.writeWfe req a v keyed = s.plainWrite req a v keyed := by
  simp only [wfeActs, List.contains_cons, List.contains_nil, Bool.or_eq_false_iff, Bool.or_false, beq_eq_false_iff_ne] at h
  obtain ⟨h1, h2, h3⟩ := h
  unfold State.writeWfe
  dsimp only
  split
  · exact absurd ‹_› h1
  · exact absurd ‹_› h2
  · exact absurd ‹_› h3
  · rfl

/-- A plain write goes to its register by the access types, whatever the block. -/
theorem writeReg_plain (h : writesPlainly a = true) : s.writeReg req a v keyed x = s.plainWrite req a v keyed := by
  by_cases hn : (regInfo a).isNone = true
  · unfold State.writeReg State.plainWrite
    rw [if_pos hn, Option.isNone_iff_eq_none.mp hn]
  · unfold State.writeReg
    unfold writesPlainly at h
    rw [Bool.and_eq_true] at h
    obtain ⟨hcommit, h⟩ := h
    rw [if_neg hn, Option.isNone_iff_eq_none.mp hcommit]
    dsimp only
    by_cases h1 : a < 0x100000
    · rw [if_pos h1] at h ⊢
      exact writeGlb_plain (by simpa using h)
    rw [if_neg h1] at h ⊢
    by_cases h2 : a < 0x180000
    · rw [if_pos h2]
    rw [if_neg h2] at h ⊢
    by_cases h3 : a < 0x300000
    · simp [h3] at h
    rw [if_neg h3] at h
    rw [if_neg (by omega), if_neg (by omega), if_neg h3]
    by_cases h4 : a < 0x380000
    · rw [if_pos h4] at h ⊢
      obtain ⟨hiso, hstat⟩ : a ≠ Reg.nocIsoCmd ∧ a ≠ Reg.nocStatCtl := by simpa using h
      exact writeNoc_plain hiso hstat
    rw [if_neg h4] at h ⊢
    by_cases h5 : a < 0x400000
    · rw [if_pos h5] at h ⊢
      exact if_neg (by simpa using h)
    rw [if_neg h5] at h ⊢
    by_cases h6 : a < 0x800000
    · simp [h6] at h
    rw [if_neg h6] at h ⊢
    by_cases h7 : a < 0xC00000
    · rw [if_pos h7] at h ⊢
      obtain ⟨hinject, hmeasure⟩ : inBank (Reg.lnkInject 0) 512 0x400 1 4 a = false ∧ a ≠ Reg.lnkMeasure := by simpa using h
      exact writeLnk_plain hinject hmeasure
    rw [if_neg h7] at h ⊢
    by_cases h8 : a < 0x1000000
    · rw [if_pos h8] at h ⊢
      exact writeSeq_plain (by simpa using h)
    rw [if_neg h8] at h ⊢
    by_cases h9 : a < 0x1400000
    · rw [if_pos h9] at h ⊢
      obtain ⟨hctl, hrelease⟩ : a ≠ Reg.cfgCtl ∧ a ≠ Reg.cfgRelease := by simpa using h
      exact writeCfg_plain hctl hrelease
    rw [if_neg h9] at h ⊢
    by_cases h10 : a < 0x1800000
    · rw [if_pos h10] at h ⊢
      exact if_neg (by simpa using h)
    rw [if_neg h10] at h ⊢
    by_cases h11 : a < 0x2000000
    · rw [if_pos h11] at h ⊢
      exact if_neg (by simpa using h)
    rw [if_neg h11] at h ⊢
    by_cases h12 : a < 0x2800000
    · rw [if_pos h12] at h ⊢
      obtain ⟨⟨hmnt, hcfg⟩, hfuse⟩ : (inBank (Reg.vltMntCmd 0) 256 0x1000 1 4 a = false ∧ a ≠ Reg.vltCfg) ∧ a ≠ Reg.vltFuseCmd := by simpa using h
      exact writeVlt_plain hmnt hcfg hfuse
    rw [if_neg h12] at h ⊢
    by_cases h13 : a < 0x3000000
    · rw [if_pos h13] at h ⊢
      exact writeWfe_plain (by simpa using h)
    · simp [h13] at h

end Plain

/-- Every shadow register is written plainly. -/
theorem writesPlainly_of_commitGroups {c : CommitReg} {a : Nat} (h : a ∈ (commitGroups c).flatten) : writesPlainly a = true := by
  have seq : ∀ k, ∀ b ∈ (commitGroups (.seq k)).flatten, writesPlainly b = true := by decide +kernel
  have lnk : ∀ k, ∀ b ∈ (commitGroups (.lnk k)).flatten, writesPlainly b = true := by decide +kernel
  have cap : ∀ k, ∀ b ∈ (commitGroups (.cap k)).flatten, writesPlainly b = true := by decide +kernel
  have rpa : ∀ k, ∀ b ∈ (commitGroups (.rpa k)).flatten, writesPlainly b = true := by decide +kernel
  have wfe : ∀ k, ∀ b ∈ (commitGroups (.wfe k)).flatten, writesPlainly b = true := by decide +kernel
  have rest : ∀ c ∈ [CommitReg.vlt, .cfg, .pmu, .noc, .spd], ∀ b ∈ (commitGroups c).flatten, writesPlainly b = true := by decide +kernel
  cases c with
  | seq k => exact seq k a h
  | lnk w => exact lnk w a h
  | cap k => exact cap k a h
  | rpa k => exact rpa k a h
  | wfe k => exact wfe k a h
  | vlt => exact rest _ (by simp) a h
  | cfg => exact rest _ (by simp) a h
  | pmu => exact rest _ (by simp) a h
  | noc => exact rest _ (by simp) a h
  | spd => exact rest _ (by simp) a h

end Sys2Proof.Machine
end

section
/-! Reads and writes of BAR0 by what they do (R6 to R11, R16, R359, R362). -/

namespace Sys2Proof.Machine

variable {m : May} {s t u : State} {req : Requester} {n : Nat} {v w : Word} {x : WriteAux}

/-! ### Reads -/

theorem Only.complete (st : CplStatus) (v : Word) (h : Only m s t) (hc : m.cpl) : Only m s (t.complete st v) := h.setCpl hc

/-- A read of the hart counts in its key window. -/
theorem Only.readTxn (h : Only m s t) (hk : req = 3 → m.key 3) : Only m s (t.readTxn req) := by
  unfold State.readTxn
  split
  case isTrue h3 => exact h.txn (hk h3)
  case isFalse => exact h

theorem readTxn_rd (a : Nat) : (s.readTxn req).rd a = s.rd a := by
  unfold State.readTxn
  split <;> rfl

theorem readTxn_getQ (a : Nat) : (s.readTxn req).getQ a = s.getQ a := by
  unfold State.readTxn
  split <;> rfl

theorem readTxn_latched (a : Nat) : (s.readTxn req).latched req a = s.latched req a := by
  unfold State.readTxn
  split <;> rfl

theorem readTxn_upFor (r a : Nat) : (s.readTxn req).upFor r a = s.upFor r a := by
  rw [State.upFor, State.bit, readTxn_rd, State.upFor, State.bit]

theorem txn_upFor (k r a : Nat) : (s.txn k).upFor r a = s.upFor r a := rfl

section Read
variable {a : BitVec 26} {narrow peek : Bool}

theorem accessBad_of (h : narrow = true ∨ a.toNat % 4 ≠ 0) : accessBad a narrow = true := by simpa [accessBad] using h

theorem accessBad_aligned (h : a.toNat % 4 = 0) : accessBad a false = false := by simp [accessBad, h]

theorem busRead_bad (hr : s.reaches req = true) (h : narrow = true ∨ a.toNat % 4 ≠ 0) : s.busRead req a narrow peek = s.complete .ur := by
  unfold State.busRead
  rw [if_neg (by simp [hr]), if_pos (accessBad_of h)]

theorem busRead_down (hr : s.reaches req = true) (ha : a.toNat % 4 = 0) (hup : s.upFor req.toNat (sharedSeq a.toNat) = false) :
    s.busRead req a false peek = (s.readTxn req).complete .ok 0 := by
  unfold State.busRead
  rw [if_neg (by simp [hr]), if_neg (by simp [accessBad_aligned ha])]
  exact if_pos (by rw [readTxn_upFor, hup]; rfl)

theorem busRead_peek (hr : s.reaches req = true) (ha : a.toNat % 4 = 0) (hup : s.upFor req.toNat (sharedSeq a.toNat) = true) :
    s.busRead req a false true = (s.readTxn req).complete .ok ((s.readTxn req).valueAt req (sharedSeq a.toNat)) := by
  unfold State.busRead
  rw [if_neg (by simp [hr]), if_neg (by simp [accessBad_aligned ha])]
  dsimp only
  rw [if_neg (by simp [readTxn_upFor, hup]), if_pos rfl]

theorem busRead_ordinary (hr : s.reaches req = true) (ha : a.toNat % 4 = 0) (hup : s.upFor req.toNat (sharedSeq a.toNat) = true) :
    s.busRead req a false false
      = ((s.readTxn req).readReg req (sharedSeq a.toNat)).1.complete .ok ((s.readTxn req).readReg req (sharedSeq a.toNat)).2 := by
  unfold State.busRead
  rw [if_neg (by simp [hr]), if_neg (by simp [accessBad_aligned ha])]
  dsimp only
  rw [if_neg (by simp [readTxn_upFor, hup]), if_neg (by decide)]

end Read

theorem readReg_lo (h : isLo n = true) : u.readReg req n = (u.setLatch req n (u.valueAt req (n + 4)), u.valueAt req n) := by
  obtain ⟨⟨hq, hl, hm⟩, -⟩ := lo_plain h
  unfold State.readReg
  simp only [hq, hl, hm, h, Bool.false_eq_true, if_false, if_true]

theorem readReg_hi (h : isHi n = true) : u.readReg req n = (u, u.latched req (n - 4)) := by
  obtain ⟨hq, hl, hm, hlo⟩ := hi_plain h
  unfold State.readReg
  simp only [hq, hl, hm, hlo, h, Bool.false_eq_true, if_false, if_true]

theorem readReg_queue (h : isQueue n = true) : u.readReg req n = (u.popQ n, u.headQ n) := by
  unfold State.readReg State.valueAt
  simp only [h, if_true]

theorem valueAt_stored (h : readsAside n = false) (hlive : isLive n = false) (hn : (regInfo n).isNone = false) : u.valueAt req n = u.rd n := by
  obtain ⟨hq, hl, hm, h1, h2, h3, h4⟩ := not_aside h
  unfold State.valueAt
  simp only [hq, hl, hm, h1, h2, h3, h4, hn, liveValue_of_not_isLive u hlive, Bool.false_eq_true, if_false, Option.getD_none]

theorem valueAt_unlisted (h : regInfo n = none) : u.valueAt req n = 0 := by
  have haside : readsAside n = false := Bool.eq_false_iff.mpr fun hside => by simpa [h] using regInfo_isSome_of_aside hside
  obtain ⟨hq, hl, hm, h1, h2, h3, h4⟩ := not_aside haside
  unfold State.valueAt
  simp only [hq, hl, hm, h1, h2, h3, h4, h, Bool.false_eq_true, if_false, Option.isNone_none, if_true]

theorem readReg_rc (h : rcBits n ≠ 0) : u.readReg req n = (u.wr n (u.rd n &&& ~~~rcBits n), u.rd n) := by
  obtain ⟨hside, hlo, hhi, hlive, hn⟩ := rc_plain h
  obtain ⟨hq, hl, hm, -⟩ := not_aside hside
  unfold State.readReg
  rw [valueAt_stored hside hlive hn]
  simp only [hq, hl, hm, hlo, hhi, Bool.false_eq_true, if_false, bne_iff_ne, ne_eq, h, not_false_eq_true, if_true]

/-! ### Writes -/

section Write
variable {a : BitVec 26} {narrow : Bool}

theorem busWrite_bad (hr : s.reaches req = true) (h : narrow = true ∨ a.toNat % 4 ≠ 0) :
    s.busWrite req a v narrow x = (s.txn req.toNat).complete .ur := by
  rw [State.busWrite, State.onKeyed_of_reaches _ hr, if_pos (accessBad_of h)]

theorem busWrite_down (hr : s.reaches req = true) (ha : a.toNat % 4 = 0) (hup : s.upFor req.toNat (sharedSeq a.toNat) = false) :
    s.busWrite req a v false x = s.txn req.toNat := by
  rw [State.busWrite, State.onKeyed_of_reaches _ hr, if_neg (by simp [accessBad_aligned ha])]
  exact if_neg (by rw [txn_upFor, hup]; decide)

theorem busWrite_up (hr : s.reaches req = true) (ha : a.toNat % 4 = 0) (hup : s.upFor req.toNat (sharedSeq a.toNat) = true) :
    s.busWrite req a v false x = State.raceSet (s.txn req.toNat)
      ((s.txn req.toNat).writeReg req (sharedSeq a.toNat) v (decide (0 < s.keyLeft req.toNat)) x) (sharedSeq a.toNat) x.race := by
  rw [State.busWrite, State.onKeyed_of_reaches _ hr, if_neg (by simp [accessBad_aligned ha])]
  exact if_pos hup

end Write

/-- Bits that are set again while the register is not changed, or hold no W1C bit, leave it as it is. -/
theorem raceSet_zero : State.raceSet s t n 0 = t := by
  unfold State.raceSet
  split
  · exact if_pos rfl
  · rfl

theorem raceSet_unlisted (h : regInfo n = none) : State.raceSet s t n w = t := by
  unfold State.raceSet
  rw [h]

theorem raceSet_rd {r : RegInfo} (h : regInfo n = some r) : (State.raceSet s t n w).rd n = t.rd n ||| (s.rd n &&& w &&& r.w1c) := by
  unfold State.raceSet
  rw [h]
  dsimp only
  split
  case isTrue hw => simp [hw]
  case isFalse => exact (State.wr_rd t n _ n).trans (if_pos rfl)

theorem Only.raceSet (h : Only m s t) (hn : m.reg n) : Only m s (State.raceSet u t n w) := by
  unfold State.raceSet
  split
  · split
    · exact h
    · exact h.wr _ hn
  · exact h

/-- A register written with what it holds changes nothing. -/
theorem Only.wr_same {a : Nat} (h : Only m s t) (hv : w = t.rd a) : Only m s (t.wr a w) := by
  refine h.trans ?_
  constructor <;> intros <;> first | rfl | exact ⟨rfl, rfl, rfl⟩ | skip
  rw [State.wr_rd]
  split
  case isTrue ha => rw [hv, ha]
  case isFalse => rfl

theorem Only.raceSet_of_no_w1c {r : RegInfo} (h : Only m s t) (hr : regInfo n = some r) (hw : r.w1c = 0) : Only m s (State.raceSet u t n w) := by
  unfold State.raceSet
  rw [hr]
  dsimp only
  split
  · exact h
  · exact h.wr_same (by simp [hw])

theorem storeReg_eq {r : RegInfo} (h : regInfo n = some r) : u.storeReg n v = u.wr n (r.store (u.rd n) v) := by
  unfold State.storeReg
  rw [h]

/-- A plain write of a register that the key window does not keep. -/
theorem plainWrite_open {r : RegInfo} {keyed : Bool} (hr : regInfo n = some r) (hp : r.prot = 0 ∨ keyed = true) :
    u.plainWrite req n v keyed = if isLo n || isHi n then u.storePair req n v else u.storeReg n v := by
  unfold State.plainWrite
  rw [hr]
  exact if_neg (by rcases hp with h | h <;> simp [h])

theorem plainWrite_refused {r : RegInfo} (hr : regInfo n = some r) (hp : r.prot ≠ 0) : u.plainWrite req n v false = u.keyRefused req.toNat n := by
  unfold State.plainWrite
  rw [hr]
  exact if_pos (by simpa using hp)

/-- A write of the lo half of a pair that a write can change waits for the hi half. -/
theorem storePair_lo {r : RegInfo} (hlo : isLo n = true) (hr : regInfo n = some r) (hw : r.rw ||| r.w1c ||| r.w1s ≠ 0) :
    u.storePair req n v = u.setHold req n (some v) := by
  unfold State.storePair
  dsimp only
  rw [if_pos hlo, hr]
  dsimp only
  rw [if_neg hw, if_pos hlo]

section Hi
variable {r q : RegInfo} {l : Word}

/-- A write of the hi half of such a pair writes both halves where a lo half waits. -/
theorem storePair_both (hhi : isHi n = true) (hr : regInfo (n - 4) = some r) (hw : r.rw ||| r.w1c ||| r.w1s ≠ 0)
    (hl : u.held req (n - 4) = some l) : u.storePair req n v = ((u.storeReg (n - 4) l).storeReg n v).setHold req (n - 4) none := by
  obtain ⟨-, -, -, hlo⟩ := hi_plain hhi
  have hlo : ¬ isLo n = true := by simp [hlo]
  unfold State.storePair
  dsimp only
  rw [if_neg hlo, hr]
  dsimp only
  rw [if_neg hw, if_neg hlo, hl]

/-- It writes the hi half alone where none waits. -/
theorem storePair_alone (hhi : isHi n = true) (hr : regInfo (n - 4) = some r) (hw : r.rw ||| r.w1c ||| r.w1s ≠ 0)
    (hl : u.held req (n - 4) = none) : u.storePair req n v = u.storeReg n v := by
  obtain ⟨-, -, -, hlo⟩ := hi_plain hhi
  have hlo : ¬ isLo n = true := by simp [hlo]
  unfold State.storePair
  dsimp only
  rw [if_neg hlo, hr]
  dsimp only
  rw [if_neg hw, if_neg hlo, hl]

end Hi

theorem Only.setHold (lo : Nat) (o : Option Word) (h : Only m s t) (hh : m.host) : Only m s (t.setHold req lo o) := h.setHost (absurd hh) rfl rfl

theorem Only.setLatch (lo : Nat) (w : Word) (h : Only m s t) (hh : m.host) : Only m s (t.setLatch req lo w) := h.setHost (absurd hh) rfl rfl

theorem setHold_held (lo : Nat) (o : Option Word) : (u.setHold req lo o).held req lo = o := (Sparse.get_set _ _ _ _ _).trans (if_pos rfl)

theorem setLatch_latched (lo : Nat) (w : Word) : (u.setLatch req lo w).latched req lo = w := (Sparse.get_set _ _ _ _ _).trans (if_pos rfl)

theorem setHold_rd (lo : Nat) (o : Option Word) (a : Nat) : (u.setHold req lo o).rd a = u.rd a := rfl

theorem wr_held (a lo : Nat) (w : Word) : (u.wr a w).held req lo = u.held req lo := rfl

/-- What a write of the hi half of a pair leaves. -/
structure PairWritten (s : State) (req : Requester) (n : Nat) (v : Word) (r q : RegInfo) (t : State) : Prop where
  hi : t.rd n = q.store (s.rd n) v
  held : t.held req (n - 4) = none
  both : ∀ l, s.held req (n - 4) = some l → t.rd (n - 4) = r.store (s.rd (n - 4)) l
  alone : s.held req (n - 4) = none → t.rd (n - 4) = s.rd (n - 4)

theorem Only.storeReg (v : Word) (h : Only m s t) (hn : m.reg n) : Only m s (t.storeReg n v) := by
  unfold State.storeReg
  split
  · exact h.wr _ hn
  · exact h

theorem Only.storePair_hi {r : RegInfo} (hhi : isHi n = true) (hr : regInfo (n - 4) = some r) (hw : r.rw ||| r.w1c ||| r.w1s ≠ 0)
    (h : Only m s t) (h1 : m.reg n) (h2 : m.reg (n - 4)) (hh : m.host) : Only m s (t.storePair req n v) := by
  cases hl : t.held req (n - 4) with
  | none => rw [storePair_alone hhi hr hw hl]; exact h.storeReg _ h1
  | some l => rw [storePair_both hhi hr hw hl]; exact ((h.storeReg _ h2).storeReg _ h1).setHold _ _ hh

theorem storePair_written {r q : RegInfo} (hhi : isHi n = true) (hr : regInfo (n - 4) = some r) (hq : regInfo n = some q)
    (hw : r.rw ||| r.w1c ||| r.w1s ≠ 0) : PairWritten u req n v r q (u.storePair req n v) := by
  have hne : n ≠ n - 4 := by
    obtain ⟨h4, -⟩ : 4 ≤ n ∧ isLo (n - 4) = true := by simpa [isHi] using hhi
    omega
  cases hl : u.held req (n - 4) with
  | none =>
    rw [storePair_alone hhi hr hw hl, storeReg_eq hq]
    refine ⟨?_, (wr_held ..).trans hl, fun l h => ?_, fun _ => ?_⟩
    · rw [State.wr_rd, if_pos rfl]
    · rw [hl] at h
      cases h
    · rw [State.wr_rd, if_neg hne.symm]
  | some l =>
    rw [storePair_both hhi hr hw hl, storeReg_eq hr, storeReg_eq hq]
    refine ⟨?_, setHold_held _ _, fun l' h => ?_, fun h => ?_⟩
    · rw [setHold_rd, State.wr_rd, if_pos rfl, State.wr_rd, if_neg hne]
    · obtain rfl : l = l' := Option.some.inj (hl.symm.trans h)
      rw [setHold_rd, State.wr_rd, if_neg hne.symm, State.wr_rd, if_pos rfl]
    · rw [hl] at h
      cases h

end Sys2Proof.Machine
end

section
/-! The statement on register accesses, from what each read and each write does. -/

namespace Sys2Proof.Machine

variable {m : May} {s t u : State} {req : Requester} {v w : Word} {x : WriteAux} {a : BitVec 26}

/-! ### Registers named by the statement -/

/-- The bits of a register by their access, and those that the key window keeps. -/
def RegInfo.types (r : RegInfo) : Word × Word × Word × Word := (r.rw, r.w1c, r.w1s, r.prot)

theorem regInfo_of_types {n : Nat} {rw w1c w1s prot : Word} (h : (regInfo n).map RegInfo.types = some (rw, w1c, w1s, prot)) :
    ∃ r, regInfo n = some r ∧ r.rw = rw ∧ r.w1c = w1c ∧ r.w1s = w1s ∧ r.prot = prot := by
  obtain ⟨r, hr, ht⟩ := Option.map_eq_some_iff.mp h
  obtain ⟨h1, h2, h3, h4⟩ : r.rw = rw ∧ r.w1c = w1c ∧ r.w1s = w1s ∧ r.prot = prot := by simpa [RegInfo.types] using ht
  exact ⟨r, hr, h1, h2, h3, h4⟩

/-- The register at `n` is written plainly; whether it is the lo or the hi half of a pair, and its bits by their access. -/
def plainKind (n : Nat) (lo hi : Bool) (types : Word × Word × Word × Word) : Bool :=
  isLo n == lo && isHi n == hi && writesPlainly n && decide ((regInfo n).map RegInfo.types = some types)

theorem plainKind_info {n : Nat} {lo hi : Bool} {rw w1c w1s prot : Word} (h : plainKind n lo hi (rw, w1c, w1s, prot) = true) :
    isLo n = lo ∧ isHi n = hi ∧ writesPlainly n = true
      ∧ ∃ r, regInfo n = some r ∧ r.rw = rw ∧ r.w1c = w1c ∧ r.w1s = w1s ∧ r.prot = prot := by
  obtain ⟨⟨⟨h1, h2⟩, h3⟩, h4⟩ : ((isLo n = lo ∧ isHi n = hi) ∧ writesPlainly n = true)
      ∧ (regInfo n).map RegInfo.types = some (rw, w1c, w1s, prot) := by
    simpa only [plainKind, Bool.and_eq_true, beq_iff_eq, decide_eq_true_eq] using h
  exact ⟨h1, h2, h3, regInfo_of_types h4⟩

theorem glbIntegLo_kind : ∀ k < 16, plainKind (Reg.glbIntegLo k) true false (0, 0xFFFFFFFF#32, 0, 0) = true := by decide +kernel

theorem glbIntegHi_kind : ∀ k < 16, plainKind (Reg.glbIntegHi k) false true (0, 0xF#32, 0, 0) = true := by decide +kernel

theorem capIrqStat_kind : ∀ k < 16, plainKind (Reg.capIrqStat k) false false (0, 0x1FF#32, 0, 0) = true := by decide +kernel

theorem lnkEqtab_kind : ∀ i < 32, ∀ j < 4, plainKind (Reg.lnkEqtab i j) false false (0xFFFFFFFF#32, 0, 0, 0xFFFFFFFF#32) = true := by
  decide +kernel

theorem and_full (w : Word) : w &&& 0xFFFFFFFF#32 = w := BitVec.and_allOnes

theorem no_race (new old w : Word) : new ||| (old &&& 0 &&& w) = new := by simp

theorem writable_of_rw {r : RegInfo} (h : r.rw ≠ 0) : r.rw ||| r.w1c ||| r.w1s ≠ 0 :=
  fun h0 => h (BitVec.or_eq_zero_iff.mp (BitVec.or_eq_zero_iff.mp h0).1).1

theorem store_w1c {r : RegInfo} (h1 : r.rw = 0) (h2 : r.w1s = 0) (old v : Word) : r.store old v = old &&& ~~~(v &&& r.w1c) := by
  simp [RegInfo.store, h1, h2, and_full]

theorem store_rw {r : RegInfo} (h1 : r.rw = 0xFFFFFFFF) (h2 : r.w1c = 0) (h3 : r.w1s = 0) (old v : Word) : r.store old v = v := by
  simp [RegInfo.store, h1, h2, h3, and_full]

/-! ### Plain writes, as commands -/

section Access
variable (hr : s.reaches req = true) (ha : a.toNat % 4 = 0) (hup : s.upFor req.toNat (sharedSeq a.toNat) = true)
include hr ha hup

theorem busWrite_plain {r : RegInfo} (hp : writesPlainly (sharedSeq a.toNat) = true) (hreg : regInfo (sharedSeq a.toNat) = some r)
    (hprot : r.prot = 0 ∨ decide (0 < s.keyLeft req.toNat) = true) :
    s.busWrite req a v false x = State.raceSet (s.txn req.toNat)
      (if isLo (sharedSeq a.toNat) || isHi (sharedSeq a.toNat) then (s.txn req.toNat).storePair req (sharedSeq a.toNat) v
        else (s.txn req.toNat).storeReg (sharedSeq a.toNat) v) (sharedSeq a.toNat) x.race := by
  rw [busWrite_up hr ha hup, writeReg_plain hp, plainWrite_open hreg hprot]

theorem loWrite_answers {r : RegInfo} (hlo : isLo (sharedSeq a.toNat) = true) (hp : writesPlainly (sharedSeq a.toNat) = true)
    (hreg : regInfo (sharedSeq a.toNat) = some r) (hprot : r.prot = 0) (hw : r.rw ||| r.w1c ||| r.w1s ≠ 0) :
    Answers (.loWrite req a v false) s (fun t => t.held req (sharedSeq a.toNat) = some v
      ∧ Only { host := True, key := fun k => k = req.toNat } s t) := by
  have hbus : s.busWrite req a v false { lost := false, dropped := 0, last := 0 } = (s.txn req.toNat).setHold req (sharedSeq a.toNat) (some v) := by
    rw [busWrite_plain hr ha hup hp hreg (.inl hprot), raceSet_zero, if_pos (by rw [hlo]; rfl), storePair_lo hlo hreg hw]
  refine Answers.of_fin (congrArg (fin s) hbus) ⟨(State.settle_held ..).trans (setHold_held _ _), ?_⟩
  exact (((Only.refl _ s).txn rfl).setHold _ _ trivial).settle s

theorem hiWrite_answers {r q : RegInfo} (hhi : isHi (sharedSeq a.toNat) = true) (hp : writesPlainly (sharedSeq a.toNat) = true)
    (hreg : regInfo (sharedSeq a.toNat - 4) = some r) (hq : regInfo (sharedSeq a.toNat) = some q) (hprot : q.prot = 0)
    (hw : r.rw ||| r.w1c ||| r.w1s ≠ 0) :
    Answers (.hiWrite req a v false) s (fun t => PairWritten s req (sharedSeq a.toNat) v r q t
      ∧ Only { reg := fun b => b = sharedSeq a.toNat ∨ b = sharedSeq a.toNat - 4, host := True, key := fun k => k = req.toNat } s t) := by
  have hbus : s.busWrite req a v false { lost := false, dropped := 0, last := 0 } = (s.txn req.toNat).storePair req (sharedSeq a.toNat) v := by
    rw [busWrite_plain hr ha hup hp hq (.inl hprot), raceSet_zero, if_pos (by rw [hhi, Bool.or_true])]
  obtain ⟨hhi', hheld, hboth, halone⟩ := storePair_written (u := s.txn req.toNat) (req := req) (v := v) hhi hreg hq hw
  refine Answers.of_fin (congrArg (fin s) hbus) ⟨⟨hhi', (State.settle_held ..).trans hheld, hboth, halone⟩, ?_⟩
  have htxn : Only { reg := fun b => b = sharedSeq a.toNat ∨ b = sharedSeq a.toNat - 4, host := True, key := fun k => k = req.toNat } s
      (s.txn req.toNat) := (Only.refl _ s).txn rfl
  exact (htxn.storePair_hi hhi hreg hw (.inl rfl) (.inr rfl) trivial).settle s

theorem registerWrite_answers {r : RegInfo} (hlo : isLo (sharedSeq a.toNat) = false) (hhi : isHi (sharedSeq a.toNat) = false)
    (hp : writesPlainly (sharedSeq a.toNat) = true) (hreg : regInfo (sharedSeq a.toNat) = some r)
    (hprot : r.prot = 0 ∨ decide (0 < s.keyLeft req.toNat) = true) :
    Answers (.registerWrite req a v false x) s (fun t =>
      t.rd (sharedSeq a.toNat) = r.store (s.rd (sharedSeq a.toNat)) v ||| (s.rd (sharedSeq a.toNat) &&& x.race &&& r.w1c)
        ∧ Only { reg := fun b => b = sharedSeq a.toNat, key := fun k => k = req.toNat } s t) := by
  have hbus : s.busWrite req a v false x = State.raceSet (s.txn req.toNat)
      ((s.txn req.toNat).wr (sharedSeq a.toNat) (r.store (s.rd (sharedSeq a.toNat)) v)) (sharedSeq a.toNat) x.race := by
    rw [busWrite_plain hr ha hup hp hreg hprot, if_neg (by rw [hlo, hhi]; decide), storeReg_eq hreg, State.txn_rd]
  refine Answers.of_fin (congrArg (fin s) hbus) ⟨?_, ?_⟩
  · rw [State.settle_rd, raceSet_rd hreg, State.wr_rd, if_pos rfl, State.txn_rd]
  · exact ((((Only.refl _ s).txn rfl).wr _ rfl).raceSet rfl).settle s

/-- A write outside the key window of a register that the window keeps. -/
theorem registerWrite_refused {r : RegInfo} (hp : writesPlainly (sharedSeq a.toNat) = true) (hreg : regInfo (sharedSeq a.toNat) = some r)
    (hprot : r.prot ≠ 0) (hw1c : r.w1c = 0) (hk : decide (0 < s.keyLeft req.toNat) = false) :
    Answers (.registerWrite req a v false x) s (fun t => t.bit Reg.glbKeyErr 31 = true
      ∧ Only { reg := fun b => b = Reg.glbKeyErr ∨ b = Reg.glbKeyCnt, key := fun k => k = req.toNat } s t) := by
  have hbus : s.busWrite req a v false x = State.raceSet (s.txn req.toNat) ((s.txn req.toNat).keyRefused req.toNat (sharedSeq a.toNat))
      (sharedSeq a.toNat) x.race := by
    rw [busWrite_up hr ha hup, writeReg_plain hp, hk, plainWrite_refused hreg hprot]
  have hsame : Only {} ((s.txn req.toNat).keyRefused req.toNat (sharedSeq a.toNat))
      (State.raceSet (s.txn req.toNat) ((s.txn req.toNat).keyRefused req.toNat (sharedSeq a.toNat)) (sharedSeq a.toNat) x.race) :=
    (Only.refl _ _).raceSet_of_no_w1c hreg hw1c
  have htxn : Only { reg := fun b => b = Reg.glbKeyErr ∨ b = Reg.glbKeyCnt, key := fun k => k = req.toNat } s (s.txn req.toNat) :=
    (Only.refl _ s).txn rfl
  refine Answers.of_fin (congrArg (fin s) hbus) ⟨?_, ?_⟩
  · rw [State.settle_bit, State.bit, hsame.reg _ id]
    exact State.keyRefused_bit ..
  · exact ((htxn.keyRefused (.inl rfl) (.inr rfl)).raceSet_of_no_w1c hreg hw1c).settle s

theorem registerWrite_unlisted (hreg : regInfo (sharedSeq a.toNat) = none) :
    Answers (.registerWrite req a v false x) s (fun t => Only { key := fun k => k = req.toNat } s t) := by
  have hbus : s.busWrite req a v false x = s.txn req.toNat := by
    rw [busWrite_up hr ha hup, raceSet_unlisted hreg, State.writeReg, if_pos (by rw [hreg]; rfl)]
  exact Answers.of_fin (congrArg (fin s) hbus) (((Only.refl _ s).txn rfl).settle s)

end Access

/-! ### The kinds of registers of the statement -/

section Kinds
variable (hr : s.reaches req = true) (ha : a.toNat % 4 = 0) (hup : s.upFor req.toNat (sharedSeq a.toNat) = true)
include hr ha hup

theorem integLo_answers {k : Nat} (hk : k < 16) (hn : sharedSeq a.toNat = Reg.glbIntegLo k) :
    Answers (.loWrite req a v false) s (fun t => t.held req (sharedSeq a.toNat) = some v
      ∧ Only { host := True, key := fun k => k = req.toNat } s t) := by
  obtain ⟨hlo, -, hp, r, hreg, hrw, hw1c, hw1s, hprot⟩ := plainKind_info (glbIntegLo_kind k hk)
  rw [← hn] at hlo hp hreg
  exact loWrite_answers hr ha hup hlo hp hreg hprot (by rw [hrw, hw1c, hw1s]; decide)

theorem integHi_answers {k : Nat} (hk : k < 16) (hn : sharedSeq a.toNat = Reg.glbIntegHi k) :
    Answers (.hiWrite req a v false) s (fun t =>
      t.rd (sharedSeq a.toNat) = s.rd (sharedSeq a.toNat) &&& ~~~(v &&& 0xF#32) ∧ t.held req (sharedSeq a.toNat - 4) = none
        ∧ t.rd (sharedSeq a.toNat - 4) = s.rd (sharedSeq a.toNat - 4) &&& ~~~((s.held req (sharedSeq a.toNat - 4)).getD 0)
        ∧ Only { reg := fun b => b = sharedSeq a.toNat ∨ b = sharedSeq a.toNat - 4, host := True, key := fun k => k = req.toNat } s t) := by
  obtain ⟨-, -, -, r, hreg, hrw, hw1c, hw1s, -⟩ := plainKind_info (glbIntegLo_kind k hk)
  obtain ⟨-, hhi, hp, q, hreg', hrw', hw1c', hw1s', hprot⟩ := plainKind_info (glbIntegHi_kind k hk)
  rw [show Reg.glbIntegLo k = Reg.glbIntegHi k - 4 by simp only [Reg.glbIntegLo, Reg.glbIntegHi]; omega, ← hn] at hreg
  rw [← hn] at hhi hp hreg'
  obtain ⟨t, ht, hw, only⟩ := hiWrite_answers hr ha hup (v := v) hhi hp hreg hreg' hprot (by rw [hrw, hw1c, hw1s]; decide)
  refine ⟨t, ht, ?_, hw.held, ?_, only⟩
  · rw [hw.hi, store_w1c hrw' hw1s', hw1c']
  · cases hl : s.held req (sharedSeq a.toNat - 4) with
    | none => rw [hw.alone hl]; simp [and_full]
    | some l => rw [hw.both l hl, store_w1c hrw hw1s, hw1c]; simp [and_full]

theorem capIrqStat_answers {k : Nat} (hk : k < 16) (hn : sharedSeq a.toNat = Reg.capIrqStat k) :
    Answers (.registerWrite req a v false x) s (fun t =>
      t.rd (sharedSeq a.toNat) = (s.rd (sharedSeq a.toNat) &&& ~~~(v &&& 0x1FF#32)) ||| (s.rd (sharedSeq a.toNat) &&& x.race &&& 0x1FF#32)
        ∧ Only { reg := fun b => b = sharedSeq a.toNat, key := fun k => k = req.toNat } s t) := by
  obtain ⟨hlo, hhi, hp, r, hreg, hrw, hw1c, hw1s, hprot⟩ := plainKind_info (capIrqStat_kind k hk)
  rw [← hn] at hlo hhi hp hreg
  obtain ⟨t, ht, hrd, only⟩ := registerWrite_answers hr ha hup (v := v) (x := x) hlo hhi hp hreg (.inl hprot)
  exact ⟨t, ht, by rw [hrd, store_w1c hrw hw1s, hw1c], only⟩

theorem lnkEqtab_answers {i j : Nat} (hi : i < 32) (hj : j < 4) (hn : sharedSeq a.toNat = Reg.lnkEqtab i j) :
    (decide (0 < s.keyLeft req.toNat) = true → x.race = 0 → Answers (.registerWrite req a v false x) s (fun t =>
        t.rd (sharedSeq a.toNat) = v ∧ Only { reg := fun b => b = sharedSeq a.toNat, key := fun k => k = req.toNat } s t))
      ∧ (decide (0 < s.keyLeft req.toNat) = false → Answers (.registerWrite req a v false x) s (fun t => t.bit Reg.glbKeyErr 31 = true
          ∧ Only { reg := fun b => b = Reg.glbKeyErr ∨ b = Reg.glbKeyCnt, key := fun k => k = req.toNat } s t)) := by
  obtain ⟨hlo, hhi, hp, r, hreg, hrw, hw1c, hw1s, hprot⟩ := plainKind_info (lnkEqtab_kind i hi j hj)
  rw [← hn] at hlo hhi hp hreg
  constructor
  · intro hk hrace
    obtain ⟨t, ht, hrd, only⟩ := registerWrite_answers hr ha hup (v := v) (x := x) hlo hhi hp hreg (.inr hk)
    rw [hrace, no_race, store_rw hrw hw1c hw1s] at hrd
    exact ⟨t, ht, hrd, only⟩
  · exact registerWrite_refused hr ha hup hp hreg (by rw [hprot]; decide) hw1c

/-! ### Reads, as commands -/

theorem peek_answers : Answers (.peek req a false) s (fun t =>
    (t.cpl.status = .ok ∧ t.cpl.value = (s.readTxn req).valueAt req (sharedSeq a.toNat))
      ∧ Only { cpl := True, key := fun r => r = 3 ∧ req = 3 } s t) := by
  refine Answers.of_fin (congrArg (fin s) (busRead_peek hr ha hup)) ⟨⟨rfl, rfl⟩, ?_⟩
  exact Only.settle s (Only.complete _ _ (Only.readTxn (Only.refl _ s) fun h => ⟨rfl, h⟩) trivial)

theorem peek_unlisted (hn : regInfo (sharedSeq a.toNat) = none) : Answers (.peek req a false) s (fun t => t.cpl.status = .ok ∧ t.cpl.value = 0) := by
  obtain ⟨t, ht, hok, -⟩ := peek_answers hr ha hup
  exact ⟨t, ht, by rwa [valueAt_unlisted hn] at hok⟩

theorem loRead_lo (hlo : isLo (sharedSeq a.toNat) = true) : Answers (.loRead req a false) s (fun t =>
    (t.cpl.status = .ok ∧ t.cpl.value = (s.readTxn req).valueAt req (sharedSeq a.toNat))
      ∧ t.latched req (sharedSeq a.toNat) = (s.readTxn req).valueAt req (sharedSeq a.toNat + 4)
      ∧ Only { host := True, cpl := True, key := fun r => r = 3 ∧ req = 3 } s t) := by
  have hbus := busRead_ordinary hr ha hup
  rw [readReg_lo hlo] at hbus
  refine Answers.of_fin (congrArg (fin s) hbus) ⟨⟨rfl, rfl⟩, (State.settle_latched ..).trans (setLatch_latched _ _), ?_⟩
  exact Only.settle s (Only.complete _ _ (Only.setLatch _ _ (Only.readTxn (Only.refl _ s) fun h => ⟨rfl, h⟩) trivial) trivial)

theorem loRead_hi (hhi : isHi (sharedSeq a.toNat) = true) : Answers (.loRead req a false) s (fun t =>
    (t.cpl.status = .ok ∧ t.cpl.value = s.latched req (sharedSeq a.toNat - 4)) ∧ Only { cpl := True, key := fun r => r = 3 ∧ req = 3 } s t) := by
  have hbus := busRead_ordinary hr ha hup
  rw [readReg_hi hhi, readTxn_latched] at hbus
  refine Answers.of_fin (congrArg (fin s) hbus) ⟨⟨rfl, rfl⟩, ?_⟩
  exact Only.settle s (Only.complete _ _ (Only.readTxn (Only.refl _ s) fun h => ⟨rfl, h⟩) trivial)

theorem queuePop_answers (hq : isQueue (sharedSeq a.toNat) = true) : Answers (.queuePop req a false) s (fun t =>
    (t.cpl.status = .ok ∧ t.cpl.value = s.headQ (sharedSeq a.toNat))
      ∧ (t.getQ (sharedSeq a.toNat)).items = (s.getQ (sharedSeq a.toNat)).items.tail
      ∧ Only { cpl := True, key := fun r => r = 3 ∧ req = 3, queue := fun q => q = sharedSeq a.toNat } s t) := by
  have hbus := busRead_ordinary hr ha hup
  rw [readReg_queue hq, State.headQ, readTxn_getQ] at hbus
  refine Answers.of_fin (congrArg (fin s) hbus) ⟨⟨rfl, rfl⟩, ?_, ?_⟩
  · rw [State.settle_getQ]
    refine (congrArg Queue.items ((Sparse.get_set _ _ _ _ _).trans (if_pos rfl))).trans ?_
    rw [readTxn_getQ]
  · exact Only.settle s (Only.complete _ _ (Only.popQ (Only.readTxn (Only.refl _ s) fun h => ⟨rfl, h⟩) rfl) trivial)

theorem readClear_answers (hrc : rcBits (sharedSeq a.toNat) ≠ 0) : Answers (.readClear req a false) s (fun t =>
    (t.cpl.status = .ok ∧ t.cpl.value = s.rd (sharedSeq a.toNat))
      ∧ t.rd (sharedSeq a.toNat) = s.rd (sharedSeq a.toNat) &&& ~~~rcBits (sharedSeq a.toNat)
      ∧ Only { cpl := True, key := fun r => r = 3 ∧ req = 3, reg := fun r => r = sharedSeq a.toNat } s t) := by
  have hbus := busRead_ordinary hr ha hup
  rw [readReg_rc hrc, readTxn_rd] at hbus
  refine Answers.of_fin (congrArg (fin s) hbus) ⟨⟨rfl, rfl⟩, ?_, ?_⟩
  · exact (State.wr_rd _ _ _ _).trans (if_pos rfl)
  · exact Only.settle s (Only.complete _ _ (Only.wr _ (Only.readTxn (Only.refl _ s) fun h => ⟨rfl, h⟩) rfl) trivial)

end Kinds

/-! ### Accesses that reach no register -/

theorem keyWrite_answers (hr : s.reaches req = true) : Answers (.keyWrite req v) s (fun t =>
    t.keyLeft req.toNat = (if v = 0xA5C3#32 then 8 else 0) ∧ Only { key := fun r => r = req.toNat, host := req = 3 } s t) := by
  refine Answers.of_fin (congrArg (fin s) (State.onWrite_of_reaches _ hr)) ?_
  have hset : Only { key := fun r => r = req.toNat, host := req = 3 } s ((s.txn req.toNat).setKey req.toNat (if v = 0xA5C3#32 then 8 else 0)) :=
    ((Only.refl _ s).txn rfl).setKey _ rfl
  have hleft : ((s.txn req.toNat).setKey req.toNat (if v = 0xA5C3#32 then 8 else 0)).keyLeft req.toNat = if v = 0xA5C3#32 then 8 else 0 :=
    (State.setKey_keyLeft ..).trans (if_pos rfl)
  rw [State.settle_keyLeft]
  unfold State.keyWrite
  dsimp only
  split
  case isTrue h3 => exact ⟨hleft, Only.settle s (Only.setHost hset (absurd h3) rfl rfl)⟩
  case isFalse => exact ⟨hleft, hset.settle s⟩

theorem read_bad {narrow : Bool} (hr : s.reaches req = true) (h : narrow = true ∨ a.toNat % 4 ≠ 0) {c : Instr}
    (hc : c ∈ [Instr.loRead req a narrow, .readClear req a narrow, .queuePop req a narrow, .peek req a narrow]) :
    Answers c s (fun t => t.cpl.status = .ur ∧ Only { cpl := True } s t) := by
  have hend : Only { cpl := True } s (State.settle s (s.complete .ur)) := ((Only.refl _ s).complete _ _ trivial).settle s
  simp only [List.mem_cons, List.not_mem_nil, or_false] at hc
  obtain rfl | rfl | rfl | rfl := hc <;> exact Answers.of_fin (congrArg (fin s) (busRead_bad hr h)) ⟨rfl, hend⟩

theorem write_bad {narrow : Bool} (hr : s.reaches req = true) (h : narrow = true ∨ a.toNat % 4 ≠ 0) {c : Instr}
    (hc : c ∈ [Instr.registerWrite req a v narrow x, .loWrite req a v narrow, .hiWrite req a v narrow]) :
    Answers c s (fun t => t.cpl.status = .ur ∧ Only { cpl := True, key := fun r => r = req.toNat } s t) := by
  have hend : Only { cpl := True, key := fun r => r = req.toNat } s (State.settle s ((s.txn req.toNat).complete .ur)) :=
    (((Only.refl _ s).txn rfl).complete _ _ trivial).settle s
  simp only [List.mem_cons, List.not_mem_nil, or_false] at hc
  obtain rfl | rfl | rfl := hc <;> exact Answers.of_fin (congrArg (fin s) (busWrite_bad hr h)) ⟨rfl, hend⟩

theorem read_down (hr : s.reaches req = true) (ha : a.toNat % 4 = 0) (hup : s.upFor req.toNat (sharedSeq a.toNat) = false) {c : Instr}
    (hc : c ∈ [Instr.loRead req a false, .readClear req a false, .queuePop req a false, .peek req a false]) :
    Answers c s (fun t => (t.cpl.status = .ok ∧ t.cpl.value = 0) ∧ Only { cpl := True, key := fun r => r = 3 ∧ req = 3 } s t) := by
  have hend : Only { cpl := True, key := fun r => r = 3 ∧ req = 3 } s (State.settle s ((s.readTxn req).complete .ok 0)) :=
    Only.settle s (Only.complete _ _ (Only.readTxn (Only.refl _ s) fun h => ⟨rfl, h⟩) trivial)
  simp only [List.mem_cons, List.not_mem_nil, or_false] at hc
  obtain rfl | rfl | rfl | rfl := hc <;> exact Answers.of_fin (congrArg (fin s) (busRead_down hr ha hup)) ⟨⟨rfl, rfl⟩, hend⟩

theorem write_down (hr : s.reaches req = true) (ha : a.toNat % 4 = 0) (hup : s.upFor req.toNat (sharedSeq a.toNat) = false) {c : Instr}
    (hc : c ∈ [Instr.registerWrite req a v false x, .loWrite req a v false, .hiWrite req a v false]) :
    Answers c s (fun t => Only { key := fun r => r = req.toNat } s t) := by
  have hend : Only { key := fun r => r = req.toNat } s (State.settle s (s.txn req.toNat)) := ((Only.refl _ s).txn rfl).settle s
  simp only [List.mem_cons, List.not_mem_nil, or_false] at hc
  obtain rfl | rfl | rfl := hc <;> exact Answers.of_fin (congrArg (fin s) (busWrite_down hr ha hup)) hend

/-- Settles O43, kind by kind of register. -/
theorem registerAccess : Obligations.RegisterAccess := by
  intro req a v x s hr n key keyed ok hart host read u
  refine ⟨keyWrite_answers hr, fun narrow hbad => ⟨fun c hc => read_bad hr hbad hc, fun c hc => write_bad hr hbad hc⟩,
    fun ha hup => ⟨fun c hc => read_down hr ha hup hc, fun c hc => write_down hr ha hup hc⟩, fun ha hup => ?_⟩
  refine ⟨peek_answers hr ha hup, loRead_lo hr ha hup, loRead_hi hr ha hup, queuePop_answers hr ha hup, readClear_answers hr ha hup,
    fun hn => ⟨registerWrite_unlisted hr ha hup hn, peek_unlisted hr ha hup hn⟩, fun r hlo hreg hrw hprot _ hmem => ?_,
    fun r q c hhi hreg hq hrw hprot hmem => ?_, fun k hk hn => integLo_answers hr ha hup hk hn, fun k hk hn => integHi_answers hr ha hup hk hn,
    fun k hk hn => capIrqStat_answers hr ha hup hk hn, fun r c hlo hhi hreg hmem hprot hrace => ?_,
    fun i j hi hj hn => lnkEqtab_answers hr ha hup hi hj hn⟩
  · obtain ⟨c, hc⟩ := hmem
    exact loWrite_answers hr ha hup hlo (writesPlainly_of_commitGroups hc) hreg hprot (writable_of_rw hrw)
  · obtain ⟨t, ht, hw, only⟩ := hiWrite_answers hr ha hup (v := v) hhi (writesPlainly_of_commitGroups hmem) hreg hq hprot (writable_of_rw hrw)
    exact ⟨t, ht, hw.hi, hw.held, hw.both, hw.alone, only⟩
  · obtain ⟨t, ht, hrd, only⟩ := registerWrite_answers hr ha hup (v := v) (x := x) hlo hhi (writesPlainly_of_commitGroups hmem) hreg (.inl hprot)
    rw [hrace, no_race] at hrd
    exact ⟨t, ht, hrd, only⟩

end Sys2Proof.Machine
end

section
/-! What requests to the stacked DRAM change (R267 to R283): the rows and the vaults, what the vaults count and log, and the events they cause. -/

namespace Sys2Proof.Machine

variable {m : May} {s t : State} {v : Nat}

/-- A command that may change what requests to the stacked DRAM change. -/
structure May.Dram (m : May) : Prop where
  reg : ∀ a, vaultRegs a → m.reg a
  log : ∀ v, v < 256 → m.queue (Reg.vltPoisonLog v)
  events : m.queue Reg.safEvtLog
  vault : ∀ v, m.vault v
  dram : ∀ a, m.dram a

theorem May.dramToo_dram (m : May) : m.dramToo.Dram where
  reg _ h := .inr h
  log v h := .inr (.inl ⟨v, h, rfl⟩)
  events := .inr (.inr rfl)
  vault _ := trivial
  dram _ := trivial

theorem May.Dram.vltEvt (hm : m.Dram) (hv : v < 256) : m.reg (Reg.vltEvt v) :=
  hm.reg _ (.inl (by simp only [Reg.vltEvt]; omega))

theorem May.Dram.vltStat (hm : m.Dram) (hv : v < 256) : m.reg (Reg.vltStat v) :=
  hm.reg _ (.inl (by simp only [Reg.vltStat]; omega))

theorem May.Dram.vltCeCnt (hm : m.Dram) (hv : v < 256) : m.reg (Reg.vltCeCnt v) :=
  hm.reg _ (.inl (by simp only [Reg.vltCeCnt]; omega))

theorem May.Dram.vltPoisonCnt (hm : m.Dram) (hv : v < 256) : m.reg (Reg.vltPoisonCnt v) :=
  hm.reg _ (.inl (by simp only [Reg.vltPoisonCnt]; omega))

theorem May.Dram.vltSrep (hm : m.Dram) (hv : v < 256) {i : Nat} (hi : i < 256) : m.reg (Reg.vltSrep v i) :=
  hm.reg _ (.inl (by simp only [Reg.vltSrep]; omega))

/-! ### Alternatives -/

theorem Only.ite {p : Prop} [Decidable p] {u : State} (h : Only m s t) (hu : Only m s u) : Only m s (if p then u else t) := by
  split
  · exact hu
  · exact h

theorem Only.act {d : List Byte} {p c f : Bool} (h : Only m s t) : Only m s (Act.mk t d p c f).st := h

theorem Only.actIte {p : Prop} [Decidable p] {x y : Act} (hx : Only m s x.st) (hy : Only m s y.st) : Only m s (if p then x else y).st := by
  split
  · exact hx
  · exact hy

/-! ### Rows -/

theorem Only.setCells (l : List (Nat × Byte)) (h : Only m s t) (hd : ∀ a, m.dram a) : Only m s (t.setCells l) := by
  refine h.trans ?_
  constructor <;> intros <;> first | rfl | exact ⟨rfl, rfl, rfl⟩ | exact absurd (hd _) ‹_›

theorem Only.setRawAt (cols : List (Nat × Nat)) (loc i : Nat) (bs : List Byte) (h : Only m s t) (hm : m.Dram) :
    Only m s (t.setRawAt cols v loc i bs) := by
  unfold State.setRawAt
  dsimp only
  split
  · exact ((h.setCells _ hm.dram).setVault _ (hm.vault v)).setCells _ hm.dram
  · exact h.setCells _ hm.dram

theorem Only.setRawRow (r i : Nat) (bs : List Byte) (h : Only m s t) (hm : m.Dram) : Only m s (t.setRawRow v r i bs) := h.setRawAt _ _ _ _ hm

theorem Only.rowEnds (h : Only m s t) (hm : m.Dram) : Only m s (t.rowEnds v) := by
  unfold State.rowEnds
  split
  · exact h.modVault _ (hm.vault v)
  · exact h

theorem Only.writeRow (r : Nat) (data : List Byte) (marked : Bool) (h : Only m s t) (hm : m.Dram) : Only m s (t.writeRow v r data marked) :=
  (h.rowEnds hm).setRawRow _ _ _ hm

section Vault
variable (hm : m.Dram) (hv : v < 256)
include hm hv

theorem Only.poisonLog (r src : Nat) (new : Bool) (h : Only m s t) : Only m s (t.poisonLog v r src new) := h.pushQ _ _ (hm.log v hv)

theorem Only.activateRow (r src : Nat) (h : Only m s t) : Only m s (t.activateRow v r src).st := by
  have hevt := hm.vltEvt hv
  have hput {u : State} {x : Vault → Vault} (hu : Only m s u) : Only m s (u.modVault v x) := hu.modVault _ (hm.vault v)
  have hlog := (h.poisonLog hm hv r src false).setBit 2 true hevt
  have hfix (d : List Byte) : Only m s (((t.satAdd (Reg.vltCeCnt v) 0 32 1).setBit (Reg.vltEvt v) 0 true).writeRow v r d false) :=
    ((h.satAdd _ _ _ (hm.vltCeCnt hv)).setBit _ _ hevt).writeRow _ _ _ hm
  have hlost (d : List Byte) : Only m s (((((t.writeRow v r d true).poisonLog v r src true).setBit (Reg.vltEvt v) 1 true).satAdd (Reg.vltPoisonCnt v) 0 16
      1).safEvent 0x03 (v * 2 ^ 16)) :=
    Only.safEvent _ _ (Only.satAdd _ _ _ (Only.setBit _ _ (Only.poisonLog hm hv _ _ _ (h.writeRow _ _ _ hm)) hevt) (hm.vltPoisonCnt hv)) hm.events
      (hm.reg _ (.inr rfl))
  unfold State.activateRow
  generalize t.rawRow v r 0 2048 = data, t.rawRow v r 2048 512 = chk, t.rawRow v r 2560 32 = code
  refine Only.actIte (.act (hput hlog)) ?_
  cases hd : Rs.decode data chk code with
  | some d => exact Only.actIte (.act (hput (hfix _))) (Only.actIte (.act (hput (h.writeRow _ _ _ hm))) (.act (hput h)))
  | none =>
    generalize Rs.decode data chk (Rs.mark code) = o
    cases o with
    | some d => exact .act (hput (hlog.ite (hlog.writeRow _ _ _ hm)))
    | none => exact .act (hput (hlost _))

theorem Only.mirrorSrep (h : Only m s t) : Only m s (t.mirrorSrep v) := by
  unfold State.mirrorSrep
  exact (h.setFld _ _ _ (hm.vltStat hv)).modVault _ (hm.vault v)

end Vault

/-- The soft entries of a vault are 256. -/
theorem softEntries_lt {p : Nat × Word} (hp : p ∈ s.softEntries v) : p.1 < 256 := by
  obtain ⟨q, -, hq⟩ := List.mem_filterMap.mp hp
  split at hq
  case isTrue h =>
    obtain rfl := Option.some.inj hq
    obtain ⟨h1, h2, -⟩ := h
    simp only [Reg.vltSrep] at h1 h2 ⊢
    omega
  case isFalse => cases hq

section Vault
variable (hm : m.Dram) (hv : v < 256)
include hm hv

theorem Only.softRepairRow {r : Nat} {u : State} (h : Only m s t) (hu : t.softRepairRow v r = some u) : Only m s u := by
  unfold State.softRepairRow at hu
  split at hu
  · next i n hi hn =>
    have hlt : i < 256 := List.mem_range.mp (List.mem_of_find?_eq_some hi)
    obtain rfl := Option.some.inj hu
    refine Only.mirrorSrep hm hv (Only.setRawRow _ _ _ (Only.wr _ (Only.forAll (h.activateRow hm hv r srcMaint) fun w j hj hw => ?_)
      (hm.vltSrep hv hlt)) hm)
    obtain ⟨p, hp, rfl⟩ := List.mem_map.mp hj
    exact hw.wr _ (hm.vltSrep hv (softEntries_lt (List.mem_filter.mp hp).1))
  · cases hu

theorem Only.autoSrep (r : Nat) (h : Only m s t) : Only m s (t.autoSrep v r) := by
  unfold State.autoSrep
  split
  · exact h
  · split
    · next u hu => exact (h.softRepairRow hm hv hu).setBit _ _ (hm.vltEvt hv)
    · exact (h.setBit _ _ (hm.vltEvt hv)).safEvent _ _ hm.events (hm.reg _ (.inr rfl))

theorem Only.activate (r src : Nat) (h : Only m s t) : Only m s (t.activate v r src).st := by
  have ha := h.activateRow hm hv r src
  unfold State.activate
  dsimp only
  split
  · exact .act (Only.modVault _ (ha.autoSrep hm hv r) (hm.vault v))
  · exact ha

end Vault

theorem Only.svcFlush (hm : m.Dram) (h : Only m s t) : Only m s (t.svcFlush v) := by
  unfold State.svcFlush
  dsimp only
  split
  · split
    · exact (h.writeRow _ _ _ hm).modVault _ (hm.vault v)
    · exact h
  · exact h

theorem Only.svcSync (r : Nat) (hm : m.Dram) (h : Only m s t) : Only m s (t.svcSync v r) := by
  unfold State.svcSync
  split
  · exact h.svcFlush hm
  · exact h

section Vault
variable (hm : m.Dram) (hv : v < 256)
include hm hv

theorem Only.svcLoad (r src : Nat) (h : Only m s t) : Only m s (t.svcLoad v r src) := by
  unfold State.svcLoad
  split
  · exact h
  · exact Only.modVault _ ((h.svcFlush (v := v) hm).activate hm hv r src) (hm.vault v)

theorem Only.readRow (r src : Nat) (priv : Bool := false) (h : Only m s t) : Only m s (t.readRow v r src priv).1 := by
  have ha := (h.svcSync (v := v) r hm).activate hm hv r src
  unfold State.readRow
  split
  · split
    · exact ha
    · exact h.setBit _ _ (hm.vltEvt hv)
  · exact ha

end Vault

theorem Only.svcDrop (r : Nat) (h : Only m s t) (hm : m.Dram) : Only m s (t.svcDrop v r) := by
  unfold State.svcDrop
  split
  · exact h.modVault _ (hm.vault v)
  · exact h

theorem Only.svcPatch (o : Nat) (bs : List Byte) (h : Only m s t) (hm : m.Dram) : Only m s (t.svcPatch v o bs) := h.modVault _ (hm.vault v)

/-! ### Whole rows -/

section Vault
variable (hm : m.Dram) (hv : v < 256)
include hm hv

theorem Only.writeWhole (r : Nat) (data : List Byte) (priv : Bool := false) (h : Only m s t) : Only m s (t.writeWhole v r data priv).1 := by
  have hw := (h.svcDrop (v := v) r hm).writeRow (v := v) r data false hm
  unfold State.writeWhole
  split
  · split
    · exact hw
    · exact h.setBit _ _ (hm.vltEvt hv)
  · exact hw

theorem Only.modRow (r src : Nat) (f : List Byte → List Byte) (h : Only m s t) : Only m s (t.modRow v r src f).1 := by
  have hr := h.readRow hm hv r src false
  unfold State.modRow
  split
  · next hread =>
    rw [hread] at hr
    exact (hr.svcDrop _ hm).writeRow _ _ _ hm
  · next hread =>
    rw [hread] at hr
    exact (hr.svcDrop _ hm).writeRow _ _ _ hm
  · next hread =>
    rw [hread] at hr
    exact hr

end Vault

/-! ### Rows by their address -/

section Address
variable (hm : m.Dram)
include hm

theorem Only.readAt (a src : Nat) (h : Only m s t) : Only m s (t.readAt a src).1 := h.readRow hm (locate_lt a) _ _ _

theorem Only.writeAt (a : Nat) (data : List Byte) (h : Only m s t) : Only m s (t.writeAt a data).1 := h.writeWhole hm (locate_lt a) _ _ _

theorem Only.modAt (a src : Nat) (f : List Byte → List Byte) (h : Only m s t) : Only m s (t.modAt a src f) := h.modRow hm (locate_lt a) _ _ _

theorem Only.bufRead (a n req : Nat) (h : Only m s t) : Only m s (t.bufRead a n req).1 := by
  have hv := locate_lt (s := t) a
  have hr := h.readRow hm hv (t.locate a).2 srcHost false
  unfold State.bufRead
  dsimp only
  split
  · exact h.setBit _ _ (hm.vltEvt hv)
  · split
    · split <;> (next hread => rw [hread] at hr; exact hr)
    · exact h.svcLoad hm hv _ _

theorem Only.svcRead (a n : Nat) (req : Nat := 0) (h : Only m s t) : Only m s (t.svcRead a n req).1 := by
  have hr := h.readAt hm a srcHost
  unfold State.svcRead
  split
  · split <;> (next hread => rw [hread] at hr; exact hr)
  · exact h.bufRead hm a n req

theorem Only.bufWrite (a : Nat) (bs : List Byte) (req : Nat) (h : Only m s t) : Only m s (t.bufWrite a bs req).1 := by
  have hv := locate_lt (s := t) a
  unfold State.bufWrite
  dsimp only
  split
  · exact h.setBit _ _ (hm.vltEvt hv)
  · split
    · exact h.modRow hm hv _ _ _
    · exact (h.svcLoad hm hv _ _).svcPatch _ _ hm

theorem Only.svcWrite (a : Nat) (bs : List Byte) (req : Nat := 0) (h : Only m s t) : Only m s (t.svcWrite a bs req).1 := by
  unfold State.svcWrite
  split
  · exact h.writeAt hm a bs
  · exact h.bufWrite hm a bs req

theorem Only.readBytes (a n : Nat) (req : Nat := 0) (h : Only m s t) : Only m s (t.readBytes a n req).1 := by
  unfold State.readBytes
  generalize hacc : ((t, [], false, false) : State × List Byte × Bool × Bool) = acc
  have hstart : Only m s acc.1 := by rw [← hacc]; exact h
  clear hacc
  induction rowCuts a n generalizing acc with
  | nil => exact hstart
  | cons c l ih =>
    have hr := hstart.svcRead hm c.1 c.2.2 req
    rw [List.foldl_cons]
    refine ih _ ?_
    split <;> (next hread => rw [hread] at hr; exact hr)

theorem Only.writeBytes (a : Nat) (bs : List Byte) (req : Nat := 0) (h : Only m s t) : Only m s (t.writeBytes a bs req).1 := by
  unfold State.writeBytes
  generalize hacc : ((t, false) : State × Bool) = acc
  have hstart : Only m s acc.1 := by rw [← hacc]; exact h
  clear hacc
  induction rowCuts a bs.length generalizing acc with
  | nil => exact hstart
  | cons c l ih =>
    rw [List.foldl_cons]
    exact ih _ (hstart.svcWrite hm c.1 _ req)

/-- The configuration controller reads a golden row. -/
theorem Only.goldenRead (f : Nat) (hit : Bool) (h : Only m s t) : Only m s (t.goldenRead f hit).1 := by
  have hv : (goldenRow f).1 < 256 := by simp only [goldenRow]; omega
  have hevt := hm.vltEvt hv
  unfold State.goldenRead
  dsimp only
  split
  · split
    · exact Only.autoSrep hm hv _ (Only.modVault _ (Only.safEvent _ _ (Only.satAdd _ _ _ (Only.setBit _ _ (Only.poisonLog hm hv _ _ _ h) hevt)
        (hm.vltPoisonCnt hv)) hm.events (hm.reg _ (.inr rfl))) (hm.vault _))
    · split
      · exact (h.poisonLog hm hv _ _ _).setBit _ _ hevt
      · exact h
  · split
    · exact Only.autoSrep hm hv _ (Only.modVault _ (Only.safEvent _ _ (Only.satAdd _ _ _ (Only.setBit _ _ (Only.poisonLog hm hv _ _ _ h) hevt)
        (hm.vltPoisonCnt hv)) hm.events (hm.reg _ (.inr rfl))) (hm.vault _))
    · split
      · exact (h.poisonLog hm hv _ _ _).setBit _ _ hevt
      · exact h
  · exact h.setBit _ _ hevt

end Address

end Sys2Proof.Machine
end

section
/-! What the requests that wait for a vault change when they are served before an access (R23, R268): the merge of closed lines, the load of counter rows,
the rows of the streams, and the reload of frames. -/

namespace Sys2Proof.Machine

variable {m : May} {s t : State}

/-- A command that may change what serving the requests that wait for a vault changes. -/
structure May.Serves (m : May) : Prop where
  reg : ∀ a, m.reg a
  queue : ∀ a, m.queue a
  site : ∀ k, m.site k
  vault : ∀ v, m.vault v
  fab : ∀ k, m.fab k
  bist : ∀ k, m.bist k
  dram : ∀ a, m.dram a
  free : m.free
  ctl : m.ctl

theorem May.Serves.toDram (hm : m.Serves) : m.Dram where
  reg a _ := hm.reg a
  log _ _ := hm.queue _
  events := hm.queue _
  vault := hm.vault
  dram := hm.dram

theorem Only.abortSlice {k : Nat} (h : Only m s t) (hb : m.bist k) (hf : m.fab k) : Only m s (t.abortSlice k) :=
  (h.modBist _ hb).modFab _ hf

section Serves
variable (hm : m.Serves)
include hm

theorem Only.capMark (k stat irq : Nat) (h : Only m s t) : Only m s (t.capMark k stat irq) :=
  (h.setBit _ _ (hm.reg _)).setBit _ _ (hm.reg _)

theorem Only.modSummary (k b : Nat) (f : List Byte → List Byte) (h : Only m s t) : Only m s (t.modSummary k b f) :=
  h.modAt hm.toDram _ _ f

theorem Only.count (k b row col n : Nat) (h : Only m s t) : Only m s (t.count k b row col n) := by
  have hi (a : Nat) : integRegs k a → m.reg a := fun _ => hm.reg a
  unfold State.count
  dsimp only
  split
  · exact h.setSite _ (hm.site k)
  · exact Only.integ _ _ _ _ (Only.capMark hm k 10 6 (h.modSummary hm k b _)) (hm.site k) hi

theorem Only.fallBack (k b n cause : Nat) (h : Only m s t) : Only m s (t.fallBack k b n cause) := by
  have hi (a : Nat) : integRegs k a → m.reg a := fun _ => hm.reg a
  unfold State.fallBack
  dsimp only
  split
  · exact h
  · have h1 := h.setSite (k := k) { t.getSite k with fallen := (t.getSite k).fallen ++ [(b, cause)] } (hm.site k)
    have h2 := Only.capMark hm k 7 3 (Only.modSummary hm k b (fun d =>
      clrFlag (clrFlag (if getLe d 30 1 = 0 then putLe (putLe d 24 6 n) 30 1 cause else d) 40 0) 40 2) h1)
    exact Only.integ _ _ _ _ (((h2.wr _ (hm.reg _)).wr _ (hm.reg _)).ite h2) (hm.site k) hi

theorem Only.mergeLine (k : Nat) (l : MapLine) (h : Only m s t) : Only m s (t.mergeLine k l) := by
  have hr := h.readAt hm.toDram l.addr srcPerCycle
  have hlose (u : State) (cause : Nat) (hu : Only m s u) : Only m s (l.bits.foldl
      (fun s i => s.count k l.block ((t.capGeomOf k).cellOf l i).1 ((t.capGeomOf k).cellOf l i).2 l.firstCycle) (u.fallBack k l.block l.firstCycle cause)) :=
    Only.foldl (hu.fallBack hm k l.block l.firstCycle cause) fun u i hu => hu.count hm _ _ _ _ _
  unfold State.mergeLine
  dsimp only
  split
  · next hread =>
    rw [hread] at hr
    have hw := hr.writeAt hm.toDram l.addr
    refine Only.foldl ?_ fun u i hu => hu.count hm _ _ _ _ _
    exact Only.ite (Only.modSummary hm _ _ _ (hw _)) (hw _)
  · next hread =>
    rw [hread] at hr
    exact hlose _ _ hr
  · next hread =>
    rw [hread] at hr
    exact hlose _ _ hr

theorem Only.writeLine (l : CtrLine) (h : Only m s t) : Only m s (t.writeLine l) := by
  unfold State.writeLine
  split
  · dsimp only
    split
    · exact h.setBit _ _ (hm.reg _)
    · exact (h.svcDrop _ hm.toDram).writeRow _ _ _ hm.toDram
  · exact h

theorem Only.loadLine (k a : Nat) (h : Only m s t) : Only m s (t.loadLine k a) := by
  unfold State.loadLine
  extract_lets x full s1 s2 add
  have h1 : Only m s s1 := by
    unfold s1
    split
    · exact h.writeLine hm _
    · exact h
  have h2 : Only m s s2 := h1.modSite _ (hm.site k)
  have hr := h2.readAt hm.toDram a srcPerCycle
  have hadd (u : State) (d : List Byte) (p : Bool) (hu : Only m s u) : Only m s (add u d p) := hu.modSite _ (hm.site k)
  split
  · next hread =>
    rw [hread] at hr
    exact hadd _ _ _ hr
  · next hread =>
    rw [hread] at hr
    exact hadd _ _ _ hr
  · next hread =>
    rw [hread] at hr
    exact hadd _ _ _ (hr.tickFree hm.free)

theorem Only.svArrive (k row : Nat) (h : Only m s t) : Only m s (t.svArrive k row) := by
  unfold State.svArrive
  extract_lets key old put
  have hr := h.readAt hm.toDram (t.svAddr k (t.fld (Reg.seqSvbaseRow k) 0 30) (64 * (row % 2 ^ 26))) srcPerCycle
  have hput (u : State) (r : FmtRow) (hu : Only m s u) : Only m s (put u r) := (hu.modSite _ (hm.site k)).ite hu
  split
  · next hread =>
    rw [hread] at hr
    exact hput _ _ hr
  · next hread =>
    rw [hread] at hr
    exact hput _ _ hr

/-! ### Frames -/

theorem Only.fromGolden (f : Nat) (hit : Bool) (h : Only m s t) : Only m s (t.fromGolden f hit).1 := by
  have hr := h.goldenRead hm.toDram f hit
  unfold State.fromGolden
  split
  · split
    · next hread =>
      rw [hread] at hr
      exact hr
    · next hread =>
      rw [hread] at hr
      exact hr.setCtl hm.ctl
  · exact h

theorem Only.followHeld (k : Nat) (h : Only m s t) : Only m s (t.followHeld k) :=
  Only.followSite k (h.ite (h.abortSlice (hm.bist k) (hm.fab k))) (hm.reg _) (hm.reg _) (hm.reg _)

theorem Only.reloadFailed (f : Nat) (relevant : Bool) (h : Only m s t) : Only m s (t.reloadFailed f relevant) := by
  have he := h.safEvent 0x09 f (hm.queue _) (hm.reg _)
  unfold State.reloadFailed
  dsimp only
  split
  · exact Only.followHeld hm _ (Only.modSite _ (Only.setFld _ _ _ (Only.integ _ _ _ _ he (hm.site _) fun a _ => hm.reg a) (hm.reg _)) (hm.site _))
  · exact he

theorem Only.reloadFrame (f : Nat) (hit : Bool) (h : Only m s t) : Only m s (t.reloadFrame f hit) := by
  have hg := h.fromGolden hm f hit
  unfold State.reloadFrame
  extract_lets errs
  split
  next u ok hu =>
    rw [hu] at hg
    have h1 : Only m s (errs.foldl (fun s r => s.pushQ Reg.cfgUpsetLog 32 (r.entry ok)) u) := Only.foldl hg fun u r hu => hu.pushQ _ _ (hm.queue _)
    have h2 := h1.setCtl (x := { (errs.foldl (fun s r => s.pushQ Reg.cfgUpsetLog 32 (r.entry ok)) u).ctl with
      reloads := (errs.foldl (fun s r => s.pushQ Reg.cfgUpsetLog 32 (r.entry ok)) u).ctl.reloads.filter (fun q => q.frame != f) }) hm.ctl
    exact (h2.reloadFailed hm _ _).ite h2

theorem Only.serveFirst (a n : Nat) (h : Only m s t) : Only m s (t.serveFirst a n) := by
  unfold State.serveFirst
  extract_lets vs
  refine Only.foldl (Only.forAll h fun u k _ hu => ?_) fun u f hu => hu.reloadFrame hm f false
  extract_lets now s1 s2
  have h1 : Only m s s1 := Only.foldl (hu.modSite _ (hm.site k)) fun u l hu => hu.mergeLine hm k l
  have h2 : Only m s s2 := by
    unfold s2
    split
    · exact h1.ite (h1.loadLine hm k _)
    · exact h1
  exact Only.forAll h2 fun u r _ hu => Only.svArrive hm k r (hu.checkDue (hm.site k) fun a _ => hm.reg a)

end Serves

end Sys2Proof.Machine
end

section
/-! What comes at the end of a sequencer's last cycle (R65, R68, R99 to R103): what a stop and a fault leave behind, and what they leave alone. -/

namespace Sys2Proof.Machine

variable {m : May} {s t : State} {k : Nat}

/-! ### What changes -/

/-- A command that may change what a stop of sequencer `k` changes, the integrity logs among it. -/
structure May.Stops (m : May) (k : Nat) : Prop where
  low : ∀ a, a < 0x8000 → m.reg a
  stop : ∀ a, stopRegs k a → m.reg a
  site : m.site k
  fab : m.fab k
  bist : m.bist k

theorem May.Stops.issue (hm : m.Stops k) (a : Nat) (ha : issueRegs k a) : m.reg a := hm.stop a (.inl ha)

theorem May.Stops.integ (hm : m.Stops k) (a : Nat) (ha : integRegs k a) : m.reg a :=
  hm.issue a (.inr (.inr (.inr (.inr (.inr (.inr (.inr ha)))))))

theorem May.Stops.status (hm : m.Stops k) : m.reg (Reg.seqStatus k) := hm.issue _ (.inr (.inr (.inr (.inl rfl))))

section Stops
variable (hm : m.Stops k) (hk : k < 16)
include hm

theorem Only.follows (h : Only m s t) : Only m s (t.followSite k) :=
  h.followSite k (hm.low _ (by decide)) (hm.stop _ (.inr (.inr (.inr (.inr (.inl rfl)))))) (hm.low _ (by decide))

include hk in
theorem Only.integUndo (cls : Nat) (h : Only m s t) : Only m s (t.integUndo k cls) := by
  unfold State.integUndo
  extract_lets used mine s1 s2 s3 s4
  have h1 : Only m s s1 := h.setFld _ _ _ (hm.low _ (by simp only [Reg.glbIntegCnt]; omega))
  have hused : used < 32 := Nat.mod_lt _ (by decide)
  split
  · exact h
  · split
    · have h2 : Only m s s2 := h1.setBit _ _ (hm.low _ (by simp only [Reg.glbIntegLo, Reg.glbIntegHi]; split <;> omega))
      have h3 : Only m s s3 := Only.forAll h2 fun u i hi hu =>
        hu.wr _ (hm.low _ (by have := List.mem_range.mp hi; simp only [Reg.glbIntegLog]; omega))
      exact (h3.modSite _ hm.site).setFld _ _ _ (hm.low _ (by simp only [Reg.glbIntegCnt]; omega))
    · exact h1

include hk in
theorem Only.seqStop (reason cyc : Nat) (h : Only m s t) : Only m s (t.seqStop k reason cyc) := by
  unfold State.seqStop
  extract_lets park s1 s2 s3 s4 s5
  have h1 : Only m s s1 := by
    unfold s1
    split
    · exact h.ite (h.integUndo hm hk _)
    · exact h
  have h3 : Only m s s3 := Only.setFld _ _ _ (h1.wr64 _ (hm.stop _ (.inr (.inl rfl))) (hm.stop _ (.inr (.inr (.inl (Nat.add_right_comm ..)))))) hm.status
  have h4 : Only m s s4 := by
    unfold s4
    split
    · exact h3.integ _ _ _ _ hm.site hm.integ
    · exact h3
  exact Only.follows hm (Only.setFld _ _ _ ((h4.abortSlice hm.bist hm.fab).modSite _ hm.site) hm.status)

end Stops

section Stops
variable (hm : m.Stops k) (hk : k < 16) (hf : m.reg (Reg.seqFault k))
include hm hk hf

theorem Only.seqFaultAt (code pc cyc : Nat) (h : Only m s t) : Only m s (t.seqFaultAt k code pc cyc) :=
  (h.wr _ hf).seqStop hm hk _ _

theorem Only.stopNow (h : Only m s t) : Only m s (t.stopNow k) := by
  unfold State.stopNow
  dsimp only
  split
  · exact h
  · split
    · exact h.seqFaultAt hm hk hf _ _ _
    · split
      · exact h.ite (h.seqStop hm hk _ _)
      · exact h

theorem Only.issueUpTo (w : BitVec 64) (len : Nat) (window sv : Bool) (h : Only m s t) (ht : m.time) :
    Only m s (t.issueUpTo k w len window sv).1 := by
  have hi (n : Nat) : Only m s (t.issue k w n window sv) := h.issue _ _ _ _ hm.site ht hm.issue
  unfold State.issueUpTo
  dsimp only
  split
  · split
    · exact hi _
    · exact Only.stopNow hm hk hf (Only.modSite _ ((hi _).ite h) hm.site)
  · exact hi _

theorem Only.catchUp (h : Only m s t) (ht : m.time) : Only m s (t.catchUp k) := by
  unfold State.catchUp State.cutTo
  split
  · dsimp only
    exact (h.issueUpTo hm hk hf _ _ _ _ ht).ite h
  · exact h

theorem Only.dueStop (h : Only m s t) (ht : m.time) : Only m s (t.dueStop k) := by
  unfold State.dueStop
  split
  · exact Only.stopNow hm hk hf (h.ite (h.catchUp hm hk hf ht))
  · exact h.stopNow hm hk hf

end Stops

/-! ### The fabric clock goes on -/

/-- Whatever stops of sequencers change: the time does not. -/
def stopsMay : May := { reg := fun _ => True, site := fun _ => True, fab := fun _ => True, bist := fun _ => True }

theorem stopsMay_stops (k : Nat) : stopsMay.Stops k := ⟨fun _ _ => trivial, fun _ _ => trivial, trivial, trivial, trivial⟩

theorem Only.fc_eq (h : Only stopsMay s t) : t.fc = s.fc := (h.time id).2.1

theorem runTo_fc_le (s : State) (f : Nat) : s.fc ≤ (s.runTo f).fc := by
  unfold State.runTo
  split
  · exact le_rfl
  · next h => exact (Nat.lt_of_not_le h).le

theorem issue_fc_le (w : BitVec 64) (len : Nat) (window sv : Bool) : s.fc ≤ (s.issue k w len window sv).fc := by
  unfold State.issue
  extract_lets sp s1 s2 s3 s4
  have h1 : Only stopsMay s s1 := Only.recordDiscard sp (.refl _ s) trivial fun _ _ => trivial
  have h2 : Only stopsMay s s2 := h1.modSite _ trivial
  have h3 : Only stopsMay s s3 := h2.ite (h2.wr _ trivial)
  have h4 : Only stopsMay s s4 := (h3.setFld _ _ _ trivial).setFld _ _ _ trivial
  have h5 : Only stopsMay s (s4.showCycle k) := h4.showCycle trivial trivial
  rw [← h5.fc_eq, Only.fc_eq (Only.checkDue (.refl _ _) trivial fun _ _ => trivial)]
  exact runTo_fc_le _ _

section Fc
variable (hk : k < 16)
include hk

theorem stopNow_fc : (s.stopNow k).fc = s.fc := Only.fc_eq ((Only.refl _ s).stopNow (stopsMay_stops k) hk trivial)

theorem issueUpTo_fc_le (w : BitVec 64) (len : Nat) (window sv : Bool) : s.fc ≤ (s.issueUpTo k w len window sv).1.fc := by
  unfold State.issueUpTo
  dsimp only
  split
  · split
    · exact issue_fc_le _ _ _ _
    · rw [stopNow_fc hk, State.modSite_fc]
      split
      · exact le_rfl
      · exact issue_fc_le _ _ _ _
  · exact issue_fc_le _ _ _ _

theorem catchUp_fc_le : s.fc ≤ (s.catchUp k).fc := by
  unfold State.catchUp State.cutTo
  split
  · dsimp only
    split
    · exact le_rfl
    · exact issueUpTo_fc_le hk _ _ _ _
  · exact le_rfl

theorem dueStop_fc_le : s.fc ≤ (s.dueStop k).fc := by
  unfold State.dueStop
  rw [stopNow_fc hk]
  split
  · split
    · exact catchUp_fc_le hk
    · exact le_rfl
  · exact le_rfl

end Fc

/-! ### What a stop leaves behind -/

theorem Only.fld_eq {a lo len : Nat} (h : Only m s t) (ha : ¬ m.reg a) : t.fld a lo len = s.fld a lo len := by
  rw [State.fld, h.reg a ha, State.fld]

theorem Only.rd64_eq {a : Nat} (h : Only m s t) (ha : ¬ m.reg a) (hb : ¬ m.reg (a + 4)) : t.rd64 a = s.rd64 a := by
  rw [State.rd64, h.reg a ha, h.reg _ hb, State.rd64]

theorem State.wr64_rd64 (s : State) (a v : Nat) : (s.wr64 a v).rd64 a = v % 2 ^ 64 := by
  simp only [State.rd64, State.wr64_rd, if_true, BitVec.toNat_ofNat]
  rw [if_neg (by omega)]
  simp only [BitVec.toNat_ofNat]
  omega

/-- What the end of a stop changes: the state of the sequencer, and what follows the state of its site. -/
def endsMay (k : Nat) : May :=
  { reg := fun a => a = Reg.glbSiteState ∨ a = Reg.fabPenStat ∨ a = Reg.glbMode ∨ integRegs k a, site := fun j => j = k, fab := fun j => j = k
    bist := fun j => j = k }

section Stopped
variable {reason cyc : Nat} (hk : k < 16)
include hk

/-- The registers of a sequencer's window other than those of its issuing are no registers of its site's state. -/
theorem not_endsMay_reg {a : Nat} (hlo : 0xC00000 ≤ a) (hhi : a < 0x1400000) : ¬ (endsMay k).reg a := by
  simp only [endsMay, integRegs, Reg.glbSiteState, Reg.fabPenStat, Reg.glbMode, Reg.glbIntegLo, Reg.glbIntegHi, Reg.glbIntegCnt, Reg.glbIntegLog]
  omega

/-- A stop records its reason and cycle, and the sequencer drains. -/
theorem seqStop_stopped (hr : reason < 16) : Stopped (s.seqStop k reason cyc) k reason cyc := by
  have hkeep {a : Nat} := not_endsMay_reg (a := a) hk
  unfold State.seqStop
  extract_lets park s1 s2 s3 s4 s5
  have h4 : Only (endsMay k) s3 s4 := by
    unfold s4
    split
    · exact (Only.refl _ s3).integ _ _ _ _ rfl fun _ h => .inr (.inr (.inr h))
    · exact .refl _ s3
  have h5 : Only (endsMay k) s3 s5 := (h4.abortSlice rfl rfl).modSite _ rfl
  have h6 : Only (endsMay k) (s5.setSeqState k 5) ((s5.setSeqState k 5).followSite k) :=
    (Only.refl _ _).followSite k (.inl rfl) (.inr (.inl rfl)) (.inr (.inr (.inl rfl)))
  have hfollow : Only { reg := fun a => a = Reg.glbSiteState ∨ a = Reg.fabPenStat ∨ a = Reg.glbMode } (s5.setSeqState k 5)
      ((s5.setSeqState k 5).followSite k) := (Only.refl _ _).followSite k (.inl rfl) (.inr (.inl rfl)) (.inr (.inr rfl))
  have hsite : ((s5.setSeqState k 5).followSite k).getSite k = s5.getSite k := hfollow.site k id
  have hst : ¬ (endsMay k).reg (Reg.seqStatus k) := hkeep (by simp only [Reg.seqStatus]; omega) (by simp only [Reg.seqStatus]; omega)
  constructor
  case state => exact (h6.fld_eq hst).trans (State.setFld_fld _ _ _ _ _ (by decide))
  case reason =>
    rw [h6.fld_eq hst, State.setSeqState, State.setFld_fld_other _ _ _ _ _ _ _ _ (by decide) (.inr (.inr (by decide))), h5.fld_eq hst,
      State.setFld_fld _ _ _ _ _ (by decide)]
    exact Nat.mod_eq_of_lt hr
  case cyc =>
    have hlo : ¬ (endsMay k).reg (Reg.seqStopCycLo k) := hkeep (by simp only [Reg.seqStopCycLo]; omega) (by simp only [Reg.seqStopCycLo]; omega)
    have hhi : ¬ (endsMay k).reg (Reg.seqStopCycLo k + 4) := hkeep (by simp only [Reg.seqStopCycLo]; omega) (by simp only [Reg.seqStopCycLo]; omega)
    have hne (u : State) (c lo len : Nat) : (u.setFld (Reg.seqStatus k) lo len c).rd64 (Reg.seqStopCycLo k) = u.rd64 (Reg.seqStopCycLo k) := by
      simp only [State.rd64, State.setFld_rd, Reg.seqStopCycLo, Reg.seqStatus]
      rw [if_neg (by omega), if_neg (by omega)]
    rw [h6.rd64_eq hlo hhi, State.setSeqState, hne, h5.rd64_eq hlo hhi, hne, State.wr64_rd64]
    omega
  case wait => rw [hsite, State.modSite_getSite, if_pos rfl]
  case plan => rw [hsite, State.modSite_getSite, if_pos rfl]

omit hk in
/-- Another step leaves what a stop of sequencer `k` leaves behind. -/
theorem Stopped.keep (h : Stopped s k reason cyc) (hm : Only m s t) (hst : ¬ m.reg (Reg.seqStatus k)) (hlo : ¬ m.reg (Reg.seqStopCycLo k))
    (hhi : ¬ m.reg (Reg.seqStopCycHi k)) (hsite : ¬ m.site k) : Stopped t k reason cyc where
  state := (hm.fld_eq hst).trans h.state
  reason := (hm.fld_eq hst).trans h.reason
  cyc := (hm.rd64_eq hlo (by simpa [Nat.add_right_comm] using hhi)).trans h.cyc
  wait := by rw [hm.site k hsite, h.wait]
  plan := by rw [hm.site k hsite, h.plan]

end Stopped

/-! ### The stop at the end of the last cycle -/

/-- Whatever but sequencer `k`: what a step for another one may change. -/
def awayMay (k : Nat) : May :=
  { reg := fun a => a ≠ Reg.seqStatus k ∧ a ≠ Reg.seqFault k ∧ a ≠ Reg.seqStopCycLo k ∧ a ≠ Reg.seqStopCycHi k, site := fun j => j ≠ k
    fab := fun _ => True, bist := fun _ => True, key := fun _ => True, time := True, free := True }

/-- The registers that a stop changes are no fault register, and those of another sequencer are no status or stop cycle of this one. -/
theorem stopRegs_ne {j a : Nat} (hj : j < 16) (hk : k < 16) (ha : stopRegs j a) :
    a ≠ Reg.seqFault k ∧ (j ≠ k → a ≠ Reg.seqStatus k ∧ a ≠ Reg.seqStopCycLo k ∧ a ≠ Reg.seqStopCycHi k) := by
  simp only [stopRegs, issueRegs, integRegs, Reg.seqPc, Reg.seqCycleLo, Reg.seqCycleHi, Reg.seqStatus, Reg.seqImemEcc, Reg.seqX, Reg.capStatus,
    Reg.glbIntegLo, Reg.glbIntegHi, Reg.glbIntegCnt, Reg.glbIntegLog, Reg.seqStopCycLo, Reg.seqStopCycHi, Reg.glbSiteState, Reg.fabPenStat,
    Reg.glbMode] at ha
  simp only [Reg.seqFault, Reg.seqStatus, Reg.seqStopCycLo, Reg.seqStopCycHi]
  omega

theorem awayMay_stops {j : Nat} (hj : j < 16) (hk : k < 16) (hjk : j ≠ k) : (awayMay k).Stops j where
  low a ha := by simp only [awayMay, Reg.seqStatus, Reg.seqFault, Reg.seqStopCycLo, Reg.seqStopCycHi]; omega
  stop a ha := by
    obtain ⟨hfault, hother⟩ := stopRegs_ne hj hk ha
    obtain ⟨hstatus, hlo, hhi⟩ := hother hjk
    exact ⟨hstatus, hfault, hlo, hhi⟩
  site := hjk
  fab := trivial
  bist := trivial

theorem awayMay_fault {j : Nat} (hjk : j ≠ k) : (awayMay k).reg (Reg.seqFault j) := by
  simp only [awayMay, Reg.seqStatus, Reg.seqFault, Reg.seqStopCycLo, Reg.seqStopCycHi]
  omega

section Due
variable {reason code pc cyc : Nat}

theorem Stopped.away (h : Stopped s k reason cyc) (hm : Only (awayMay k) s t) : Stopped t k reason cyc :=
  h.keep hm (by simp [awayMay]) (by simp [awayMay]) (by simp [awayMay]) (by simp [awayMay])

theorem Faulted.away (h : Faulted s k code pc cyc) (hm : Only (awayMay k) s t) : Faulted t k code pc cyc where
  fault := (hm.reg _ (by simp [awayMay])).trans h.fault
  stop := h.stop.away hm

/-- The fault of a sequencer is recorded, and it stops. -/
theorem seqFaultAt_faulted (hk : k < 16) : Faulted (s.seqFaultAt k code pc cyc) k code pc cyc where
  fault := by
    have hm : May.Stops { reg := fun a => a ≠ Reg.seqFault k, site := fun _ => True, fab := fun _ => True, bist := fun _ => True } k :=
      ⟨fun a ha => by simp only [Reg.seqFault]; omega, fun a ha => (stopRegs_ne hk hk ha).1, trivial, trivial, trivial⟩
    have h := Only.seqStop hm hk 7 cyc (.refl _ (s.wr (Reg.seqFault k) (BitVec.ofNat 32 (code + pc % 2 ^ 15 * 2 ^ 8))))
    exact (h.reg _ (by simp)).trans (by simp)
  stop := seqStop_stopped hk (by decide)

theorem inWait_of_idle (h : s.seqRuns k = false) : s.inWait k = false := by
  simp only [State.seqRuns, Bool.or_eq_false_iff] at h
  simp only [State.inWait, h.2, Bool.false_and]

theorem dueStop_eq_stopNow (h : s.inWait k = false) : s.dueStop k = s.stopNow k := by
  unfold State.dueStop
  split
  · simp only [h, Bool.false_and, Bool.false_eq_true, if_false]
  · rfl

/-- Nothing comes for a sequencer that does not run. -/
theorem dueStop_of_idle (h : s.seqRuns k = false) : s.dueStop k = s := by
  rw [dueStop_eq_stopNow (inWait_of_idle h), State.stopNow]
  simp only [h, Bool.not_false, Bool.true_or, if_true]

section Runs
variable (hk : k < 16) (hruns : s.seqRuns k = true) (hwait : s.inWait k = false) (hcome : (s.getSite k).cycle ≤ s.nowCyc k)
include hk hruns hwait hcome

/-- Past 0x7FFF the illegal instruction faults (R68). -/
theorem dueStop_past (hpast : (s.getSite k).after = .past) : Faulted (s.dueStop k) k 0x02 0 ((s.getSite k).cycle + 2 ^ 48 - 1) := by
  have h : s.dueStop k = s.seqFaultAt k 0x02 0x8000 (s.lastCycle k) := by
    rw [dueStop_eq_stopNow hwait, State.stopNow]
    simp only [hruns, Nat.not_lt.mpr hcome, hpast, Bool.not_true, decide_false, Bool.or_false, Bool.false_eq_true, if_false, if_true]
  have hf : Faulted (s.dueStop k) k 0x02 0x8000 (s.lastCycle k) := h ▸ seqFaultAt_faulted hk
  exact ⟨hf.fault, hf.stop.state, hf.stop.reason, hf.stop.cyc.trans (Nat.mod_mod _ _), hf.stop.wait, hf.stop.plan⟩

/-- A planned stop comes at its cycle (R99). -/
theorem dueStop_planned {e : Nat} (hpast : (s.getSite k).after ≠ .past) (hplan : (s.getSite k).stopAt = some (e, cyc)) (he : e ≤ (s.getSite k).cycle)
    (hcut : (s.getSite k).after = .cut ∨ (s.getSite k).cycle < s.nowCyc k) (hby : (s.getSite k).stopBy < 16) :
    Stopped (s.dueStop k) k (s.getSite k).stopBy cyc := by
  have h : s.dueStop k = s.seqStop k (s.getSite k).stopBy cyc := by
    rw [dueStop_eq_stopNow hwait, State.stopNow]
    simp only [hruns, Nat.not_lt.mpr hcome, hpast, hplan, he, hcut, Bool.not_true, decide_false, Bool.or_false, Bool.false_eq_true, if_false, and_self,
      if_true]
  exact h ▸ seqStop_stopped hk hby

end Runs

/-- The sequencers before `k` leave it as it is, then its own stop comes, and those behind it leave that. -/
theorem forAll_dueStop (hk : k < 16) : ∃ u, Only (awayMay k) s u ∧ s.fc ≤ u.fc ∧ Only (awayMay k) (u.dueStop k) (s.forAll sites State.dueStop) := by
  obtain ⟨front, back, (hsplit : sites = front ++ k :: back)⟩ := List.append_of_mem (List.mem_range.mpr hk : k ∈ sites)
  have hnodup : (front ++ k :: back).Nodup := hsplit ▸ List.nodup_range
  have hmem {j : Nat} (hj : j ∈ front ++ k :: back) : j < 16 := List.mem_range.mp (hsplit ▸ hj : j ∈ sites)
  have haway {u w : State} {j : Nat} (hj : j ∈ front ++ k :: back) (hjk : j ≠ k) (h : Only (awayMay k) w u) : Only (awayMay k) w (u.dueStop j) :=
    h.dueStop (awayMay_stops (hmem hj) hk hjk) (hmem hj) (awayMay_fault hjk) trivial
  obtain ⟨-, hback, hfront⟩ := List.nodup_append.mp hnodup
  refine ⟨s.forAll front State.dueStop, ?_, ?_, ?_⟩
  · refine Only.forAll (.refl _ s) fun u j hj hu => haway (List.mem_append_left _ hj) ?_ hu
    exact hfront j hj k List.mem_cons_self
  · refine State.forAll_keeps (P := fun u => s.fc ≤ u.fc) le_rfl fun u j hj hu => hu.trans (dueStop_fc_le (hmem (List.mem_append_left _ hj)))
  · have hrun : s.forAll sites State.dueStop = ((s.forAll front State.dueStop).dueStop k).forAll back State.dueStop := by
      rw [hsplit]
      simp only [State.forAll, List.foldl_append, List.foldl_cons]
    rw [hrun]
    refine Only.forAll (.refl _ _) fun u j hj hu => haway (List.mem_append_right _ (List.mem_cons_of_mem _ hj)) ?_ hu
    rintro rfl
    exact (List.nodup_cons.mp hback).1 hj

end Due

end Sys2Proof.Machine
end

section
/-! O56: a step runs the command at the front of the queue, or one BCLK cycle passes. -/

namespace Sys2Proof.Machine

variable {s t : State}

/-! ### The debug master leaves the accesses that wait -/

/-- Whatever an access of the debug master over the network may change, but its own interface. -/
def accessMay : May :=
  { reg := fun _ => True, queue := fun _ => True, site := fun _ => True, vault := fun _ => True, fab := fun _ => True, bist := fun _ => True
    dram := fun _ => True, key := fun _ => True, free := True, ctl := True }

theorem accessMay_serves : accessMay.Serves :=
  ⟨fun _ => trivial, fun _ => trivial, fun _ => trivial, fun _ => trivial, fun _ => trivial, fun _ => trivial, fun _ => trivial, trivial, trivial⟩

theorem Only.glint_eq (h : Only accessMay s t) : t.glint = s.glint := h.glint id

theorem dbgRead_glint (s : State) (space a : Nat) (e : Ecc) (flip : Word) : (s.dbgRead space a e flip).st.glint = s.glint := by
  have hread : Only accessMay s ((s.serveFirst (a % 2 ^ 41) 4).readBytes (a % 2 ^ 41) 4 4).1 :=
    Only.readBytes accessMay_serves.toDram _ _ _ (Only.serveFirst accessMay_serves _ _ (.refl _ s))
  unfold State.dbgRead
  split
  · rfl
  · split
    · rfl
    · dsimp only
      split <;> rfl
    · split
      next hr =>
      rw [hr] at hread
      split <;> exact hread.glint_eq
    · split <;> rfl

/-- A write of the debug master to the stacked DRAM. -/
theorem dbgWrite_glint (s : State) {space : Nat} (a : Nat) (v : Word) (x : WriteAux) (h : space = 2) :
    (s.dbgWrite space a v x).st.glint = s.glint := by
  have hwrite : Only accessMay s (((s.txn 4).serveFirst (a % 2 ^ 41) 4).writeBytes (a % 2 ^ 41) (leBytes 4 v.toNat) 4).1 :=
    Only.writeBytes accessMay_serves.toDram _ _ _ (Only.serveFirst accessMay_serves _ _ (Only.txn (.refl _ s) trivial))
  unfold State.dbgWrite
  split
  · rfl
  · split
    case h_1 | h_2 => cases h
    case h_3 => exact hwrite.glint_eq
    case h_4 hne => exact (hne h).elim

theorem glintReadNow_waiting (s : State) (a : BitVec 48) (e : Ecc) (flip : Word) (mine : Bool) :
    (s.glintReadNow a e flip mine).glint.waiting = s.glint.waiting := by
  have h : ((s.dbgRead (a.toNat / 2 ^ 44) (a.toNat % 2 ^ 41) e flip).st).glint.waiting = s.glint.waiting := by rw [dbgRead_glint]
  unfold State.glintReadNow
  dsimp only
  split
  · exact h
  · split <;> exact h

theorem glintWriteNow_waiting (s : State) {a : BitVec 48} (v : Word) (x : WriteAux) (mine : Bool) (ha : a.toNat / 2 ^ 44 = 2) :
    (s.glintWriteNow a v x mine).glint.waiting = s.glint.waiting := by
  have h : ((s.dbgWrite (a.toNat / 2 ^ 44) (a.toNat % 2 ^ 41) v x).st).glint.waiting = s.glint.waiting := by rw [dbgWrite_glint _ _ _ _ ha]
  unfold State.glintWriteNow
  dsimp only
  split <;> exact h

theorem glintServe_nil (h : s.glint.waiting = []) : s.glintServe = s := by
  unfold State.glintServe
  rw [h]

/-- The oldest access that waits completes, when it need not wait any more. -/
theorem glintServe_waiting {q : GlintReq} {rest : List GlintReq} (h : s.glint.waiting = q :: rest) (hup : s.busUp = true)
    (hgo : s.accessWaits 4 (q.addr.toNat % 2 ^ 41) 4 = false) (hq : q.wr = none ∨ q.addr.toNat / 2 ^ 44 = 2) : s.glintServe.glint.waiting = rest := by
  unfold State.glintServe
  rw [h]
  simp only [hup, hgo, Bool.not_true, Bool.or_false, Bool.false_eq_true, if_false]
  split
  · exact glintReadNow_waiting _ _ _ _ _
  · next hw => exact glintWriteNow_waiting _ _ _ _ (hq.resolve_left (by simp [hw]))

/-! ### The hart -/

theorem hartInstr_of_calm (h : s.coreRuns = false ∨ s.inMonitor = true ∨ s.keyLeft 3 = 0) : s.hartInstr = s := by
  unfold State.hartInstr
  rw [if_neg]
  simp only [Bool.and_eq_true, Bool.not_eq_true', decide_eq_true_eq]
  rintro ⟨⟨hruns, hmon⟩, hkey⟩
  rcases h with h | h | h
  · simp [h] at hruns
  · simp [h] at hmon
  · omega

theorem Only.hartInstr {m : May} (h : Only m s t) (hfree : m.free) (hkey : m.key 3) : Only m s t.hartInstr :=
  h.ite ((h.tickFree hfree).setKey _ hkey)

theorem hartInstr_keyLeft : s.hartInstr.keyLeft 3 = s.keyLeft 3 ∨ s.hartInstr.keyLeft 3 = s.keyLeft 3 - 1 := by
  unfold State.hartInstr
  split
  · rw [State.setKey_keyLeft, if_pos rfl]
    cases Config.freeBit s.free
    · exact .inl rfl
    · exact .inr rfl
  · exact .inl rfl

/-! ### The time -/

/-- One BCLK cycle of the time base and the fabric clock (R5, R433). -/
def State.timeOn (s : State) : State :=
  let p := s.fcPhase + (if s.clockOn 0 then 10 else 0)
  let more := if s.fdiv ≤ p then 1 else 0
  { s with tsc := s.tsc + 1, fc := s.fc + more, fcPhase := p - more * s.fdiv }

theorem Only.timeOn {m : May} (h : Only m s t) (ht : m.time) : Only m s t.timeOn := by
  refine h.trans ?_
  constructor <;> intros <;> first | rfl | exact ⟨rfl, rfl, rfl⟩ | contradiction

theorem timeOn_seqRuns (s : State) (k : Nat) : s.timeOn.seqRuns k = s.seqRuns k := rfl

/-- A cycle in which the clocks run, outside a brownout. -/
theorem tick_eq (hoff : ¬ (s.aon.brown = true ∧ 0 < s.aon.railsIn)) (hup : s.busUp = true) :
    s.tick = State.settle s ((s.timeOn.forAll sites State.dueStop).hartInstr.glintServe) := by
  unfold State.tick
  rw [if_neg hoff, hup]
  rfl

/-- Where no sequencer runs, none stops. -/
theorem forAll_dueStop_of_still (h : ∀ k, k < 16 → s.seqRuns k = false) : s.forAll sites State.dueStop = s := by
  refine State.forAll_keeps (P := fun u => u = s) rfl fun u k hk hu => ?_
  rw [hu]
  exact dueStop_of_idle (h k (List.mem_range.mp hk))

/-- Whatever sequencers and the hart change on their own in a cycle. -/
def cycleMay : May := { stopsMay with time := True, free := True, key := fun _ => True }

theorem forAll_dueStop_only (s : State) : Only cycleMay s (s.forAll sites State.dueStop) :=
  Only.forAll (.refl _ s) fun _ _ hk hu =>
    hu.dueStop ⟨fun _ _ => trivial, fun _ _ => trivial, trivial, trivial, trivial⟩ (List.mem_range.mp hk) trivial trivial

/-! ### One cycle -/

theorem exec_next (c : Instr) (s : State) : ∃ t, exec c s = .next t := by
  cases c <;> exact ⟨_, rfl⟩

theorem safeStep_of_exec (s : State) : s.safeStep := by
  unfold State.safeStep step
  split
  · exact ⟨_, rfl⟩
  · exact exec_next _ _

section Cycle
variable (hp : s.pending = []) (hoff : ¬ (s.aon.brown = true ∧ 0 < s.aon.railsIn)) (hup : s.busUp = true)
include hp

theorem step_of_empty : step s = .next s.tick := by
  unfold step
  rw [hp]

omit hp in
theorem tick_of_brownout (hoff : s.aon.brown = true ∧ 0 < s.aon.railsIn) : s.tick = { s with aon := { s.aon with railsIn := s.aon.railsIn - 1 } } := by
  unfold State.tick
  rw [if_pos hoff]

include hoff

theorem step_of_down (hup : s.busUp = false) : step s = .next s := by
  rw [step_of_empty hp, State.tick, if_neg hoff, hup]
  rfl

include hup

theorem step_of_empty_up : step s = .next (State.settle s ((s.timeOn.forAll sites State.dueStop).hartInstr.glintServe)) := by
  rw [step_of_empty hp, tick_eq hoff hup]

/-- Where no sequencer runs, the hart may complete an instruction, and then an access that waits is served. -/
theorem step_of_still (hstill : ∀ k, k < 16 → s.seqRuns k = false) : step s = .next (State.settle s s.timeOn.hartInstr.glintServe) := by
  rw [step_of_empty_up hp hoff hup, forAll_dueStop_of_still fun k hk => (timeOn_seqRuns s k).trans (hstill k hk)]

/-- The stop that is due comes, and the rest of the cycle leaves it. -/
theorem step_due {k : Nat} (hk : k < 16) (hnone : s.glint.waiting = []) : ∃ u t, step s = .next t ∧ Only (awayMay k) s.timeOn u ∧ s.timeOn.fc ≤ u.fc
    ∧ Only (awayMay k) (u.dueStop k) t := by
  obtain ⟨u, hbefore, hfc, hafter⟩ := forAll_dueStop (s := s.timeOn) hk
  refine ⟨u, _, step_of_empty_up hp hoff hup, hbefore, hfc, Only.settle s ?_⟩
  have hhart := hafter.hartInstr trivial trivial
  have hwaiting : ((s.timeOn.forAll sites State.dueStop).hartInstr).glint.waiting = [] := by
    rw [(Only.hartInstr (forAll_dueStop_only s.timeOn) trivial trivial).glint id]
    exact hnone
  rw [glintServe_nil hwaiting]
  exact hhart

/-- The time counts, and nothing else changes. -/
theorem step_of_calm (hstill : ∀ k, k < 16 → s.seqRuns k = false) (hcalm : s.coreRuns = false ∨ s.inMonitor = true ∨ s.keyLeft 3 = 0)
    (hnone : s.glint.waiting = []) : step s = .next (State.settle s s.timeOn) := by
  rw [step_of_still hp hoff hup hstill, hartInstr_of_calm (s := s.timeOn) hcalm, glintServe_nil (s := s.timeOn) hnone]

theorem step_of_hart (hstill : ∀ k, k < 16 → s.seqRuns k = false) (hnone : s.glint.waiting = []) : ∃ t, step s = .next t
    ∧ (t.keyLeft 3 = s.keyLeft 3 ∨ t.keyLeft 3 = s.keyLeft 3 - 1) ∧ Only { time := True, free := True, key := fun r => r = 3 } s t := by
  have hhart : Only { time := True, free := True, key := fun r => r = 3 } s s.timeOn.hartInstr := ((Only.refl _ s).timeOn trivial).hartInstr trivial rfl
  have hwaiting : s.timeOn.hartInstr.glint.waiting = [] := by rw [hhart.glint id, hnone]
  refine ⟨_, step_of_still hp hoff hup hstill, ?_⟩
  rw [glintServe_nil hwaiting, State.settle_keyLeft]
  exact ⟨hartInstr_keyLeft (s := s.timeOn), hhart.settle s⟩

theorem step_of_access (hstill : ∀ k, k < 16 → s.seqRuns k = false) (hcalm : s.coreRuns = false ∨ s.inMonitor = true ∨ s.keyLeft 3 = 0)
    {q : GlintReq} {rest : List GlintReq} (hwaiting : s.glint.waiting = q :: rest) (hgo : s.accessWaits 4 (q.addr.toNat % 2 ^ 41) 4 = false)
    (hq : q.wr = none ∨ q.addr.toNat / 2 ^ 44 = 2) : ∃ t, step s = .next t ∧ t.glint.waiting = rest := by
  refine ⟨_, step_of_still hp hoff hup hstill, ?_⟩
  rw [hartInstr_of_calm (s := s.timeOn) hcalm, State.settle_glint]
  exact glintServe_waiting (s := s.timeOn) hwaiting hup hgo hq

theorem step_of_due {k : Nat} (hk : k < 16) (hnone : s.glint.waiting = []) (hruns : s.seqRuns k = true) (hwait : s.inWait k = false)
    (hcome : (s.getSite k).cycle ≤ s.timeOn.fc - (s.getSite k).fc0) : ∃ t, step s = .next t
      ∧ ((s.getSite k).after = .past → Faulted t k 0x02 0 ((s.getSite k).cycle + 2 ^ 48 - 1))
      ∧ ∀ e c, (s.getSite k).after ≠ .past → (s.getSite k).stopAt = some (e, c) → e ≤ (s.getSite k).cycle →
        ((s.getSite k).after = .cut ∨ (s.getSite k).cycle < s.timeOn.fc - (s.getSite k).fc0) → (s.getSite k).stopBy < 16 →
        Stopped t k (s.getSite k).stopBy c := by
  obtain ⟨u, t, hstep, hbefore, hfc, hafter⟩ := step_due hp hoff hup hk hnone
  have hsite : u.getSite k = s.getSite k := hbefore.site k fun h => h rfl
  have hstate : u.seqState k = s.seqState k := hbefore.fld_eq fun h => h.1 rfl
  have huruns : u.seqRuns k = true := by rw [State.seqRuns, hstate]; exact hruns
  have huwait : u.inWait k = false := by rw [State.inWait, hstate, hsite]; exact hwait
  have hnow : s.timeOn.fc - (s.getSite k).fc0 ≤ u.nowCyc k := by rw [State.nowCyc, hsite]; omega
  have hucome : (u.getSite k).cycle ≤ u.nowCyc k := by rw [hsite]; omega
  refine ⟨t, hstep, fun hpast => ?_, fun e c hpast hplan he hcut hby => ?_⟩
  · have h := dueStop_past hk huruns huwait hucome (by rw [hsite]; exact hpast)
    rw [hsite] at h
    exact h.away hafter
  · have h := dueStop_planned hk huruns huwait hucome (by rw [hsite]; exact hpast) (by rw [hsite]; exact hplan) (by rw [hsite]; exact he)
      (by rw [hsite]; exact hcut.imp id fun h => h.trans_le hnow) (by rw [hsite]; exact hby)
    rw [hsite] at h
    exact h.away hafter

end Cycle

/-- Settles O56, by the frame of each part of a cycle: the stops of other sequencers leave what the stop of one of them records. -/
theorem stepTakesFront : Obligations.StepTakesFront := by
  intro c l s off p more still calm
  refine ⟨fun hp => ?_, fun hp hoff => ?_, fun hp hoff hdown => step_of_down hp hoff hdown, fun hp hoff hup hstill hcalm hnone => ?_,
    fun hp hoff hup hstill _ hnone => step_of_hart hp hoff hup hstill hnone,
    fun q rest hp hoff hup hstill hcalm hwaiting hgo hq => step_of_access hp hoff hup hstill hcalm hwaiting hgo hq,
    fun k hk hp hoff hup hnone hruns hwait => ?_, safeStep_of_exec s⟩
  · unfold step
    rw [hp]
  · refine ⟨_, step_of_empty hp, ?_⟩
    rw [tick_of_brownout hoff]
    refine ⟨rfl, ?_⟩
    constructor <;> intros <;> first | rfl | exact ⟨rfl, rfl, rfl⟩ | contradiction
  · exact ⟨_, step_of_calm hp hoff hup hstill hcalm hnone, rfl, rfl, rfl, ((Only.refl _ s).timeOn trivial).settle s⟩
  · intro x n hcome
    exact step_of_due hp hoff hup hk hnone hruns hwait hcome

end Sys2Proof.Machine
end

section
/-! The refutation of the frame of a received frame: a response on which the compare units disagree stops the sequencer (R103, R210), and the stop
aborts the self-test slice of its region (R89), which what a received frame may change leaves out. -/

namespace Sys2Proof.Machine

/-- The frame that waits for its answer on lane 0: its first position carries cycle 0. -/
def sentDuringSlice : Sent := { frame := 0, kind := 0, cycles := [some 0] }

/-- Sequencer 0 waits in a BISTWIN while a self-test slice runs in its region; of the lanes of cycle 0, lane 0 alone has not answered yet. -/
def answeringWithSlice : State :=
  { regs := [(Reg.lnkStat 256, 0x80000000), (Reg.seqStatus 0, 4)], fc := 40
    site := [(0, { cycle := 30, hUse := 40, wait := .bistwin 10 20, acc := [(0, { lanes := 0xFFFE })]
                   spans := [{ first := 10, len := 20, ctx := 0, tset := 0, cap := 0, window := true, bistFrom := some 10 },
                     { first := 0, len := 10, ctx := 0, tset := 0, cap := 0 }] })]
    lane := [(0, { sent := [sentDuringSlice] })]
    bist := [(0, { run := some { col := 0, lap := true } })] }

/-- A DATA frame whose body holds only zeros. -/
def zeroFrame : PrxFrame := { hdr := 2, body := 0, rtt := 0 }

/-- Lane 0 is locked, the frame awaits its answer, and the answer is a DATA frame. -/
theorem answeringWithSlice_ready : answeringWithSlice.prxLocked 0 = true
    ∧ (answeringWithSlice.getLane 0).sent.find? (fun p => p.frame == 0) = some sentDuringSlice
    ∧ answeringWithSlice.rxOffset 0 = false ∧ (answeringWithSlice.prxBody 0 zeroFrame).kind = kindData := by
  refine ⟨?_, ?_, ?_, ?_⟩ <;> decide +kernel

/-- The compare units disagree on its first symbol, and the stop ends the slice. -/
theorem answeringWithSlice_frame : ∃ t, exec (.prxDataFrame 0 0 zeroFrame 0 1) answeringWithSlice = .next t
    ∧ (answeringWithSlice.getBist 0).run.isSome = true ∧ (t.getBist 0).run = none := ⟨_, rfl, by decide +kernel, by decide +kernel⟩

/-- Refutes O11: a DATA frame received in `answeringWithSlice` changes the self-test of region 0. -/
theorem not_prxFrames : ¬ Obligations.PrxFrames := by
  unfold Obligations.PrxFrames
  intro h
  obtain ⟨hlocked, hsent, hoff, hkind⟩ := answeringWithSlice_ready
  obtain ⟨answered, -⟩ := h 0 0 zeroFrame 0 1 sentDuringSlice answeringWithSlice
  obtain ⟨t, ht, -, -, -, -, -, -, -, -, -, -, -, -, only⟩ := (answered hlocked hsent hoff).1 hkind
  obtain ⟨u, hu, hrun, hnone⟩ := answeringWithSlice_frame
  obtain rfl : t = u := Host.Outcome.next.inj (ht.symm.trans hu)
  rw [only.bist 0 id] at hnone
  simp [hnone] at hrun

end Sys2Proof.Machine
end

section
/-! Rows of programs and overlays in instruction memory (R64, R90, R97), and what reading them leaves (R267). -/

namespace Sys2Proof.Machine

variable {m : May} {s t : State} {k : Nat}

/-! ### Words of a row -/

theorem Sparse.get_setList {α : Type} [DecidableEq α] (d : Nat → α) (x : α) (j : Nat) (vs : List α) (l : List (Nat × α)) (k : Nat) :
    Sparse.get d (Sparse.setList d l k vs) j = if k ≤ j ∧ j < k + vs.length then vs.getD (j - k) x else Sparse.get d l j := by
  induction vs generalizing l k with
  | nil => rw [if_neg (by simp)]; rfl
  | cons v vs ih =>
    rw [Sparse.setList, ih, Sparse.get_set, List.length_cons]
    rcases Nat.lt_trichotomy j k with hlt | rfl | hgt
    · rw [if_neg (by omega), if_neg (by omega), if_neg (by omega)]
    · simp
    · obtain ⟨i, rfl⟩ := Nat.exists_eq_add_of_lt hgt
      have hi : k + i + 1 - k = i + 1 ∧ k + i + 1 - (k + 1) = i := by omega
      simp only [hi.1, hi.2, List.getD_cons_succ]
      rw [if_neg (by omega : ¬ k + i + 1 = k)]
      exact if_congr (by omega) rfl rfl

/-- Instruction word `i` of the rows, counted over row boundaries. -/
def rowsWord (rows : List (List Byte)) (i : Nat) : BitVec 64 :=
  BitVec.ofNat 64 (ofLe (((rows.getD (i / 256) []).drop (8 * (i % 256))).take 8))

theorem imemWords_length (d : List Byte) : (imemWords d).length = 256 := by simp [imemWords]

theorem flatMap_imemWords_length (rows : List (List Byte)) : (rows.flatMap imemWords).length = 256 * rows.length := by
  induction rows with
  | nil => rfl
  | cons d rows ih => rw [List.flatMap_cons, List.length_append, ih, imemWords_length, List.length_cons]; omega

theorem flatMap_imemWords_getD (rows : List (List Byte)) (i : Nat) (hi : i < 256 * rows.length) :
    (rows.flatMap imemWords).getD i 0 = rowsWord rows i := by
  induction rows generalizing i with
  | nil => simp at hi
  | cons d rows ih =>
    rw [List.flatMap_cons]
    by_cases h : i < 256
    · rw [List.getD_append _ _ _ _ (by rw [imemWords_length]; exact h)]
      simp [rowsWord, imemWords, List.getD_eq_getElem?_getD, Nat.div_eq_of_lt h, Nat.mod_eq_of_lt h, h]
    · obtain ⟨j, rfl⟩ := Nat.exists_eq_add_of_le (Nat.le_of_not_lt h)
      rw [List.getD_append_right _ _ _ _ (by rw [imemWords_length]; omega), imemWords_length, Nat.add_sub_cancel_left,
        ih j (by rw [List.length_cons] at hi; omega)]
      have hj : (256 + j) / 256 = j / 256 + 1 ∧ (256 + j) % 256 = j % 256 := by omega
      rw [rowsWord, rowsWord, hj.1, hj.2, List.getD_cons_succ]

/-- Address `a` of the instruction memory of sequencer `k`. -/
def State.imemAt (s : State) (k a : Nat) : BitVec 64 := Sparse.get (fun _ => 0) (s.getSite k).imem a

@[simp] theorem State.settle_seqState (s u : State) (k : Nat) : (State.settle s u).seqState k = u.seqState k := rfl
@[simp] theorem State.settle_imemAt (s u : State) (k a : Nat) : (State.settle s u).imemAt k a = u.imemAt k a := rfl
@[simp] theorem State.setFld_imemAt (b lo len v k a : Nat) : (s.setFld b lo len v).imemAt k a = s.imemAt k a := by
  rw [State.imemAt, State.setFld_getSite, State.imemAt]

@[simp] theorem State.setSeqState_seqState (s : State) (k c : Nat) : (s.setSeqState k c).seqState k = c % 8 :=
  State.setFld_fld _ _ _ _ _ (by decide)

@[simp] theorem State.cmdStatus_seqState (s : State) (k c : Nat) : (s.cmdStatus k c).seqState k = s.seqState k :=
  State.setFld_fld_other _ _ _ _ _ _ _ _ (by decide) (.inr (.inl (by decide)))

@[simp] theorem State.cmdStatus_code (s : State) (k c : Nat) : (s.cmdStatus k c).fld (Reg.seqStatus k) 20 4 = c % 16 :=
  State.setFld_fld _ _ _ _ _ (by decide)

theorem loadImem_imemAt (base : Nat) (rows : List (List Byte)) (a : Nat) :
    (s.loadImem k base rows).imemAt k a = if base ≤ a ∧ a < base + 256 * rows.length then rowsWord rows (a - base) else s.imemAt k a := by
  rw [State.imemAt, State.loadImem, State.modSite_getSite, if_pos rfl]
  simp only [Sparse.get_setList _ (0 : BitVec 64), flatMap_imemWords_length]
  split
  next h => exact flatMap_imemWords_getD rows _ (by omega)
  next => rfl

theorem Only.loadImem (base : Nat) (rows : List (List Byte)) (h : Only m s t) (hs : m.site k) : Only m s (t.loadImem k base rows) := h.modSite _ hs

/-! ### Reading rows -/

theorem Only.readRows (hm : m.Dram) (r n : Nat) (h : Only m s t) : Only m s (t.readRows r n).1 := by
  induction n generalizing r t with
  | zero => exact h
  | succ n ih =>
    have hr := h.readAt hm (r % 2 ^ 30 * 2048) srcPerCycle
    unfold State.readRows
    split
    next hread => rw [hread] at hr; exact ih (r + 1) hr
    next hread => rw [hread] at hr; exact hr

/-- What requests to the stacked DRAM may change, and nothing else. -/
def rowsMay : May := May.dramToo {}

theorem readRows_only (s : State) (r n : Nat) : Only rowsMay s (s.readRows r n).1 := (Only.refl _ s).readRows (May.dramToo_dram _) r n

theorem readAt_only (s : State) (a src : Nat) : Only rowsMay s (s.readAt a src).1 := (Only.refl _ s).readAt (May.dramToo_dram _) a src

/-- A read of a row leaves every site as it is. -/
theorem Only.getSite_of_rows (h : Only rowsMay s t) (k : Nat) : t.getSite k = s.getSite k := h.site k id

theorem Only.imemAt_of_rows (h : Only rowsMay s t) (k a : Nat) : t.imemAt k a = s.imemAt k a := by
  rw [State.imemAt, h.getSite_of_rows, State.imemAt]

/-- A sequencer's register is no register of the vaults. -/
theorem Only.rd_of_rows (h : Only rowsMay s t) {a : Nat} (ha : 0xC00000 ≤ a ∧ a < 0x2000000) : t.rd a = s.rd a :=
  h.reg a (by simp only [rowsMay, May.dramToo, vaultRegs, Reg.safEvtCnt, false_or]; omega)

/-! ### Arming and overlay loads -/

/-- What a change of one sequencer's instruction memory may change. -/
def imemMay (k : Nat) : May := May.dramToo { reg := (· = Reg.seqStatus k), site := fun j => j = k }

/-- Instruction memory holds `rows` from address `base` on, and else what it held. -/
def Loaded (s t : State) (k base : Nat) (rows : List (List Byte)) : Prop :=
  ∀ a, t.imemAt k a = if base ≤ a ∧ a < base + 256 * rows.length then rowsWord rows (a - base) else s.imemAt k a

theorem readRows_loadImem {base r n : Nat} {rows : List (List Byte)} {ok : Bool} (hread : s.readRows r n = (t, rows, ok)) :
    Only (imemMay k) s (t.loadImem k base rows) ∧ Loaded s (t.loadImem k base rows) k base rows := by
  have hrows := readRows_only s r n
  have honly : Only (imemMay k) s (s.readRows r n).1 := (Only.refl _ s).readRows (May.dramToo_dram _) r n
  rw [hread] at hrows honly
  exact ⟨honly.loadImem base rows rfl, fun a => by rw [loadImem_imemAt, hrows.imemAt_of_rows]⟩

section Arm
variable {k : SiteIx} {rows : List (List Byte)} (hstate : s.seqState k = 1)
include hstate

theorem exec_armComplete_read (hread : s.readRows (s.fld (Reg.seqProgRow k) 0 30) (s.fld (Reg.seqProgLen k) 0 8) = (t, rows, true)) :
    exec (.armComplete k) s = fin s ((t.loadImem k 0 rows).setSeqState k 2) := by
  refine congrArg (fin s) ?_
  rw [if_neg (not_not.mpr hstate), hread]

theorem exec_armComplete_unread (hread : s.readRows (s.fld (Reg.seqProgRow k) 0 30) (s.fld (Reg.seqProgLen k) 0 8) = (t, rows, false)) :
    exec (.armComplete k) s = fin s (((t.loadImem k 0 rows).setSeqState k 0).cmdStatus k 6) := by
  refine congrArg (fin s) ?_
  rw [if_neg (not_not.mpr hstate), hread]

/-- The program has arrived, and the sequencer is armed. -/
theorem armComplete_armed (hread : s.readRows (s.fld (Reg.seqProgRow k) 0 30) (s.fld (Reg.seqProgLen k) 0 8) = (t, rows, true)) :
    Answers (.armComplete k) s (fun u => Loaded s u k 0 rows ∧ u.seqState k = 2 ∧ Only (imemMay k) s u) := by
  obtain ⟨honly, hload⟩ := readRows_loadImem (k := k) (base := 0) hread
  refine .of_fin (exec_armComplete_read hstate hread) ⟨fun a => ?_, ?_, Only.settle s (honly.setFld 0 3 2 (.inl rfl))⟩
  · rw [State.settle_imemAt, State.setSeqState, State.setFld_imemAt, hload]
  · rw [State.settle_seqState, State.setSeqState_seqState]

/-- A row could not be read: the rows before it have arrived, and the sequencer is idle. -/
theorem armComplete_refused (hread : s.readRows (s.fld (Reg.seqProgRow k) 0 30) (s.fld (Reg.seqProgLen k) 0 8) = (t, rows, false)) :
    Answers (.armComplete k) s (fun u => Loaded s u k 0 rows ∧ (u.seqState k = 0 ∧ u.fld (Reg.seqStatus k) 20 4 = 6) ∧ Only (imemMay k) s u) := by
  obtain ⟨honly, hload⟩ := readRows_loadImem (k := k) (base := 0) hread
  refine .of_fin (exec_armComplete_unread hstate hread)
    ⟨fun a => ?_, ⟨?_, ?_⟩, Only.settle s (Only.setFld 20 4 6 (honly.setFld 0 3 0 (.inl rfl)) (.inl rfl))⟩
  · rw [State.settle_imemAt, State.cmdStatus, State.setFld_imemAt, State.setSeqState, State.setFld_imemAt, hload]
  · rw [State.settle_seqState, State.cmdStatus_seqState, State.setSeqState_seqState]
  · rw [State.settle_fld, State.cmdStatus_code]

end Arm

/-- The overlay has arrived in its bank. -/
theorem overlayLoadDone_loaded {k : SiteIx} {bank : Bool} {r n : Nat} {rows : List (List Byte)} {ok : Bool}
    (hovl : (s.getSite k).ovl = some (bank, r, n)) (hread : s.readRows r n = (t, rows, ok)) :
    Answers (.overlayLoadDone k) s (fun u => Loaded s u k (if bank then 0x4000 else 0) rows ∧ (u.getSite k).ovl = none
      ∧ u.bit (Reg.seqStatus k) 6 = false ∧ Only (imemMay k) s u) := by
  obtain ⟨honly, hload⟩ := readRows_loadImem (k := k) (base := if bank then 0x4000 else 0) hread
  have hexec : exec (.overlayLoadDone k) s = fin s (((t.loadImem k (if bank then 0x4000 else 0) rows).modSite k
      (fun x => { x with ovl := none })).setBit (Reg.seqStatus k) 6 false) := by
    refine congrArg (fin s) ?_
    rw [hovl]
    dsimp only
    rw [hread]
  refine .of_fin hexec ⟨fun a => ?_, ?_, ?_, Only.settle s (Only.setBit 6 false (honly.modSite _ rfl) (.inl rfl))⟩
  · rw [State.settle_imemAt, State.setBit, State.setFld_imemAt, State.imemAt, State.modSite_getSite, if_pos rfl]
    exact hload a
  · rw [State.settle_getSite, State.setBit_getSite, State.modSite_getSite, if_pos rfl]
  · rw [State.settle_bit, State.setBit_bit _ _ _ _ (by decide)]

end Sys2Proof.Machine
end

section
/-! A read of DRAM rows depends on what the vaults hold, not on the sequencer that asks (R267 to R278): two states that hold the same rows answer a
read that finds its row whole with the same data, and hold the same rows after it. -/

namespace Sys2Proof.Machine

variable {s t s' : State} {v r src : Nat}

/-! ### The table of soft repairs -/

theorem filterMap_erase {α β : Type} {f : Nat × α → Option β} {k : Nat} (hf : ∀ x, f (k, x) = none) (l : List (Nat × α)) :
    (Sparse.erase l k).filterMap f = l.filterMap f := by
  induction l with
  | nil => rfl
  | cons p l ih =>
    obtain ⟨j, x⟩ := p
    by_cases h : j = k
    · subst h
      rw [Sparse.erase, if_pos rfl, ih, List.filterMap_cons_none (hf x)]
    · simp only [Sparse.erase, if_neg h, List.filterMap_cons, ih]

theorem filterMap_put {α β : Type} {f : Nat × α → Option β} {k : Nat} (hf : ∀ x, f (k, x) = none) (l : List (Nat × α)) (y : α) :
    (Sparse.put l k y).filterMap f = l.filterMap f := by
  induction l with
  | nil => exact List.filterMap_cons_none (hf y)
  | cons p l ih =>
    obtain ⟨j, x⟩ := p
    unfold Sparse.put
    split
    · exact List.filterMap_cons_none (hf y)
    · split
      next h => subst h; rw [List.filterMap_cons_none (hf y), List.filterMap_cons_none (hf x)]
      next => simp only [List.filterMap_cons, ih]

/-- No entry of a soft repair table stands at address `a`. -/
def noSrep (a : Nat) : Prop := ∀ v, ¬ (Reg.vltSrep v 0 ≤ a ∧ a < Reg.vltSrep v 256)

theorem softEntries_wr {a : Nat} (ha : noSrep a) (x : Word) : (s.wr a x).softEntries v = s.softEntries v := by
  have hf (f : Nat × Word → Option (Nat × Word)) (hf : ∀ y, f (a, y) = none) : (s.wr a x).regs.filterMap f = s.regs.filterMap f := by
    simp only [State.wr, Sparse.set]
    split
    · exact filterMap_erase hf s.regs
    · exact filterMap_put hf s.regs x
  exact hf _ fun y => if_neg fun h => ha v ⟨h.1, h.2.1⟩

theorem noSrep_of_lt {a : Nat} (h : a < 0x2000000) : noSrep a := fun v => by simp only [Reg.vltSrep]; omega
theorem noSrep_vltEvt (v : Nat) : noSrep (Reg.vltEvt v) := fun u => by simp only [Reg.vltSrep, Reg.vltEvt]; omega
theorem noSrep_vltCeCnt (v : Nat) : noSrep (Reg.vltCeCnt v) := fun u => by simp only [Reg.vltSrep, Reg.vltCeCnt]; omega

/-! ### States that hold the same rows -/

/-- The two states hold the same rows with the same repairs, and reach them alike. -/
structure SameRows (s t : State) : Prop where
  dram : t.dram = s.dram
  vault : t.vault = s.vault
  reg : ∀ a, 0x2000000 ≤ a → a < 0x2200000 → t.rd a = s.rd a
  soft : ∀ v, t.softEntries v = s.softEntries v

theorem SameRows.refl (s : State) : SameRows s s := ⟨rfl, rfl, fun _ _ _ => rfl, fun _ => rfl⟩

namespace SameRows

/-- A register outside the vaults' block is written. -/
theorem wr_of_lt {a : Nat} (h : SameRows s t) (x : Word) (ha : a < 0x2000000) : SameRows s (t.wr a x) where
  dram := h.dram
  vault := h.vault
  reg b hb hb' := by rw [State.wr_rd, if_neg (by omega)]; exact h.reg b hb hb'
  soft v := (softEntries_wr (noSrep_of_lt ha) x).trans (h.soft v)

theorem modSite (h : SameRows s t) (k : Nat) (f : Site → Site) : SameRows s (t.modSite k f) := ⟨h.dram, h.vault, h.reg, h.soft⟩

/-- A register is written alike in both states. -/
theorem wr {a : Nat} (h : SameRows s t) (x : Word) (ha : noSrep a) : SameRows (s.wr a x) (t.wr a x) where
  dram := h.dram
  vault := h.vault
  reg b hb hb' := by rw [State.wr_rd, State.wr_rd, h.reg b hb hb']
  soft v := by rw [softEntries_wr ha, softEntries_wr ha, h.soft v]

theorem setFld {a : Nat} (h : SameRows s t) (lo len x : Nat) (ha : noSrep a) (hlo : 0x2000000 ≤ a) (hhi : a < 0x2200000) :
    SameRows (s.setFld a lo len x) (t.setFld a lo len x) := by
  rw [State.setFld, State.setFld, h.reg a hlo hhi]
  exact h.wr _ ha

theorem satAdd {a : Nat} (h : SameRows s t) (lo len n : Nat) (ha : noSrep a) (hlo : 0x2000000 ≤ a) (hhi : a < 0x2200000) :
    SameRows (s.satAdd a lo len n) (t.satAdd a lo len n) := by
  rw [State.satAdd, State.satAdd, State.fld, State.fld, h.reg a hlo hhi]
  exact h.setFld _ _ _ ha hlo hhi

theorem getVault (h : SameRows s t) (v : Nat) : t.getVault v = s.getVault v := by rw [State.getVault, h.vault, State.getVault]

theorem setVault (h : SameRows s t) (v : Nat) (x : Vault) : SameRows (s.setVault v x) (t.setVault v x) :=
  ⟨h.dram, by rw [State.setVault, State.setVault, h.vault], h.reg, h.soft⟩

theorem modVault (h : SameRows s t) (v : Nat) (f : Vault → Vault) : SameRows (s.modVault v f) (t.modVault v f) := by
  rw [State.modVault, State.modVault, h.getVault]
  exact h.setVault v _

theorem setCells (h : SameRows s t) (l : List (Nat × Byte)) : SameRows (s.setCells l) (t.setCells l) :=
  ⟨by rw [State.setCells, State.setCells, h.dram], h.vault, h.reg, h.soft⟩

/-! ### What a row holds -/

theorem cell (h : SameRows s t) (a : Nat) : t.cell a = s.cell a := by
  unfold State.cell
  rw [h.getVault, h.dram]

theorem repairs (h : SameRows s t) (v : Nat) : t.repairs v = s.repairs v := by rw [State.repairs, h.soft, h.getVault, State.repairs]

theorem rawAt (h : SameRows s t) (cols : List (Nat × Nat)) (v loc i n : Nat) : t.rawAt cols v loc i n = s.rawAt cols v loc i n := by
  simp only [State.rawAt, h.cell]

theorem colMap (h : SameRows s t) (v q : Nat) : t.colMap v q = s.colMap v q := by rw [State.colMap, h.repairs, State.colMap]

theorem rowLoc (h : SameRows s t) (v r : Nat) : t.rowLoc v r = s.rowLoc v r := by unfold State.rowLoc; rw [h.repairs]

theorem rawRow (h : SameRows s t) (v r i n : Nat) : t.rawRow v r i n = s.rawRow v r i n := by
  rw [State.rawRow, h.rawAt, h.colMap, h.rowLoc, State.rawRow]

theorem locate (h : SameRows s t) (a : Nat) : t.locate a = s.locate a := locate_congr a (h.reg _ (by decide) (by decide))

theorem rowRefused (h : SameRows s t) (hv : v < 256) (r : Nat) : t.rowRefused v r = s.rowRefused v r :=
  rowRefused_congr (h.reg _ (by simp only [Reg.vltStat]; omega) (by simp only [Reg.vltStat]; omega)) (h.reg _ (by decide) (by decide))

theorem inSite (h : SameRows s t) (k a : Nat) : t.inSite k a = s.inSite k a := by
  unfold State.inSite State.globalMap State.mapOwner State.fldAct
  rw [State.rdAct, State.rdAct, h.reg _ (by decide) (by decide)]

/-! ### Row operations -/

theorem setRawAt (h : SameRows s t) (cols : List (Nat × Nat)) (v loc i : Nat) (bs : List Byte) :
    SameRows (s.setRawAt cols v loc i bs) (t.setRawAt cols v loc i bs) := by
  unfold State.setRawAt
  dsimp only
  rw [h.getVault, h.rawAt]
  split
  · exact ((h.setCells _).setVault _ _).setCells _
  · exact h.setCells _

theorem writeRow (h : SameRows s t) (v r : Nat) (data : List Byte) (marked : Bool) : SameRows (s.writeRow v r data marked) (t.writeRow v r data marked) := by
  have hends : SameRows (s.rowEnds v) (t.rowEnds v) := by
    unfold State.rowEnds
    rw [h.getVault]
    split
    · exact h.modVault _ _
    · exact h
  unfold State.writeRow State.setRawRow
  dsimp only
  rw [hends.colMap, hends.rowLoc]
  exact hends.setRawAt _ _ _ _ _

theorem svcSync (h : SameRows s t) (v r : Nat) : SameRows (s.svcSync v r) (t.svcSync v r) := by
  unfold State.svcSync State.svcFlush
  dsimp only
  rw [h.getVault]
  split
  · split
    · split
      · exact (h.writeRow _ _ _ _).modVault _ _
      · exact h
    · exact h
  · exact h

end SameRows

/-! ### A row that is read whole -/

/-- The row register takes row `r`, and the vault writes back what the decode `d` has put right (R275). -/
def State.takeRow (s : State) (v r : Nat) (d : Rs.Decoded) : State :=
  (if d.changed then ((s.satAdd (Reg.vltCeCnt v) 0 32 1).setBit (Reg.vltEvt v) 0 true).writeRow v r d.data false
    else if d.stale then s.writeRow v r d.data false else s).modVault v (fun x => { x with rowReg := { row := r, data := d.data, poisoned := false } })

/-- An activation that poisons nothing has found no poisoned golden row. -/
theorem activateRow_golden (hp : (s.activateRow v r src).poisoned = false) : ¬ (s.getVault v).goldenBad.contains r = true := by
  intro hgolden
  unfold State.activateRow at hp
  generalize s.rawRow v r 0 2048 = data, s.rawRow v r 2048 512 = chk, s.rawRow v r 2560 32 = code at hp
  rw [if_pos hgolden] at hp
  exact Bool.noConfusion (show true = false from hp)

/-- An activation that poisons nothing has decoded its row. -/
theorem activateRow_decoded (hp : (s.activateRow v r src).poisoned = false) :
    ∃ d, Rs.decode (s.rawRow v r 0 2048) (s.rawRow v r 2048 512) (s.rawRow v r 2560 32) = some d := by
  have hgolden := activateRow_golden hp
  unfold State.activateRow at hp
  generalize s.rawRow v r 0 2048 = data, s.rawRow v r 2048 512 = chk, s.rawRow v r 2560 32 = code at hp ⊢
  rw [if_neg hgolden] at hp
  generalize Rs.decode data chk code = plain, Rs.decode data chk (Rs.mark code) = marked at hp ⊢
  cases plain with
  | some d => exact ⟨d, rfl⟩
  | none => cases marked <;> exact Bool.noConfusion (show true = false from hp)

theorem activateRow_of_decode {d : Rs.Decoded} (hgolden : ¬ (s.getVault v).goldenBad.contains r = true)
    (hd : Rs.decode (s.rawRow v r 0 2048) (s.rawRow v r 2048 512) (s.rawRow v r 2560 32) = some d) :
    s.activateRow v r src = { st := s.takeRow v r d, data := d.data, poisoned := false, corrected := d.changed } := by
  unfold State.activateRow
  generalize s.rawRow v r 0 2048 = data, s.rawRow v r 2048 512 = chk, s.rawRow v r 2560 32 = code at hd ⊢
  rw [if_neg hgolden, hd]
  obtain ⟨whole, changed, stale⟩ := d
  cases changed with
  | true => rfl
  | false => cases stale <;> rfl

theorem SameRows.takeRow (h : SameRows s t) (hv : v < 256) (r : Nat) (d : Rs.Decoded) : SameRows (s.takeRow v r d) (t.takeRow v r d) := by
  have hcount := (h.satAdd 0 32 1 (noSrep_vltCeCnt v) (by simp only [Reg.vltCeCnt]; omega) (by simp only [Reg.vltCeCnt]; omega)).setFld 0 1 1
    (noSrep_vltEvt v) (by simp only [Reg.vltEvt]; omega) (by simp only [Reg.vltEvt]; omega)
  refine SameRows.modVault ?_ v _
  split
  · exact hcount.writeRow v r d.data false
  · split
    · exact h.writeRow v r d.data false
    · exact h

/-- An activation that poisons nothing does the same in a state that holds the same rows. -/
theorem SameRows.activate (h : SameRows s t) (hv : v < 256) (hp : (s.activate v r src).poisoned = false) :
    (t.activate v r src).poisoned = false ∧ (t.activate v r src).data = (s.activate v r src).data
      ∧ SameRows (s.activate v r src).st (t.activate v r src).st := by
  have hrow : (s.activateRow v r src).poisoned = false := by
    unfold State.activate at hp
    dsimp only at hp
    split at hp <;> exact hp
  have hgolden := activateRow_golden hrow
  obtain ⟨d, hd⟩ := activateRow_decoded hrow
  have hs := activateRow_of_decode (src := src) hgolden hd
  have ht := activateRow_of_decode (s := t) (src := src) (h.getVault v ▸ hgolden) (by rw [h.rawRow, h.rawRow, h.rawRow]; exact hd)
  unfold State.activate
  rw [hs, ht]
  exact ⟨rfl, rfl, h.takeRow hv r d⟩

/-- A read that delivers its row delivers it from a state that holds the same rows too. -/
theorem SameRows.readAt {a : Nat} {d : List Byte} (h : SameRows s t) (hread : s.readAt a src = (s', .ok d)) :
    ∃ t', t.readAt a src = (t', .ok d) ∧ SameRows s' t' := by
  have hv := locate_lt (s := s) a
  unfold State.readAt State.readRow at hread ⊢
  rw [h.locate]
  dsimp only at hread ⊢
  rw [h.rowRefused hv]
  have hact := (h.svcSync (s.locate a).1 (s.locate a).2).activate (r := (s.locate a).2) (src := src) hv
  generalize (s.svcSync (s.locate a).1 (s.locate a).2).activate (s.locate a).1 (s.locate a).2 src = x,
    (t.svcSync (s.locate a).1 (s.locate a).2).activate (s.locate a).1 (s.locate a).2 src = y at hread hact ⊢
  have hok (hx : (x.st, if x.poisoned then RowRead.poisoned x.data else .ok x.data) = (s', .ok d)) :
      ∃ t', (y.st, if y.poisoned then RowRead.poisoned y.data else .ok y.data) = (t', .ok d) ∧ SameRows s' t' := by
    obtain ⟨rfl, hgot⟩ := Prod.mk.inj hx
    cases hp : x.poisoned with
    | true => rw [hp] at hgot; cases hgot
    | false =>
      obtain ⟨hy, hdata, hsame⟩ := hact hp
      rw [hp, if_neg Bool.false_ne_true] at hgot
      obtain rfl := RowRead.ok.inj hgot
      exact ⟨y.st, by rw [hy, hdata]; rfl, hsame⟩
  split at hread
  · split at hread
    next hpriv => exact absurd hpriv.2 Bool.false_ne_true
    next => cases hread
  · exact hok hread

theorem SameRows.readRows {n : Nat} {rows : List (List Byte)} (h : SameRows s t) (hread : s.readRows r n = (s', rows, true)) :
    ∃ t', t.readRows r n = (t', rows, true) ∧ SameRows s' t' := by
  induction n generalizing s t r rows with
  | zero =>
    obtain ⟨rfl, hrest⟩ := Prod.mk.inj hread
    obtain ⟨rfl, -⟩ := Prod.mk.inj hrest
    exact ⟨t, rfl, h⟩
  | succ n ih =>
    unfold State.readRows at hread
    split at hread
    next u d hone =>
      obtain ⟨w, hw, hsame⟩ := h.readAt hone
      obtain ⟨⟨x, l, ok⟩, hx⟩ : ∃ q, u.readRows (r + 1) n = q := ⟨_, rfl⟩
      rw [hx] at hread
      obtain ⟨rfl, hrest⟩ := Prod.mk.inj hread
      obtain ⟨rfl, rfl⟩ := Prod.mk.inj hrest
      obtain ⟨t', ht', hlast⟩ := ih hsame hx
      refine ⟨t', ?_, hlast⟩
      unfold State.readRows
      rw [hw]
      dsimp only
      rw [ht']
    next =>
      obtain ⟨-, hrest⟩ := Prod.mk.inj hread
      exact absurd (Prod.mk.inj hrest).2 Bool.false_ne_true

theorem SameRows.ovlRowsOk (h : SameRows s t) (k r n : Nat) : t.ovlRowsOk k r n = s.ovlRowsOk k r n := by
  unfold State.ovlRowsOk
  congr 1
  funext i
  dsimp only
  rw [h.inSite, h.locate, h.rowRefused (locate_lt _)]

end Sys2Proof.Machine
end

section
/-! The sequencer's next instruction where nothing hinders it, and what issuing its cycles leaves (R64 to R68, R74, R104). -/

namespace Sys2Proof.Machine

variable {m : May} {s t : State} {k : Nat} {w : BitVec 64} {ecc : Ecc}

/-! ### The fetch -/

/-- The sequencer has fetched an instruction and runs: the edges to come have noted its registers, and a correction of its word is counted. -/
def State.fetched (s : State) (k : Nat) (ecc : Ecc) : State :=
  let u := ((s.noteEdges k (s.getSite k).cycle).setSeqState k 3).modSite k (fun x => { x with wait := .none })
  if ecc = .single then u.satAdd (Reg.seqImemEcc k) 0 16 1 else u

theorem noteEdges_site (c : Nat) : ∃ l, (s.noteEdges k c).getSite k = { s.getSite k with exposeRegs := l } := by
  unfold State.noteEdges
  dsimp only
  split
  · exact ⟨_, rfl⟩
  · exact ⟨_, by rw [State.modSite_getSite, if_pos rfl]⟩

theorem SameRows.noteEdges (h : SameRows s t) (k c : Nat) : SameRows s (t.noteEdges k c) := by
  unfold State.noteEdges
  dsimp only
  split
  · exact h
  · exact h.modSite _ _

theorem Only.noteEdges (c : Nat) (h : Only m s t) (hs : m.site k) : Only m s (t.noteEdges k c) := by
  unfold State.noteEdges
  dsimp only
  split
  · exact h
  · exact h.modSite _ hs

theorem fetched_site : ∃ l, (s.fetched k ecc).getSite k = { s.getSite k with exposeRegs := l, wait := .none } := by
  obtain ⟨l, hl⟩ := noteEdges_site (s := s) (k := k) (s.getSite k).cycle
  refine ⟨l, ?_⟩
  have hu : (((s.noteEdges k (s.getSite k).cycle).setSeqState k 3).modSite k (fun x => { x with wait := .none })).getSite k
      = { s.getSite k with exposeRegs := l, wait := .none } := by
    rw [State.modSite_getSite, if_pos rfl, State.setSeqState, State.setFld_getSite, hl]
  unfold State.fetched
  dsimp only
  split
  · rw [State.satAdd, State.setFld_getSite, hu]
  · exact hu

/-- What a fetch may change. -/
def fetchMay (k : Nat) : May := { reg := fun a => a = Reg.seqStatus k ∨ a = Reg.seqImemEcc k, site := fun j => j = k }

theorem Only.fetched (h : Only m s t) (hst : m.reg (Reg.seqStatus k)) (he : m.reg (Reg.seqImemEcc k)) (hs : m.site k) :
    Only m s (t.fetched k ecc) := by
  have h1 := Only.modSite (fun x => { x with wait := .none }) ((h.noteEdges (k := k) (t.getSite k).cycle hs).setFld 0 3 3 hst) hs
  unfold State.fetched
  dsimp only
  split
  · exact h1.satAdd _ _ _ he
  · exact h1

theorem fetched_only (s : State) (k : Nat) (ecc : Ecc) : Only (fetchMay k) s (s.fetched k ecc) :=
  (Only.refl _ s).fetched (.inl rfl) (.inr rfl) rfl

theorem fetched_seqPc : (s.fetched k ecc).seqPc k = s.seqPc k :=
  (fetched_only s k ecc).fld_eq (by simp only [fetchMay, Reg.seqPc, Reg.seqStatus, Reg.seqImemEcc]; omega)

theorem modSite_seqState (j : Nat) (f : Site → Site) : (s.modSite j f).seqState k = s.seqState k := rfl

theorem fetched_seqState : (s.fetched k ecc).seqState k = 3 := by
  unfold State.fetched
  dsimp only
  split
  · rw [State.seqState, State.satAdd, State.setFld_fld_other _ _ _ _ _ _ _ _ (by decide) (.inl (by simp only [Reg.seqStatus, Reg.seqImemEcc]; omega))]
    exact (modSite_seqState _ _).trans (State.setSeqState_seqState _ _ _)
  · exact (modSite_seqState _ _).trans (State.setSeqState_seqState _ _ _)

theorem SameRows.fetched (hk : k < 16) (ecc : Ecc) : SameRows s (s.fetched k ecc) := by
  have h1 := (((SameRows.refl s).noteEdges k (s.getSite k).cycle).wr_of_lt (a := Reg.seqStatus k)
    (setFldOf ((s.noteEdges k (s.getSite k).cycle).rd (Reg.seqStatus k)) 0 3 3) (by simp only [Reg.seqStatus]; omega)).modSite k
    (fun x => { x with wait := .none })
  unfold State.fetched
  dsimp only
  split
  · exact h1.wr_of_lt _ (by simp only [Reg.seqImemEcc]; omega)
  · exact h1

/-- The fetch of an instruction that can issue finds no fault (R64, R68, R91). -/
theorem fetchFault_of_canIssue {k : SiteIx} {op len : Nat} (h : s.CanIssue k w ecc op len) : (s.fetched k ecc).fetchFault k w ecc = none := by
  obtain ⟨l, hl⟩ := fetched_site (s := s) (k := k) (ecc := ecc)
  unfold State.fetchFault
  dsimp only
  rw [fetched_seqPc, hl, if_neg h.ecc]
  dsimp only
  cases hovl : (s.getSite k).ovl with
  | none => simp [h.legal]
  | some q =>
    obtain ⟨b, r, n⟩ := q
    have hbank := h.bank b r n hovl
    simp [h.legal, hbank]

/-- An instruction that can issue, and has no fault of its own, does what it says. -/
theorem seqExec_of_canIssue {k : SiteIx} {op len : Nat} {body : State → State} {fault : State → Option (State × Nat)} (h : s.CanIssue k w ecc op len)
    (hf : fault (s.fetched k ecc) = none) : s.seqExec k w ecc op body fault = body (s.fetched k ecc) := by
  obtain ⟨l, hl⟩ := fetched_site (s := s) (k := k) (ecc := ecc)
  obtain ⟨l', hl'⟩ := noteEdges_site (s := s) (k := k) (s.getSite k).cycle
  have hff := fetchFault_of_canIssue h
  unfold State.seqExec
  rw [if_neg (by simp [h.ready, h.word, h.op]), if_neg (not_not.mpr h.go)]
  extract_lets s1 s2 x s3
  have hs3 : s3 = s.fetched k ecc := rfl
  have hx : x.stopAt = (s.getSite k).stopAt ∧ x.cycle = (s.getSite k).cycle := by
    simp only [x, s2, s1, State.modSite_getSite, if_true, State.setSeqState, State.setFld_getSite, hl', and_self]
  rw [hs3, hff, hf]
  dsimp only [Option.map_none, Option.none_or]
  rw [hx.1, hx.2]
  cases hplan : (s.getSite k).stopAt with
  | none => rfl
  | some p =>
    obtain ⟨e, n⟩ := p
    exact if_neg (Nat.not_le.mpr (h.noStop e n hplan).2)

end Sys2Proof.Machine
end

section
/-! What issuing cycles does to the sequencer's own record of them (R65, R66, R74), past what the fills of stored vectors change. -/

namespace Sys2Proof.Machine

variable {m : May} {s t : State} {k : Nat}

/-! ### Fills leave the sequencer alone -/

/-- A site without its stored-vector rows and the marks of what has been recorded of them. -/
def Site.unfilled (x : Site) : Site := { x with fmt := [], early := [], fillPtr := 0, seen := 0 }

theorem unfilled_seen (x : Site) (n : BitVec 64) : ({ x with seen := n } : Site).unfilled = x.unfilled := rfl
theorem unfilled_fmt (x : Site) (l : List (Nat × FmtRow)) : ({ x with fmt := l } : Site).unfilled = x.unfilled := rfl
theorem unfilled_early (x : Site) (l : List Nat) : ({ x with early := l } : Site).unfilled = x.unfilled := rfl
theorem unfilled_fillPtr (x : Site) (n : Nat) : ({ x with fillPtr := n } : Site).unfilled = x.unfilled := rfl

section Unfilled
variable {x y : Site} (h : x.unfilled = y.unfilled)
include h

theorem cycle_of_unfilled : x.cycle = y.cycle := (congrArg Site.cycle h :)
theorem fc0_of_unfilled : x.fc0 = y.fc0 := (congrArg Site.fc0 h :)
theorem spans_of_unfilled : x.spans = y.spans := (congrArg Site.spans h :)
theorem ovl_of_unfilled : x.ovl = y.ovl := (congrArg Site.ovl h :)
theorem gen_of_unfilled : x.gen = y.gen := (congrArg Site.gen h :)

end Unfilled

theorem modSite_unfilled (f : Site → Site) (hf : ∀ x, (f x).unfilled = x.unfilled) : ((s.modSite k f).getSite k).unfilled = (s.getSite k).unfilled := by
  rw [State.modSite_getSite, if_pos rfl, hf]

theorem integEntry_getSite (e cls cyc detail flags : Nat) : (s.integEntry k e cls cyc detail flags).getSite k = s.getSite k := by
  rw [State.integEntry, State.wr_getSite, State.wr_getSite, State.wr_getSite, State.wr_getSite, State.wr64, State.wr_getSite, State.wr_getSite]

theorem integ_unfilled (cls cyc detail flags : Nat) : ((s.integ k cls cyc detail flags).getSite k).unfilled = (s.getSite k).unfilled := by
  unfold State.integ
  extract_lets x s1 s2 s3 used
  have h2 : s2.getSite k = s.getSite k := (State.setFld_getSite ..).trans (State.setBit_getSite ..)
  have h3 : (s3.getSite k).unfilled = (s.getSite k).unfilled := (modSite_unfilled _ fun x => unfilled_seen x _).trans (congrArg Site.unfilled h2)
  split
  · split
    · exact congrArg Site.unfilled h2
    · split
      · rw [State.setFld_getSite, integEntry_getSite, h3]
      · exact h3
  · rfl

theorem rowDue_unfilled (key n : Nat) : ((s.rowDue k key n).getSite k).unfilled = (s.getSite k).unfilled := by
  have hput (u : State) (r : FmtRow) : ((u.modSite k (fun x => x.setFmt key r)).getSite k).unfilled = (u.getSite k).unfilled :=
    modSite_unfilled _ fun x => unfilled_fmt x _
  unfold State.rowDue
  dsimp only
  split
  · split <;> rw [hput, integ_unfilled]
  · rw [hput, integ_unfilled]
  · rfl

theorem rowEarly_unfilled (key n : Nat) : ((s.rowEarly k key n).getSite k).unfilled = (s.getSite k).unfilled := by
  have hlate : ((if (s.getSite k).early.contains key then s
      else (s.integ k 1 n 0).modSite k (fun x => { x with early := key :: x.early })).getSite k).unfilled = (s.getSite k).unfilled := by
    split
    · rfl
    · exact (modSite_unfilled _ fun x => unfilled_early x _).trans (integ_unfilled _ _ _ _)
  unfold State.rowEarly
  dsimp only
  split
  · exact rowDue_unfilled key n
  · split
    · exact rowDue_unfilled key n
    · exact hlate
  · rfl
  · exact hlate

/-- Steps of which each leaves a measure of the state alone leave it alone together. -/
theorem foldl_same {α β : Type} {g : State → β} {f : State → α → State} (hf : ∀ u p, g (f u p) = g u) (l : List α) (s : State) :
    g (l.foldl f s) = g s := by
  induction l generalizing s with
  | nil => rfl
  | cons p l ih => rw [List.foldl_cons, ih, hf]

theorem spanFills_unfilled (sp : Span) (lo hi : Nat) : ((s.spanFills k sp lo hi).getSite k).unfilled = (s.getSite k).unfilled := by
  have hearly (l : List (Nat × Nat)) (u : State) := foldl_same (g := fun u => (u.getSite k).unfilled) (f := fun u p => u.rowEarly k p.1 p.2)
    (fun u p => rowEarly_unfilled p.1 p.2) l u
  have hdue (l : List (Nat × Nat)) (u : State) := foldl_same (g := fun u => (u.getSite k).unfilled) (f := fun u p => u.rowDue k p.1 p.2)
    (fun u p => rowDue_unfilled p.1 p.2) l u
  unfold State.spanFills
  extract_lets mid s1
  have h1 : (s1.getSite k).unfilled = (s.getSite k).unfilled := by
    unfold s1
    split
    · exact hearly _ _
    · rfl
  split
  · exact (hdue _ _).trans h1
  · exact h1

theorem checkFills_unfilled (upto : Nat) : ((s.checkFills k upto).getSite k).unfilled = (s.getSite k).unfilled := by
  unfold State.checkFills
  extract_lets x e
  split
  · rfl
  · exact (modSite_unfilled _ fun x => unfilled_fillPtr x _).trans
      (foldl_same (g := fun u => (u.getSite k).unfilled) (fun u sp => spanFills_unfilled sp _ _) _ s)

theorem checkDue_unfilled : ((s.checkDue k).getSite k).unfilled = (s.getSite k).unfilled := checkFills_unfilled _

/-- What looking at the fills may change. -/
def fillMay (k : Nat) : May := { reg := integRegs k, site := fun j => j = k }

theorem checkDue_only (s : State) (k : Nat) : Only (fillMay k) s (s.checkDue k) := (Only.refl _ s).checkDue rfl fun _ h => h

/-! ### Issuing -/

/-- The registers that count the cycles issued, and what those consume and capture. -/
def countRegs (k a : Nat) : Prop :=
  a = Reg.seqCycleLo k ∨ a = Reg.seqCycleHi k ∨ a = Reg.seqX k 15 ∨ a = Reg.capStatus k ∨ integRegs k a

/-- The record of a run of `len` cycles more. -/
def Site.run (x : Site) (sp : Span) (len : Nat) : Site :=
  { x with spans := sp :: x.spans, cycle := x.cycle + len, lastIssued := BitVec.ofNat 32 (x.cycle + len - 1) }

theorem run_unfilled {x y : Site} (h : x.unfilled = y.unfilled) (sp : Span) (len : Nat) : (x.run sp len).unfilled = (y.run sp len).unfilled := by
  have hrun (z : Site) : (z.run sp len).unfilled = z.unfilled.run sp len := rfl
  rw [hrun, hrun, h]

/-- The state in which the cycles are recorded, and X15 and what is captured have moved on. -/
def State.recorded (s : State) (k : Nat) (w : BitVec 64) (len : Nat) (window sv : Bool) : State :=
  let sp := s.spanOf k w len window sv
  let s := (s.recordDiscard k sp).modSite k (fun x => x.run sp len)
  let s := if sv then s.wr (Reg.seqX k 15) (s.rd (Reg.seqX k 15) + BitVec.ofNat 32 len) else s
  (s.setFld (Reg.capStatus k) 20 8 sp.block.toNat).setFld (Reg.capStatus k) 18 2 sp.mode.toNat

theorem issue_eq (w : BitVec 64) (len : Nat) (window sv : Bool) : s.issue k w len window sv
    = (((s.recorded k w len window sv).showCycle k).runTo (((s.recorded k w len window sv).getSite k).fc0 + (s.getSite k).cycle + 1)).checkDue k := rfl

theorem showCycle_fc (s : State) (k : Nat) : (s.showCycle k).fc = s.fc := rfl

theorem runTo_fc (f : Nat) : (s.runTo f).fc = max s.fc f := by
  unfold State.runTo
  split
  · omega
  · exact (max_eq_right (Nat.le_of_not_le ‹_›)).symm

theorem runTo_getSite (f j : Nat) : (s.runTo f).getSite j = s.getSite j := by
  unfold State.runTo
  split <;> rfl

theorem runTo_rd (f a : Nat) : (s.runTo f).rd a = s.rd a := by
  unfold State.runTo
  split <;> rfl

section Issue
variable (w : BitVec 64) (len : Nat) (window sv : Bool)

theorem recorded_unfilled : ((s.recorded k w len window sv).getSite k).unfilled = ((s.getSite k).run (s.spanOf k w len window sv) len).unfilled := by
  unfold State.recorded
  extract_lets sp s1 s2
  have hd : ((s.recordDiscard k sp).getSite k).unfilled = (s.getSite k).unfilled := by
    unfold State.recordDiscard
    split
    · exact integ_unfilled _ _ _ _
    · rfl
  have h1 : (s1.getSite k).unfilled = ((s.getSite k).run sp len).unfilled := by
    rw [State.modSite_getSite, if_pos rfl]
    exact run_unfilled hd sp len
  have h2 : s2.getSite k = s1.getSite k := by
    unfold s2
    split
    · exact State.wr_getSite ..
    · rfl
  rw [State.setFld_getSite, State.setFld_getSite, h2, h1]

theorem Only.recorded (h : Only m s t) (hs : m.site k) (hr : ∀ a, countRegs k a → m.reg a) : Only m s (t.recorded k w len window sv) := by
  unfold State.recorded
  extract_lets sp s1 s2
  have h1 : Only m s s1 := (h.recordDiscard sp hs fun a ha => hr a (.inr (.inr (.inr (.inr ha))))).modSite _ hs
  have h2 : Only m s s2 := h1.ite (h1.wr _ (hr _ (.inr (.inr (.inl rfl)))))
  have hc : m.reg (Reg.capStatus k) := hr _ (.inr (.inr (.inr (.inl rfl))))
  exact (h2.setFld _ _ _ hc).setFld _ _ _ hc

theorem issue_unfilled : ((s.issue k w len window sv).getSite k).unfilled = ((s.getSite k).run (s.spanOf k w len window sv) len).unfilled := by
  rw [issue_eq, checkDue_unfilled, runTo_getSite, State.showCycle, State.wr64, State.wr_getSite, State.wr_getSite, recorded_unfilled]

/-- Issuing changes the counters, the sequencer's record, and the time. -/
theorem Only.issueCounts (h : Only m s t) (hs : m.site k) (ht : m.time) (hr : ∀ a, countRegs k a → m.reg a) :
    Only m s (t.issue k w len window sv) := by
  rw [issue_eq]
  exact Only.checkDue (Only.runTo _ (Only.showCycle (h.recorded w len window sv hs hr) (hr _ (.inl rfl)) (hr _ (.inr (.inl rfl)))) ht) hs
    fun a ha => hr a (.inr (.inr (.inr (.inr ha))))

theorem recorded_cycle : ((s.recorded k w len window sv).getSite k).cycle = (s.getSite k).cycle + len :=
  (cycle_of_unfilled (recorded_unfilled w len window sv) :)

theorem recorded_fc0 : ((s.recorded k w len window sv).getSite k).fc0 = (s.getSite k).fc0 :=
  (fc0_of_unfilled (recorded_unfilled w len window sv) :)

theorem issue_cycle : ((s.issue k w len window sv).getSite k).cycle = (s.getSite k).cycle + len :=
  (cycle_of_unfilled (issue_unfilled w len window sv) :)

theorem issue_spans : ((s.issue k w len window sv).getSite k).spans = s.spanOf k w len window sv :: (s.getSite k).spans :=
  (spans_of_unfilled (issue_unfilled w len window sv) :)

theorem issue_ovl : ((s.issue k w len window sv).getSite k).ovl = (s.getSite k).ovl :=
  (ovl_of_unfilled (issue_unfilled w len window sv) :)

/-- The counter shows the cycles issued (R66). -/
theorem issue_counter (hk : k < 16) : (s.issue k w len window sv).rd64 (Reg.seqCycleLo k) = ((s.getSite k).cycle + len) % 2 ^ 48 := by
  have hne : ¬ (fillMay k).reg (Reg.seqCycleLo k) ∧ ¬ (fillMay k).reg (Reg.seqCycleLo k + 4) := by
    simp only [fillMay, integRegs, Reg.glbIntegLo, Reg.glbIntegHi, Reg.glbIntegCnt, Reg.glbIntegLog, Reg.seqCycleLo]
    omega
  have hrd (u : State) (f : Nat) : (u.runTo f).rd64 (Reg.seqCycleLo k) = u.rd64 (Reg.seqCycleLo k) := by
    rw [State.rd64, runTo_rd, runTo_rd, State.rd64]
  rw [issue_eq, (checkDue_only _ k).rd64_eq hne.1 hne.2, hrd, State.showCycle, State.wr64_rd64, recorded_cycle]
  omega

/-- The clock goes on to the fc after the first of the cycles (R65). -/
theorem issue_fc : (s.issue k w len window sv).fc = max s.fc ((s.getSite k).fc0 + (s.getSite k).cycle + 1) := by
  have hfc : (s.recorded k w len window sv).fc = s.fc :=
    Only.fc_eq ((Only.refl _ s).recorded w len window sv (m := stopsMay) trivial fun _ _ => trivial)
  rw [issue_eq, ((checkDue_only _ k).time id).2.1, runTo_fc, recorded_fc0, showCycle_fc, hfc]

end Issue

end Sys2Proof.Machine
end

section
/-! One instruction issued, overlays started (R90), the seek of a host (R72), and the arrival of a stored-vector row (R26, R72). -/

namespace Sys2Proof.Machine

variable {m : May} {s t : State} {k : Nat} {w : BitVec 64}

/-! ### An instruction of one cycle -/

theorem issueUpTo_of_room {len : Nat} {window sv : Bool} (h : ∀ e n, (s.getSite k).stopAt = some (e, n) → (s.getSite k).cycle + len ≤ e) :
    s.issueUpTo k w len window sv = (s.issue k w len window sv, false) := by
  unfold State.issueUpTo
  dsimp only
  split
  next e n hstop => rw [if_pos (h e n hstop)]
  next => rfl

theorem goTo_of_lt {pc : Nat} (hpc : pc < 0x8000) : s.goTo k pc = s.setFld (Reg.seqPc k) 0 15 pc := if_pos hpc

theorem oneCycle_of_issued {pc : Nat} {sv : Bool} (h : s.issueUpTo k w 1 false sv = (t, false)) : s.oneCycle k w pc sv = t.goTo k pc := by
  rw [State.oneCycle, h]
  rfl

theorem oneCycle_of_room {pc : Nat} (h : ∀ e n, (s.getSite k).stopAt = some (e, n) → (s.getSite k).cycle + 1 ≤ e) (hpc : pc < 0x8000) :
    s.oneCycle k w pc = (s.issue k w 1).setFld (Reg.seqPc k) 0 15 pc := by
  rw [oneCycle_of_issued (issueUpTo_of_room h), goTo_of_lt hpc]

theorem not_countRegs_seqStatus (hk : k < 16) : ¬ countRegs k (Reg.seqStatus k) := by
  simp only [countRegs, integRegs, Reg.seqCycleLo, Reg.seqCycleHi, Reg.seqX, Reg.capStatus, Reg.glbIntegLo, Reg.glbIntegHi, Reg.glbIntegCnt,
    Reg.glbIntegLog, Reg.seqStatus]
  omega

/-- What counting cycles may change. -/
def countMay (k : Nat) : May := { reg := countRegs k, site := fun j => j = k, time := True }

theorem issue_fld_seqStatus (hk : k < 16) (lo len : Nat) : (s.issue k w 1).fld (Reg.seqStatus k) lo len = s.fld (Reg.seqStatus k) lo len :=
  ((Only.refl _ s).issueCounts w 1 false false (m := countMay k) rfl trivial fun _ h => h).fld_eq (not_countRegs_seqStatus hk)

/-- A run has issued, and the sequencer goes to `pc`. -/
theorem issued_of_setPc {u : State} {k : SiteIx} {len pc : Nat} {window sv : Bool} (hpc : pc < 0x8000) (hstate : u.seqState k = 3)
    (hcycle : (u.getSite k).cycle = (s.getSite k).cycle + len)
    (hspans : (u.getSite k).spans = s.spanOf k w len window sv :: (s.getSite k).spans)
    (hcounter : u.rd64 (Reg.seqCycleLo k) = ((s.getSite k).cycle + len) % 2 ^ 48)
    (hclock : u.fc = max s.fc ((s.getSite k).fc0 + (s.getSite k).cycle + 1)) :
    Issued s (u.setFld (Reg.seqPc k) 0 15 pc) k w len window sv pc 3 where
  pc := (State.setFld_fld _ _ _ _ _ (by decide)).trans (Nat.mod_eq_of_lt hpc)
  state := (State.setFld_fld_other _ _ _ _ _ _ _ _ (by decide) (.inl (by simp only [Reg.seqPc, Reg.seqStatus]; omega))).trans hstate
  cycle := by rw [State.setFld_getSite, hcycle]
  fields := ⟨_, by rw [State.setFld_getSite, hspans], rfl, rfl, rfl, rfl, rfl, rfl, rfl⟩
  counter := by
    have hne : Reg.seqCycleLo k ≠ Reg.seqPc k ∧ Reg.seqCycleLo k + 4 ≠ Reg.seqPc k := by simp only [Reg.seqPc, Reg.seqCycleLo]; omega
    rw [((Only.refl { reg := (· = Reg.seqPc k) } u).setFld 0 15 pc rfl).rd64_eq hne.1 hne.2, hcounter]
  clock := hclock

theorem oneCycle_issued {k : SiteIx} {pc : Nat} (hroom : ∀ e n, (s.getSite k).stopAt = some (e, n) → (s.getSite k).cycle + 1 ≤ e)
    (hpc : pc < 0x8000) (hstate : s.seqState k = 3) : Issued s (s.oneCycle k w pc) k w 1 false false pc 3 := by
  rw [oneCycle_of_room hroom hpc]
  exact issued_of_setPc hpc ((issue_fld_seqStatus k.isLt 0 3).trans hstate) (issue_cycle w 1 false false) (issue_spans w 1 false false)
    (issue_counter w 1 false false k.isLt) (issue_fc w 1 false false)

theorem Issued.settle {k : SiteIx} {len pc state : Nat} {window sv : Bool} (h : Issued s t k w len window sv pc state) :
    Issued s (State.settle s t) k w len window sv pc state :=
  ⟨h.pc, h.state, h.cycle, h.fields, h.counter, h.clock⟩

/-- What has issued counts from where the sequencer stood, whatever else was done before. -/
theorem Issued.of_before {u : State} {k : SiteIx} {len pc state : Nat} {window sv : Bool} (h : Issued u t k w len window sv pc state)
    (hcycle : (u.getSite k).cycle = (s.getSite k).cycle) (hfc0 : (u.getSite k).fc0 = (s.getSite k).fc0)
    (hspans : (u.getSite k).spans = (s.getSite k).spans) (hfc : u.fc = s.fc) : Issued s t k w len window sv pc state where
  pc := h.pc
  state := h.state
  cycle := hcycle ▸ h.cycle
  fields := hspans ▸ hcycle ▸ h.fields
  counter := hcycle ▸ h.counter
  clock := hfc ▸ hfc0 ▸ hcycle ▸ h.clock

theorem Only.oneCycleOfRoom {pc : Nat} (h : Only m s t) (hroom : ∀ e n, (t.getSite k).stopAt = some (e, n) → (t.getSite k).cycle + 1 ≤ e)
    (hpc : pc < 0x8000) (hs : m.site k) (ht : m.time) (hp : m.reg (Reg.seqPc k)) (hr : ∀ a, countRegs k a → m.reg a) :
    Only m s (t.oneCycle k w pc) := by
  rw [oneCycle_of_room hroom hpc]
  exact (h.issueCounts w 1 false false hs ht hr).setFld 0 15 pc hp

theorem oneCycle_bit_seqStatus {pc i : Nat} (hk : k < 16) (hroom : ∀ e n, (s.getSite k).stopAt = some (e, n) → (s.getSite k).cycle + 1 ≤ e)
    (hpc : pc < 0x8000) : (s.oneCycle k w pc).bit (Reg.seqStatus k) i = s.bit (Reg.seqStatus k) i := by
  have honly := (Only.refl { countMay k with reg := fun a => a = Reg.seqPc k ∨ countRegs k a } s).oneCycleOfRoom (w := w) hroom hpc rfl trivial
    (.inl rfl) fun _ h => .inr h
  have hne : Reg.seqStatus k ≠ Reg.seqPc k := by simp only [Reg.seqPc, Reg.seqStatus]; omega
  rw [State.bit, honly.reg _ (not_or.mpr ⟨hne, not_countRegs_seqStatus hk⟩), State.bit]

/-! ### The start of an overlay load -/

/-- The rows of an overlay have been read, and its load runs (R90). -/
def State.overlayStarted (s : State) (k : Nat) (bank : Bool) (r n : Nat) : State :=
  (((s.readRows r n).1.setBit (Reg.seqStatus k) 6 true).setBit (Reg.seqStatus k) 7 bank).modSite k (fun x => { x with ovl := some (bank, r, n) })

section Start
variable {bank : Bool} {r n : Nat}

theorem overlayStarted_site : (s.overlayStarted k bank r n).getSite k = { s.getSite k with ovl := some (bank, r, n) } := by
  rw [State.overlayStarted, State.modSite_getSite, if_pos rfl, State.setBit_getSite, State.setBit_getSite, (readRows_only s r n).getSite_of_rows]

theorem modSite_bit (j : Nat) (f : Site → Site) (a i : Nat) : (s.modSite j f).bit a i = s.bit a i := rfl

theorem overlayStarted_loading : (s.overlayStarted k bank r n).bit (Reg.seqStatus k) 6 = true := by
  rw [State.overlayStarted, modSite_bit, State.setBit_bit_other _ _ _ _ _ _ (by decide) (.inr (by decide)), State.setBit_bit _ _ _ _ (by decide)]

theorem overlayStarted_seqState (hk : k < 16) : (s.overlayStarted k bank r n).seqState k = s.seqState k := by
  rw [State.overlayStarted, modSite_seqState]
  refine Eq.trans (State.setFld_fld_other _ _ _ _ _ _ _ _ (by decide) (.inr (.inl (by decide)))) ?_
  refine Eq.trans (State.setFld_fld_other _ _ _ _ _ _ _ _ (by decide) (.inr (.inl (by decide)))) ?_
  rw [State.fld, (readRows_only s r n).rd_of_rows (by simp only [Reg.seqStatus]; omega)]
  rfl

theorem Only.overlayStarted (h : Only m s t) (hm : m.Dram) (hst : m.reg (Reg.seqStatus k)) (hs : m.site k) :
    Only m s (t.overlayStarted k bank r n) :=
  (((h.readRows hm r n).setBit 6 true hst).setBit 7 bank hst).modSite _ hs

theorem overlayStarted_fc : (s.overlayStarted k bank r n).fc = s.fc :=
  ((readRows_only s r n).time id).2.1

end Start

/-- What an instruction that issues and uses the stacked DRAM may change. -/
def issueDramMay (k : Nat) : May := May.dramToo (issueMay k)

theorem issueDramMay_status : (issueDramMay k).reg (Reg.seqStatus k) := .inl (.inl (.inr (.inr (.inr (.inl rfl)))))
theorem issueDramMay_ecc : (issueDramMay k).reg (Reg.seqImemEcc k) := .inl (.inl (.inr (.inr (.inr (.inr (.inl rfl))))))
theorem issueDramMay_pc : (issueDramMay k).reg (Reg.seqPc k) := .inl (.inl (.inl rfl))

theorem issueDramMay_count (a : Nat) (ha : countRegs k a) : (issueDramMay k).reg a := by
  refine .inl (.inl ?_)
  rcases ha with h | h | h | h | h
  · exact .inr (.inl h)
  · exact .inr (.inr (.inl h))
  · exact .inr (.inr (.inr (.inr (.inr (.inl h)))))
  · exact .inr (.inr (.inr (.inr (.inr (.inr (.inl h))))))
  · exact .inr (.inr (.inr (.inr (.inr (.inr (.inr h))))))

section Ovl
variable {k : SiteIx} {ecc : Ecc}

theorem ovlFault_of_fetched (hovl : (s.getSite k).ovl = none) (hbank : (if (seqAux w).testBit 7 then 1 else 0) ≠ s.seqPc k / 0x4000)
    (hrows : s.ovlRowsOk k (seqImm w) (seqAux w % 128) = true) (hread : (s.readRows (seqImm w) (seqAux w % 128)).2.2 = true) :
    (s.fetched k ecc).ovlFault k w = none := by
  obtain ⟨l, hl⟩ := fetched_site (s := s) (k := k) (ecc := ecc)
  have hsame := SameRows.fetched (s := s) k.isLt ecc
  have hread' : ((s.fetched k ecc).readRows (seqImm w) (seqAux w % 128)).2.2 = true := by
    obtain ⟨⟨u, rows, ok⟩, hu⟩ : ∃ q, s.readRows (seqImm w) (seqAux w % 128) = q := ⟨_, rfl⟩
    rw [hu] at hread
    obtain rfl : ok = true := hread
    obtain ⟨t', ht', -⟩ := hsame.readRows hu
    rw [ht']
  have hnone : ((s.fetched k ecc).getSite k).ovl = none := by rw [hl]; exact hovl
  unfold State.ovlFault
  dsimp only
  rw [hnone, fetched_seqPc, hsame.ovlRowsOk, hrows, if_neg (by decide), if_neg hbank, if_neg (by decide), if_pos hread']

theorem exec_ovl (h : s.CanIssue k w ecc 24 1) (hf : (s.fetched k ecc).ovlFault k w = none) : exec (.ovl k w ecc) s
    = fin s (((s.fetched k ecc).overlayStarted k ((seqAux w).testBit 7) (seqImm w) (seqAux w % 128)).oneCycle k w (s.seqPc k + 1)) := by
  refine congrArg (fin s) ?_
  rw [seqExec_of_canIssue h hf, fetched_seqPc, State.overlayStarted]

/-- The instruction has issued its cycle, and the load of its overlay runs (R90, R91). -/
theorem ovl_issued (h : s.CanIssue k w ecc 24 1) (hpc : s.seqPc k + 1 < 0x8000) (hf : (s.fetched k ecc).ovlFault k w = none) :
    Answers (.ovl k w ecc) s (fun t => Issued s t k w 1 false false (s.seqPc k + 1) 3
      ∧ (t.getSite k).ovl = some ((seqAux w).testBit 7, seqImm w, seqAux w % 128) ∧ t.bit (Reg.seqStatus k) 6 = true
      ∧ Only (issueDramMay k) s t) := by
  have hexec := exec_ovl h hf
  obtain ⟨l, hl⟩ := fetched_site (s := s) (k := k) (ecc := ecc)
  have hfc : (s.fetched k ecc).fc = s.fc := ((fetched_only s k ecc).time id).2.1
  have hfetch : Only (issueDramMay k) s (s.fetched k ecc) := (Only.refl _ s).fetched issueDramMay_status issueDramMay_ecc rfl
  obtain ⟨u, hu⟩ : ∃ u, (s.fetched k ecc).overlayStarted k ((seqAux w).testBit 7) (seqImm w) (seqAux w % 128) = u := ⟨_, rfl⟩
  have hstate : u.seqState k = 3 := hu ▸ (overlayStarted_seqState k.isLt).trans fetched_seqState
  have hsite := hu ▸ overlayStarted_site
  have hfc' : u.fc = s.fc := hu ▸ overlayStarted_fc.trans hfc
  have hbit : u.bit (Reg.seqStatus k) 6 = true := hu ▸ overlayStarted_loading
  have honly : Only (issueDramMay k) s u := hu ▸ hfetch.overlayStarted (May.dramToo_dram _) issueDramMay_status rfl
  rw [hu] at hexec
  rw [hl] at hsite
  have hroom : ∀ e n, (u.getSite k).stopAt = some (e, n) → (u.getSite k).cycle + 1 ≤ e := by
    rw [hsite]
    exact fun e n hstop => (h.noStop e n hstop).1
  have hissued := (oneCycle_issued (w := w) hroom hpc hstate).of_before (s := s) (by rw [hsite]) (by rw [hsite]) (by rw [hsite]) hfc'
  refine .of_fin hexec ⟨hissued.settle, ?_, ?_, Only.settle s (honly.oneCycleOfRoom hroom hpc rfl trivial issueDramMay_pc issueDramMay_count)⟩
  · rw [State.settle_getSite, oneCycle_of_room hroom hpc, State.setFld_getSite, issue_ovl, hsite]
  · rw [State.settle_bit, oneCycle_bit_seqStatus k.isLt hroom hpc, hbit]

end Ovl

/-! ### The stored vectors -/

/-- A host's write of X15 while the sequencer is armed. -/
theorem exec_svSeekHost {k : SiteIx} {req : Requester} (v : Word) (hreach : s.reaches req = true) (hstate : s.seqState k = 2) :
    exec (.svSeekHost req k v) s
      = fin s (((s.txn req.toNat).wr (Reg.seqX k 15) v).modSite k (fun x => { x with seekFc := some s.fc, gen := x.gen + 1 })) := by
  have hstate' : (s.txn req.toNat).seqState k = 2 := hstate
  refine congrArg (fin s) ?_
  rw [State.onWrite_of_reaches _ hreach, State.hostX15, if_neg (by rw [hstate']; decide), if_pos hstate']
  rfl

theorem svSeekHost_seeks {k : SiteIx} {req : Requester} (v : Word) (hreach : s.reaches req = true) (hstate : s.seqState k = 2) :
    Answers (.svSeekHost req k v) s (fun t => t.rd (Reg.seqX k 15) = v ∧ (t.getSite k).seekFc = some s.fc
      ∧ (t.getSite k).gen = (s.getSite k).gen + 1
      ∧ Only { reg := fun a => a = Reg.seqX k 15, site := fun j => j = k.val, key := fun r => r = req.toNat } s t) := by
  refine .of_fin (exec_svSeekHost v hreach hstate) ⟨?_, ?_, ?_, Only.settle s ((((Only.refl _ s).txn rfl).wr v rfl).modSite _ rfl)⟩
  · rw [State.settle_rd, State.modSite_rd, State.wr_rd, if_pos rfl]
  · rw [State.settle_getSite, State.modSite_getSite, if_pos rfl]
  · rw [State.settle_getSite, State.modSite_getSite, if_pos rfl, State.wr_getSite]
    rfl

theorem setFmt_fmtRow (x : Site) (key : Nat) (r : FmtRow) : (x.setFmt key r).fmtRow key = r :=
  (Sparse.get_set _ _ _ _ _).trans (if_pos rfl)

/-- What the formatter holds of a row whose read answered `got`, where it held `old` (R72). -/
def rowGot (old : FmtRow) (got : RowRead) : FmtRow :=
  if old = .late then .late else match got with
    | .ok d => .here d
    | _ => .never (old == .never true)

/-- The address that the formatter of site `k` reads row `row` of its stored vectors from. -/
def State.svRowAddr (s : State) (k row : Nat) : Nat := s.svAddr k (s.fld (Reg.seqSvbaseRow k) 0 30) (64 * (row % 2 ^ 26))

section Arrive
variable {row : Nat}

theorem svArrive_fmtRow : ((s.svArrive k row).getSite k).fmtRow ((s.getSite k).fmtKey (row % 2 ^ 26))
    = rowGot ((s.getSite k).fmtRow ((s.getSite k).fmtKey (row % 2 ^ 26))) (s.readAt (s.svRowAddr k row) srcPerCycle).2 := by
  have hread := readAt_only s (s.svRowAddr k row) srcPerCycle
  unfold State.svArrive
  extract_lets key old put
  have hput (u : State) (r : FmtRow) (hu : u.getSite k = s.getSite k) :
      ((put u r).getSite k).fmtRow key = if old = .late then .late else r := by
    unfold put
    split
    next hlate => rw [hu]; exact hlate
    next => rw [State.modSite_getSite, if_pos rfl, setFmt_fmtRow]
  split
  next t d hgot =>
    rw [State.svRowAddr, hgot] at hread ⊢
    exact hput t _ (hread.getSite_of_rows k)
  next t got hno hgot =>
    rw [State.svRowAddr, hgot] at hread ⊢
    refine (hput t _ (hread.getSite_of_rows k)).trans ?_
    cases got with
    | ok d => exact absurd rfl (hno d)
    | _ => rfl

theorem Only.rowArrive (hm : m.Dram) (hs : m.site k) (h : Only m s t) : Only m s (t.svArrive k row) := by
  have hread := h.readAt hm (t.svRowAddr k row) srcPerCycle
  unfold State.svArrive
  extract_lets key old put
  have hput (u : State) (r : FmtRow) (hu : Only m s u) : Only m s (put u r) := (hu.modSite _ hs).ite hu
  split
  all_goals
    next hgot =>
      rw [State.svRowAddr, hgot] at hread
      exact hput _ _ hread

end Arrive

theorem checkDue_svRowAddr (hk : k < 16) (row : Nat) : (s.checkDue k).svRowAddr k row = s.svRowAddr k row := by
  have hbase : (s.checkDue k).fld (Reg.seqSvbaseRow k) 0 30 = s.fld (Reg.seqSvbaseRow k) 0 30 := (checkDue_only s k).fld_eq (by
    simp only [fillMay, integRegs, Reg.glbIntegLo, Reg.glbIntegHi, Reg.glbIntegCnt, Reg.glbIntegLog, Reg.seqSvbaseRow]
    omega)
  have hmap : (s.checkDue k).globalMap = s.globalMap := by
    rw [State.globalMap, State.rdAct, (checkDue_only s k).reg _ (by
      simp only [fillMay, integRegs, Reg.glbIntegLo, Reg.glbIntegHi, Reg.glbIntegCnt, Reg.glbIntegLog, Reg.vltMap]
      omega), State.globalMap, State.rdAct]
  rw [State.svRowAddr, hbase, State.svAddr, hmap, State.svRowAddr, State.svAddr]

theorem checkDue_fmtKey (row : Nat) : ((s.checkDue k).getSite k).fmtKey row = (s.getSite k).fmtKey row := by
  rw [Site.fmtKey, gen_of_unfilled checkDue_unfilled, Site.fmtKey]

theorem exec_svRowArrive {k : SiteIx} {row : Nat} (hidle : s.seqState k ≠ 0) (hend : s.seqState k ≠ 5)
    (hrank : s.waitRank (s.svVault k row) ≠ 0) : exec (.svRowArrive k row) s = fin s ((s.checkDue k).svArrive k row) := by
  refine congrArg (fin s) (if_neg ?_)
  exact not_or.mpr ⟨hidle, not_or.mpr ⟨hend, hrank⟩⟩

/-- A row has reached the formatter, but for one whose first cycle was due before. -/
theorem svRowArrive_lands {k : SiteIx} {row : Nat} (hidle : s.seqState k ≠ 0) (hend : s.seqState k ≠ 5)
    (hrank : s.waitRank (s.svVault k row) ≠ 0) : Answers (.svRowArrive k row) s (fun t =>
      (t.getSite k).fmtRow ((s.getSite k).fmtKey (row % 2 ^ 26))
          = rowGot (((s.checkDue k).getSite k).fmtRow ((s.getSite k).fmtKey (row % 2 ^ 26)))
            ((s.checkDue k).readAt (s.svRowAddr k row) srcPerCycle).2
        ∧ Only (May.dramToo { reg := integRegs k, site := fun j => j = k }) s t) := by
  have hdue : Only (May.dramToo { reg := integRegs k, site := fun j => j = k }) s (s.checkDue k) := (Only.refl _ s).checkDue rfl fun _ h => .inl h
  refine .of_fin (exec_svRowArrive hidle hend hrank) ⟨?_, Only.settle s (hdue.rowArrive (May.dramToo_dram _) rfl)⟩
  rw [State.settle_getSite, ← checkDue_fmtKey, ← checkDue_svRowAddr k.isLt]
  exact svArrive_fmtRow

/-! ### The obligation -/

/-- Settles O8: each clause is one of the lemmas above, on a case split on whether the rows could be read. -/
theorem seqRows : Obligations.SeqRows := by
  unfold Obligations.SeqRows
  intro k w ecc req s x prog imem put may
  refine ⟨fun hstate => ?_, fun bank r n hovl => overlayLoadDone_loaded hovl rfl, fun hcan hpc hovl hbank hrows => ?_,
    fun v hreach hstate => svSeekHost_seeks v hreach hstate, fun row hidle hend hrank => svRowArrive_lands hidle hend hrank⟩
  · obtain ⟨⟨u, rows, ok⟩, hread⟩ : ∃ q, prog = q := ⟨_, rfl⟩
    rw [hread]
    cases ok with
    | true => exact armComplete_armed hstate hread
    | false => exact armComplete_refused hstate hread
  · by_cases hread : (s.readRows (seqImm w) (seqAux w % 128)).2.2 = true
    · obtain ⟨t, ht, hissued⟩ := ovl_issued hcan hpc (ovlFault_of_fetched hovl hbank hrows hread)
      exact ⟨t, ht, fun _ => hissued⟩
    · obtain ⟨t, ht⟩ := exec_next (.ovl k w ecc) s
      exact ⟨t, ht, fun h => absurd h hread⟩

end Sys2Proof.Machine
end

section
/-! The refutations of the entry into SAFE and of the loss of a clock, by one state: a sequencer that has issued its last cycle, with its program
left past 0x7FFF, falls through in the fc of the cause. That end comes first: it is a fault, with its code in SEQ_FAULT, which the frame of the
entry into SAFE leaves out, and its reason stands above SAFE in the order of R101. -/

namespace Sys2Proof.Machine

-- In the order of the text: an evaluation by the kernel holds a thread until every proof before it has been checked.
set_option Elab.async false

/-- Sequencer 0 runs in READY, is past its last cycle, and falls through past 0x7FFF now. -/
def pastEnd : State :=
  { regs := [(Reg.glbMode, 4), (Reg.clkStat, 0), (Reg.seqStatus 0, 3)], fc := 5, aon := { up := true }
    site := [(0, { after := .past })] }

theorem pastEnd_outside : pastEnd.mode ≠ modeRESET ∧ pastEnd.mode ≠ modeSAFE := by decide +kernel

theorem pastEnd_safeEnter : pastEnd.rd (Reg.seqFault 0) = 0 ∧ ∃ t, exec (.safeEnter 0) pastEnd = .next t ∧ t.rd (Reg.seqFault 0) = 2 :=
  ⟨by decide +kernel, _, rfl, by decide +kernel⟩

/-- SEQ_FAULT of site 0 lies in no bank of registers that the entry into SAFE changes. -/
theorem seqFault_zero_outside {k : Nat} (hk : k < 16) : ¬ regionRegs k (Reg.seqFault 0) ∧ ¬ stopRegs k (Reg.seqFault 0)
    ∧ Reg.seqFault 0 ≠ Reg.rpaStatus k ∧ Reg.seqFault 0 ≠ Reg.rpaIrqStat k := by
  refine ⟨?_, ?_, ?_, ?_⟩
  · simp only [regionRegs, Reg.seqFault, Reg.cfgRegion, Reg.cfgInuseLo, Reg.cfgInuseHi, Reg.fabResInject, Reg.fabZbusStat, Reg.fabWclkCells,
      Reg.glbSiteState, Reg.fabPenStat, Reg.glbMode, Reg.safBistDebt]
    omega
  · simp only [stopRegs, issueRegs, integRegs, Reg.seqFault, Reg.seqPc, Reg.seqCycleLo, Reg.seqCycleHi, Reg.seqStatus, Reg.seqImemEcc, Reg.seqX,
      Reg.capStatus, Reg.glbIntegLo, Reg.glbIntegHi, Reg.glbIntegCnt, Reg.glbIntegLog, Reg.seqStopCycLo, Reg.seqStopCycHi, Reg.glbSiteState,
      Reg.fabPenStat, Reg.glbMode]
    omega
  · simp only [Reg.seqFault, Reg.rpaStatus]; omega
  · simp only [Reg.seqFault, Reg.rpaIrqStat]; omega

/-- Refutes O34: SAFE_ENTER in `pastEnd` writes the fault of sequencer 0. -/
theorem not_safeEntry : ¬ Obligations.SafeEntry := by
  unfold Obligations.SafeEntry
  intro h
  obtain ⟨enter, -⟩ := h 0 pastEnd
  obtain ⟨t, ht, ⟨-, -, -, -, -, -, -, -, -, -, -, -, only⟩, -⟩ := enter (by decide +kernel) pastEnd_outside
  obtain ⟨hs, u, hu, hfault⟩ := pastEnd_safeEnter
  obtain rfl : t = u := Host.Outcome.next.inj (ht.symm.trans hu)
  have hsame := only.reg (Reg.seqFault 0) (by
    rintro (hload | heq | heq | ⟨k, ⟨hk, hreg⟩ | ⟨l, hl, heq⟩ | ⟨i, hi, heq⟩⟩)
    · revert hload
      simp only [loadRegs, Reg.seqFault, Reg.cfgStatus, Reg.cfgProgress, Reg.cfgBadIndex, Reg.cfgBadAddr, Reg.cfgSig, Reg.cfgBuildLo,
        Reg.cfgBuildHi]
      omega
    · simp only [Reg.seqFault, Reg.pmuStat] at heq; omega
    · simp only [Reg.seqFault, Reg.safEvtCnt] at heq; omega
    · obtain ⟨hregion, hstop, hrpa, hirq⟩ := seqFault_zero_outside hk
      rcases hreg with hr | hr | hr | hr <;> contradiction
    · simp only [Reg.seqFault, Reg.lnkStat] at heq; omega
    · simp only [Reg.seqFault, Reg.safCalStat] at heq; omega)
  rw [hfault, hs] at hsame
  exact absurd hsame (by decide)

/-- A thing that changes nothing for each of a list changes nothing. -/
theorem forAll_unchanged {f : State → Nat → State} {l : List Nat} {s : State} (h : ∀ k ∈ l, f s k = s) : s.forAll l f = s :=
  State.forAll_keeps (P := fun u => u = s) rfl fun u k hk hu => by rw [hu]; exact h k hk

theorem idleLanes_of_searching {s : State} (h : ∀ l, l < 256 → s.lnkState l = 0) : s.idleLanes = s :=
  forAll_unchanged fun l hl => by rw [if_neg (by rw [h l (List.mem_range.mp hl)]; decide)]

theorem allSleep_of_untrained {s : State} (h : ∀ v, v < 256 → s.vltState v = 0) : s.allSleep = s :=
  forAll_unchanged fun v hv => by
    unfold State.vaultSleep
    rw [if_neg (by rw [h v (List.mem_range.mp hv)]; decide)]

/-- `pastEnd` in SAFE by a clock cause, before its lanes are looked at. -/
def pastEndSafe : State := ((pastEnd.safEvent 0x12 1).setLive 1 true).enterSafe 1

theorem pastEndSafe_regs : pastEndSafe.regs = [(Reg.glbMode, 0x10205#32), (Reg.clkStat, 0#32), (Reg.safEvtCnt, 1#32),
    (Reg.seqStatus 0, 0x70008#32), (Reg.seqStopCycLo 0, 0xFFFFFFFF#32), (Reg.seqStopCycHi 0, 0xFFFF#32), (Reg.seqFault 0, 2#32)] := by
  decide +kernel

theorem pastEndSafe_mode : pastEndSafe.mode = modeSAFE := by
  unfold State.mode State.fld State.rd
  rw [pastEndSafe_regs]
  decide +kernel

theorem pastEndSafe_lnkState : ∀ l, l < 256 → pastEndSafe.lnkState l = 0 := by
  unfold State.lnkState State.fld State.rd
  rw [pastEndSafe_regs]
  decide +kernel

theorem pastEndSafe_vltState : ∀ v, v < 256 → pastEndSafe.vltState v = 0 := by
  unfold State.vltState State.fld State.rd
  rw [pastEndSafe_regs]
  decide +kernel

theorem pastEnd_safeArrive : pastEnd.safeArrive 1 = pastEndSafe.idleLanes := rfl

/-- The stop keeps the reason of the fault. -/
theorem pastEnd_clockLoss : (pastEnd.clockLoss false 0).fld (Reg.seqStatus 0) 16 4 = 7 := by
  have hdrop : pastEndSafe.dropRequests 0 = pastEndSafe := forAll_unchanged (by decide)
  unfold State.clockLoss
  dsimp only
  rw [pastEnd_safeArrive, idleLanes_of_searching pastEndSafe_lnkState, hdrop, allSleep_of_untrained pastEndSafe_vltState]
  simp only [pastEndSafe_mode]
  decide +kernel

/-- Refutes O39: REFCLK fails in `pastEnd`, and sequencer 0 has stopped with the reason FAULT. -/
theorem not_clocks : ¬ Obligations.Clocks := by
  unfold Obligations.Clocks
  intro h
  obtain ⟨loss, -⟩ := h 0 0 0 0 0 0 0 pastEnd
  obtain ⟨t, ht, -, -, -, -, -, -, -, -, hsite, -⟩ := loss rfl (by decide +kernel) pastEnd_outside
  obtain ⟨-, -, hreason⟩ := hsite 0 (by decide) (by decide +kernel)
  obtain rfl : t = State.settle pastEnd (pastEnd.clockLoss false 0) := Host.Outcome.next.inj (ht.symm.trans rfl)
  rw [State.settle_fld, pastEnd_clockLoss] at hreason
  exact absurd (hreason rfl) (by decide)

end Sys2Proof.Machine
end

section
/-! The refutation of the resets: a full reset from a state whose rails are still being turned on shows the rail whose turn it is before start-up
goes back to its first step, in which no rail's turn has come (R53, R422). -/

namespace Sys2Proof.Machine

-- In the order of the text: an evaluation by the kernel holds a thread until every proof before it has been checked.
set_option Elab.async false

/-- VDD_C's rail is being turned on, in a device that is in READY. -/
def railsTurning : State :=
  { regs := [(Reg.glbMode, 3), (Reg.clkStat, 0)], host := { keyWin := [(0, 1)] }, aon := { up := true, step := 4, vinOk := true } }

/-- `railsTurning` with the write counted and its cause recorded. -/
def railsTurningReset : State := (railsTurning.txn 0).setBit Reg.glbResetCause 2 true

theorem resetCtl_full (s : State) (req : Requester) (dropped : BitVec 256) :
    s.resetCtl req 2 true dropped = (s.setBit Reg.glbResetCause 2 true).fullReset dropped := rfl

theorem settle_railOn (s u : State) (r : Nat) : (State.settle s u).railOn r = u.railOn r := rfl

theorem railsTurning_fullResetCmd : exec (.fullResetCmd 0 0) railsTurning = fin railsTurning (railsTurningReset.fullReset 0) := by
  have hkey : decide (0 < railsTurning.keyLeft (0 : Requester).toNat) = true := by decide +kernel
  change fin railsTurning (railsTurning.onKeyed 0 _) = _
  rw [State.onKeyed_of_reaches _ (by decide +kernel), hkey, resetCtl_full]
  rfl

/-- The same with its sequencers stopped. -/
def railsTurningHalted : State := railsTurningReset.stopAll 6 true

theorem railsTurningHalted_regs : railsTurningHalted.regs = [(Reg.glbMode, 3#32), (Reg.glbResetCause, 5#32), (Reg.clkStat, 0#32)] := by
  decide +kernel

theorem railsTurningHalted_vltState : ∀ v, v < 256 → railsTurningHalted.vltState v = 0 := by
  unfold State.vltState State.fld State.rd
  rw [railsTurningHalted_regs]
  decide +kernel

/-- The rail of the first place in the order shows its setpoint, and is off. -/
theorem railsTurning_fullReset : (railsTurningReset.fullReset 0).fld (Reg.pmuRailV 22) 16 16 = 800
    ∧ (railsTurningReset.fullReset 0).railOn 22 = false := by
  have hdrop : railsTurningHalted.dropRequests 0 = railsTurningHalted := forAll_unchanged (by decide)
  have hfailed : vaults.filter (fun v => railsTurningHalted.vltState v == 5) = [] := by
    rw [List.filter_eq_nil_iff]
    intro v hv
    rw [railsTurningHalted_vltState v (List.mem_range.mp hv)]
    decide
  unfold State.fullReset
  dsimp only
  rw [show railsTurningReset.stopAll 6 true = railsTurningHalted from rfl, allSleep_of_untrained railsTurningHalted_vltState, hdrop, hfailed]
  decide +kernel

/-- Refutes O36: FULL_RESET in `railsTurning` leaves a rail that is off at 800 mV. -/
theorem not_resets : ¬ Obligations.Resets := by
  unfold Obligations.Resets
  intro h
  obtain ⟨-, full, -⟩ := h 0 0 0 railsTurning
  obtain ⟨t, ht, ⟨-, -, -, -, -, -, -, -, -, -, -, -, -, -, hrails⟩, -⟩ := full (by decide +kernel) (by decide +kernel)
  obtain rfl : t = State.settle railsTurning (railsTurningReset.fullReset 0) := Host.Outcome.next.inj (ht.symm.trans railsTurning_fullResetCmd)
  obtain ⟨hmv, hoff⟩ := railsTurning_fullReset
  have hshown := hrails 22 (by decide)
  rw [State.settle_fld, hmv, settle_railOn, hoff] at hshown
  exact absurd hshown (by decide)

end Sys2Proof.Machine
end

section
/-! The refutation of the mode commands: a RAW_WRITE that self-refresh entry finishes writes where its row number says, and no bound keeps the row
of a maintenance command below 2^22 in a state that is only quantified over; the frame of ENTER_STANDBY bounds the row of the service buffer
alone. -/

namespace Sys2Proof.Machine

-- In the order of the text: an evaluation by the kernel holds a thread until every proof before it has been checked.
set_option Elab.async false

/-- Vault 0 is ready, in READY, with a RAW_WRITE of the byte 1 to row 2^23 of it, which would be the first cell of vault 1. -/
def rawWriteDue : State :=
  { regs := [(Reg.glbMode, 3), (Reg.clkStat, 0), (Reg.vltStat 0, 0x40000000), (Reg.vltMntDataLo 0, 1)]
    vault := [(0, { mnt := some { cmd := 2, row := 2 ^ 23, word := 0 } })] }

/-- What ENTER_STANDBY asks of the state. -/
theorem rawWriteDue_allowed : rawWriteDue.reaches 0 = true ∧ rawWriteDue.modeBusy = false ∧ rawWriteDue.mode = modeREADY
    ∧ rawWriteDue.sitesQuiet = true ∧ rawWriteDue.loading = false ∧ rawWriteDue.boost = false := by decide +kernel

/-- The command is accepted, and vault 0 has gone to sleep. -/
def rawWriteDone : State := ((rawWriteDue.txn 0).modeStatus 1).vaultSleep 0 3

theorem rawWriteDone_regs : rawWriteDone.regs = [(Reg.glbMode, 0x1000003#32), (Reg.clkStat, 0#32), (Reg.vltStat 0, 0x60000000#32),
    (Reg.vltMntCmd 0, 0x10000000#32), (Reg.vltMntDataLo 0, 1#32)] := by decide +kernel

theorem rawWriteDone_dram : rawWriteDone.dram = [(2 ^ 36, 1#8)] := by decide +kernel

/-- The other vaults are not ready. -/
theorem rawWriteDone_vltState : ∀ v, v < 255 → rawWriteDone.vltState (v + 1) ≠ 2 := by
  unfold State.vltState State.fld State.rd
  rw [rawWriteDone_regs]
  decide +kernel

theorem vaultSleep_of_not_ready {s : State} {v c : Nat} (h : s.vltState v ≠ 2) : s.vaultSleep v c = s := if_neg h

theorem forAll_cons (s : State) (k : Nat) (l : List Nat) (f : State → Nat → State) : s.forAll (k :: l) f = (f s k).forAll l f := rfl

theorem rawWriteDue_allSleep : ((rawWriteDue.txn 0).modeStatus 1).allSleep = rawWriteDone := by
  have hrest : rawWriteDone.forAll (vaults.drop 1) (fun s v => s.vaultSleep v 3) = rawWriteDone := forAll_unchanged fun v hv => by
    have hmem : ∃ u, u < 255 ∧ u + 1 = v := by
      have hbound : ∀ v ∈ vaults.drop 1, 1 ≤ v ∧ v ≤ 255 := by decide +kernel
      obtain ⟨h1, h2⟩ := hbound v hv
      exact ⟨v - 1, by omega, by omega⟩
    obtain ⟨u, hu, rfl⟩ := hmem
    exact vaultSleep_of_not_ready (rawWriteDone_vltState u hu)
  have hsplit : vaults = 0 :: vaults.drop 1 := by decide +kernel
  unfold State.allSleep
  rw [hsplit, forAll_cons]
  exact hrest

theorem rawWriteDue_enterStandby :
    exec (.enterStandby 0 false 0) rawWriteDue = fin rawWriteDue (rawWriteDone.beginTo modeSTANDBY) := by
  obtain ⟨hreach, hbusy, hmode, hquiet, hload, hboost⟩ := rawWriteDue_allowed
  have hguard : (rawWriteDue.txn 0).mode = modeREADY ∧ (rawWriteDue.txn 0).sitesQuiet = true ∧ (!(rawWriteDue.txn 0).loading) = true
      ∧ (!(rawWriteDue.txn 0).boost) = true := by decide +kernel
  have hbusy' : (rawWriteDue.txn 0).modeBusy = false := hbusy
  have hdrop : ((rawWriteDue.txn 0).modeStatus 1).dropRequests 0 = (rawWriteDue.txn 0).modeStatus 1 := forAll_unchanged (by decide)
  change fin rawWriteDue (rawWriteDue.onWrite 0 _) = _
  rw [State.onWrite_of_reaches _ hreach]
  unfold State.modeCmd
  simp only [show (0 : Requester).toNat = 0 from rfl, hguard, hbusy', hdrop, rawWriteDue_allSleep]
  rfl

/-- Refutes O33: ENTER_STANDBY in `rawWriteDue` writes the byte 1 into the first cell of vault 1. -/
theorem not_modeCommands : ¬ Obligations.ModeCommands := by
  unfold Obligations.ModeCommands
  intro h
  obtain ⟨hreach, hbusy, hmode, hquiet, hload, hboost⟩ := rawWriteDue_allowed
  obtain ⟨-, standby, -⟩ := h 0 false 0 rawWriteDue hreach
  obtain ⟨t, ht, -, -, -, -, only⟩ := standby ⟨rfl, hbusy⟩ hmode hquiet hload hboost
  have hrows : ∀ v q, (rawWriteDue.getVault v).svc.row = some q → q < 2 ^ 22 := by
    intro v q hq
    unfold State.getVault rawWriteDue at hq
    simp only [Sparse.get] at hq
    split at hq <;> exact nomatch hq
  obtain rfl : t = State.settle rawWriteDue (rawWriteDone.beginTo modeSTANDBY) :=
    Host.Outcome.next.inj (ht.symm.trans rawWriteDue_enterStandby)
  have hother : ¬ ∃ v, v < 256 ∧ ((rawWriteDue.getVault v).svc.dirty = true ∨ (rawWriteDue.getVault v).mnt ≠ none) ∧ 2 ^ 36 / 2 ^ 36 = v := by
    rintro ⟨v, -, hdue, rfl⟩
    revert hdue
    decide +kernel
  have hcell := (only hrows).dram (2 ^ 36) hother
  change Sparse.get Dram.reset rawWriteDone.dram (2 ^ 36) = _ at hcell
  rw [rawWriteDone_dram] at hcell
  exact absurd hcell (by decide +kernel)

end Sys2Proof.Machine
end

section
/-! The refutation of the starts: in the bc in which the budget or the active copies of the PMU change, a start goes by the values before (R427), which
a state keeps without a bound; a class power of 13 bits carries into the admitted bit of PMU_SITE. -/

namespace Sys2Proof.Machine

-- In the order of the text: an evaluation by the kernel holds a thread until every proof before it has been checked.
set_option Elab.async false

/-- Sequencer 0 is armed in READY with a horizon, and the values of the PMU before this bc have a class power of 4096. -/
def oversizedClass : State :=
  { regs := [(Reg.glbMode, 0x23), (Reg.clkStat, 0), (Reg.seqStatus 0, 2), (Reg.seqHorizon 0, 0x80000000)]
    aon := { pmuBefore := some { bc := 0, budget := 4096, base := 0, boostW := 0, classW := [4096] } } }

theorem oversizedClass_canStart : oversizedClass.reaches 0 = true ∧ oversizedClass.CanStart 0 ∧ oversizedClass.admits [0] = true := by
  unfold State.CanStart
  decide +kernel

theorem oversizedClass_start : ∃ t, exec (.seqStart 0 0 false false) oversizedClass = .next t ∧ t.admitted 0 = false :=
  ⟨_, rfl, by decide +kernel⟩

/-- Refutes O7: SEQ_START in `oversizedClass` is accepted, and site 0 is not admitted. -/
theorem not_seqControl : ¬ Obligations.SeqControl := by
  unfold Obligations.SeqControl
  rintro ⟨h, -⟩
  obtain ⟨hreach, hcan, hadmits⟩ := oversizedClass_canStart
  obtain ⟨-, -, start, -⟩ := h 0 0 false oversizedClass hreach
  obtain ⟨t, ht, hstarted, -⟩ := start hcan hadmits
  obtain ⟨u, hu, hnot⟩ := oversizedClass_start
  obtain rfl : t = u := Host.Outcome.next.inj (ht.symm.trans hu)
  exact Bool.noConfusion (hnot.symm.trans hstarted.admitted)

end Sys2Proof.Machine
end

section
/-! The refutation of the maintenance commands: the effect of RAW_WRITE is stated without a bound on its row, and past row 2^22 the cells of the row
may lie in another vault; where that vault's data is undefined, they read as free values whatever was written. -/

namespace Sys2Proof.Machine

-- In the order of the text: an evaluation by the kernel holds a thread until every proof before it has been checked.
set_option Elab.async false

/-- Vault 0 is ready, with a RAW_WRITE of the word `w` to row 2^23 due, whose cells are vault 1's; the data of vault 1 is undefined. -/
def strayWrite (w : Word) : State :=
  { regs := [(Reg.clkStat, 0), (Reg.vltStat 0, 0x40000000), (Reg.vltMntDataLo 0, w)]
    vault := [(0, { mnt := some { cmd := 2, row := 2 ^ 23, word := 0 } }), (1, { lost := some 0 })] }

/-- The row reads as vault 1 does: undefined. -/
structure ReadsFree (t : State) : Prop where
  lost : (t.getVault 1).lost = some 0
  known : (t.getVault 1).known = []
  loc : t.rowLoc 0 (2 ^ 23) = 2 ^ 23
  cols : t.colMap 0 (2 ^ 23 % 128) = []

/-- The first 8 stored bytes of the row are the same free values in every such state. -/
theorem ReadsFree.rawRow {t : State} (h : ReadsFree t) :
    t.rawRow 0 (2 ^ 23) 0 8 = (List.range 8).map (fun j => Config.freeByte (2 ^ 36 + j)) := by
  unfold State.rawRow State.rawAt
  rw [h.cols, h.loc]
  refine List.map_congr_left fun j hj => ?_
  have hj8 : j < 8 := List.mem_range.mp hj
  have hcell : Dram.cellAt [] 0 (2 ^ 23) j = (2 ^ 36 + j, 0) := by
    unfold Dram.cellAt Dram.key
    rw [if_pos (by omega)]
    simp only [List.find?_nil, Prod.mk.injEq, and_true]
    omega
  have hvault : (2 ^ 36 + j) / 8192 / 2 ^ 23 = 1 := by omega
  simp only [Nat.zero_add, hcell, State.cell, hvault, h.lost, h.known, List.contains_nil, Bool.false_eq_true, if_false]
  exact BitVec.xor_zero

/-- What MNT_DONE of the RAW_WRITE asks of the state. -/
structure RawWriteDue (s : State) : Prop where
  ready : s.vltState 0 = 2 ∧ 4 ≤ s.waitRank 0
  mnt : (s.getVault 0).mnt = some { cmd := 2, row := 2 ^ 23, word := 0 }
  row : (s.getVault 0).svc.row ≠ some (2 ^ 23)
  lost : (s.getVault 0).lost = none
  cols : ((s.colMap 0 (2 ^ 23 % 128)).map Prod.snd).Nodup

theorem strayWrite_due (w : Word) (hw : w = 0 ∨ w = 1) : RawWriteDue (strayWrite w) := by
  rcases hw with rfl | rfl <;> constructor <;> decide +kernel

theorem strayWrite_mntDone (w : Word) (hw : w = 0 ∨ w = 1) : ∃ t, exec (.mntDone 0) (strayWrite w) = .next t ∧ ReadsFree t := by
  rcases hw with rfl | rfl
  · exact ⟨_, rfl, by constructor <;> decide +kernel⟩
  · exact ⟨_, rfl, by constructor <;> decide +kernel⟩

/-- The statement makes the row read the data registers. -/
theorem rawWrite_of_maintenance (h : Obligations.Maintenance) (w : Word) (hw : w = 0 ∨ w = 1) :
    (List.range 8).map (fun j => Config.freeByte (2 ^ 36 + j)) = leBytes 8 ((strayWrite w).rd64 (Reg.vltMntDataLo 0)) := by
  unfold Obligations.Maintenance at h
  obtain ⟨-, -, -, write, -⟩ := h 0 0 (strayWrite w)
  have due := strayWrite_due w hw
  obtain ⟨t, ht, -, hrow, -⟩ := write _ due.ready due.mnt rfl due.row ⟨due.lost, due.cols⟩ (by decide)
  obtain ⟨u, hu, hfree⟩ := strayWrite_mntDone w hw
  obtain rfl : t = u := Host.Outcome.next.inj (ht.symm.trans hu)
  exact hfree.rawRow.symm.trans hrow

/-- Refutes O20: after `strayWrite 0` and after `strayWrite 1` the row would read as 0 and as 1, and it reads the same. -/
theorem not_maintenance : ¬ Obligations.Maintenance := by
  intro h
  have hsame := (rawWrite_of_maintenance h 0 (.inl rfl)).symm.trans (rawWrite_of_maintenance h 1 (.inr rfl))
  exact absurd hsame (by decide +kernel)

end Sys2Proof.Machine
end

section
/-! The refutation of the timed transitions: the registers are a list, and a register that stands in it twice reads as its first entry; ending the
calibration items drops entries that hold the reset value, so that the second entry comes to light. A list in canonical form has no such
pair, and the statement does not ask for the form. -/

namespace Sys2Proof.Machine

-- In the order of the text: an evaluation by the kernel holds a thread until every proof before it has been checked.
set_option Elab.async false

variable {m : May} {s t : State}

theorem Only.prbsStart (w : Nat) (h : Only m s t) (hl : m.lane (w % 256)) (hf : m.free) : Only m s (t.prbsStart w) := by
  unfold State.prbsStart
  dsimp only
  split
  · exact h
  · split
    · exact (h.tickFree hf).modLane _ hl
    · exact h.modLane _ hl

theorem Only.laneRestart (w : Nat) (h : Only m s t) (hr : m.reg (Reg.lnkStat w)) (hh : m.reg (Reg.seqHorizon (w % 256 / 16)))
    (hl : m.lane (w % 256)) (hf : m.free) : Only m s (t.laneRestart w) := by
  have hstart (f : Lane → Lane) : Only m s (((t.setLnkState w (t.startState w)).setBit (Reg.lnkStat w) 24 false).modLane (w % 256) f) :=
    ((h.setFld _ _ _ hr).setBit _ _ hr).modLane _ hl
  unfold State.laneRestart
  dsimp only
  split
  · exact (hstart _).prbsStart w hl hf
  · exact ((hstart _).setBit 31 false hh).prbsStart w hl hf

/-- STANDBY is due, and the epoch stands in the registers twice, first with its reset value. -/
def epochTwice : State :=
  { regs := [(Reg.glbEpoch, 0), (Reg.glbEpoch, 1)], aon := { target := some modeSTANDBY } }

/-- In STANDBY, with the fabric gated and the calibration items ended, before the lanes stop. -/
def epochShown : State :=
  let s := { epochTwice.endTrans.setMode modeSTANDBY with ctl := { epochTwice.ctl with gated := true } }
  ((s.forAll sites (fun s k => s.abortSlice k)).calCut).showRails

theorem epochTwice_done : exec .modeTransitionDone epochTwice
    = fin epochTwice (epochShown.forAll (List.range 512) (fun s w => s.laneRestart w)) := rfl

theorem epochShown_rd : epochTwice.rd Reg.glbEpoch = 0 ∧ epochShown.rd Reg.glbEpoch = 1 := by decide +kernel

theorem laneRestarts_epoch (s : State) :
    (s.forAll (List.range 512) (fun s w => s.laneRestart w)).rd Reg.glbEpoch = s.rd Reg.glbEpoch := by
  have honly : Only { reg := fun a => a ≠ Reg.glbEpoch, lane := fun _ => True, free := True } s
      (s.forAll (List.range 512) (fun s w => s.laneRestart w)) :=
    Only.forAll (.refl _ s) fun u w _ hu => hu.laneRestart w
      (by simp only [Reg.lnkStat, Reg.glbEpoch]; omega) (by simp only [Reg.seqHorizon, Reg.glbEpoch]; omega) trivial trivial
  exact honly.reg _ (fun h => h rfl)

/-- Refutes O35: MODE_TRANSITION_DONE in `epochTwice` changes what the epoch reads. -/
theorem not_transitions : ¬ Obligations.Transitions := by
  unfold Obligations.Transitions
  intro h
  obtain ⟨-, standby, -⟩ := h epochTwice
  obtain ⟨t, ht, -, -, -, -, -, -, -, only⟩ := standby rfl
  obtain rfl : t = State.settle epochTwice (epochShown.forAll (List.range 512) (fun s w => s.laneRestart w)) :=
    Host.Outcome.next.inj (ht.symm.trans epochTwice_done)
  obtain ⟨hbefore, hafter⟩ := epochShown_rd
  have hsame := only.reg Reg.glbEpoch (by
    rintro (heq | heq | heq | heq | ⟨r, hr, heq⟩ | ⟨hlo, hhi⟩ | ⟨i, hi, heq⟩ | ⟨k, hk, heq⟩)
    all_goals simp only [Reg.glbEpoch, Reg.glbMode, Reg.glbSiteState, Reg.fabPenStat, Reg.cfgScrub, Reg.pmuRailV, Reg.safCalStat,
      Reg.seqHorizon] at *
    all_goals omega)
  rw [State.settle_rd, laneRestarts_epoch, hbefore, hafter] at hsame
  exact absurd hsame (by decide)

end Sys2Proof.Machine
end

section
/-! The refutation of the control core's start: the firmware commits every lane window, and what stands pending in one takes effect first; nothing in
the statement says that a pending commit holds registers of its own window, so the last of them can write the first window again. -/

namespace Sys2Proof.Machine

-- In the order of the text: an evaluation by the kernel holds a thread until every proof before it has been checked.
set_option Elab.async false

variable {m : May} {s t : State}

theorem Only.measureStart (k : Nat) (h : Only m s t) (hh : m.reg (Reg.seqHorizon k)) (hs : m.reg Reg.lnkSkew) (hr : m.reg Reg.lnkMeasure)
    (hl : ∀ l ∈ lanesOf k, m.lane l ∧ m.reg (Reg.lnkStat (prxWin l))) : Only m s (t.measureStart k) := by
  unfold State.measureStart
  split
  · exact h
  · refine Only.forAll ((((h.setBit _ _ hh).setBit _ _ hh).setBit _ _ hs).setBit _ _ hr) fun u l hmem hu => ?_
    obtain ⟨hlane, hstat⟩ := hl l hmem
    dsimp only
    split
    · exact (hu.modLane _ hlane).setFld _ _ _ hstat
    · exact hu.modLane _ hlane

theorem Only.laneCommit (w : Nat) (eq : BitVec 128) (h : Only m s t) (hi : m.reg (Reg.lnkInject w)) (hr : m.reg (Reg.lnkStat w))
    (hh : m.reg (Reg.seqHorizon (w % 256 / 16))) (hs : m.reg Reg.lnkSkew) (hm : m.reg Reg.lnkMeasure) (hl : m.lane (w % 256)) (hf : m.free)
    (hls : ∀ l ∈ lanesOf (w % 256 / 16), m.lane l ∧ m.reg (Reg.lnkStat (prxWin l))) : Only m s (t.laneCommit w eq) :=
  (((h.setBit _ _ hi).modLane _ hl).laneRestart w hr hh hl hf).measureStart _ hh hs hm hls

theorem Only.modCpu (f : Cpu → Cpu) (h : Only m s t) (hc : m.cpu) : Only m s (t.modCpu f) := by
  refine h.trans ?_
  constructor <;> intros <;> first | rfl | exact ⟨rfl, rfl, rfl⟩ | contradiction

theorem Only.userStart (h : Only m s t) (hr : m.reg Reg.cpuStatus) (hc : m.cpu) : Only m s t.userStart := by
  unfold State.userStart
  dsimp only
  split
  · exact (((h.modCpu _ hc).breakResv _ _ _ hc).setBit _ _ hr).modCpu _ hc
  · exact (h.setBit _ _ hr).modCpu _ hc

theorem setFld_bit_other (a lo len v b j : Nat) (h : lo + len ≤ 32) (hd : b ≠ a ∨ j < lo ∨ lo + len ≤ j) :
    (s.setFld a lo len v).bit b j = s.bit b j := by
  unfold State.bit
  rw [State.setFld_rd]
  split
  · next hb =>
    rw [setFldOf_getLsbD _ _ _ _ _ h, if_neg (by omega), hb]
  · rfl

theorem commitStatus_pending (a st bad b : Nat) : (s.commitStatus a st bad).bit b 31 = s.bit b 31 := by
  unfold State.commitStatus
  rw [setFld_bit_other _ _ _ _ _ _ (by decide) (by omega), setFld_bit_other _ _ _ _ _ _ (by decide) (by omega)]

theorem commitStatus_getCommit (a st bad j : Nat) : (s.commitStatus a st bad).getCommit j = s.getCommit j := by
  unfold State.commitStatus State.setFld
  rw [State.wr_getCommit, State.wr_getCommit]

theorem commitAddr_lnk {w : Nat} (hw : w < 512) : commitAddr (.lnk (Fin.ofNat 512 w)) = Reg.lnkCommit w := by
  simp only [commitAddr, Fin.ofNat, Nat.mod_eq_of_lt hw]

/-- LNK_CFG of a window, written and committed while a commit of it is pending: the go write shows its status alone (R13, R15). -/
def State.profileWritten (s : State) (w : Nat) (v : Word) : State := (s.wr (Reg.lnkCfg w) v).commitStatus (Reg.lnkCommit w) 3 0

theorem profileWritten_pending (w : Nat) (v : Word) (j : Nat) : (s.profileWritten w v).bit (Reg.lnkCommit j) 31 = s.bit (Reg.lnkCommit j) 31 := by
  unfold State.profileWritten
  rw [commitStatus_pending, State.bit, State.wr_rd, if_neg (by simp only [Reg.lnkCommit, Reg.lnkCfg]; omega), State.bit]

theorem profileWritten_getCommit (w : Nat) (v : Word) (j : Nat) : (s.profileWritten w v).getCommit j = s.getCommit j := by
  unfold State.profileWritten
  rw [commitStatus_getCommit, State.wr_getCommit]

theorem Only.profileWritten {w : Nat} (v : Word) (h : Only m s t) (hcfg : m.reg (Reg.lnkCfg w)) (hcom : m.reg (Reg.lnkCommit w)) :
    Only m s (t.profileWritten w v) := ((h.wr v hcfg).setFld _ _ _ hcom).setFld _ _ _ hcom

theorem laneProfile_of_pending {w : Nat} (v : Word) (hw : w < 512) (hbit : s.bit (Reg.lnkCommit w) 31 = true) :
    s.laneProfile w v = (s.profileWritten w v).commitApply (.lnk (Fin.ofNat 512 w)) := by
  have hbit' : (s.wr (Reg.lnkCfg w) v).bit (Reg.lnkCommit w) 31 = true := by
    rw [State.bit, State.wr_rd, if_neg (by simp only [Reg.lnkCommit, Reg.lnkCfg]; omega)]
    exact hbit
  have hgo : (s.wr (Reg.lnkCfg w) v).commitGo (.lnk (Fin.ofNat 512 w)) 3 1 true = s.profileWritten w v := by
    unfold State.commitGo
    simp only [commitAddr_lnk hw, Bool.not_true, Bool.and_false, Bool.false_eq_true, if_false, hbit', if_true]
    rfl
  unfold State.laneProfile
  dsimp only
  rw [hgo]

theorem commitApply_of_none {c : CommitReg} (h : s.getCommit (commitAddr c) = none) : s.commitApply c = s := by
  unfold State.commitApply
  dsimp only
  rw [h]

/-- The registers of a window's pending commit take effect all at once where its site is not busy. -/
theorem commitApply_lnk {w : Nat} {p : PendingCommit} (hw : w < 512) (hget : s.getCommit (Reg.lnkCommit w) = some p)
    (hready : s.siteBusy (w % 256 / 16) = false) (hfree : ∀ q ∈ p.snap, s.fieldFree q.1 = true) :
    s.commitApply (.lnk (Fin.ofNat 512 w))
      = (((s.activateCopies 0x200 p.snap).setCommit (Reg.lnkCommit w) none).setBit (Reg.lnkCommit w) 31 false).commitEffect
          (.lnk (Fin.ofNat 512 w)) := by
  have hnow : p.snap.filter (fun q => s.fieldFree q.1) = p.snap := List.filter_eq_self.mpr hfree
  have hlater : p.snap.filter (fun q => !s.fieldFree q.1) = [] := List.filter_eq_nil_iff.mpr fun q hq => by rw [hfree q hq]; decide
  have hrdy : s.commitReady (.lnk (Fin.ofNat 512 w)) p.groups.toNat = true := by
    simp only [State.commitReady, Fin.ofNat, Nat.mod_eq_of_lt hw, hready, Bool.not_false]
  unfold State.commitApply
  dsimp only
  rw [commitAddr_lnk hw, hget]
  dsimp only
  have hbefore : s.commitBefore (.lnk (Fin.ofNat 512 w)) = s := rfl
  have hoff : activeOff (.lnk (Fin.ofNat 512 w)) = 0x200 := rfl
  rw [hnow, hlater, hrdy, hbefore, hoff, if_neg (by decide), if_pos List.isEmpty_nil]

theorem Only.setCommit (a : Nat) (p : Option PendingCommit) (h : Only m s t) (ha : ∀ j, m.commit j) : Only m s (t.setCommit a p) := by
  refine h.trans ?_
  constructor <;> intros <;> first | rfl | exact ⟨rfl, rfl, rfl⟩ | skip
  next hn => exact absurd (ha _) hn

/-- Every commit register of the lane windows shows a commit pending; the one of the last window holds LNK_CFG of the first. -/
def strayCommit : State :=
  { regs := [(Reg.glbMode, 3), (Reg.clkStat, 0), (Reg.cpuStatus, 0x40000000)] ++ (List.range 512).map (fun w => (Reg.lnkCommit w, 0x80000000))
    commits := [(Reg.lnkCommit 511, { groups := 1, snap := [(Reg.lnkCfg 0 - 0x200, 0)] })]
    flash := (List.range 4).map (fun i => (0x220404 + i, 0)), cpu := { started := true } }

theorem strayCommit_starts : strayCommit.coreRuns = true ∧ strayCommit.fwRunning = false ∧ strayCommit.fwState = fwSlotA := by
  decide +kernel

/-- Without a patch unit the core reads the flash as it is (R386). -/
theorem coreFlash_of_no_patch (h : ∀ i, i < 16 → s.bit (Reg.cpuPatch i) 31 = false) (o n : Nat) : s.coreFlash o n = s.flashBytes o n := by
  have hnone (a : Nat) : (List.range 16).find? (fun i => s.bit (Reg.cpuPatch i) 31 && s.fld (Reg.cpuPatch i) 5 17 == a / 32) = none := by
    rw [List.find?_eq_none]
    intro i hi
    rw [h i (List.mem_range.mp hi)]
    exact Bool.false_ne_true
  unfold State.coreFlash
  simp only [hnone]
  exact List.ext_getElem? fun i => by rw [List.getElem?_mapIdx]; cases (s.flashBytes o n)[i]? <;> rfl

/-- The version of the board profile is 0. -/
theorem strayCommit_boardProfile : strayCommit.boardProfile = none := by
  have hpatch : ∀ i, i < 16 → strayCommit.bit (Reg.cpuPatch i) 31 = false := by decide +kernel
  have hversion : leAt (strayCommit.flashBytes 0x220000 0x408) 0x404 4 ≠ 1 := by decide +kernel
  unfold State.boardProfile
  dsimp only
  rw [coreFlash_of_no_patch hpatch, if_neg fun h => hversion h.2]

theorem strayCommit_bits (w : Nat) (hw : w < 512) : strayCommit.bit (Reg.lnkCommit w) 31 = true := by
  have hmap : ∀ l : List Nat, w ∈ l → Sparse.get regReset (l.map (fun w => (Reg.lnkCommit w, (0x80000000 : Word)))) (Reg.lnkCommit w) = 0x80000000 := by
    intro l
    induction l with
    | nil => exact nofun
    | cons j l ih =>
      intro hmem
      rw [List.map_cons, Sparse.get]
      split
      · rfl
      · next hne => exact ih ((List.mem_cons.mp hmem).resolve_left fun he => hne (by rw [he]))
  have hrd : strayCommit.rd (Reg.lnkCommit w) = 0x80000000 := by
    refine Eq.trans ?_ (hmap _ (List.mem_range.mpr hw))
    unfold State.rd strayCommit
    simp only [List.cons_append, List.nil_append, Sparse.get]
    rw [if_neg (by simp only [Reg.glbMode, Reg.lnkCommit]; omega), if_neg (by simp only [Reg.clkStat, Reg.lnkCommit]; omega),
      if_neg (by simp only [Reg.cpuStatus, Reg.lnkCommit]; omega)]
  rw [State.bit, hrd]
  decide

/-- What the windows before the last one leave of `strayCommit`. -/
structure BeforeLast (u : State) : Prop where
  only : Only { reg := fun a => 0x800000 ≤ a ∧ a < 0x880000 } strayCommit u
  bits : ∀ w, w < 512 → u.bit (Reg.lnkCommit w) 31 = true

theorem strayCommit_getCommit (w : Nat) (hw : w < 511) : strayCommit.getCommit (Reg.lnkCommit w) = none := by
  unfold State.getCommit strayCommit
  rw [List.find?_cons_of_neg (by simp only [Reg.lnkCommit, beq_iff_eq]; omega)]
  rfl

theorem BeforeLast.laneProfile {u : State} {w : Nat} (v : Word) (h : BeforeLast u) (hw : w < 511) : BeforeLast (u.laneProfile w v) := by
  have hnone : (u.profileWritten w v).getCommit (commitAddr (.lnk (Fin.ofNat 512 w))) = none := by
    rw [commitAddr_lnk (by omega), profileWritten_getCommit]
    exact (h.only.commit _ id).trans (strayCommit_getCommit w hw)
  rw [laneProfile_of_pending v (by omega) (h.bits w (by omega)), commitApply_of_none hnone]
  exact ⟨h.only.profileWritten v (by simp only [Reg.lnkCfg]; omega) (by simp only [Reg.lnkCommit]; omega),
    fun j hj => (profileWritten_pending w v j).trans (h.bits j hj)⟩

/-- What is pending in the last window. -/
def strayPending : PendingCommit := { groups := 1, snap := [(Reg.lnkCfg 0 - 0x200, 0)] }

/-- Everything but LNK_CFG of the first window. -/
def notFirst : May := { reg := fun a => a ≠ Reg.lnkCfg 0, commit := fun _ => True, lane := fun _ => True, free := True, cpu := True }

/-- The last window: what is pending there writes LNK_CFG of the first, and nothing writes it again. -/
theorem BeforeLast.last {u : State} (v : Word) (h : BeforeLast u) : (u.laneProfile 511 v).rd (Reg.lnkCfg 0) = 0 := by
  have honly : Only { reg := fun a => 0x800000 ≤ a ∧ a < 0x880000 } strayCommit (u.profileWritten 511 v) :=
    h.only.profileWritten v (by decide) (by decide)
  have hget : (u.profileWritten 511 v).getCommit (Reg.lnkCommit 511) = some strayPending := (honly.commit _ id).trans rfl
  have hready : (u.profileWritten 511 v).siteBusy (511 % 256 / 16) = false := by
    unfold State.siteBusy State.bit
    rw [honly.reg _ (by decide)]
    decide +kernel
  have hfree : ∀ q ∈ strayPending.snap, (u.profileWritten 511 v).fieldFree q.1 = true := by
    intro q hq
    have hgrant : ∀ p ∈ sites, (Reg.lnkCfg 0 - 0x200 != Reg.cfgIcpGrant p) = true := by decide
    rw [List.mem_singleton.mp hq]
    exact List.all_eq_true.mpr fun p hp => by rw [hgrant p hp]; rfl
  rw [laneProfile_of_pending v (by decide) (h.bits 511 (by decide)), commitApply_lnk (by decide) hget hready hfree]
  generalize u.profileWritten 511 v = x
  have hwritten : (x.activateCopies 0x200 strayPending.snap).rd (Reg.lnkCfg 0) = 0 := by
    simp only [State.activateCopies, strayPending, List.foldl_cons, List.foldl_nil, State.wr_rd]
    rfl
  generalize x.activateCopies 0x200 strayPending.snap = y at hwritten ⊢
  have hother {a : Nat} (h : a ≠ Reg.lnkCfg 0) : notFirst.reg a := h
  have hrest : Only notFirst y (((y.setCommit (Reg.lnkCommit 511) none).setBit (Reg.lnkCommit 511) 31 false).commitEffect
      (.lnk (Fin.ofNat 512 511))) :=
    (((Only.refl _ y).setCommit _ _ fun _ => trivial).setBit _ _ (hother (by decide))).laneCommit 511 _ (hother (by decide)) (hother (by decide))
      (hother (by decide)) (hother (by decide)) (hother (by decide)) trivial trivial
      fun l _ => ⟨trivial, hother (by simp only [Reg.lnkStat, Reg.lnkCfg, prxWin]; omega)⟩
  rw [hrest.reg _ fun h => h rfl, hwritten]

theorem forAll_append (s : State) (l l' : List Nat) (f : State → Nat → State) : s.forAll (l ++ l') f = (s.forAll l f).forAll l' f :=
  List.foldl_append

/-- The last of the firmware's start-up steps. -/
def State.firmwareUp (u : State) : State := { u.setBit Reg.glbMode 7 true with host := { u.host with linkUp := true } }

theorem profileEnds_eq (s : State) :
    s.profileEnds = ((s.applyProfile.setBit Reg.glbStartup 6 true).setBit Reg.glbStartup 5 true).userStart.firmwareUp := rfl

theorem Only.firmwareUp (h : Only m s t) (hg : m.reg Reg.glbMode) (hh : m.host) : Only m s t.firmwareUp :=
  (h.setBit 7 true hg).setHost (fun hn => absurd hh hn) rfl rfl

theorem Only.profileEnds (h : Only m s t.applyProfile) (hb : m.reg Reg.glbStartup) (hc : m.reg Reg.cpuStatus) (hg : m.reg Reg.glbMode)
    (hcpu : m.cpu) (hh : m.host) : Only m s t.profileEnds := by
  rw [profileEnds_eq]
  exact (((h.setBit 6 true hb).setBit 5 true hb).userStart hc hcpu).firmwareUp hg hh

theorem BeforeLast.forAll {f : State → Nat → Word} {u : State} (h : BeforeLast u) :
    (u.forAll (List.range 511 ++ [511]) (fun s w => s.laneProfile w (f s w))).rd (Reg.lnkCfg 0) = 0 := by
  have hbefore : BeforeLast (u.forAll (List.range 511) (fun s w => s.laneProfile w (f s w))) :=
    State.forAll_keeps h fun x w hw hx => hx.laneProfile _ (List.mem_range.mp hw)
  rw [forAll_append]
  exact hbefore.last _

/-- State.applyProfile with the profile as an argument, so that the kernel need not look at the flash to compare the two. -/
def State.withProfile (s : State) : Option (List Byte) → State
  | some b =>
    let s := s.forAll (List.range 128) (fun s i => s.wr (Reg.lnkEqtab (i / 4) (i % 4)) (BitVec.ofNat 32 (leAt b (4 * i) 4)))
    let s := s.forAll (List.range 512) (fun s w =>
      let e := (b.getD (512 + w) 0).toNat
      s.laneProfile w (BitVec.ofNat 32 (e % 32 + e / 128 * 64)))
    s.setBit Reg.cpuStatus 28 false
  | none =>
    let s := s.forAll (List.range 512) (fun s w => s.laneProfile w (s.rd (Reg.lnkCfg w) ||| 0x40#32))
    s.setBit Reg.cpuStatus 28 true

theorem applyProfile_eq (s : State) : s.applyProfile = s.withProfile s.boardProfile := rfl

theorem withProfile_none (s : State) : s.withProfile none
    = (s.forAll (List.range 512) (fun s w => s.laneProfile w (s.rd (Reg.lnkCfg w) ||| 0x40#32))).setBit Reg.cpuStatus 28 true := rfl

theorem strayCommit_beforeLast : BeforeLast strayCommit := ⟨.refl _ _, strayCommit_bits⟩

theorem strayCommit_applyProfile : strayCommit.applyProfile.rd (Reg.lnkCfg 0) = 0 := by
  rw [applyProfile_eq, strayCommit_boardProfile, withProfile_none, List.range_succ, State.setBit_rd, if_neg (by decide)]
  exact BeforeLast.forAll strayCommit_beforeLast

theorem strayCommit_profile : strayCommit.profileEnds.rd (Reg.lnkCfg 0) = 0 := by
  have honly : Only { reg := fun a => a ≠ Reg.lnkCfg 0, host := True, cpu := True } strayCommit.applyProfile strayCommit.profileEnds :=
    (Only.refl _ _).profileEnds (by decide) (by decide) (by decide) trivial trivial
  rw [honly.reg _ fun h => h rfl, strayCommit_applyProfile]

theorem profileApplied_of_slot (hruns : s.coreRuns = true) (hfirm : s.fwRunning = false) (hslot : s.fwState = fwSlotA) :
    exec .profileApplied s = fin s s.profileEnds := by
  change fin s (if _ then _ else _) = _
  rw [if_pos (by rw [hruns, hfirm, hslot]; rfl)]

/-- Refutes O48: PROFILE_APPLIED in `strayCommit` leaves lane window 0 enabled. -/
theorem not_controlCore : ¬ Obligations.ControlCore := by
  unfold Obligations.ControlCore
  intro h
  obtain ⟨hruns, hfirm, hslot⟩ := strayCommit_starts
  obtain ⟨-, -, -, profile, -⟩ := h 0 0 0 0 { lost := false, dropped := 0, last := default } strayCommit
  obtain ⟨t, ht, -, -, -, -, -, -, -, -, -, hlanes⟩ := profile hruns hfirm (.inl hslot)
  obtain rfl : t = State.settle strayCommit strayCommit.profileEnds := Host.Outcome.next.inj (ht.symm.trans (profileApplied_of_slot hruns hfirm hslot))
  have hbit := hlanes strayCommit_boardProfile 0 (by decide)
  rw [State.settle_bit, State.bit, strayCommit_profile] at hbit
  exact absurd hbit (by decide)

end Sys2Proof.Machine
end

section
/-! The state after power-on: nothing is listed, so every register reads as its reset value and every bank as its default. -/

namespace Sys2Proof.Machine

theorem reset_inv : State.reset.Inv := ⟨rfl, rfl, rfl, rfl⟩

theorem reset_shape : State.reset.Shape where
  regs := rfl
  vault := List.Pairwise.nil
  locks := List.Pairwise.nil
  golden := List.Pairwise.nil
  next _ := List.nodup_nil
  svc _ _ h := nomatch h
  rowReg _ := Nat.zero_lt_succ _
  mnt _ _ h := nomatch h
  commits _ _ h := nomatch h

/-- Every sequencer is idle and drained, its site stopped, its integrity word clear (R62, R455). -/
theorem reset_site : ∀ k, k < 16 → State.reset.seqState k = 0 ∧ State.reset.siteBusy k = false ∧ State.reset.siteState k = 0
    ∧ State.reset.rd (Reg.glbIntegLo k) = 0 := by
  decide +kernel

/-- No source of a vector is pending. -/
theorem reset_irqOr (v : Nat) : State.reset.irqOr v = false := by
  have hvectors : ∀ v, v < 41 → State.reset.irqOr v = false := by decide +kernel
  by_cases hv : v < 41
  · exact hvectors v hv
  · unfold State.irqOr
    rw [if_neg (by omega), if_neg (by omega), if_neg (by omega), if_neg (by omega), if_neg (by omega), if_neg (by omega), if_neg (by omega),
      if_neg (by omega), if_neg (by omega)]

/-- Settles O57, by the reset values of the register map. -/
theorem resetState : Obligations.ResetState := by
  unfold Obligations.ResetState
  exact ⟨reset_inv, reset_shape, rfl, by decide, by decide, by decide, by decide, rfl, by decide, reset_site, fun _ _ => rfl, fun _ _ => rfl, reset_irqOr⟩

end Sys2Proof.Machine
end

section
/-! Start-up (R40 to R43, R418, R422): the rails show what their turn makes of them, the vaults that are to train do, and a step passes or fails. -/

namespace Sys2Proof.Machine

variable {m : May} {s t : State}

theorem Only.setAon (f : Aon → Aon) (h : Only m s t) (ha : m.aon) : Only m s (t.setAon f) := by
  refine h.trans ?_
  constructor <;> intros <;> first | rfl | exact ⟨rfl, rfl, rfl⟩ | contradiction

/-- What the end of a command leaves as it is in `u`, as far as start-up looks at it. -/
structure EndsAs (u t : State) : Prop where
  rd : ∀ a, t.rd a = u.rd a
  aon : t.aon = u.aon
  ctl : t.ctl = u.ctl
  glint : t.glint = u.glint

/-- A command answers with what is true of every state that ends as `u` does and changes no more. -/
theorem Answers.of_ends {c : Instr} {P : State → Prop} {u : State} (h : exec c s = fin s u)
    (hp : ∀ t, EndsAs u t → (∀ m, Only m s u → Only m s t) → P t) : Answers c s P :=
  .of_fin h (hp _ ⟨fun _ => rfl, rfl, rfl, rfl⟩ fun _ honly => honly.settle s)

theorem EndsAs.fld (h : EndsAs s t) (a lo len : Nat) : t.fld a lo len = s.fld a lo len := by
  rw [State.fld, h.rd, State.fld]

theorem EndsAs.bit (h : EndsAs s t) (a i : Nat) : t.bit a i = s.bit a i := by
  rw [State.bit, h.rd, State.bit]

theorem EndsAs.mode (h : EndsAs s t) : t.mode = s.mode := h.fld _ _ _

theorem EndsAs.vltState (h : EndsAs s t) (v : Nat) : t.vltState v = s.vltState v := h.fld _ _ _

theorem EndsAs.clocksRun (h : EndsAs s t) : t.clocksRun = s.clocksRun := by
  rw [State.clocksRun, h.bit, State.clocksRun]

/-! ### The rails (R422) -/

/-- The setpoint of a rail now is a matter of which rails are on, of the power gating, of the floors and of the clock select. -/
theorem railTarget_of_on (hon : t.railOn = s.railOn) (hctl : t.ctl = s.ctl) (hfloors : t.aon.floors = s.aon.floors)
    (hclk : t.rd Reg.clkStat = s.rd Reg.clkStat) (r : Nat) : t.railTarget r = s.railTarget r := by
  have hpoint : t.railSetpoint r = s.railSetpoint r := by
    unfold State.railSetpoint State.floorStep State.fclkSel State.fld
    rw [hfloors, hclk]
  unfold State.railTarget
  rw [hon, hctl, hpoint]

theorem railTarget_of_same (haon : t.aon = s.aon) (hctl : t.ctl = s.ctl) (hclk : t.rd Reg.clkStat = s.rd Reg.clkStat) (r : Nat) :
    t.railTarget r = s.railTarget r := by
  refine railTarget_of_on (funext fun q => ?_) hctl (by rw [haon]) hclk r
  unfold State.railOn State.sequencing State.atStep
  rw [haon]

theorem setRail_railTarget {r : Nat} (mv q : Nat) (hr : r < 23) : (s.setRail r mv).railTarget q = s.railTarget q := by
  have hclk : (s.setRail r mv).rd Reg.clkStat = s.rd Reg.clkStat := by
    unfold State.setRail
    rw [State.setFld_rd, if_neg (by simp only [Reg.clkStat, Reg.pmuRailV]; omega)]
  exact railTarget_of_same (s := s) (t := s.setRail r mv) rfl rfl hclk q

theorem Only.showRails (h : Only m s t) (hr : ∀ q, q < 23 → m.reg (Reg.pmuRailV q)) : Only m s t.showRails :=
  Only.forAll h fun _ q hq hu => hu.setFld _ _ _ (hr q (List.mem_range.mp hq))

/-- The registers of the rails. -/
def railRegs (a : Nat) : Prop := ∃ q, q < 23 ∧ a = Reg.pmuRailV q

theorem showRails_only (s : State) : Only { reg := railRegs } s s.showRails := (Only.refl _ s).showRails fun q hq => ⟨q, hq, rfl⟩

theorem showRails_railTarget (q : Nat) : s.showRails.railTarget q = s.railTarget q := by
  have honly := showRails_only s
  refine railTarget_of_same (honly.aon id) (honly.ctl id) (honly.reg _ ?_) q
  rintro ⟨j, hj, heq⟩
  simp only [Reg.clkStat, Reg.pmuRailV] at heq
  omega

/-- Every rail shows its setpoint. -/
def State.RailsShown (s : State) : Prop := ∀ q, q < 23 → s.fld (Reg.pmuRailV q) 16 16 = s.railTarget q % 65536

theorem showRails_shown (s : State) : s.showRails.RailsShown := by
  have heach := State.forAll_each (s := s) (l := rails) (f := fun s q => s.setRail q (s.railTarget q))
    (P := fun q u => u.fld (Reg.pmuRailV q) 16 16 = u.railTarget q % 65536) (fun u q hq => ?_) (fun u j q hj _ hne hu => ?_)
  · exact fun q hq => heach q (List.mem_range.mpr hq)
  · rw [setRail_railTarget _ _ (List.mem_range.mp hq)]
    exact State.setFld_fld _ _ _ _ _ (by decide)
  · rw [setRail_railTarget _ _ (List.mem_range.mp hj), ← hu]
    exact State.setFld_fld_other _ _ _ _ _ _ _ _ (by decide) (.inl (by simp only [Reg.pmuRailV]; omega))

/-- What leaves the rails and what their setpoints rest on leaves them shown. -/
theorem State.RailsShown.of_only (h : s.RailsShown) (hsame : Only m s t) (haon : t.aon = s.aon) (hctl : ¬ m.ctl) (hclk : ¬ m.reg Reg.clkStat)
    (hr : ∀ q, q < 23 → ¬ m.reg (Reg.pmuRailV q)) : t.RailsShown := fun q hq => by
  rw [hsame.fld_eq (hr q hq), h q hq, railTarget_of_same haon (hsame.ctl hctl) (hsame.reg _ hclk)]

theorem State.RailsShown.ends (h : s.RailsShown) (hends : EndsAs s t) : t.RailsShown := fun q hq => by
  rw [hends.fld, railTarget_of_same hends.aon hends.ctl (hends.rd _)]
  exact h q hq

theorem showRails_rd {a : Nat} (ha : ¬ railRegs a) : s.showRails.rd a = s.rd a := (showRails_only s).reg a ha

/-! ### The training of the vaults (R42, R286) -/

theorem Only.setVltState {v : Nat} (c : Nat) (h : Only m s t) (hr : m.reg (Reg.vltStat v)) : Only m s (t.setVltState v c) :=
  (h.setFld _ _ _ hr).setBit _ _ hr

theorem setVltState_vltState (v c : Nat) : (s.setVltState v c).vltState v = c % 2 ^ 3 := by
  unfold State.setVltState State.showScrub State.vltState State.setBit
  rw [State.setFld_fld_other _ _ _ _ _ _ _ _ (by decide) (by omega), State.setFld_fld _ _ _ _ _ (by decide)]

theorem setVltState_vltState_other {u v : Nat} (c : Nat) (h : u ≠ v) : (s.setVltState v c).vltState u = s.vltState u := by
  have hne : Reg.vltStat u ≠ Reg.vltStat v := by simp only [Reg.vltStat]; omega
  unfold State.setVltState State.showScrub State.vltState State.setBit
  rw [State.setFld_fld_other _ _ _ _ _ _ _ _ (by decide) (.inl hne), State.setFld_fld_other _ _ _ _ _ _ _ _ (by decide) (.inl hne)]

/-- The registers of the vaults' states. -/
def vltStatRegs (a : Nat) : Prop := ∃ v, v < 256 ∧ a = Reg.vltStat v

theorem Only.maybeTrain (h : Only m s t) (hr : ∀ v, v < 256 → m.reg (Reg.vltStat v)) : Only m s t.maybeTrain := by
  unfold State.maybeTrain
  split
  · exact Only.forAll h fun _ v hv hu => hu.setVltState 1 (hr v (List.mem_range.mp (List.mem_of_mem_filter hv)))
  · exact h

theorem maybeTrain_only (s : State) : Only { reg := vltStatRegs } s s.maybeTrain := (Only.refl _ s).maybeTrain fun v hv => ⟨v, hv, rfl⟩

/-- A vault that has not been trained trains. -/
theorem maybeTrain_vltState (hmode : s.mode = modeRESET) (hstep : s.aon.step = 5) (hperst : s.aon.perst = false)
    (htrained : s.bit Reg.glbStartup 7 = false) {v : Nat} (hv : v < 256) (hstate : s.vltState v = 0) : s.maybeTrain.vltState v = 1 := by
  have hguard : s.mode = modeRESET ∧ s.aon.step = 5 ∧ (!s.aon.perst) = true ∧ (!s.bit Reg.glbStartup 7) = true :=
    ⟨hmode, hstep, by rw [hperst]; rfl, by rw [htrained]; rfl⟩
  unfold State.maybeTrain
  rw [if_pos hguard]
  have heach := State.forAll_each (s := s) (l := vaults.filter (fun v => s.vltState v == 0)) (f := fun s v => s.setVltState v 1)
    (P := fun v u => u.vltState v = 1) (fun u v _ => setVltState_vltState v 1)
    (fun u j v _ _ hne hu => (setVltState_vltState_other 1 (Ne.symm hne)).trans hu)
  exact heach v (List.mem_filter.mpr ⟨List.mem_range.mpr hv, by rw [hstate]; rfl⟩)

/-! ### Steps that pass and steps that fail (R40, R41) -/

theorem setStep_rd (n a : Nat) : (s.setStep n).rd a = s.rd a := rfl

theorem Only.stepPasses (n next : Nat) (h : Only m s t) (hb : m.reg Reg.glbStartup) (hc : m.reg Reg.clkStat) (ha : m.aon) :
    Only m s (t.stepPasses n next) := by
  unfold State.stepPasses State.setStep
  exact ((h.setBit _ _ hb).setBit _ _ hc).setAon _ ha

theorem stepPasses_rd (n next a : Nat) :
    (s.stepPasses n next).rd a = ((s.setBit Reg.glbStartup (n - 1) true).setBit Reg.clkStat (n - 1) true).rd a := by
  unfold State.stepPasses
  rw [setStep_rd]

theorem stepPasses_shown {n : Nat} (next : Nat) (hn : n - 1 < 32) :
    (s.stepPasses n next).bit Reg.glbStartup (n - 1) = true ∧ (s.stepPasses n next).bit Reg.clkStat (n - 1) = true := by
  unfold State.bit
  rw [stepPasses_rd, stepPasses_rd]
  exact ⟨by rw [← State.bit, State.setBit_bit_other _ _ _ _ _ _ hn (.inl (by decide)), State.setBit_bit _ _ _ _ hn],
    State.setBit_bit _ _ _ _ hn⟩

theorem stepPasses_startup {n j : Nat} (next : Nat) (hn : n - 1 < 32) (hj : j ≠ n - 1) :
    (s.stepPasses n next).bit Reg.glbStartup j = s.bit Reg.glbStartup j := by
  rw [State.bit, stepPasses_rd, ← State.bit, State.setBit_bit_other _ _ _ _ _ _ hn (.inl (by decide)),
    State.setBit_bit_other _ _ _ _ _ _ hn (.inr hj)]

theorem stepPasses_mode (n next : Nat) : (s.stepPasses n next).mode = s.mode := by
  have honly : Only { reg := fun a => a = Reg.glbStartup ∨ a = Reg.clkStat, aon := True } s (s.stepPasses n next) :=
    (Only.refl _ s).stepPasses n next (.inl rfl) (.inr rfl) trivial
  exact honly.fld_eq (by simp only [Reg.glbMode, Reg.glbStartup, Reg.clkStat]; omega)

theorem Only.stepFails (n : Nat) (h : Only m s t) (hb : m.reg Reg.glbStartup) (hc : m.reg Reg.clkStat) (ha : m.aon) :
    Only m s (t.stepFails n) := by
  unfold State.stepFails State.startFail State.setStep
  exact ((((h.setFld _ _ _ hb).setFld _ _ _ hb).setFld _ _ _ hc).setBit _ _ hc).setAon _ ha

/-- Step `n` of start-up has failed: it is recorded and counted, and the REFCLK judgement is repeated on the monitor oscillator. -/
structure StepFailed (s t : State) (n : Nat) : Prop where
  step : t.aon.step = 1
  which : t.fld Reg.glbStartup 16 4 = n
  count : t.fld Reg.glbStartup 24 8 = if s.fld Reg.glbStartup 16 4 = n then min (s.fld Reg.glbStartup 24 8 + 1) 255 else 1
  clock : t.fld Reg.clkStat 0 3 = 0
  stopped : t.clocksRun = false
  mode : t.mode = s.mode

theorem startFail_fields {n : Nat} (hn : n < 16) : (s.startFail n).fld Reg.glbStartup 16 4 = n ∧ (s.startFail n).fld Reg.glbStartup 24 8
    = if s.fld Reg.glbStartup 16 4 = n then min (s.fld Reg.glbStartup 24 8 + 1) 255 else 1 := by
  unfold State.startFail
  dsimp only
  rw [State.setFld_fld_other _ _ _ _ _ _ _ _ (by decide) (by omega), State.setFld_fld _ _ _ _ _ (by decide), State.setFld_fld _ _ _ _ _ (by decide)]
  refine ⟨Nat.mod_eq_of_lt hn, ?_⟩
  split <;> omega

theorem stepFails_rd (n a : Nat) :
    (s.stepFails n).rd a = (((s.startFail n).setFld Reg.clkStat 0 3 0).setBit Reg.clkStat 6 true).rd a := by
  unfold State.stepFails
  rw [setStep_rd]

theorem stepFails_startup (n lo len : Nat) : (s.stepFails n).fld Reg.glbStartup lo len = (s.startFail n).fld Reg.glbStartup lo len := by
  rw [State.fld, stepFails_rd, ← State.fld]
  unfold State.setBit
  rw [State.setFld_fld_other _ _ _ _ _ _ _ _ (by decide) (.inl (by decide)), State.setFld_fld_other _ _ _ _ _ _ _ _ (by decide) (.inl (by decide))]

theorem stepFails_clkStat (n : Nat) : (s.stepFails n).fld Reg.clkStat 0 3 = 0 ∧ (s.stepFails n).bit Reg.clkStat 6 = true := by
  constructor
  · rw [State.fld, stepFails_rd, ← State.fld]
    unfold State.setBit
    rw [State.setFld_fld_other _ _ _ _ _ _ _ _ (by decide) (by omega), State.setFld_fld _ _ _ _ _ (by decide), Nat.zero_mod]
  · rw [State.bit, stepFails_rd, ← State.bit, State.setBit_bit _ _ _ _ (by decide)]

theorem stepFails_failed {n : Nat} (hn : n < 16) : StepFailed s (s.stepFails n) n := by
  obtain ⟨hwhich, hcount⟩ := startFail_fields (s := s) hn
  obtain ⟨hclock, hstopped⟩ := stepFails_clkStat (s := s) n
  have honly : Only { reg := fun a => a = Reg.glbStartup ∨ a = Reg.clkStat, aon := True } s (s.stepFails n) :=
    (Only.refl _ s).stepFails n (.inl rfl) (.inr rfl) trivial
  exact {
    step := rfl
    which := (stepFails_startup n 16 4).trans hwhich
    count := (stepFails_startup n 24 8).trans hcount
    clock := hclock
    stopped := by rw [State.clocksRun, hstopped]; rfl
    mode := honly.fld_eq (by simp only [Reg.glbMode, Reg.glbStartup, Reg.clkStat]; omega) }

theorem not_railRegs {a : Nat} (h : ∀ q, q < 23 → a ≠ Reg.pmuRailV q) : ¬ railRegs a := fun ⟨q, hq, heq⟩ => h q hq heq

theorem Only.railsTo (n : Nat) (h : Only m s t) (hr : ∀ q, q < 23 → m.reg (Reg.pmuRailV q)) (ha : m.aon) : Only m s (t.railsTo n) := by
  refine Only.showRails (h.trans ?_) hr
  constructor <;> intros <;> first | rfl | exact ⟨rfl, rfl, rfl⟩ | contradiction

theorem railsTo_aon (n : Nat) : (s.railsTo n).aon = { s.aon with railsIn := n } := (showRails_only _).aon id

theorem railsTo_rd (n : Nat) {a : Nat} (ha : ¬ railRegs a) : (s.railsTo n).rd a = s.rd a := showRails_rd ha

theorem sequencing_of_step (h : s.aon.step ≠ 4) : s.sequencing = false := by
  unfold State.sequencing State.atStep
  rw [beq_false_of_ne h, Bool.and_false, Bool.false_and]

/-- Outside rail sequencing the rails that have entered their windows are on. -/
theorem railOn_of_step (h : s.aon.step ≠ 4) (r : Nat) : s.railOn r = decide (railOrder r < s.aon.railsIn) := by
  unfold State.railOn
  rw [sequencing_of_step h]
  rfl

theorem railOrder_le (r : Nat) : railOrder r ≤ 7 := by
  unfold railOrder
  split <;> decide

theorem railOn_of_all (h : s.aon.railsIn = 8) (r : Nat) : s.railOn r = true := by
  have hle := railOrder_le r
  unfold State.railOn
  rw [h, decide_eq_true_eq]
  omega

/-- VAON is the one rail of the first place. -/
theorem railOn_first (hstep : s.aon.step ≠ 4) (hin : s.aon.railsIn = 1) : s.railOn 22 = true ∧ ∀ q, q < 22 → s.railOn q = false := by
  have hothers : ∀ q, q < 22 → ¬ railOrder q < 1 := by decide
  constructor
  · rw [railOn_of_step hstep, hin]; rfl
  · intro q hq
    rw [railOn_of_step hstep, hin]
    exact decide_eq_false (hothers q hq)

/-! ### The steps behind the clock (R42, R55) -/

theorem Only.afterRatio (h : Only m s t) (hr : ∀ q, q < 23 → m.reg (Reg.pmuRailV q)) (hv : ∀ v, v < 256 → m.reg (Reg.vltStat v)) (ha : m.aon) :
    Only m s t.afterRatio := by
  unfold State.afterRatio
  split
  · exact h.setAon _ ha
  · split
    · exact (h.setAon _ ha).maybeTrain hv
    · exact (h.setAon _ ha).showRails hr

theorem afterRatio_step :
    s.afterRatio.aon.step = if s.mode ≠ modeRESET then 0 else if s.bit Reg.glbStartup 3 = true then 5 else 4 := by
  unfold State.afterRatio
  split
  · rfl
  · split
    · rw [(maybeTrain_only _).aon id]; rfl
    · rw [(showRails_only _).aon id]; rfl

theorem afterRatio_vltState (hup : s.bit Reg.glbStartup 3 = true) (hmode : s.mode = modeRESET) (hperst : s.aon.perst = false)
    (htrained : s.bit Reg.glbStartup 7 = false) {v : Nat} (hv : v < 256) (hstate : s.vltState v = 0) : s.afterRatio.vltState v = 1 := by
  unfold State.afterRatio
  rw [if_neg (not_not.mpr hmode), if_pos hup]
  exact maybeTrain_vltState (s := s.setStep 5) hmode rfl hperst htrained hv hstate

theorem afterRatio_shown (hmode : s.mode = modeRESET) (hup : s.bit Reg.glbStartup 3 = false) : s.afterRatio.RailsShown := by
  unfold State.afterRatio
  rw [if_neg (not_not.mpr hmode), if_neg (by rw [hup]; decide)]
  exact showRails_shown _

/-! ### The end of rail sequencing, and its failure (R42, R420, R422) -/

/-- The last rail is in (R422). -/
def State.railsDone (s : State) : State := ((s.setBit Reg.glbStartup 3 true).railsTo 8).setStep 5

theorem Only.railsDone (h : Only m s t) (hb : m.reg Reg.glbStartup) (hr : ∀ q, q < 23 → m.reg (Reg.pmuRailV q)) (ha : m.aon) :
    Only m s t.railsDone := by
  unfold State.railsDone State.setStep
  exact ((h.setBit 3 true hb).railsTo 8 hr ha).setAon _ ha

theorem railsDone_aon : s.railsDone.aon = { s.aon with railsIn := 8, step := 5 } := by
  change { ((s.setBit Reg.glbStartup 3 true).railsTo 8).aon with step := 5 } = _
  rw [railsTo_aon]
  rfl

theorem railsDone_startup (j : Nat) : s.railsDone.bit Reg.glbStartup j = (s.setBit Reg.glbStartup 3 true).bit Reg.glbStartup j := by
  unfold State.railsDone State.bit
  rw [setStep_rd, railsTo_rd 8 (not_railRegs fun q _ => by simp only [Reg.glbStartup, Reg.pmuRailV]; omega)]

/-- With all rails in, the step does not matter to their setpoints. -/
theorem State.RailsShown.setStep (n : Nat) (hin : s.aon.railsIn = 8) (h : s.RailsShown) : (s.setStep n).RailsShown := by
  have hon : (s.setStep n).railOn = s.railOn := funext fun r => by
    rw [railOn_of_all hin, railOn_of_all (s := s.setStep n) hin]
  intro q hq
  rw [railTarget_of_on (t := s.setStep n) hon rfl rfl (setStep_rd n _), State.fld, setStep_rd]
  exact h q hq

theorem railsDone_shown : s.railsDone.RailsShown :=
  State.RailsShown.setStep 5 (by rw [railsTo_aon]) (showRails_shown _)

/-- After a failed step 4 VAON alone shows its setpoint. -/
theorem railsTo_first (hstep : s.aon.step ≠ 4) (hgated : s.ctl.gated = false) {q : Nat} (hq : q < 23) :
    (s.railsTo 1).fld (Reg.pmuRailV q) 16 16 = if q = 22 then 800 else 0 := by
  have haon : (s.railsTo 1).aon = { s.aon with railsIn := 1 } := railsTo_aon 1
  obtain ⟨hfirst, hothers⟩ := railOn_first (s := s.railsTo 1) (by rw [haon]; exact hstep) (by rw [haon])
  have hctl : (s.railsTo 1).ctl.gated = false := by
    rw [show (s.railsTo 1).ctl = s.ctl from (showRails_only _).ctl id]; exact hgated
  rw [show (s.railsTo 1).fld (Reg.pmuRailV q) 16 16 = (s.railsTo 1).railTarget q % 65536 from showRails_shown _ q hq, State.railTarget, hctl]
  rcases eq_or_ne q 22 with rfl | hne
  · rw [hfirst]; rfl
  · rw [hothers q (by omega), if_neg hne]; rfl

/-! ### The commands -/

section Commands

variable {strap : BitVec 2} {count : Nat} {ppm : BitVec 16} {r : Fin 23}

/-- The straps as AON has sampled them (R484). -/
theorem strap_sampled (good : Bool) (old : Option (BitVec 2)) (new : BitVec 2) :
    (good = true → old = none → (if good then old <|> some new else old) = some new)
      ∧ ∀ x, old = some x → (if good then old <|> some new else old) = some x := by
  constructor
  · rintro rfl rfl; rfl
  · rintro x rfl; cases good <;> rfl

/-- AON has come up, with the straps sampled where VIO is good. -/
def Aon.raised (a : Aon) (strap : BitVec 2) : Aon :=
  { a with up := true, brown := false, step := 1, strap := if a.vio then (a.strap <|> some strap) else a.strap }

theorem raised_eq (strap : BitVec 2) : (fun a : Aon => a.raised strap) = fun a => { a with
    up := true, brown := false, step := 1, strap := if a.vio then (a.strap <|> some strap) else a.strap } := rfl

theorem aonUp_exec (hup : s.aon.up = false) : exec (.aonUp strap) s = fin s ((s.setAon (fun a => a.raised strap)).railsTo 1) := by
  have hexec : exec (.aonUp strap) s = execAonUp strap s := rfl
  rw [hexec, execAonUp, hup, if_neg Bool.false_ne_true, raised_eq]

/-- The rail of AON alone is on (R42). -/
theorem aonUp_answers (hup : s.aon.up = false) : Answers (.aonUp strap) s (fun t => t.aon.up = true ∧ t.aon.step = 1
    ∧ (s.aon.vio = true → s.aon.strap = none → t.aon.strap = some strap) ∧ (∀ x, s.aon.strap = some x → t.aon.strap = some x)
    ∧ (t.railOn 22 = true ∧ ∀ q, q < 22 → t.railOn q = false) ∧ t.RailsShown ∧ Only { reg := railRegs, aon := True } s t) := by
  have haon : ((s.setAon (fun a => a.raised strap)).railsTo 1).aon = { s.aon.raised strap with railsIn := 1 } := railsTo_aon 1
  have hshown : ((s.setAon (fun a => a.raised strap)).railsTo 1).RailsShown := showRails_shown _
  have honly : Only { reg := railRegs, aon := True } s ((s.setAon (fun a => a.raised strap)).railsTo 1) :=
    ((Only.refl _ s).setAon _ trivial).railsTo 1 (fun q hq => ⟨q, hq, rfl⟩) trivial
  refine Answers.of_ends (aonUp_exec hup) fun t hends htonly => ?_
  obtain ⟨hnew, hold⟩ := strap_sampled s.aon.vio s.aon.strap strap
  have htaon := hends.aon.trans haon
  have hstep : t.aon.step = 1 := by rw [htaon]; rfl
  have hstrap : t.aon.strap = if s.aon.vio then (s.aon.strap <|> some strap) else s.aon.strap := by rw [htaon]; rfl
  exact ⟨by rw [htaon]; rfl, hstep, fun h h' => hstrap.trans (hnew h h'), fun y hy => hstrap.trans (hold y hy),
    railOn_first (by rw [hstep]; decide) (by rw [htaon]), hshown.ends hends, htonly _ honly⟩

theorem refclkJudgement_passes (hat : s.atStep 1 = true) (hlo : 3072 ≤ count) (hhi : count ≤ 5120) :
    exec (.refclkJudgement count) s = fin s (s.stepPasses 1 2) := by
  change fin s (if _ then _ else if _ then _ else _) = _
  rw [if_neg (by rw [hat]; decide), if_pos ⟨hlo, hhi⟩]

theorem refclkJudgement_fails (hat : s.atStep 1 = true) (hout : count < 3072 ∨ 5120 < count) :
    exec (.refclkJudgement count) s = fin s (s.stepFails 1) := by
  change fin s (if _ then _ else if _ then _ else _) = _
  rw [if_neg (by rw [hat]; decide), if_neg (by omega)]

theorem pllLockTimeout_fails (hat : s.atStep 2 = true) : exec .pllLockTimeout s = fin s (s.stepFails 2) := by
  change fin s (if _ then _ else _) = _
  rw [if_pos hat]

theorem ratioConfirmation_passes (hat : s.atStep 3 = true) (hlo : 16376 ≤ count) (hhi : count ≤ 16392) :
    exec (.ratioConfirmation count ppm) s = fin s (((s.wr Reg.clkRefPpm (ppm.zeroExtend 32)).stepPasses 3 0).afterRatio) := by
  change fin s (if _ then _ else if _ then _ else _) = _
  rw [if_neg (by rw [hat]; decide), if_pos ⟨hlo, hhi⟩]

theorem ratioConfirmation_fails (hat : s.atStep 3 = true) (hout : count < 16376 ∨ 16392 < count) :
    exec (.ratioConfirmation count ppm) s = fin s ((s.wr Reg.clkRefPpm (ppm.zeroExtend 32)).stepFails 3) := by
  change fin s (if _ then _ else if _ then _ else _) = _
  rw [if_neg (by rw [hat]; decide), if_neg (by omega)]

theorem pllLock_exec (hat : s.atStep 2 = true) : exec .pllLock s = fin s (if s.mode = modeRESET then
    ((s.stepPasses 2 3).setBit Reg.clkStat 6 false).setBit Reg.clkStat 3 false else s.stepPasses 2 3) := by
  change fin s (if _ then _ else if _ then _ else _) = _
  rw [if_neg (by rw [hat]; decide)]

theorem brownoutRelease_exec (hup : s.aon.up = true) :
    exec .brownoutRelease s = fin s (((s.setAon (fun a => { a with vinOk := true })).setBit Reg.pmuEvt 1 false).showRails) := by
  change fin s (if _ then _ else _) = _
  rw [if_pos hup]

theorem railSequencingDone_exec (hseq : s.sequencing = true) : exec .railSequencingDone s = fin s s.railsDone.maybeTrain := by
  change fin s (if _ then _ else _) = _
  rw [if_pos hseq]
  rfl

theorem railWindowTimeout_exec (hseq : s.sequencing = true) (hturn : s.aon.railsIn ≤ railOrder r) :
    exec (.railWindowTimeout r) s = fin s ((s.stepFails 4).railsTo 1) := by
  change fin s (if _ then _ else _) = _
  rw [if_pos (by rw [hseq, decide_eq_true hturn]; rfl)]

theorem railWindowTimeout_none (h : s.sequencing = false ∨ railOrder r < s.aon.railsIn) : exec (.railWindowTimeout r) s = fin s s := by
  change fin s (if _ then _ else _) = _
  rw [if_neg]
  rcases h with h | h
  · rw [h, Bool.false_and]; exact Bool.false_ne_true
  · rw [decide_eq_false (Nat.not_le.mpr h), Bool.and_false]; exact Bool.false_ne_true

/-- What a passed step may change. -/
def passMay : May := { reg := fun a => a = Reg.glbStartup ∨ a = Reg.clkStat, aon := True }

/-- A step passes, in a command that changes nothing else. -/
theorem stepPasses_answers {c : Instr} {n : Nat} (next : Nat) (hn : n - 1 < 32) (hexec : exec c s = fin s (s.stepPasses n next)) :
    Answers c s (fun t => t.aon.step = next ∧ (t.bit Reg.glbStartup (n - 1) = true ∧ t.bit Reg.clkStat (n - 1) = true) ∧ Only passMay s t) := by
  refine .of_ends hexec fun t hends honly => ⟨by rw [hends.aon]; rfl, ?_, honly _ ((Only.refl _ s).stepPasses _ _ (.inl rfl) (.inr rfl) trivial)⟩
  rw [hends.bit, hends.bit]
  exact stepPasses_shown next hn

theorem StepFailed.ends {n : Nat} {u : State} (h : StepFailed s u n) (hends : EndsAs u t) : StepFailed s t n where
  step := by rw [hends.aon]; exact h.step
  which := by rw [hends.fld]; exact h.which
  count := by rw [hends.fld]; exact h.count
  clock := by rw [hends.fld]; exact h.clock
  stopped := by rw [hends.clocksRun]; exact h.stopped
  mode := by rw [hends.mode]; exact h.mode

/-- The registers that a failed step changes. -/
def failRegs (n a : Nat) : Prop := a = Reg.glbStartup ∨ a = Reg.clkStat ∨ a = Reg.clkRefPpm ∨ (n = 4 ∧ railRegs a)

/-- What the statement says of a failed step `n`. -/
def FailedAs (s : State) (n : Nat) (t : State) : Prop := t.aon.step = 1 ∧ t.fld Reg.glbStartup 16 4 = n
  ∧ t.fld Reg.glbStartup 24 8 = (if s.fld Reg.glbStartup 16 4 = n then min (s.fld Reg.glbStartup 24 8 + 1) 255 else 1)
  ∧ t.fld Reg.clkStat 0 3 = 0 ∧ t.clocksRun = false ∧ t.mode = s.mode
  ∧ (∀ q, q < 23 → n = 4 → t.fld (Reg.pmuRailV q) 16 16 = if q = 22 then 800 else 0)
  ∧ Only { reg := failRegs n, aon := True } s t

theorem StepFailed.failedAs {n : Nat} (h : StepFailed s t n) (hrails : ∀ q, q < 23 → n = 4 → t.fld (Reg.pmuRailV q) 16 16 = if q = 22 then 800 else 0)
    (honly : Only { reg := failRegs n, aon := True } s t) : FailedAs s n t :=
  ⟨h.step, h.which, h.count, h.clock, h.stopped, h.mode, hrails, honly⟩

theorem stepFails_answers {c : Instr} {n : Nat} (hn : n < 4) (hexec : exec c s = fin s (s.stepFails n)) : Answers c s (FailedAs s n) :=
  .of_ends hexec fun _ hends honly => ((stepFails_failed (by omega)).ends hends).failedAs (fun _ _ h => by omega)
    (honly _ ((Only.refl _ s).stepFails n (.inl rfl) (.inr (.inl rfl)) trivial))

/-- The ratio confirmation records the deviation before it fails (R40). -/
theorem ratioConfirmation_failed (hat : s.atStep 3 = true) (hout : count < 16376 ∨ 16392 < count) :
    Answers (.ratioConfirmation count ppm) s (FailedAs s 3) := by
  have hkeep (lo len : Nat) : (s.wr Reg.clkRefPpm (ppm.zeroExtend 32)).fld Reg.glbStartup lo len = s.fld Reg.glbStartup lo len := by
    rw [State.fld, State.wr_rd, if_neg (by decide), State.fld]
  have hmode : (s.wr Reg.clkRefPpm (ppm.zeroExtend 32)).mode = s.mode := by
    unfold State.mode
    rw [State.fld, State.wr_rd, if_neg (by decide), State.fld]
  have hwr : Only { reg := failRegs 3, aon := True } s (s.wr Reg.clkRefPpm (ppm.zeroExtend 32)) :=
    (Only.refl _ s).wr _ (.inr (.inr (.inl rfl)))
  refine .of_ends (ratioConfirmation_fails hat hout) fun t hends honly => ?_
  obtain ⟨hstep, hwhich, hcount, hclock, hstopped, hmode'⟩ := (stepFails_failed (n := 3) (by decide)).ends hends
  rw [hkeep, hkeep] at hcount
  exact ⟨hstep, hwhich, hcount, hclock, hstopped, hmode'.trans hmode, fun _ _ h => by omega,
    honly _ (hwr.stepFails 3 (.inl rfl) (.inr (.inl rfl)) trivial)⟩

/-- A rail does not come in (R420): the rails but VAON turn off. -/
theorem railWindowTimeout_failed (hseq : s.sequencing = true) (hturn : s.aon.railsIn ≤ railOrder r) (hgated : s.ctl.gated = false) :
    Answers (.railWindowTimeout r) s (FailedAs s 4) := by
  have hfailed : StepFailed s (s.stepFails 4) 4 := stepFails_failed (by decide)
  have honly : Only { reg := failRegs 4, aon := True } s (s.stepFails 4) := (Only.refl _ s).stepFails 4 (.inl rfl) (.inr (.inl rfl)) trivial
  have hctl : (s.stepFails 4).ctl.gated = false := by rw [honly.ctl id]; exact hgated
  refine .of_ends (railWindowTimeout_exec hseq hturn) fun t hends htonly => ?_
  generalize s.stepFails 4 = u at hfailed hctl honly hends htonly
  have hrd {a : Nat} (ha : ∀ q, q < 23 → a ≠ Reg.pmuRailV q) : t.rd a = u.rd a := (hends.rd a).trans (railsTo_rd 1 (not_railRegs ha))
  have hstartup : t.rd Reg.glbStartup = u.rd Reg.glbStartup := hrd fun q _ => by simp only [Reg.glbStartup, Reg.pmuRailV]; omega
  have hclk : t.rd Reg.clkStat = u.rd Reg.clkStat := hrd fun q hq => by simp only [Reg.clkStat, Reg.pmuRailV]; omega
  have hmode : t.rd Reg.glbMode = u.rd Reg.glbMode := hrd fun q _ => by simp only [Reg.glbMode, Reg.pmuRailV]; omega
  refine ⟨?_, ?_, ?_, ?_, ?_, ?_, fun q hq _ => ?_, htonly _ (honly.railsTo 1 (fun q hq => .inr (.inr (.inr ⟨rfl, q, hq, rfl⟩))) trivial)⟩
  · rw [hends.aon, railsTo_aon]; exact hfailed.step
  · rw [State.fld, hstartup]; exact hfailed.which
  · rw [State.fld, hstartup]; exact hfailed.count
  · rw [State.fld, hclk]; exact hfailed.clock
  · rw [State.clocksRun, State.bit, hclk]; exact hfailed.stopped
  · rw [State.mode, State.fld, hmode]; exact hfailed.mode
  · rw [hends.fld, railsTo_first (by rw [hfailed.step]; decide) hctl hq]

/-- The PLL has locked (R431, R445). -/
theorem pllLock_answers (hat : s.atStep 2 = true) : Answers .pllLock s (fun t => t.aon.step = 3
    ∧ (t.bit Reg.glbStartup 1 = true ∧ t.bit Reg.clkStat 1 = true)
    ∧ (s.mode = modeRESET → t.clocksRun = true ∧ t.bit Reg.clkStat 3 = false) ∧ Only passMay s t) := by
  by_cases hmode : s.mode = modeRESET
  · have hexec := pllLock_exec hat
    rw [if_pos hmode] at hexec
    have honly : Only passMay s (s.stepPasses 2 3) := (Only.refl _ s).stepPasses 2 3 (.inl rfl) (.inr rfl) trivial
    obtain ⟨hstartup, hclk⟩ := stepPasses_shown (s := s) (n := 2) 3 (by decide)
    have hstep : (s.stepPasses 2 3).aon.step = 3 := rfl
    refine .of_ends hexec fun t hends htonly => ?_
    generalize s.stepPasses 2 3 = u at hstartup hclk hstep honly hends htonly
    refine ⟨by rw [hends.aon]; exact hstep, ⟨?_, ?_⟩, fun _ => ⟨?_, ?_⟩, htonly _ ((honly.setBit _ _ (.inr rfl)).setBit _ _ (.inr rfl))⟩
    · rw [hends.bit, State.setBit_bit_other _ _ _ _ _ _ (by decide) (by decide), State.setBit_bit_other _ _ _ _ _ _ (by decide) (by decide)]
      exact hstartup
    · rw [hends.bit, State.setBit_bit_other _ _ _ _ _ _ (by decide) (by decide), State.setBit_bit_other _ _ _ _ _ _ (by decide) (by decide)]
      exact hclk
    · rw [State.clocksRun, hends.bit, State.setBit_bit_other _ _ _ _ _ _ (by decide) (by decide), State.setBit_bit _ _ _ _ (by decide)]
      rfl
    · rw [hends.bit, State.setBit_bit _ _ _ _ (by decide)]
  · have hexec := pllLock_exec hat
    rw [if_neg hmode] at hexec
    obtain ⟨t, ht, hstep, hshown, honly⟩ := stepPasses_answers 3 (by decide) hexec
    exact ⟨t, ht, hstep, hshown, fun h => absurd h hmode, honly⟩

/-- The registers that a passed ratio confirmation may change. -/
def ratioRegs (a : Nat) : Prop := passMay.reg a ∨ a = Reg.clkRefPpm ∨ railRegs a ∨ vltStatRegs a

/-- The ratio is confirmed (R40, R42): the rails or the vaults follow. -/
theorem ratioConfirmation_answers (hat : s.atStep 3 = true) (hlo : 16376 ≤ count) (hhi : count ≤ 16392) :
    Answers (.ratioConfirmation count ppm) s (fun t =>
      (t.bit Reg.glbStartup 2 = true ∧ t.bit Reg.clkStat 2 = true) ∧ t.rd Reg.clkRefPpm = ppm.zeroExtend 32
        ∧ t.aon.step = (if s.mode ≠ modeRESET then 0 else if s.bit Reg.glbStartup 3 then 5 else 4)
        ∧ (s.bit Reg.glbStartup 3 = true → s.mode = modeRESET → s.aon.perst = false → s.bit Reg.glbStartup 7 = false →
            ∀ v, v < 256 → s.vltState v = 0 → t.vltState v = 1)
        ∧ (s.mode = modeRESET → s.bit Reg.glbStartup 3 = false → t.RailsShown) ∧ Only { passMay with reg := ratioRegs } s t) := by
  have hwr : Only { passMay with reg := ratioRegs } s (s.wr Reg.clkRefPpm (ppm.zeroExtend 32)) := (Only.refl _ s).wr _ (.inr (.inl rfl))
  have hppm : (s.wr Reg.clkRefPpm (ppm.zeroExtend 32)).rd Reg.clkRefPpm = ppm.zeroExtend 32 := by rw [State.wr_rd, if_pos rfl]
  have hother {a : Nat} (ha : a ≠ Reg.clkRefPpm) : (s.wr Reg.clkRefPpm (ppm.zeroExtend 32)).rd a = s.rd a := by rw [State.wr_rd, if_neg ha]
  have haon : (s.wr Reg.clkRefPpm (ppm.zeroExtend 32)).aon = s.aon := rfl
  refine .of_ends (ratioConfirmation_passes hat hlo hhi) fun t hends htonly => ?_
  generalize s.wr Reg.clkRefPpm (ppm.zeroExtend 32) = w at hwr hppm hother haon hends htonly
  have hpass : Only { reg := fun a => a = Reg.glbStartup ∨ a = Reg.clkStat, aon := True } w (w.stepPasses 3 0) :=
    (Only.refl _ w).stepPasses 3 0 (.inl rfl) (.inr rfl) trivial
  have hpassed : Only { passMay with reg := ratioRegs } s (w.stepPasses 3 0) := hwr.stepPasses 3 0 (.inl (.inl rfl)) (.inl (.inr rfl)) trivial
  obtain ⟨hstartup, hclk⟩ := stepPasses_shown (s := w) (n := 3) 0 (by decide)
  have hmode : (w.stepPasses 3 0).mode = s.mode := by
    rw [stepPasses_mode, State.mode, State.fld, hother (by decide), State.mode, State.fld]
  have hbit {j : Nat} (hj : j ≠ 2) : (w.stepPasses 3 0).bit Reg.glbStartup j = s.bit Reg.glbStartup j := by
    rw [stepPasses_startup 0 (by decide) hj, State.bit, hother (by decide), State.bit]
  have hperst : (w.stepPasses 3 0).aon.perst = s.aon.perst := by rw [← haon]; rfl
  have hvlt (v : Nat) : (w.stepPasses 3 0).vltState v = s.vltState v := by
    unfold State.vltState
    rw [hpass.fld_eq (by simp only [Reg.vltStat, Reg.glbStartup, Reg.clkStat]; omega), State.fld,
      hother (by simp only [Reg.vltStat, Reg.clkRefPpm]; omega), State.fld]
  have hppm' : (w.stepPasses 3 0).rd Reg.clkRefPpm = ppm.zeroExtend 32 := by
    rw [hpass.reg _ (by simp only [Reg.clkRefPpm, Reg.glbStartup, Reg.clkStat]; omega), hppm]
  generalize w.stepPasses 3 0 = u at *
  have hrest : Only { reg := fun a => railRegs a ∨ vltStatRegs a, aon := True } u u.afterRatio :=
    (Only.refl _ u).afterRatio (fun q hq => .inl ⟨q, hq, rfl⟩) (fun v hv => .inr ⟨v, hv, rfl⟩) trivial
  have hkept {a : Nat} (hr : ∀ q, q < 23 → a ≠ Reg.pmuRailV q) (hv : ∀ v, v < 256 → a ≠ Reg.vltStat v) : t.rd a = u.rd a :=
    (hends.rd a).trans (hrest.reg a (by rintro (⟨q, hq, h⟩ | ⟨v, hv', h⟩); exacts [hr q hq h, hv v hv' h]))
  refine ⟨⟨?_, ?_⟩, ?_, ?_, fun hup hreset hp htrained v hv hstate => ?_, fun hreset hdown => ?_,
    htonly _ (hpassed.afterRatio (fun q hq => .inr (.inr (.inl ⟨q, hq, rfl⟩))) (fun v hv => .inr (.inr (.inr ⟨v, hv, rfl⟩))) trivial)⟩
  · rw [State.bit, hkept (fun q _ => by simp only [Reg.glbStartup, Reg.pmuRailV]; omega) (fun v _ => by simp only [Reg.glbStartup, Reg.vltStat]; omega)]
    exact hstartup
  · rw [State.bit, hkept (fun q _ => by simp only [Reg.clkStat, Reg.pmuRailV]; omega) (fun v _ => by simp only [Reg.clkStat, Reg.vltStat]; omega)]
    exact hclk
  · rw [hkept (fun q _ => by simp only [Reg.clkRefPpm, Reg.pmuRailV]; omega) (fun v _ => by simp only [Reg.clkRefPpm, Reg.vltStat]; omega), hppm']
  · rw [hends.aon, afterRatio_step, hmode, hbit (by decide)]
  · rw [hends.vltState]
    exact afterRatio_vltState ((hbit (by decide)).trans hup) (hmode.trans hreset) (hperst.trans hp) ((hbit (by decide)).trans htrained) hv
      ((hvlt v).trans hstate)
  · exact (afterRatio_shown (hmode.trans hreset) ((hbit (by decide)).trans hdown)).ends hends

theorem brownoutRelease_answers (hup : s.aon.up = true) : Answers .brownoutRelease s (fun t => t.aon.vinOk = true
    ∧ t.bit Reg.pmuEvt 1 = false ∧ t.RailsShown ∧ Only { reg := fun a => a = Reg.pmuEvt ∨ railRegs a, aon := True } s t) := by
  have honly : Only { reg := fun a => a = Reg.pmuEvt ∨ railRegs a, aon := True } s
      ((s.setAon (fun a => { a with vinOk := true })).setBit Reg.pmuEvt 1 false) := ((Only.refl _ s).setAon _ trivial).setBit _ _ (.inl rfl)
  have hbit : ((s.setAon (fun a => { a with vinOk := true })).setBit Reg.pmuEvt 1 false).bit Reg.pmuEvt 1 = false :=
    State.setBit_bit _ _ _ _ (by decide)
  have hvin : ((s.setAon (fun a => { a with vinOk := true })).setBit Reg.pmuEvt 1 false).aon.vinOk = true := rfl
  refine .of_ends (brownoutRelease_exec hup) fun t hends htonly => ?_
  generalize (s.setAon (fun a => { a with vinOk := true })).setBit Reg.pmuEvt 1 false = u at *
  refine ⟨?_, ?_, (showRails_shown u).ends hends, htonly _ (honly.showRails fun q hq => .inr ⟨q, hq, rfl⟩)⟩
  · rw [hends.aon, (showRails_only u).aon id, hvin]
  · rw [hends.bit, State.bit, showRails_rd (not_railRegs fun q _ => by simp only [Reg.pmuEvt, Reg.pmuRailV]; omega)]
    exact hbit

/-- The registers that the end of rail sequencing may change. -/
def railsDoneRegs (a : Nat) : Prop := a = Reg.glbStartup ∨ railRegs a ∨ vltStatRegs a

theorem railSequencingDone_answers (hseq : s.sequencing = true) : Answers .railSequencingDone s (fun t => t.aon.step = 5
    ∧ t.bit Reg.glbStartup 3 = true ∧ (∀ q, q < 23 → t.railOn q = true) ∧ t.RailsShown
    ∧ (s.mode = modeRESET → s.aon.perst = false → s.bit Reg.glbStartup 7 = false → ∀ v, v < 256 → s.vltState v = 0 → t.vltState v = 1)
    ∧ Only { reg := railsDoneRegs, aon := True } s t) := by
  have haon : s.railsDone.aon = { s.aon with railsIn := 8, step := 5 } := railsDone_aon
  have hshown : s.railsDone.RailsShown := railsDone_shown
  have hbit3 : s.railsDone.bit Reg.glbStartup 3 = true := (railsDone_startup 3).trans (State.setBit_bit _ _ _ _ (by decide))
  have hbit7 : s.railsDone.bit Reg.glbStartup 7 = s.bit Reg.glbStartup 7 :=
    (railsDone_startup 7).trans (State.setBit_bit_other _ _ _ _ _ _ (by decide) (by decide))
  have honly : Only { reg := fun a => a = Reg.glbStartup ∨ railRegs a, aon := True } s s.railsDone :=
    (Only.refl _ s).railsDone (.inl rfl) (fun q hq => .inr ⟨q, hq, rfl⟩) trivial
  have hall : Only { reg := railsDoneRegs, aon := True } s s.railsDone :=
    (Only.refl _ s).railsDone (.inl rfl) (fun q hq => .inr (.inl ⟨q, hq, rfl⟩)) trivial
  refine .of_ends (railSequencingDone_exec hseq) fun t hends htonly => ?_
  generalize s.railsDone = u at *
  have htrain := maybeTrain_only u
  have htaon : t.aon = { s.aon with railsIn := 8, step := 5 } := hends.aon.trans ((htrain.aon id).trans haon)
  refine ⟨by rw [htaon], ?_, fun q _ => railOn_of_all (by rw [htaon]) q, ?_, fun hmode hperst htrained v hv hstate => ?_,
    htonly _ (hall.maybeTrain fun v hv => .inr (.inr ⟨v, hv, rfl⟩))⟩
  · rw [hends.bit, State.bit, htrain.reg _ (by rintro ⟨v, -, h⟩; simp only [Reg.glbStartup, Reg.vltStat] at h; omega)]
    exact hbit3
  · refine (hshown.of_only htrain (htrain.aon id) id ?_ fun q hq => ?_).ends hends
    · rintro ⟨v, -, h⟩; simp only [Reg.clkStat, Reg.vltStat] at h; omega
    · rintro ⟨v, -, h⟩; simp only [Reg.pmuRailV, Reg.vltStat] at h; omega
  · rw [hends.vltState]
    refine maybeTrain_vltState ?_ (by rw [haon]) (by rw [haon]; exact hperst) (hbit7.trans htrained) hv ?_
    · refine (honly.fld_eq ?_).trans hmode
      rintro (h | ⟨q, -, h⟩) <;> simp only [Reg.glbMode, Reg.glbStartup, Reg.pmuRailV] at h <;> omega
    · refine (honly.fld_eq ?_).trans hstate
      rintro (h | ⟨q, hq, h⟩) <;> simp only [Reg.vltStat, Reg.glbStartup, Reg.pmuRailV] at h <;> omega

theorem vioGood_answers : Answers (.vioGood strap) s (fun t => t.aon.vio = true ∧ (s.aon.up = true → s.aon.strap = none → t.aon.strap = some strap)
    ∧ (∀ x, s.aon.strap = some x → t.aon.strap = some x) ∧ Only { aon := True } s t) := by
  obtain ⟨hnew, hold⟩ := strap_sampled s.aon.up s.aon.strap strap
  refine .of_ends (u := s.setAon (fun a => { a with vio := true, strap := if a.up then (a.strap <|> some strap) else a.strap })) rfl
    fun t hends honly => ⟨by rw [hends.aon]; rfl, fun h h' => ?_, fun x hx => ?_, honly _ ((Only.refl _ s).setAon _ trivial)⟩
  · rw [hends.aon]; exact hnew h h'
  · rw [hends.aon]; exact hold x hx

theorem vioNotGood_answers : Answers .vioNotGood s (fun t => t.aon.vio = false ∧ t.glint = { s.glint with inFrame := false }
    ∧ Only { aon := True, glint := True } s t) := by
  have honly : Only { aon := True, glint := True } s
      { s.setAon (fun a => { a with vio := false }) with glint := { s.glint with inFrame := false } } := by
    constructor <;> intros <;> first | rfl | exact ⟨rfl, rfl, rfl⟩ | contradiction
  exact .of_ends (u := { s.setAon (fun a => { a with vio := false }) with glint := { s.glint with inFrame := false } }) rfl
    fun t hends htonly => ⟨by rw [hends.aon]; rfl, by rw [hends.glint], htonly _ honly⟩

end Commands

/-- Settles O37, command by command: each step passes or fails, and the rails and the vaults follow. -/
theorem startUp : Obligations.StartUp := by
  unfold Obligations.StartUp
  intro strap count ppm r s
  exact ⟨aonUp_answers, fun hat hlo hhi => stepPasses_answers 2 (by decide) (refclkJudgement_passes hat hlo hhi),
    fun hat hout => stepFails_answers (by decide) (refclkJudgement_fails hat hout), pllLock_answers,
    fun hat => stepFails_answers (by decide) (pllLockTimeout_fails hat), ratioConfirmation_answers, ratioConfirmation_failed,
    brownoutRelease_answers, railSequencingDone_answers, railWindowTimeout_failed,
    fun h => .of_fin (railWindowTimeout_none h) ((Only.refl _ s).settle s), vioGood_answers, vioNotGood_answers⟩

end Sys2Proof.Machine
end

section
/-! What a load changes of its regions (R48, R309 to R313): the frame of each shared operation of the loader. -/

namespace Sys2Proof.Machine

variable {m : May} {s t u : State} {k : Nat}

/-- A command that may change what a load installs in region `k`, but in-use mask, slice and site state. -/
structure May.Installs (m : May) (k : Nat) : Prop where
  reg : ∀ a, regionRegs k a → m.reg a
  site : m.site k
  fab : m.fab k
  ctl : m.ctl

theorem May.Installs.region (hm : m.Installs k) : m.reg (Reg.cfgRegion k) := hm.reg _ (by simp [regionRegs])
theorem May.Installs.mode (hm : m.Installs k) : m.reg Reg.glbMode := hm.reg _ (by simp [regionRegs])
theorem May.Installs.siteState (hm : m.Installs k) : m.reg Reg.glbSiteState := hm.reg _ (by simp [regionRegs])
theorem May.Installs.penStat (hm : m.Installs k) : m.reg Reg.fabPenStat := hm.reg _ (by simp [regionRegs])

/-- What a load of region `k` may change at the most, besides its own registers. -/
def regionMay (k : Nat) : May :=
  { reg := regionRegs k, site := fun j => j = k, fab := fun j => j = k, bist := fun j => j = k, ctl := True }

theorem regionMay_installs (k : Nat) : (regionMay k).Installs k := ⟨fun _ h => h, rfl, rfl, trivial⟩

theorem loadMay_installs {l : List Nat} (hk : k ∈ l) : (loadMay l).Installs k := ⟨fun _ h => .inr (.inr ⟨k, hk, h⟩), hk, hk, trivial⟩

section Frames
variable (hm : m.Installs k)
include hm

theorem Only.setInuse (n : Nat) (h : Only m s t) : Only m s (t.setInuse k n) :=
  h.wr64 _ (hm.reg _ (by simp [regionRegs])) (hm.reg _ (by simp [regionRegs, Reg.cfgInuseLo, Reg.cfgInuseHi]; omega))

theorem Only.countWclk (n : Nat) (h : Only m s t) : Only m s (t.countWclk k n) := by
  have hcells : m.reg (Reg.fabWclkCells k) := hm.reg _ (by simp [regionRegs])
  unfold State.countWclk
  exact (h.wr _ hcells).modSite _ hm.site

theorem Only.installRegion (c : RegionCfg) (h : Only m s t) : Only m s (t.installRegion k c) :=
  (((h.setBit _ _ hm.region).modFab _ hm.fab).modSite _ hm.site).countWclk hm _

theorem Only.busLoaded (h : Only m s t) : Only m s (t.busLoaded k) :=
  (h.modFab _ hm.fab).setBit _ _ (hm.reg _ (by simp [regionRegs]))

theorem Only.cancelInject (h : Only m s t) : Only m s (t.cancelInject k) := by
  unfold State.cancelInject
  exact h.ite (h.setBit _ _ (hm.reg _ (by simp [regionRegs])))

theorem Only.setRegState (c : Nat) (h : Only m s t) : Only m s (t.setRegState k c) := h.setFld _ _ _ hm.region

theorem Only.showRegion (h : Only m s t) : Only m s (t.showRegion k) := h.setRegState hm _

theorem Only.followRegion (h : Only m s t) : Only m s (t.followSite k) := h.followSite k hm.siteState hm.penStat hm.mode

theorem Only.setIcp (p : Icp) (h : Only m s t) : Only m s (t.setIcp k p) := h.setCtl hm.ctl

theorem Only.holdRegion (init : List (Nat × Word)) (hb : m.bist k) (h : Only m s t) : Only m s (t.holdRegion k init) :=
  ((h.setInuse hm 0).abortSlice hb hm.fab).modFab _ hm.fab

theorem Only.debtClear (hb : m.bist k) (h : Only m s t) : Only m s (t.debtClear k) :=
  (h.setFld _ _ _ (hm.reg _ (by simp [regionRegs]))).modBist _ hb

theorem Only.releaseRegion (hb : m.bist k) (h : Only m s t) : Only m s (t.releaseRegion k) := by
  have hsite := ((h.setInuse hm (Sparse.get (fun _ => ({} : RegionCfg)) t.ctl.goldenCfg k).inuse.toNat).modFab
    (fun f => ({ f with held := false } : Fabric).restart) hm.fab).modSite (fun x => { x with
      reconf := false, isoIncomplete := false, isoGolden := false, lastIssued := 0, parkReason := 0 }) hm.site
  exact (((hsite.setIcp hm _).debtClear hm hb).showRegion hm).followRegion hm

end Frames

theorem Only.writeFrame (f : Nat) (d : BitVec 4096) (rel : BitVec 256) (h : Only m s t) (hc : m.ctl) : Only m s (t.writeFrame f d rel) :=
  (h.setCtl (x := (t.putFrame f d).ctl) hc).setCtl hc

theorem Only.spdChecked (o : SpdObs) (h : Only m s t) (he : m.reg Reg.spdEcc) (hv : m.reg Reg.spdEvt) : Only m s (t.spdChecked o) := by
  unfold State.spdChecked
  split
  · exact h.ite (h.setBit _ _ hv)
  · exact (h.satAdd _ _ _ he).ite ((h.satAdd _ _ _ he).setBit _ _ hv)

theorem Only.loadComplete (h : Only m s t) (hr : m.reg Reg.cfgStatus) (hh : m.host) (hc : m.ctl) : Only m s t.loadComplete :=
  Only.modLoad (fun _ => {}) (Only.endStaging (Only.setFld 28 4 ldIdle (h.setFld 24 2 1 hr) hr) hh) hc

/-! ### What another region keeps -/

/-- Region `k` is as it was, but for the golden copy of its configuration. -/
structure SameRegion (s t : State) (k : Nat) : Prop where
  region : t.rd (Reg.cfgRegion k) = s.rd (Reg.cfgRegion k)
  inuse : t.inuse k = s.inuse k
  fab : t.getFab k = s.getFab k
  site : t.getSite k = s.getSite k

theorem SameRegion.golden (h : SameRegion s t k) : t.goldenValid k = s.goldenValid k := by
  rw [State.goldenValid, State.bit, h.region, State.goldenValid, State.bit]

theorem SameRegion.regState (h : SameRegion s t k) : t.regState k = s.regState k := by
  rw [State.regState, State.fld, h.region, State.regState, State.fld]

/-- Where the registers of the regions lie. -/
theorem regionRegs_range {a : Nat} (hk : k < 16) (h : regionRegs k a) :
    a = 0x100 ∨ a = 0x114 ∨ (0x280080 ≤ a ∧ a < 0x2800C0) ∨ (0x1000040 ≤ a ∧ a < 0x1000100) ∨ 0x3008000 ≤ a := by
  simp only [regionRegs, Reg.cfgRegion, Reg.cfgInuseLo, Reg.cfgInuseHi, Reg.fabResInject, Reg.fabZbusStat, Reg.fabWclkCells, Reg.glbSiteState,
    Reg.fabPenStat, Reg.glbMode, Reg.safBistDebt] at h
  omega

theorem not_regionRegs_of_ne {j : Nat} (hj : j < 16) (hk : k < 16) (hjk : j ≠ k) :
    ¬ regionRegs j (Reg.cfgRegion k) ∧ ¬ regionRegs j (Reg.cfgInuseLo k) ∧ ¬ regionRegs j (Reg.cfgInuseHi k) := by
  simp only [regionRegs, Reg.cfgRegion, Reg.cfgInuseLo, Reg.cfgInuseHi, Reg.fabResInject, Reg.fabZbusStat, Reg.fabWclkCells, Reg.glbSiteState,
    Reg.fabPenStat, Reg.glbMode, Reg.safBistDebt]
  omega

/-- A load of another region keeps region `k`. -/
theorem Only.sameRegion {j : Nat} (h : Only (regionMay j) s t) (hj : j < 16) (hk : k < 16) (hjk : j ≠ k) : SameRegion s t k where
  region := h.reg _ (not_regionRegs_of_ne hj hk hjk).1
  inuse := by
    rw [State.inuse, h.reg _ (not_regionRegs_of_ne hj hk hjk).2.1, h.reg _ (not_regionRegs_of_ne hj hk hjk).2.2, State.inuse]
  fab := h.fab _ (Ne.symm hjk)
  site := h.site _ (Ne.symm hjk)

end Sys2Proof.Machine
end

section
/-! What each step of a load's completion leaves of its region (R48, R52, R309 to R313), and of the mode. -/

namespace Sys2Proof.Machine

variable {m : May} {s t u : State} {k : Nat}

/-! ### The in-use mask and the mode -/

theorem inuse_eq_rd64 (s : State) (k : Nat) : s.inuse k = s.rd64 (Reg.cfgInuseLo k) := by
  have hhi : Reg.cfgInuseHi k = Reg.cfgInuseLo k + 4 := by simp only [Reg.cfgInuseLo, Reg.cfgInuseHi]; omega
  rw [State.inuse, State.rd64, hhi]

theorem setInuse_inuse (n : Nat) : (s.setInuse k n).inuse k = n % 2 ^ 64 := by
  rw [inuse_eq_rd64, State.setInuse, State.wr64_rd64, Nat.mod_mod]

theorem setInuse_inuse_bitVec (w : BitVec 64) : (s.setInuse k w.toNat).inuse k = w.toNat := by
  rw [setInuse_inuse, Nat.mod_eq_of_lt w.isLt]

theorem inuse_congr (h : ∀ a, t.rd a = s.rd a) : t.inuse k = s.inuse k := by
  rw [State.inuse, h, h, State.inuse]

/-- The registers that show the state of region `k`. -/
def shownRegs (k a : Nat) : Prop :=
  a = Reg.cfgRegion k ∨ a = Reg.fabResInject ∨ a = Reg.glbSiteState ∨ a = Reg.fabPenStat ∨ a = Reg.glbMode

theorem Only.shownInuse (h : Only { reg := shownRegs k } s t) (hk : k < 16) : t.inuse k = s.inuse k := by
  rw [State.inuse, h.reg, h.reg, State.inuse] <;>
    simp only [shownRegs, Reg.cfgInuseLo, Reg.cfgInuseHi, Reg.cfgRegion, Reg.fabResInject, Reg.glbSiteState, Reg.fabPenStat, Reg.glbMode] <;> omega

theorem shown_only (s : State) (k : Nat) : Only { reg := shownRegs k } s ((s.showRegion k).followSite k) :=
  Only.followSite k (Only.setFld 29 3 _ (Only.refl { reg := shownRegs k } s) (by simp [shownRegs])) (by simp [shownRegs]) (by simp [shownRegs])
    (by simp [shownRegs])

theorem shown_golden (hk : k < 16) : ((s.showRegion k).followSite k).goldenValid k = s.goldenValid k := by
  rw [State.goldenValid, State.bit, followSite_cfgRegion hk]
  exact setRegState_goldenValid k k _

theorem Only.anyRuns (h : Only m s t) (hr : ∀ k, k < 16 → ¬ m.reg (Reg.seqStatus k)) : t.anyRuns = s.anyRuns := by
  rw [State.anyRuns, State.anyRuns, Bool.eq_iff_iff, List.any_eq_true, List.any_eq_true]
  refine exists_congr fun k => and_congr_right fun hk => ?_
  rw [State.seqRuns, State.seqRuns, State.seqState, State.seqState, h.fld_eq (hr k (List.mem_range.mp hk))]

theorem not_regionRegs_seqStatus {j : Nat} (hj : j < 16) (hk : k < 16) : ¬ regionRegs j (Reg.seqStatus k) := fun h => by
  have hrange := regionRegs_range hj h
  simp only [Reg.seqStatus] at hrange
  omega

/-- No sequencer runs, and the mode is none that follows the sites. -/
def State.ModeStays (s : State) : Prop := s.anyRuns = false ∧ s.mode ≠ modeRUN

theorem followSite_glbMode (h : s.ModeStays) : (s.followSite k).rd Reg.glbMode = s.rd Reg.glbMode := by
  obtain ⟨hruns, hmode⟩ := h
  have hshown : Only { reg := fun a => a = Reg.glbSiteState ∨ a = Reg.fabPenStat } s
      ((s.setFld Reg.glbSiteState (2 * k) 2 (s.siteStateNow k)).setBit Reg.fabPenStat k
        ((s.setFld Reg.glbSiteState (2 * k) 2 (s.siteStateNow k)).penIso k)) :=
    ((Only.refl { reg := fun a => a = Reg.glbSiteState ∨ a = Reg.fabPenStat } s).setFld _ _ _ (.inl rfl)).setBit _ _ (.inr rfl)
  have hruns' := hshown.anyRuns fun k hk => by simp only [Reg.seqStatus, Reg.glbSiteState, Reg.fabPenStat]; omega
  have hrd := hshown.reg Reg.glbMode (by decide)
  unfold State.followSite
  extract_lets s1 s2
  have hmode2 : s2.mode ≠ modeRUN := by rw [State.mode, State.fld, hrd]; exact hmode
  have hruns2 : s2.anyRuns = false := hruns'.trans hruns
  rw [if_neg (by simp [hruns2]), if_neg (by simp [hmode2]), hrd]

/-! ### Holding a region for its load (R311) -/

/-- The write phase of a partial load begins in region `k`. -/
def State.holdLoaded (s : State) (k : Nat) : State :=
  ((((s.modSite k (fun x => { x with reconf := true })).holdRegion k (s.ctl.load.cfgOf k).init).cancelInject k).setRegState k regLoading).followSite k

theorem holdPartial_eq (h : ImgHdr) : s.holdPartial h = s.forAll h.regionList State.holdLoaded := rfl

theorem Only.holdLoaded (hm : m.Installs k) (hb : m.bist k) (h : Only m s t) : Only m s (t.holdLoaded k) :=
  ((((h.modSite _ hm.site).holdRegion hm _ hb).cancelInject hm).setRegState hm _).followRegion hm

/-- Region `k` is held for its load. -/
structure HeldForLoad (t : State) (k : Nat) : Prop where
  inuse : t.inuse k = 0
  held : (t.getFab k).held = true
  state : t.regState k = regLoading

theorem SameRegion.held (h : SameRegion s t k) (hs : HeldForLoad s k) : HeldForLoad t k where
  inuse := h.inuse.trans hs.inuse
  held := by rw [h.fab]; exact hs.held
  state := h.regState.trans hs.state

theorem holdRegion_inuse (init : List (Nat × Word)) : (s.holdRegion k init).inuse k = 0 :=
  (inuse_congr (s := s.setInuse k 0) fun a => by simp [State.holdRegion, State.abortSlice]).trans (setInuse_inuse 0)

theorem holdRegion_held (init : List (Nat × Word)) : ((s.holdRegion k init).getFab k).held = true := by
  rw [State.holdRegion, State.modFab_getFab, if_pos rfl]
  rfl

theorem holdLoaded_held (hk : k < 16) : HeldForLoad (s.holdLoaded k) k := by
  unfold State.holdLoaded
  generalize hv : (s.modSite k (fun x => { x with reconf := true })).holdRegion k (s.ctl.load.cfgOf k).init = v
  have hinuse : v.inuse k = 0 := by rw [← hv]; exact holdRegion_inuse _
  have hheld : (v.getFab k).held = true := by rw [← hv]; exact holdRegion_held _
  have hinject : Only { reg := shownRegs k } v (v.cancelInject k) := by
    unfold State.cancelInject
    exact (Only.refl _ v).ite ((Only.refl _ v).setBit _ _ (by simp [shownRegs]))
  have hshown : Only { reg := shownRegs k } v (((v.cancelInject k).setRegState k regLoading).followSite k) :=
    Only.followSite k (hinject.setFld _ _ _ (.inl rfl)) (by simp [shownRegs]) (by simp [shownRegs]) (by simp [shownRegs])
  refine ⟨(hshown.shownInuse hk).trans hinuse, ?_, ?_⟩
  · rw [hshown.fab k id]; exact hheld
  · rw [State.regState, State.fld, followSite_cfgRegion hk]; exact setRegState_regState k regLoading

/-! ### Installing what an image gives a region (R309, R311) -/

/-- The golden copy of the configuration of region `k`. -/
def State.goldenOf (s : State) (k : Nat) : RegionCfg := Sparse.get (fun _ => ({} : RegionCfg)) s.ctl.goldenCfg k

/-- What the golden copy keeps where an image of a partial load says nothing. -/
def RegionCfg.over (c old : RegionCfg) : RegionCfg :=
  { c with
    lmap := (match c.lmap with | some m => some m | none => old.lmap)
    pclass := (match c.pclass with | some p => some p | none => old.pclass) }

/-- The golden copy of the configuration of region `k` is `g`. -/
def State.keepGolden (s : State) (k : Nat) (g : RegionCfg) : State :=
  { s with ctl := { s.ctl with goldenCfg := Sparse.set (fun _ => {}) s.ctl.goldenCfg k g } }

theorem keepGolden_goldenOf (g : RegionCfg) (j : Nat) : (s.keepGolden k g).goldenOf j = if j = k then g else s.goldenOf j := Sparse.get_set _ _ _ _ _

/-- Region `k` takes `c` and has the golden copy `g` from now on. -/
def State.installGolden (s : State) (k : Nat) (c g : RegionCfg) : State :=
  (((s.keepGolden k g).installRegion k c).busLoaded k).setBit (Reg.cfgRegion k) 27 true

theorem Only.installGolden (hm : m.Installs k) (c g : RegionCfg) (h : Only m s t) : Only m s (t.installGolden k c g) :=
  (((h.setCtl (x := (t.keepGolden k g).ctl) hm.ctl).installRegion hm c).busLoaded hm).setBit _ _ hm.region

theorem countWclk_ctl (n : Nat) : (s.countWclk k n).ctl = s.ctl := by
  unfold State.countWclk
  rw [State.modSite_ctl, State.wr_ctl]

theorem countWclk_rd (n : Nat) {a : Nat} (h : a ≠ Reg.fabWclkCells k) : (s.countWclk k n).rd a = s.rd a := by
  unfold State.countWclk
  rw [State.modSite_rd, State.wr_rd, if_neg h]

/-- What an image gave region `k`, before its wire-clock cells are counted. -/
def State.installValues (s : State) (k : Nat) (c : RegionCfg) : State :=
  ((s.setBit (Reg.cfgRegion k) 28 c.rmode).modFab k (fun f => { f with park := parkCodes c.park, init := c.init })).modSite k (fun x => { x with
    lmap := match c.lmap with | some m => some m | none => x.lmap
    pclass := c.pclass.getD x.pclass })

theorem installRegion_eq (c : RegionCfg) : s.installRegion k c = (s.installValues k c).countWclk k c.inuse.toNat := rfl

theorem installRegion_ctl (c : RegionCfg) : (s.installRegion k c).ctl = s.ctl := by
  rw [installRegion_eq, countWclk_ctl, State.installValues, State.modSite_ctl, State.modFab_ctl, State.setBit, State.setFld, State.wr_ctl]

theorem busLoaded_ctl : (s.busLoaded k).ctl = s.ctl := rfl

theorem installGolden_ctl (c g : RegionCfg) : (s.installGolden k c g).ctl = (s.keepGolden k g).ctl := by
  rw [State.installGolden, State.setBit, State.setFld, State.wr_ctl, busLoaded_ctl, installRegion_ctl]

theorem installGolden_goldenOf (c g : RegionCfg) (j : Nat) : (s.installGolden k c g).goldenOf j = if j = k then g else s.goldenOf j := by
  rw [State.goldenOf, installGolden_ctl]
  exact keepGolden_goldenOf g j

theorem installGolden_golden (c g : RegionCfg) : (s.installGolden k c g).goldenValid k = true := State.setBit_bit _ _ 27 true (by decide)

/-- What an installed region keeps of its registers. -/
theorem installRegion_rd (c : RegionCfg) {a : Nat} (h1 : a ≠ Reg.cfgRegion k) (h2 : a ≠ Reg.fabWclkCells k) :
    (s.installRegion k c).rd a = s.rd a := by
  rw [installRegion_eq, countWclk_rd _ h2, State.installValues, State.modSite_rd, State.modFab_rd, State.setBit_rd, if_neg h1]

theorem installRegion_inuse (c : RegionCfg) (hk : k < 16) : (s.installRegion k c).inuse k = s.inuse k := by
  rw [State.inuse, installRegion_rd, installRegion_rd, State.inuse] <;>
    simp only [Reg.cfgInuseLo, Reg.cfgInuseHi, Reg.cfgRegion, Reg.fabWclkCells] <;> omega

theorem installGolden_rd (c g : RegionCfg) {a : Nat} (h1 : a ≠ Reg.cfgRegion k) (h2 : a ≠ Reg.fabWclkCells k) (h3 : a ≠ Reg.fabZbusStat) :
    (s.installGolden k c g).rd a = s.rd a := by
  rw [State.installGolden, State.setBit_rd, if_neg h1, State.busLoaded, State.showBusOff, State.setBit_rd, if_neg h3, State.modFab_rd,
    installRegion_rd c h1 h2]
  rfl

theorem installGolden_inuse (c g : RegionCfg) (hk : k < 16) : (s.installGolden k c g).inuse k = s.inuse k := by
  rw [State.inuse, installGolden_rd, installGolden_rd, State.inuse] <;>
    simp only [Reg.cfgInuseLo, Reg.cfgInuseHi, Reg.cfgRegion, Reg.fabWclkCells, Reg.fabZbusStat] <;> omega

/-! ### Releasing a region (R48, R311) -/

/-- Region `k` is released with the in-use mask of its golden copy. -/
structure Released (s t : State) (k : Nat) : Prop where
  inuse : t.inuse k = (s.goldenOf k).inuse.toNat
  golden : t.goldenValid k = s.goldenValid k
  fab : t.getFab k = ({ s.getFab k with held := false } : Fabric).restart
  site : t.getSite k = { s.getSite k with reconf := false, isoIncomplete := false, isoGolden := false, lastIssued := 0, parkReason := 0 }

/-- A region with its flip-flops at their initial values, before its state is shown. -/
def State.freeRegion (s : State) (k : Nat) : State :=
  let u := ((s.setInuse k (s.goldenOf k).inuse.toNat).modFab k (fun f => ({ f with held := false } : Fabric).restart)).modSite k (fun x => { x with
    reconf := false, isoIncomplete := false, isoGolden := false, lastIssued := 0, parkReason := 0 })
  (u.setIcp k { u.getIcp k with tog := false }).debtClear k

theorem releaseRegion_eq (s : State) (k : Nat) : s.releaseRegion k = ((s.freeRegion k).showRegion k).followSite k := rfl

theorem setIcp_rd (p : Icp) (a : Nat) : (s.setIcp k p).rd a = s.rd a := rfl
theorem setIcp_getFab (p : Icp) (j : Nat) : (s.setIcp k p).getFab j = s.getFab j := rfl
theorem setIcp_getSite (p : Icp) (j : Nat) : (s.setIcp k p).getSite j = s.getSite j := rfl
theorem debtClear_getFab (j : Nat) : (s.debtClear k).getFab j = s.getFab j := rfl
theorem debtClear_getSite (j : Nat) : (s.debtClear k).getSite j = s.getSite j := rfl
theorem debtClear_rd {a : Nat} (h : a ≠ Reg.safBistDebt k) : (s.debtClear k).rd a = s.rd a := by
  rw [State.debtClear, State.modBist_rd, State.setFld_rd, if_neg h]

theorem freeRegion_rd {a : Nat} (h : a ≠ Reg.safBistDebt k) :
    (s.freeRegion k).rd a = (s.setInuse k (s.goldenOf k).inuse.toNat).rd a := by
  rw [State.freeRegion, debtClear_rd h, setIcp_rd, State.modSite_rd, State.modFab_rd]

theorem freeRegion_inuse (hk : k < 16) : (s.freeRegion k).inuse k = (s.goldenOf k).inuse.toNat := by
  rw [State.inuse, freeRegion_rd (by simp only [Reg.cfgInuseLo, Reg.safBistDebt]; omega),
    freeRegion_rd (by simp only [Reg.cfgInuseHi, Reg.safBistDebt]; omega)]
  exact setInuse_inuse_bitVec _

theorem freeRegion_golden (hk : k < 16) : (s.freeRegion k).goldenValid k = s.goldenValid k := by
  rw [State.goldenValid, State.bit, freeRegion_rd (by simp only [Reg.cfgRegion, Reg.safBistDebt]; omega), State.setInuse, State.wr64_rd,
    if_neg (by simp only [Reg.cfgRegion, Reg.cfgInuseLo]; omega), if_neg (by simp only [Reg.cfgRegion, Reg.cfgInuseLo]; omega),
    State.goldenValid, State.bit]

theorem freeRegion_getFab : (s.freeRegion k).getFab k = ({ s.getFab k with held := false } : Fabric).restart := by
  rw [State.freeRegion, debtClear_getFab, setIcp_getFab, State.modSite_getFab, State.modFab_getFab, if_pos rfl]
  rfl

theorem freeRegion_getSite : (s.freeRegion k).getSite k
    = { s.getSite k with reconf := false, isoIncomplete := false, isoGolden := false, lastIssued := 0, parkReason := 0 } := by
  rw [State.freeRegion, debtClear_getSite, setIcp_getSite, State.modSite_getSite, if_pos rfl]
  rfl

theorem releaseRegion_released (hk : k < 16) : Released s (s.releaseRegion k) k := by
  have hshown := shown_only (s.freeRegion k) k
  rw [releaseRegion_eq]
  exact ⟨(hshown.shownInuse hk).trans (freeRegion_inuse hk), (shown_golden hk).trans (freeRegion_golden hk),
    (hshown.fab k id).trans freeRegion_getFab, (hshown.site k id).trans freeRegion_getSite⟩

theorem releaseRegion_goldenOf (j : Nat) : (s.releaseRegion k).goldenOf j = s.goldenOf j := by
  rw [releaseRegion_eq, State.goldenOf, (shown_only (s.freeRegion k) k).ctl id]
  rfl

/-- A cell of a region that restarts is at its initial value. -/
theorem restart_cell (f : Fabric) (c : Nat) : f.restart.cell c = Cell.initial f.init c := by
  have hset (cs : List Nat) (m : List (Nat × Cell)) : Sparse.get (fun _ => ({} : Cell)) (cs.foldl (fun m c =>
      Sparse.set (fun _ => {}) m c (Cell.initial f.init c)) m) c = if c ∈ cs then Cell.initial f.init c else Sparse.get (fun _ => {}) m c := by
    induction cs generalizing m with
    | nil => simp
    | cons d cs ih =>
      rw [List.foldl_cons, ih, Sparse.get_set]
      by_cases hc : c = d
      · rw [if_pos hc, if_pos (List.mem_cons.mpr (.inl hc)), hc]
        exact ite_self _
      · rw [if_neg hc]
        simp only [List.mem_cons, hc, false_or]
  refine (hset _ []).trans ?_
  split
  · rfl
  · next hc =>
    have hnone : f.init.filter (fun p => p.1 / 32 == c) = [] := by
      refine List.filter_eq_nil_iff.mpr fun p hp he => hc ?_
      exact List.mem_eraseDups.mpr (List.mem_map.mpr ⟨p, hp, by simpa using he⟩)
    rw [Cell.initial, hnone]
    rfl

end Sys2Proof.Machine
end

section
/-! The acceptance of a body (R309, R312), its checks, and the write phase of a staged load (R311, R312, R374). -/

namespace Sys2Proof.Machine

variable {m : May} {s t u : State} {k : Nat} {h : ImgHdr}

/-! ### A full load (R309) -/

/-- A full load is installed in its regions. -/
def State.installAll (s : State) (h : ImgHdr) (l : Loader) : State :=
  (s.wr64 Reg.cfgBuildLo h.build.toNat).forAll h.regionList (fun s k => s.installGolden k (l.cfgOf k) (l.cfgOf k))

/-- The configuration is valid, and waits for its release. -/
def State.markAccepted (s : State) : State :=
  let v := (s.setBit Reg.glbMode 5 true).setLoadState ldRelease
  v.modLoad (fun l => { l with accepted := some v.fc })

theorem bodyAccepted_full (hfull : h.full = true) : s.bodyAccepted h = (s.installAll h s.ctl.load).markAccepted := by
  unfold State.bodyAccepted
  exact if_pos hfull

theorem Only.installAll (l : Loader) (ho : Only (loadMay h.regionList) s t) : Only (loadMay h.regionList) s (t.installAll h l) :=
  (ho.wr64 _ (.inl (by simp [loadRegs])) (.inl (by simp [loadRegs, Reg.cfgBuildHi]))).forAll fun _ _ hk hu =>
    hu.installGolden (loadMay_installs hk) _ _

theorem Only.markAccepted (ho : Only (loadMay h.regionList) s t) : Only (loadMay h.regionList) s t.markAccepted :=
  Only.modLoad (fun l => { l with accepted := some ((t.setBit Reg.glbMode 5 true).setLoadState ldRelease).fc })
    (Only.setFld 28 4 ldRelease (ho.setBit 5 true (.inr (.inl rfl))) (.inl (.inl rfl))) trivial

theorem markAccepted_rd {a : Nat} (h1 : a ≠ Reg.glbMode) (h2 : a ≠ Reg.cfgStatus) : s.markAccepted.rd a = s.rd a := by
  rw [State.markAccepted, State.modLoad_rd, State.setLoadState, State.setFld_rd, if_neg h2, State.setBit_rd, if_neg h1]

theorem setLoadState_loadState {c : Nat} (hc : c < 16) : (s.setLoadState c).loadState = c :=
  (State.setFld_fld s Reg.cfgStatus 28 4 c (by decide)).trans (Nat.mod_eq_of_lt hc)

theorem modLoad_loadState (f : Loader → Loader) : (s.modLoad f).loadState = s.loadState := rfl

theorem markAccepted_loadState : s.markAccepted.loadState = ldRelease := by
  rw [State.markAccepted, modLoad_loadState, setLoadState_loadState (by decide)]

theorem markAccepted_cfgValid : s.markAccepted.cfgValid = true := by
  rw [State.cfgValid, State.bit, State.markAccepted, State.modLoad_rd, State.setLoadState, State.setFld_rd, if_neg (by decide)]
  exact State.setBit_bit s Reg.glbMode 5 true (by decide)

theorem markAccepted_accepted : s.markAccepted.ctl.load.accepted = some s.fc := by
  have hat (v : State) : (v.modLoad (fun l => { l with accepted := some v.fc })).ctl.load.accepted = some v.fc := rfl
  refine (hat _).trans (congrArg some ?_)
  rw [State.setLoadState, State.setFld, State.wr_fc, State.setBit, State.setFld, State.wr_fc]

theorem markAccepted_goldenOf : s.markAccepted.goldenOf k = s.goldenOf k := by
  have hgolden (v : State) (f : Loader → Loader) : (v.modLoad f).goldenOf k = v.goldenOf k := rfl
  rw [State.markAccepted, hgolden, State.goldenOf, State.setLoadState, State.setFld, State.wr_ctl, State.setBit, State.setFld, State.wr_ctl,
    State.goldenOf]

theorem cfgBuild_not_region (hk : k < 16) : ¬ regionRegs k Reg.cfgBuildLo ∧ ¬ regionRegs k (Reg.cfgBuildLo + 4) := by
  constructor <;> exact fun h => absurd (regionRegs_range hk h) (by decide)

theorem installAll_build (l : Loader) : (s.installAll h l).rd64 Reg.cfgBuildLo = h.build.toNat := by
  refine State.forAll_keeps (P := fun u => u.rd64 Reg.cfgBuildLo = h.build.toNat) ?_ fun u k hk hu => ?_
  · rw [State.wr64_rd64, Nat.mod_eq_of_lt h.build.isLt]
  · have hlt := ImgHdr.lt_of_mem_regionList hk
    rw [((Only.refl (regionMay k) u).installGolden (regionMay_installs k) _ _).rd64_eq (cfgBuild_not_region hlt).1 (cfgBuild_not_region hlt).2]
    exact hu

theorem installAll_inuse (l : Loader) (hk : k < 16) : (s.installAll h l).inuse k = s.inuse k := by
  refine State.forAll_keeps (P := fun u => u.inuse k = s.inuse k) ?_ fun u j hj hu => ?_
  · rw [State.inuse, State.wr64_rd, State.wr64_rd, if_neg, if_neg, if_neg, if_neg, State.inuse] <;>
      simp only [Reg.cfgInuseLo, Reg.cfgInuseHi, Reg.cfgBuildLo] <;> omega
  · by_cases hjk : j = k
    · subst hjk
      exact (installGolden_inuse _ _ hk).trans hu
    · exact (((Only.refl _ u).installGolden (regionMay_installs j) _ _).sameRegion (ImgHdr.lt_of_mem_regionList hj) hk hjk).inuse.trans hu

theorem installAll_golden (l : Loader) (hk : k ∈ h.regionList) :
    (s.installAll h l).goldenValid k = true ∧ (s.installAll h l).goldenOf k = l.cfgOf k := by
  refine State.forAll_each (P := fun k u => u.goldenValid k = true ∧ u.goldenOf k = l.cfgOf k)
    (fun u k _ => ⟨installGolden_golden _ _, (installGolden_goldenOf _ _ k).trans (if_pos rfl)⟩) (fun u j k hj hk hjk hu => ⟨?_, ?_⟩) k hk
  · exact (((Only.refl _ u).installGolden (regionMay_installs j) _ _).sameRegion (ImgHdr.lt_of_mem_regionList hj)
      (ImgHdr.lt_of_mem_regionList hk) hjk).golden.trans hu.1
  · exact ((installGolden_goldenOf _ _ k).trans (if_neg (Ne.symm hjk))).trans hu.2

/-! ### The completion of a partial load (R311) -/

/-- Region `k` of a partial load is complete. -/
def State.completeRegion (l : Loader) (s : State) (k : Nat) : State :=
  (s.installGolden k (l.cfgOf k) ((l.cfgOf k).over (s.goldenOf k))).releaseRegion k

theorem partialRelease_eq : s.partialRelease h = (s.forAll h.regionList (State.completeRegion s.ctl.load)).loadComplete := rfl

theorem Only.completeRegion (l : Loader) (hm : m.Installs k) (hb : m.bist k) (ho : Only m s t) : Only m s (t.completeRegion l k) :=
  (ho.installGolden hm _ _).releaseRegion hm hb

/-- Region `k` runs what load `l` gave it. -/
structure LoadedBy (l : Loader) (t : State) (k : Nat) : Prop where
  inuse : t.inuse k = (l.cfgOf k).inuse.toNat
  golden : t.goldenValid k = true
  held : (t.getFab k).held = false
  reconf : (t.getSite k).reconf = false
  complete : (t.getSite k).isoIncomplete = false

theorem SameRegion.loaded {l : Loader} (ho : SameRegion s t k) (hs : LoadedBy l s k) : LoadedBy l t k where
  inuse := ho.inuse.trans hs.inuse
  golden := ho.golden.trans hs.golden
  held := by rw [ho.fab]; exact hs.held
  reconf := by rw [ho.site]; exact hs.reconf
  complete := by rw [ho.site]; exact hs.complete

theorem completeRegion_loaded (l : Loader) (hk : k < 16) : LoadedBy l (s.completeRegion l k) k := by
  obtain ⟨hinuse, hgolden, hfab, hsite⟩ :=
    releaseRegion_released (s := s.installGolden k (l.cfgOf k) ((l.cfgOf k).over (s.goldenOf k))) hk
  rw [installGolden_goldenOf, if_pos rfl] at hinuse
  refine ⟨hinuse, hgolden.trans (installGolden_golden _ _), ?_, ?_, ?_⟩
  · rw [State.completeRegion, hfab]; rfl
  · rw [State.completeRegion, hsite]
  · rw [State.completeRegion, hsite]

theorem completeAll_loaded (l : Loader) : ∀ k ∈ h.regionList, LoadedBy l (s.forAll h.regionList (State.completeRegion l)) k :=
  State.forAll_each (P := fun k u => LoadedBy l u k) (fun _ _ hk => completeRegion_loaded l (ImgHdr.lt_of_mem_regionList hk))
    fun u j _ hj hk hjk hu => (((Only.refl _ u).completeRegion l (regionMay_installs j) rfl).sameRegion (ImgHdr.lt_of_mem_regionList hj)
      (ImgHdr.lt_of_mem_regionList hk) hjk).loaded hu

theorem loadComplete_rd {a : Nat} (ha : a ≠ Reg.cfgStatus) : s.loadComplete.rd a = s.rd a :=
  ((Only.refl { reg := fun a => a = Reg.cfgStatus, ctl := True, host := True } s).loadComplete rfl trivial trivial).reg a ha

theorem loadComplete_getFab (j : Nat) : s.loadComplete.getFab j = s.getFab j :=
  ((Only.refl { reg := fun a => a = Reg.cfgStatus, ctl := True, host := True } s).loadComplete rfl trivial trivial).fab j id

theorem loadComplete_getSite (j : Nat) : s.loadComplete.getSite j = s.getSite j :=
  ((Only.refl { reg := fun a => a = Reg.cfgStatus, ctl := True, host := True } s).loadComplete rfl trivial trivial).site j id

theorem loadComplete_sameRegion (s : State) (k : Nat) : SameRegion s s.loadComplete k where
  region := loadComplete_rd (by simp only [Reg.cfgRegion, Reg.cfgStatus]; omega)
  inuse := by
    rw [State.inuse, loadComplete_rd, loadComplete_rd, State.inuse] <;> simp only [Reg.cfgInuseLo, Reg.cfgInuseHi, Reg.cfgStatus] <;> omega
  fab := loadComplete_getFab k
  site := loadComplete_getSite k

/-- CFG_STATUS and the lease as a load that completes leaves them. -/
structure LoadEnded (t : State) : Prop where
  state : t.loadState = ldIdle
  outcome : t.fld Reg.cfgStatus 24 2 = 1
  lease : t.host.staging = false

theorem loadComplete_eq (s : State) :
    s.loadComplete = (((s.setFld Reg.cfgStatus 24 2 1).setLoadState ldIdle).endStaging).modLoad (fun _ => {}) := rfl

theorem loadComplete_cfgStatus (lo len : Nat) :
    s.loadComplete.fld Reg.cfgStatus lo len = ((s.setFld Reg.cfgStatus 24 2 1).setLoadState ldIdle).fld Reg.cfgStatus lo len := by
  rw [loadComplete_eq, State.fld, State.modLoad_rd, State.endStaging_rd, State.fld]

theorem loadComplete_ended (s : State) : LoadEnded s.loadComplete where
  state := (loadComplete_cfgStatus 28 4).trans (setLoadState_loadState (by decide))
  outcome := by
    rw [loadComplete_cfgStatus, State.setLoadState, State.setFld_fld_other _ _ _ _ _ _ _ _ (by decide) (by decide)]
    exact State.setFld_fld _ _ _ _ _ (by decide)
  lease := by rw [loadComplete_eq, State.modLoad_host, State.endStaging_staging]

theorem Only.partialRelease (hm : ∀ k ∈ h.regionList, m.Installs k) (hb : ∀ k ∈ h.regionList, m.bist k) (hr : m.reg Reg.cfgStatus)
    (hh : m.host) (hc : m.ctl) (ho : Only m s t) : Only m s (t.partialRelease h) := by
  rw [partialRelease_eq]
  exact Only.loadComplete (ho.forAll fun _ k hk hu => hu.completeRegion _ (hm k hk) (hb k hk)) hr hh hc

/-- What the completion of a partial load leaves. -/
structure PartialDone (h : ImgHdr) (l : Loader) (t : State) : Prop where
  ended : LoadEnded t
  loaded : ∀ k ∈ h.regionList, LoadedBy l t k

theorem partialRelease_done (s : State) (h : ImgHdr) : PartialDone h s.ctl.load (s.partialRelease h) where
  ended := loadComplete_ended _
  loaded k hk := (loadComplete_sameRegion _ k).loaded (completeAll_loaded _ k hk)

theorem PartialDone.settle {l : Loader} (hd : PartialDone h l t) (s0 : State) : PartialDone h l (State.settle s0 t) where
  ended := ⟨hd.ended.state, hd.ended.outcome, (State.settle_staging s0 t).trans hd.ended.lease⟩
  loaded k hk := ⟨(hd.loaded k hk).inuse, (hd.loaded k hk).golden, (hd.loaded k hk).held, (hd.loaded k hk).reconf, (hd.loaded k hk).complete⟩

/-! ### The accepted body -/

/-- What the acceptance of a body leaves (R309, R311, R312). -/
structure BodyTaken (s : State) (h : ImgHdr) (t : State) : Prop where
  full : h.full = true → t.cfgValid = true ∧ t.loadState = ldRelease ∧ t.ctl.load.accepted = some s.fc
    ∧ t.rd64 Reg.cfgBuildLo = h.build.toNat
    ∧ ∀ k ∈ h.regionList, t.inuse k = s.inuse k ∧ t.goldenValid k = true ∧ t.goldenOf k = s.ctl.load.cfgOf k
  staged : h.full = false → h.staged = true → t.loadState = ldWrite ∧ ∀ k ∈ h.regionList, HeldForLoad t k
  streamed : h.full = false → h.staged = false → PartialDone h s.ctl.load t
  build : h.full = false → t.rd64 Reg.cfgBuildLo = s.rd64 Reg.cfgBuildLo
  only : Only (loadMay h.regionList) s t

theorem BodyTaken.settle (hb : BodyTaken s h t) (s0 : State) : BodyTaken s h (State.settle s0 t) where
  full := hb.full
  staged hf hs := by
    obtain ⟨hstate, hheld⟩ := hb.staged hf hs
    exact ⟨hstate, fun k hk => ⟨(hheld k hk).inuse, (hheld k hk).held, (hheld k hk).state⟩⟩
  streamed hf hs := (hb.streamed hf hs).settle s0
  build := hb.build
  only := hb.only.settle s0

theorem bodyAccepted_taken_full (s : State) (hfull : h.full = true) : BodyTaken s h (s.bodyAccepted h) := by
  have hinstalled : Only (loadMay h.regionList) s (s.installAll h s.ctl.load) := (Only.refl _ s).installAll _
  rw [bodyAccepted_full hfull]
  refine ⟨fun _ => ⟨markAccepted_cfgValid, markAccepted_loadState, ?_, ?_, fun k hk => ⟨?_, ?_, ?_⟩⟩, ?_, ?_, ?_, hinstalled.markAccepted⟩
  · rw [markAccepted_accepted, (hinstalled.time id).2.1]
  · rw [State.rd64, markAccepted_rd (by decide) (by decide), markAccepted_rd (by decide) (by decide)]
    exact installAll_build _
  · rw [State.inuse, markAccepted_rd, markAccepted_rd] <;> try (simp only [Reg.cfgInuseLo, Reg.cfgInuseHi, Reg.glbMode, Reg.cfgStatus]; omega)
    exact installAll_inuse _ (ImgHdr.lt_of_mem_regionList hk)
  · rw [State.goldenValid, State.bit, markAccepted_rd] <;> try (simp only [Reg.cfgRegion, Reg.glbMode, Reg.cfgStatus]; omega)
    exact (installAll_golden _ hk).1
  · exact markAccepted_goldenOf.trans (installAll_golden _ hk).2
  all_goals exact fun hf => absurd hfull (by simp [hf])

end Sys2Proof.Machine
end

section
/-! The checks of a body (R309, R300), and the write phase of a staged load (R311, R312, R374). -/

namespace Sys2Proof.Machine

variable {m : May} {s t u : State} {k : Nat} {h : ImgHdr}

/-! ### The acceptance of a partial load -/

theorem cfgBuild_not_loaded : ∀ k ∈ h.regionList, ¬ regionRegs k Reg.cfgBuildLo ∧ ¬ regionRegs k (Reg.cfgBuildLo + 4) := fun _ hk =>
  cfgBuild_not_region (ImgHdr.lt_of_mem_regionList hk)

/-- What a partial load may change: all that a load may but the registers of a full one. -/
def partialMay (h : ImgHdr) : May :=
  { loadMay h.regionList with reg := fun a => a = Reg.cfgStatus ∨ ∃ k ∈ h.regionList, regionRegs k a }

theorem partialMay_installs (hk : k ∈ h.regionList) : (partialMay h).Installs k := ⟨fun _ ha => .inr ⟨k, hk, ha⟩, hk, hk, trivial⟩

theorem Only.partialBuild (ho : Only (partialMay h) s t) : t.rd64 Reg.cfgBuildLo = s.rd64 Reg.cfgBuildLo :=
  ho.rd64_eq (not_or.mpr ⟨by decide, fun ⟨k, hk, ha⟩ => (cfgBuild_not_loaded k hk).1 ha⟩)
    (not_or.mpr ⟨by decide, fun ⟨k, hk, ha⟩ => (cfgBuild_not_loaded k hk).2 ha⟩)

theorem Only.holdPartial (ho : Only m s t) (hm : ∀ k ∈ h.regionList, m.Installs k) (hb : ∀ k ∈ h.regionList, m.bist k) :
    Only m s (t.holdPartial h) := by
  rw [holdPartial_eq]
  exact ho.forAll fun _ k hk hu => hu.holdLoaded (hm k hk) (hb k hk)

theorem holdPartial_held (s : State) (h : ImgHdr) : ∀ k ∈ h.regionList, HeldForLoad (s.holdPartial h) k :=
  State.forAll_each (P := fun k u => HeldForLoad u k) (fun _ _ hk => holdLoaded_held (ImgHdr.lt_of_mem_regionList hk))
    fun u j _ hj hk hjk hu => (((Only.refl _ u).holdLoaded (regionMay_installs j) rfl).sameRegion (ImgHdr.lt_of_mem_regionList hj)
      (ImgHdr.lt_of_mem_regionList hk) hjk).held hu

theorem setLoadState_sameRegion (s : State) (c k : Nat) : SameRegion s (s.setLoadState c) k where
  region := by
    rw [State.setLoadState, State.setFld_rd, if_neg (by simp only [Reg.cfgRegion, Reg.cfgStatus]; omega)]
  inuse := by
    rw [State.setLoadState, State.inuse, State.setFld_rd, State.setFld_rd, if_neg, if_neg, State.inuse] <;>
      simp only [Reg.cfgInuseLo, Reg.cfgInuseHi, Reg.cfgStatus] <;> omega
  fab := s.wr_getFab _ _ _
  site := s.wr_getSite _ _ _

theorem bodyAccepted_staged (hf : h.full = false) (hs : h.staged = true) : s.bodyAccepted h = (s.holdPartial h).setLoadState ldWrite := by
  unfold State.bodyAccepted
  rw [if_neg (by simp [hf]), if_pos hs]

theorem bodyAccepted_streamed (hf : h.full = false) (hs : h.staged = false) : s.bodyAccepted h = s.partialRelease h := by
  unfold State.bodyAccepted
  rw [if_neg (by simp [hf]), if_neg (by simp [hs])]

theorem bodyAccepted_partialMay (s : State) (hf : h.full = false) {m : May} (hm : ∀ k ∈ h.regionList, m.Installs k)
    (hb : ∀ k ∈ h.regionList, m.bist k) (hr : m.reg Reg.cfgStatus) (hh : m.host) (hc : m.ctl) : Only m s (s.bodyAccepted h) := by
  cases hs : h.staged with
  | true =>
    rw [bodyAccepted_staged hf hs]
    exact ((Only.refl m s).holdPartial hm hb).setFld 28 4 ldWrite hr
  | false =>
    rw [bodyAccepted_streamed hf hs]
    exact (Only.refl m s).partialRelease hm hb hr hh hc

theorem bodyAccepted_taken_partial (s : State) (hf : h.full = false) : BodyTaken s h (s.bodyAccepted h) where
  full hfull := absurd hfull (by simp [hf])
  staged _ hs := by
    rw [bodyAccepted_staged hf hs]
    exact ⟨setLoadState_loadState (by decide), fun k hk => (setLoadState_sameRegion _ _ k).held (holdPartial_held s h k hk)⟩
  streamed _ hs := by
    rw [bodyAccepted_streamed hf hs]
    exact partialRelease_done s h
  build _ := Only.partialBuild (bodyAccepted_partialMay s hf (fun _ => partialMay_installs) (fun _ => id) (.inl rfl) trivial trivial)
  only := bodyAccepted_partialMay s hf (fun _ => loadMay_installs) (fun _ => id) (.inl (.inl rfl)) trivial trivial

theorem bodyAccepted_taken (s : State) (h : ImgHdr) : BodyTaken s h (s.bodyAccepted h) := by
  cases hf : h.full with
  | true => exact bodyAccepted_taken_full s hf
  | false => exact bodyAccepted_taken_partial s hf

/-- A command whose meaning is the acceptance of the body. -/
theorem BodyTaken.answers {c : Instr} (hexec : exec c s = fin s (s.bodyAccepted h)) : Answers c s (BodyTaken s h) :=
  .of_fin hexec ((bodyAccepted_taken s h).settle s)

/-! ### The checks of the body (R309, R300) -/

theorem rejected_answers {c : Instr} {code : Nat} (hh : s.ctl.load.hdr = some h) (hcode : code < 256)
    (hexec : exec c s = fin s (s.loadReject code)) : Answers c s (fun t => Rejected s t code ∧ Only (loadMay h.regionList) s t) := by
  have hregions : s.loadRegions = h.regionList := by rw [State.loadRegions, hh]; rfl
  have honly : Only (loadMay h.regionList) s (s.loadReject code) :=
    (Only.refl _ s).loadReject (by rw [hregions]; exact fun _ ha => ha) (by rw [hregions]; exact fun _ hk => hk) trivial trivial
  exact .of_fin hexec ⟨(loadReject_rejected hcode).settle s, honly.settle s⟩

section Body
variable (hh : s.ctl.load.hdr = some h) (hstate : s.loadState = ldFrames) (hdone : s.ctl.load.done.length = h.frames) (hbuf : s.ctl.load.buf = [])
include hh hstate hdone hbuf

theorem bodyCheck_exec : exec .bodyCheck s = fin s (if s.ctl.load.crc ≠ h.bodyCrc then s.loadReject 0x0B
    else if h.signed && !s.variantE then s.setLoadState ldBody else s.bodyAccepted h) := by
  show execBodyCheck s = _
  unfold execBodyCheck
  rw [hh]
  exact congrArg (fin s) (if_neg (by simp [hstate, hdone, hbuf]))

theorem bodyCheck_crc (hcrc : s.ctl.load.crc ≠ h.bodyCrc) : exec .bodyCheck s = fin s (s.loadReject 0x0B) := by
  rw [bodyCheck_exec hh hstate hdone hbuf, if_pos hcrc]

theorem bodyCheck_accepts (hcrc : s.ctl.load.crc = h.bodyCrc) (hsig : h.signed = false ∨ s.variantE = true) :
    exec .bodyCheck s = fin s (s.bodyAccepted h) := by
  rw [bodyCheck_exec hh hstate hdone hbuf, if_neg (not_not_intro hcrc), if_neg]
  rcases hsig with hsig | hsig <;> simp [hsig]

theorem bodyCheck_signed (hcrc : s.ctl.load.crc = h.bodyCrc) (hsig : h.signed = true) (hvar : s.variantE = false) :
    exec .bodyCheck s = fin s (s.setLoadState ldBody) := by
  rw [bodyCheck_exec hh hstate hdone hbuf, if_neg (not_not_intro hcrc), if_pos (by simp [hsig, hvar])]

end Body

theorem bodyCheck_verifies (hexec : exec .bodyCheck s = fin s (s.setLoadState ldBody)) : Answers .bodyCheck s (fun t =>
    t.loadState = ldBody ∧ t.ctl = s.ctl ∧ Only { reg := loadRegs } s t) := by
  have honly : Only { reg := loadRegs } s (s.setLoadState ldBody) := (Only.refl { reg := loadRegs } s).setFld 28 4 ldBody (.inl rfl)
  refine .of_ends hexec fun t hends hsettled => ⟨?_, hends.ctl.trans (honly.ctl id), hsettled _ honly⟩
  rw [State.loadState, hends.fld]
  exact setLoadState_loadState (by decide)

theorem signatureVerified_key {key : List Byte} (hh : s.ctl.load.hdr = some h) (hstate : s.loadState = ldBody)
    (hkey : s.keyOf h.key.toNat 2 = some key) : exec .signatureVerified s
      = fin s (if Config.signatureValid key s.ctl.load.msg h.sig then s.bodyAccepted h else s.loadReject 0x0A) := by
  show execSignatureVerified s = _
  unfold execSignatureVerified
  rw [hh]
  dsimp only
  rw [if_neg (not_not_intro hstate), hkey]

theorem signatureVerified_unknown (hh : s.ctl.load.hdr = some h) (hstate : s.loadState = ldBody) (hkey : s.keyOf h.key.toNat 2 = none) :
    exec .signatureVerified s = fin s (s.loadReject 0x0A) := by
  show execSignatureVerified s = _
  unfold execSignatureVerified
  rw [hh]
  dsimp only
  rw [if_neg (not_not_intro hstate), hkey]

theorem signatureVerified_answers {key : List Byte} (hh : s.ctl.load.hdr = some h) (hstate : s.loadState = ldBody)
    (hkey : s.keyOf h.key.toNat 2 = some key) : Answers .signatureVerified s (fun t =>
      if Config.signatureValid key s.ctl.load.msg h.sig then BodyTaken s h t else Rejected s t 0x0A ∧ Only (loadMay h.regionList) s t) := by
  have hexec := signatureVerified_key hh hstate hkey
  split at hexec
  · next hvalid =>
    simp only [hvalid, if_true]
    exact BodyTaken.answers hexec
  · next hvalid =>
    simp only [hvalid]
    exact rejected_answers hh (by decide) hexec

/-! ### The checks of the scratchpad (R374) -/

/-- What the checks of the scratchpad found is counted and shown. -/
def Checked (o : SpdObs) (s t : State) : Prop :=
  t.fld Reg.spdEcc 0 16 = min (s.fld Reg.spdEcc 0 16 + o.singles) (2 ^ 16 - 1) ∧ (o.double = true → t.bit Reg.spdEvt 1 = true)

theorem Checked.of_rd {o : SpdObs} (hc : Checked o s t) (he : u.rd Reg.spdEcc = t.rd Reg.spdEcc) (hv : u.rd Reg.spdEvt = t.rd Reg.spdEvt) :
    Checked o s u := by
  unfold Checked State.fld State.bit
  rw [he, hv]
  exact hc

theorem spdChecked_checked (o : SpdObs) (s : State) : Checked o s (s.spdChecked o) := by
  have hcount : (if o.singles = 0 then s else s.satAdd Reg.spdEcc 0 16 o.singles).fld Reg.spdEcc 0 16
      = min (s.fld Reg.spdEcc 0 16 + o.singles) (2 ^ 16 - 1) := by
    split
    · next hzero =>
      have hlt : s.fld Reg.spdEcc 0 16 < 2 ^ 16 := Nat.mod_lt _ (by decide)
      omega
    · exact State.satAdd_fld _ _ _ _ (by decide)
  unfold State.spdChecked
  extract_lets v
  split
  · exact ⟨(v.setFld_fld_other _ _ _ _ _ _ _ (by decide) (.inl (by decide))).trans hcount, fun _ => v.setBit_bit _ _ _ (by decide)⟩
  · next hdouble => exact ⟨hcount, fun hd => absurd hd hdouble⟩

/-! ### The write phase of a staged load (R311, R312) -/

/-- The frame that the write phase writes next. -/
def State.nextStaged (s : State) : Nat := s.ctl.load.done.getD (s.ctl.load.done.length - 1 - s.ctl.load.written) 0

/-- The data of that frame, as the checks of the scratchpad deliver them. -/
def State.stagedData (s : State) (h : ImgHdr) : BitVec 4096 := bytesVec 4096 (flipBytes (s.freeObs 512) (s.stagedFrame h s.nextStaged))

/-- The write phase has written its next frame. -/
def State.writeStaged (s : State) (h : ImgHdr) : State :=
  ((s.tickFree.spdChecked (s.freeObs 512)).writeFrame s.nextStaged (s.stagedData h) (s.ctl.load.rel.getD s.ctl.load.written 0)).modLoad
    (fun l => { l with written := l.written + 1 })

/-- The registers that the checks of the scratchpad change. -/
def spdRegs (a : Nat) : Prop := a = Reg.spdEcc ∨ a = Reg.spdEvt

theorem Only.writeStaged (h : ImgHdr) (ho : Only m s t) (hr : ∀ a, spdRegs a → m.reg a) (hf : m.free) (hc : m.ctl) :
    Only m s (t.writeStaged h) :=
  (((ho.tickFree hf).spdChecked _ (hr _ (.inl rfl)) (hr _ (.inr rfl))).writeFrame _ _ _ hc).modLoad _ hc

theorem spdChecked_ctl (o : SpdObs) (s : State) : (s.spdChecked o).ctl = s.ctl :=
  (Only.spdChecked o (Only.refl { reg := spdRegs } s) (.inl rfl) (.inr rfl)).ctl id

/-- What a written frame leaves of the configuration controller. -/
structure FrameWritten (s : State) (h : ImgHdr) (t : State) : Prop where
  written : t.ctl.load.written = s.ctl.load.written + 1
  cfg : t.ctl.load.cfg = s.ctl.load.cfg
  frame : t.getFrame s.nextStaged = s.stagedData h
  golden : Sparse.get (fun _ => 0) t.ctl.golden s.nextStaged = s.stagedData h
  others : ∀ g, g ≠ s.nextStaged → t.getFrame g = s.getFrame g
  checked : Checked (s.freeObs 512) s t

theorem writeStaged_written (s : State) (h : ImgHdr) : FrameWritten s h (s.writeStaged h) := by
  have hctl := spdChecked_ctl (s.freeObs 512) s.tickFree
  have hchecked := spdChecked_checked (s.freeObs 512) s.tickFree
  unfold State.writeStaged
  generalize s.tickFree.spdChecked (s.freeObs 512) = v at hctl hchecked ⊢
  have hload : v.ctl.load = s.ctl.load := congrArg CtxLayer.load hctl
  have hframes : v.ctl.frames = s.ctl.frames := congrArg CtxLayer.frames hctl
  refine ⟨congrArg (fun l : Loader => l.written + 1) hload, (congrArg Loader.cfg hload :), ?_, ?_, fun g hg => ?_, hchecked.of_rd rfl rfl⟩
  · exact (Sparse.get_set _ _ _ _ _).trans (if_pos rfl)
  · exact (Sparse.get_set _ _ _ _ _).trans (if_pos rfl)
  · refine (Sparse.get_set _ _ _ _ _).trans ((if_neg hg).trans ?_)
    rw [hframes, State.getFrame]

theorem FrameWritten.settle (hw : FrameWritten s h t) (s0 : State) : FrameWritten s h (State.settle s0 t) :=
  ⟨hw.written, hw.cfg, hw.frame, hw.golden, hw.others, hw.checked⟩

theorem Checked.settle {o : SpdObs} (hc : Checked o s t) (s0 : State) : Checked o s (State.settle s0 t) := hc

/-- The completion takes the sections as they were before the last frame. -/
theorem partialRelease_loaded {l : Loader} (hcfg : s.ctl.load.cfg = l.cfg) : PartialDone h l (s.partialRelease h) := by
  have hof : s.ctl.load.cfgOf = l.cfgOf := funext fun k => by rw [Loader.cfgOf, hcfg, Loader.cfgOf]
  obtain ⟨hended, hloaded⟩ := partialRelease_done s h
  refine ⟨hended, fun k hk => ?_⟩
  obtain ⟨hinuse, hgolden, hheld, hreconf, hcomplete⟩ := hloaded k hk
  exact ⟨hof ▸ hinuse, hgolden, hheld, hreconf, hcomplete⟩

theorem partialRelease_spd (s : State) (h : ImgHdr) : (s.partialRelease h).rd Reg.spdEcc = s.rd Reg.spdEcc
    ∧ (s.partialRelease h).rd Reg.spdEvt = s.rd Reg.spdEvt := by
  have honly : Only (partialMay h) s (s.partialRelease h) :=
    (Only.refl _ s).partialRelease (fun _ => partialMay_installs) (fun _ => id) (.inl rfl) trivial trivial
  have hnot {a : Nat} (hne : a ≠ Reg.cfgStatus) (hregion : ∀ k, k < 16 → ¬ regionRegs k a) : ¬ (partialMay h).reg a := by
    rintro (hst | ⟨k, hk, hreg⟩)
    · exact hne hst
    · exact hregion k (ImgHdr.lt_of_mem_regionList hk) hreg
  exact ⟨honly.reg _ (hnot (by decide) fun _ hk hr => absurd (regionRegs_range hk hr) (by decide)),
    honly.reg _ (hnot (by decide) fun _ hk hr => absurd (regionRegs_range hk hr) (by decide))⟩

section Write
variable (hh : s.ctl.load.hdr = some h) (hstate : s.loadState = ldWrite) (hreach : s.cfgReaches = true)
include hh hstate hreach

theorem partialFrameWrite_exec : exec .partialFrameWrite s
    = fin s (if (s.writeStaged h).ctl.load.written < h.frames then s.writeStaged h else (s.writeStaged h).partialRelease h) := by
  show execPartialFrameWrite s = _
  unfold execPartialFrameWrite
  rw [hh]
  exact congrArg (fin s) (if_neg (by simp [hstate, hreach]))

theorem partialFrameWrite_next (hmore : s.ctl.load.written + 1 < h.frames) : Answers .partialFrameWrite s (fun t =>
    FrameWritten s h t ∧ Only { reg := spdRegs, ctl := True, free := True } s t) := by
  have hw := writeStaged_written s h
  have hexec := partialFrameWrite_exec hh hstate hreach
  rw [if_pos (hw.written ▸ hmore)] at hexec
  exact .of_fin hexec ⟨hw.settle s, ((Only.refl _ s).writeStaged h (fun _ ha => ha) trivial trivial).settle s⟩

theorem partialFrameWrite_last (hlast : h.frames = s.ctl.load.written + 1) : Answers .partialFrameWrite s (fun t =>
    PartialDone h s.ctl.load t ∧ Checked (s.freeObs 512) s t
      ∧ Only { loadMay h.regionList with free := True, reg := fun a => (loadMay h.regionList).reg a ∨ spdRegs a } s t) := by
  have hw := writeStaged_written s h
  have hexec := partialFrameWrite_exec hh hstate hreach
  rw [if_neg (by rw [hw.written, hlast]; exact Nat.lt_irrefl _)] at hexec
  have honly : Only { loadMay h.regionList with free := True, reg := fun a => (loadMay h.regionList).reg a ∨ spdRegs a } s
      ((s.writeStaged h).partialRelease h) :=
    ((Only.refl _ s).writeStaged h (fun _ ha => Or.inr ha) trivial trivial).partialRelease
      (fun k hk => ⟨fun _ ha => .inl (.inr (.inr ⟨k, hk, ha⟩)), hk, hk, trivial⟩) (fun _ => id) (.inl (.inl (.inl rfl))) trivial trivial
  exact .of_fin hexec ⟨(partialRelease_loaded hw.cfg).settle s,
    (hw.checked.of_rd (partialRelease_spd _ h).1 (partialRelease_spd _ h).2).settle s, honly.settle s⟩

end Write

end Sys2Proof.Machine
end

section
/-! The release at start-up (R48) and after a restore lap (R52). -/

namespace Sys2Proof.Machine

variable {m : May} {s t u v : State} {k : Nat}

/-- Do one thing for each of a list without repetition: a member is as before until its turn, and afterwards as its turn left it. -/
theorem State.forAll_once {P Q : Nat → State → Prop} {f : State → Nat → State} {l : List Nat} (hnodup : l.Nodup) (hq : ∀ k ∈ l, Q k s)
    (hset : ∀ u k, k ∈ l → Q k u → P k (f u k)) (hwait : ∀ u j k, j ∈ l → k ∈ l → j ≠ k → Q k u → Q k (f u j))
    (hkeep : ∀ u j k, j ∈ l → k ∈ l → j ≠ k → P k u → P k (f u j)) : ∀ k ∈ l, P k (s.forAll l f) := by
  intro k hk
  obtain ⟨front, back, rfl⟩ := List.append_of_mem hk
  have hfront : ∀ j ∈ front, j ≠ k := fun j hj he => (List.nodup_append.mp hnodup).2.2 j hj k List.mem_cons_self he
  have hback : ∀ j ∈ back, j ≠ k := fun j hj he => (List.nodup_cons.mp (List.nodup_append.mp hnodup).2.1).1 (he ▸ hj)
  unfold State.forAll
  rw [List.foldl_append, List.foldl_cons]
  refine State.forAll_keeps (l := back) (P := P k) (hset _ k hk ?_) fun u j hj hu => hkeep u j k (by simp [hj]) hk (hback j hj) hu
  exact State.forAll_keeps (l := front) (P := Q k) (hq k hk) fun u j hj hu => hwait u j k (by simp [hj]) hk (hfront j hj) hu

/-! ### The mode at the release -/

/-- The mode and what stands beside it in GLB_MODE stay while the sites are reported. -/
structure ModeKept (v u : State) : Prop where
  mode : u.rd Reg.glbMode = v.rd Reg.glbMode
  stays : u.ModeStays

theorem ModeKept.follow (hv : ModeKept v u) (ho : Only (regionMay k) u t) (hmode : t.rd Reg.glbMode = u.rd Reg.glbMode) (hk : k < 16) :
    ModeKept v (t.followSite k) := by
  obtain ⟨hruns, hnot⟩ := hv.stays
  have hmodes : t.mode = u.mode := by rw [State.mode, State.fld, hmode, State.mode, State.fld]
  have hstays : t.ModeStays := ⟨(ho.anyRuns fun j hj => not_regionRegs_seqStatus hk hj).trans hruns, hmodes ▸ hnot⟩
  have hrd := followSite_glbMode (k := k) hstays
  have hruns' : (t.followSite k).anyRuns = t.anyRuns := by
    simp only [State.anyRuns, funext fun j => followSite_seqRuns (s := t) k j]
  refine ⟨hrd.trans (hmode.trans hv.mode), hruns'.trans hstays.1, ?_⟩
  rw [State.mode, State.fld, hrd, ← State.fld, ← State.mode]
  exact hstays.2

/-! ### The release begins -/

/-- The time and the mode of the release of fc `f`. -/
def State.releaseMode (s : State) (f : Nat) : State :=
  let v := s.runTo f
  if v.mode = modeLOAD then (v.setMode modeREADY).setBit Reg.glbMode 3 false else v

/-- The release begins: the scrub lap, if at its start, is timed from now on. -/
def State.releaseStart (s : State) (f : Nat) : State :=
  let v := s.releaseMode f
  if v.fld Reg.cfgScrub 0 20 = 0 then { v with ctl := { v.ctl with lapStart := v.tsc.toNat } } else v

/-- What the beginning of the release may change. -/
def beginMay : May := { reg := fun a => a = Reg.glbMode, time := True, ctl := True }

theorem Only.releaseMode (f : Nat) (h : Only m s t) (hr : m.reg Reg.glbMode) (ht : m.time) : Only m s (t.releaseMode f) := by
  unfold State.releaseMode
  extract_lets v
  exact (h.runTo f ht).ite (((h.runTo f ht).setFld _ _ _ hr).setBit _ _ hr)

theorem Only.releaseStart (f : Nat) (h : Only m s t) (hr : m.reg Reg.glbMode) (ht : m.time) (hc : m.ctl) : Only m s (t.releaseStart f) := by
  unfold State.releaseStart
  extract_lets v
  exact (h.releaseMode f hr ht).ite ((h.releaseMode f hr ht).setCtl hc)

theorem releaseStart_rd (f a : Nat) : (s.releaseStart f).rd a = (s.releaseMode f).rd a := by
  unfold State.releaseStart
  extract_lets v
  split <;> rfl

theorem releaseStart_fc (f : Nat) : (s.releaseStart f).fc = max s.fc f := by
  have hmode : (s.releaseMode f).fc = max s.fc f := by
    unfold State.releaseMode
    extract_lets v
    have hv : v.fc = max s.fc f := runTo_fc f
    split
    · rw [State.setBit, State.setFld, State.wr_fc, State.setMode, State.setFld, State.wr_fc, hv]
    · exact hv
  unfold State.releaseStart
  extract_lets v
  split <;> exact hmode

theorem releaseMode_ctl (f : Nat) : (s.releaseMode f).ctl = s.ctl :=
  (Only.releaseMode f (Only.refl { reg := fun a => a = Reg.glbMode, time := True } s) rfl trivial).ctl id

/-- The beginning of the release touches nothing but the lap of the configuration controller. -/
theorem releaseStart_ctl (f : Nat) : (s.releaseStart f).ctl.load = s.ctl.load ∧ (s.releaseStart f).ctl.goldenCfg = s.ctl.goldenCfg := by
  have hctl := releaseMode_ctl (s := s) f
  unfold State.releaseStart
  extract_lets v
  have hload : v.ctl.load = s.ctl.load := congrArg CtxLayer.load hctl
  have hgolden : v.ctl.goldenCfg = s.ctl.goldenCfg := congrArg CtxLayer.goldenCfg hctl
  split <;> exact ⟨hload, hgolden⟩

theorem runTo_mode (f : Nat) : (s.runTo f).mode = s.mode := by
  rw [State.mode, State.fld, runTo_rd, State.mode, State.fld]

theorem releaseMode_mode (f : Nat) (hmode : s.mode = modeLOAD ∨ s.mode = modeSAFE) :
    (s.releaseMode f).mode = (if s.mode = modeLOAD then modeREADY else modeSAFE)
      ∧ (s.mode = modeLOAD → (s.releaseMode f).bit Reg.glbMode 3 = false) := by
  unfold State.releaseMode
  extract_lets v
  have hv : v.mode = s.mode := runTo_mode f
  by_cases hload : s.mode = modeLOAD
  · rw [if_pos (hv.trans hload), if_pos hload]
    exact ⟨(State.setFld_fld_other _ _ _ _ _ _ _ _ (by decide) (by decide)).trans (State.setFld_fld _ _ _ _ _ (by decide)),
      fun _ => State.setBit_bit _ _ _ _ (by decide)⟩
  · rw [if_neg (hv ▸ hload), if_neg hload]
    exact ⟨hv.trans (hmode.resolve_left hload), fun h => absurd h hload⟩

theorem releaseStart_mode (f : Nat) (hmode : s.mode = modeLOAD ∨ s.mode = modeSAFE) :
    (s.releaseStart f).mode = (if s.mode = modeLOAD then modeREADY else modeSAFE)
      ∧ (s.mode = modeLOAD → (s.releaseStart f).bit Reg.glbMode 3 = false) := by
  rw [State.mode, State.fld, State.bit, releaseStart_rd]
  exact releaseMode_mode f hmode

theorem releaseStart_kept (f : Nat) (hmode : s.mode = modeLOAD ∨ s.mode = modeSAFE) (hruns : s.anyRuns = false) :
    ModeKept (s.releaseStart f) (s.releaseStart f) := by
  have honly : Only beginMay s (s.releaseStart f) := (Only.refl _ s).releaseStart f rfl trivial trivial
  refine ⟨rfl, (honly.anyRuns fun k hk => ?_).trans hruns, ?_⟩
  · simp only [beginMay, Reg.seqStatus, Reg.glbMode]
    omega
  · rw [(releaseStart_mode f hmode).1]
    split <;> decide

/-- A region at the beginning of the release is as before. -/
theorem releaseStart_sameRegion (f : Nat) : SameRegion s (s.releaseStart f) k := by
  have honly : Only beginMay s (s.releaseStart f) := (Only.refl _ s).releaseStart f rfl trivial trivial
  refine ⟨honly.reg _ ?_, ?_, honly.fab _ id, honly.site _ id⟩
  · simp only [beginMay, Reg.cfgRegion, Reg.glbMode]
    omega
  · rw [State.inuse, honly.reg, honly.reg, State.inuse] <;> simp only [beginMay, Reg.cfgInuseLo, Reg.cfgInuseHi, Reg.glbMode] <;> omega

theorem releaseStart_goldenOf (f : Nat) : (s.releaseStart f).goldenOf k = s.goldenOf k := by
  rw [State.goldenOf, (releaseStart_ctl f).2, State.goldenOf]

/-! ### The release of a full load (R48) -/

/-- No lane of site `k` carries a park reason on. -/
def State.unpark (s : State) (k : Nat) : State := s.modSite k (fun x => { x with parkReason := 0 })

/-- Region `k` is released after a full load. -/
def State.releaseLoaded (s : State) (k : Nat) : State := (s.unpark k).releaseRegion k

theorem Only.releaseLoaded (hm : m.Installs k) (hb : m.bist k) (h : Only m s t) : Only m s (t.releaseLoaded k) :=
  (h.modSite _ hm.site).releaseRegion hm hb

theorem unpark_goldenOf (j : Nat) : (s.unpark k).goldenOf j = s.goldenOf j := rfl

theorem releaseLoaded_goldenOf (j : Nat) : (s.releaseLoaded k).goldenOf j = s.goldenOf j :=
  (releaseRegion_goldenOf j).trans (unpark_goldenOf j)

theorem not_glbMode_of_free (hk : k < 16) : Reg.glbMode ≠ Reg.cfgRegion k ∧ Reg.glbMode ≠ Reg.safBistDebt k
    ∧ Reg.glbMode ≠ Reg.cfgInuseLo k + 4 ∧ Reg.glbMode ≠ Reg.cfgInuseLo k := by
  simp only [Reg.glbMode, Reg.cfgRegion, Reg.safBistDebt, Reg.cfgInuseLo]
  omega

theorem releaseLoaded_modeKept (hv : ModeKept v u) (hk : k < 16) : ModeKept v (u.releaseLoaded k) := by
  obtain ⟨hregion, hdebt, hhi, hlo⟩ := not_glbMode_of_free hk
  have hinstalls := regionMay_installs k
  have honly : Only (regionMay k) u (((u.unpark k).freeRegion k).showRegion k) := by
    refine Only.showRegion hinstalls (Only.debtClear hinstalls rfl (Only.setIcp hinstalls _ ?_))
    exact (((((Only.refl (regionMay k) u).modSite _ rfl).setInuse hinstalls _).modFab _ rfl).modSite _ rfl)
  rw [State.releaseLoaded, releaseRegion_eq]
  refine hv.follow honly ?_ hk
  rw [showRegion_rd_of_ne hregion, freeRegion_rd hdebt, State.setInuse, State.wr64_rd, if_neg hhi, if_neg hlo, State.unpark, State.modSite_rd]

/-- Region `k` of a full load as its release leaves it. -/
structure StartedUp (s t : State) (k : Nat) : Prop where
  inuse : t.inuse k = (s.goldenOf k).inuse.toNat
  fab : t.getFab k = ({ s.getFab k with held := false } : Fabric).restart
  reconf : (t.getSite k).reconf = false
  park : (t.getSite k).parkReason = 0

/-- A region whose release is still to come. -/
def Unreleased (s u : State) (k : Nat) : Prop := SameRegion s u k ∧ u.goldenOf k = s.goldenOf k

theorem SameRegion.trans (h : SameRegion s t k) (g : SameRegion t u k) : SameRegion s u k :=
  ⟨g.region.trans h.region, g.inuse.trans h.inuse, g.fab.trans h.fab, g.site.trans h.site⟩

theorem SameRegion.started (h : SameRegion t u k) (hs : StartedUp s t k) : StartedUp s u k where
  inuse := h.inuse.trans hs.inuse
  fab := h.fab.trans hs.fab
  reconf := by rw [h.site]; exact hs.reconf
  park := by rw [h.site]; exact hs.park

theorem releaseLoaded_started (hk : k < 16) (hu : Unreleased s u k) : StartedUp s (u.releaseLoaded k) k := by
  obtain ⟨hsame, hgolden⟩ := hu
  obtain ⟨hinuse, -, hfab, hsite⟩ := releaseRegion_released (s := u.unpark k) hk
  refine ⟨?_, ?_, ?_, ?_⟩
  · rw [State.releaseLoaded, hinuse, unpark_goldenOf, hgolden]
  · rw [State.releaseLoaded, hfab, State.unpark, State.modSite_getFab, hsame.fab]
  · rw [State.releaseLoaded, hsite]
  · rw [State.releaseLoaded, hsite]

theorem sites_nodup : sites.Nodup := List.nodup_range

theorem releaseAll_started (hv : ∀ k ∈ sites, Unreleased s v k) : ∀ k ∈ sites, StartedUp s (v.forAll sites State.releaseLoaded) k := by
  have hother (u : State) (j k : Nat) (hj : j ∈ sites) (hk : k ∈ sites) (hjk : j ≠ k) : SameRegion u (u.releaseLoaded j) k :=
    ((Only.refl _ u).releaseLoaded (regionMay_installs j) rfl).sameRegion (List.mem_range.mp hj) (List.mem_range.mp hk) hjk
  refine State.forAll_once (P := fun k u => StartedUp s u k) (Q := fun k u => Unreleased s u k) sites_nodup hv
    (fun u k hk hu => releaseLoaded_started (List.mem_range.mp hk) hu) (fun u j k hj hk hjk hu => ?_)
    fun u j k hj hk hjk hu => (hother u j k hj hk hjk).started hu
  exact ⟨hu.1.trans (hother u j k hj hk hjk), (releaseLoaded_goldenOf k).trans hu.2⟩

/-! ### The release after a restore lap (R52) -/

/-- Region `k` runs from its initial values. -/
def State.startRegion (s : State) (k : Nat) : State := s.modFab k (fun x => ({ x with held := false } : Fabric).restart)

/-- Region `k` is released after a restore lap, unless a load left it INCOMPLETE. -/
def State.releaseLap (s : State) (k : Nat) : State :=
  if ((s.unpark k).getSite k).isoIncomplete then ((s.unpark k).showRegion k).followSite k
  else (((s.unpark k).startRegion k).showRegion k).followSite k

/-- What the release of region `k` after a restore lap may change. -/
def lapMay (k : Nat) : May := { reg := shownRegs k, site := fun j => j = k, fab := fun j => j = k }

theorem Only.releaseLap (h : Only m s t) (hr : ∀ a, shownRegs k a → m.reg a) (hs : m.site k) (hf : m.fab k) : Only m s (t.releaseLap k) := by
  have hshow {u : State} (hu : Only m s u) : Only m s ((u.showRegion k).followSite k) :=
    Only.followSite k (hu.setFld 29 3 _ (hr _ (by simp [shownRegs]))) (hr _ (by simp [shownRegs])) (hr _ (by simp [shownRegs]))
      (hr _ (by simp [shownRegs]))
  unfold State.releaseLap
  exact (hshow ((h.modSite _ hs).modFab _ hf)).ite (hshow (h.modSite _ hs))

theorem releaseLap_only (s : State) (k : Nat) : Only (lapMay k) s (s.releaseLap k) := (Only.refl _ s).releaseLap (fun _ h => h) rfl rfl

theorem releaseLap_modeKept (hv : ModeKept v u) (hk : k < 16) : ModeKept v (u.releaseLap k) := by
  have hregion := (not_glbMode_of_free hk).1
  have hinstalls := regionMay_installs k
  have hunpark : Only (regionMay k) u (u.unpark k) := (Only.refl (regionMay k) u).modSite _ rfl
  unfold State.releaseLap
  split
  · refine hv.follow (hunpark.showRegion hinstalls) ?_ hk
    rw [showRegion_rd_of_ne hregion, State.unpark, State.modSite_rd]
  · refine hv.follow (Only.showRegion hinstalls (hunpark.modFab _ rfl)) ?_ hk
    rw [showRegion_rd_of_ne hregion, State.startRegion, State.modFab_rd, State.unpark, State.modSite_rd]

theorem releaseLap_inuse {j : Nat} (hj : j < 16) (hk : k < 16) : (s.releaseLap k).inuse j = s.inuse j := by
  have honly := releaseLap_only s k
  rw [State.inuse, honly.reg, honly.reg, State.inuse] <;>
    simp only [lapMay, shownRegs, Reg.cfgInuseLo, Reg.cfgInuseHi, Reg.cfgRegion, Reg.fabResInject, Reg.glbSiteState, Reg.fabPenStat, Reg.glbMode] <;>
    omega

/-- Region `k` as the release after a restore lap leaves it. -/
structure LapStarted (s t : State) (k : Nat) : Prop where
  held : (t.getFab k).held = ((s.getSite k).isoIncomplete && (s.getFab k).held)
  cells : (s.getSite k).isoIncomplete = false → ∀ c, (t.getFab k).cell c = Cell.initial (s.getFab k).init c
  park : (t.getSite k).parkReason = 0

theorem releaseLap_started (hfab : u.getFab k = s.getFab k) (hsite : u.getSite k = s.getSite k) : LapStarted s (u.releaseLap k) k := by
  have hunpark : (u.unpark k).getSite k = { s.getSite k with parkReason := 0 } := by
    rw [State.unpark, State.modSite_getSite, if_pos rfl, hsite]
  have hiso : ((u.unpark k).getSite k).isoIncomplete = (s.getSite k).isoIncomplete := by rw [hunpark]
  unfold State.releaseLap
  rw [hiso]
  split
  · next htrue =>
    have hshown := shown_only (u.unpark k) k
    refine ⟨?_, fun hfalse => absurd hfalse (by simp [htrue]), ?_⟩
    · rw [hshown.fab k id, State.unpark, State.modSite_getFab, hfab, htrue, Bool.true_and]
    · rw [hshown.site k id, hunpark]
  · next hfalse =>
    have hshown := shown_only ((u.unpark k).startRegion k) k
    have hstarted : ((u.unpark k).startRegion k).getFab k = ({ s.getFab k with held := false } : Fabric).restart := by
      rw [State.startRegion, State.modFab_getFab, if_pos rfl, State.unpark, State.modSite_getFab, hfab]
    refine ⟨?_, fun _ c => ?_, ?_⟩
    · rw [hshown.fab k id, hstarted, Bool.eq_false_iff.mpr hfalse]
      rfl
    · rw [hshown.fab k id, hstarted]
      exact restart_cell _ c
    · rw [hshown.site k id, State.startRegion, State.modFab_getSite, hunpark]

theorem lapAll_started (hfab : ∀ k, v.getFab k = s.getFab k) (hsite : ∀ k, v.getSite k = s.getSite k) :
    ∀ k ∈ sites, LapStarted s (v.forAll sites State.releaseLap) k := by
  refine State.forAll_once (P := fun k u => LapStarted s u k) (Q := fun k u => u.getFab k = s.getFab k ∧ u.getSite k = s.getSite k) sites_nodup
    (fun k _ => ⟨hfab k, hsite k⟩) (fun u k _ hu => releaseLap_started hu.1 hu.2) (fun u j k _ _ hjk hu => ?_) fun u j k _ _ hjk hu => ?_
  · exact ⟨((releaseLap_only u j).fab k (Ne.symm hjk)).trans hu.1, ((releaseLap_only u j).site k (Ne.symm hjk)).trans hu.2⟩
  · obtain ⟨hheld, hcells, hpark⟩ := hu
    have hf := (releaseLap_only u j).fab k (Ne.symm hjk)
    have hs := (releaseLap_only u j).site k (Ne.symm hjk)
    exact ⟨by rw [hf]; exact hheld, by rw [hf]; exact hcells, by rw [hs]; exact hpark⟩

/-! ### What the release command answers -/

/-- The mode, and the park reasons, as a release leaves them. -/
structure ReleasedMode (s t : State) : Prop where
  mode : t.mode = (if s.mode = modeLOAD then modeREADY else modeSAFE)
  settled : s.mode = modeLOAD → t.bit Reg.glbMode 3 = false
  park : ∀ k, k < 16 → (t.getSite k).parkReason = 0

theorem ReleasedMode.of_kept {f : Nat} (hmode : s.mode = modeLOAD ∨ s.mode = modeSAFE) (hrd : t.rd Reg.glbMode = (s.releaseStart f).rd Reg.glbMode)
    (hpark : ∀ k ∈ sites, (t.getSite k).parkReason = 0) : ReleasedMode s t where
  mode := by
    rw [State.mode, State.fld, hrd]
    exact (releaseStart_mode f hmode).1
  settled hload := by
    rw [State.bit, hrd]
    exact (releaseStart_mode f hmode).2 hload
  park k hk := hpark k (List.mem_range.mpr hk)

theorem ReleasedMode.settle (h : ReleasedMode s t) (s0 : State) : ReleasedMode s (State.settle s0 t) := ⟨h.mode, h.settled, h.park⟩

section Release
variable {f : Nat} (hclocks : s.clocksRun = true) (hmode : s.mode = modeLOAD ∨ s.mode = modeSAFE) (hruns : s.anyRuns = false)

/-- A region that no longer carries a park reason on in its turn, after a full load or a restore lap. -/
def State.releaseSite (load : Bool) (s : State) (k : Nat) : State :=
  if load then s.releaseRegion k
  else if (s.getSite k).isoIncomplete then (s.showRegion k).followSite k
  else ((s.startRegion k).showRegion k).followSite k

/-- Every region in its turn. -/
def State.releaseSites (load : Bool) (s : State) : State := s.forAll sites (fun s k => (s.unpark k).releaseSite load k)

/-- The load or the lap is over. -/
def State.releaseEnd (load : Bool) (s : State) : State := if load then s.loadComplete else { s with ctl := { s.ctl with release := none } }

theorem releaseSites_load (s : State) : s.releaseSites true = s.forAll sites State.releaseLoaded :=
  congrArg (s.forAll sites) (funext fun u => funext fun k => (if_pos rfl : (u.unpark k).releaseSite true k = (u.unpark k).releaseRegion k))

theorem releaseSites_lap (s : State) : s.releaseSites false = s.forAll sites State.releaseLap :=
  congrArg (s.forAll sites) (funext fun u => funext fun k => (if_neg Bool.false_ne_true : (u.unpark k).releaseSite false k = u.releaseLap k))

section Exec
include hclocks hmode

theorem startUpRelease_exec (hf : ((s.ctl.load.accepted.map (· + 64)) <|> s.ctl.release) = some f) :
    exec .startUpRelease s = fin s (((s.releaseStart f).releaseSites s.ctl.load.accepted.isSome).releaseEnd s.ctl.load.accepted.isSome) := by
  show execStartUpRelease s = _
  unfold execStartUpRelease
  rw [hf]
  dsimp only
  rw [if_neg (by rcases hmode with hm | hm <;> simp [hclocks, hm])]
  rfl

theorem startUpRelease_load (hacc : s.ctl.load.accepted = some f) :
    exec .startUpRelease s = fin s ((s.releaseStart (f + 64)).forAll sites State.releaseLoaded).loadComplete := by
  have hexec := startUpRelease_exec (f := f + 64) hclocks hmode (by rw [hacc]; rfl)
  rw [hacc, Option.isSome_some, releaseSites_load] at hexec
  exact hexec

theorem startUpRelease_lap (hacc : s.ctl.load.accepted = none) (hrel : s.ctl.release = some f) : exec .startUpRelease s
    = fin s (((s.releaseStart f).forAll sites State.releaseLap).releaseEnd false) := by
  have hexec := startUpRelease_exec (f := f) hclocks hmode (by rw [hacc, hrel]; rfl)
  rw [hacc, Option.isSome_none, releaseSites_lap] at hexec
  exact hexec

end Exec

/-- What a release may change. -/
def releaseMay : May := { loadMay sites with time := True }

theorem releaseMay_installs (hk : k ∈ sites) : releaseMay.Installs k := ⟨fun _ h => .inr (.inr ⟨k, hk, h⟩), hk, hk, trivial⟩

theorem loadComplete_glbMode (s : State) : s.loadComplete.rd Reg.glbMode = s.rd Reg.glbMode := loadComplete_rd (by decide)

theorem releaseAll_modeKept (hv : ModeKept v v) : ModeKept v (v.forAll sites State.releaseLoaded) :=
  State.forAll_keeps hv fun _ _ hk hu => releaseLoaded_modeKept hu (List.mem_range.mp hk)

theorem lapAll_modeKept (hv : ModeKept v v) : ModeKept v (v.forAll sites State.releaseLap) :=
  State.forAll_keeps hv fun _ _ hk hu => releaseLap_modeKept hu (List.mem_range.mp hk)

/-- The regions at the release of a full load: no time passes among them. -/
theorem releaseAll_only (v : State) : Only { loadMay sites with host := False } v (v.forAll sites State.releaseLoaded) :=
  (Only.refl _ v).forAll fun _ k hk hu => hu.releaseLoaded ⟨fun _ h => .inr (.inr ⟨k, hk, h⟩), hk, hk, trivial⟩ hk

/-- The start-up release after a full load (R48). -/
structure LoadReleased (s t : State) (f : Nat) : Prop where
  mode : ReleasedMode s t
  fc : t.fc = max s.fc (f + 64)
  ended : LoadEnded t
  started : ∀ k ∈ sites, StartedUp s t k
  only : Only releaseMay s t

theorem LoadReleased.settle (h : LoadReleased s t f) (s0 : State) : LoadReleased s (State.settle s0 t) f where
  mode := h.mode.settle s0
  fc := h.fc
  ended := ⟨h.ended.state, h.ended.outcome, (State.settle_staging s0 t).trans h.ended.lease⟩
  started k hk := ⟨(h.started k hk).inuse, (h.started k hk).fab, (h.started k hk).reconf, (h.started k hk).park⟩
  only := h.only.settle s0

/-- The end of the load after the release of its regions. -/
theorem LoadReleased.of_complete (hmode : s.mode = modeLOAD ∨ s.mode = modeSAFE) (hrd : t.rd Reg.glbMode = (s.releaseStart (f + 64)).rd Reg.glbMode)
    (hfc : t.fc = max s.fc (f + 64)) (hstarted : ∀ k ∈ sites, StartedUp s t k) (honly : Only releaseMay s t) :
    LoadReleased s t.loadComplete f where
  mode := .of_kept hmode ((loadComplete_glbMode t).trans hrd) fun k hk => ((loadComplete_sameRegion t k).started (hstarted k hk)).park
  fc := (((Only.refl { reg := fun a => a = Reg.cfgStatus, ctl := True, host := True } t).loadComplete rfl trivial trivial).time id).2.1.trans hfc
  ended := loadComplete_ended t
  started k hk := (loadComplete_sameRegion t k).started (hstarted k hk)
  only := honly.loadComplete (.inl (.inl rfl)) trivial trivial

include hclocks hmode hruns in
theorem startUpRelease_loaded (hacc : s.ctl.load.accepted = some f) : Answers .startUpRelease s (LoadReleased s · f) := by
  have hstarted := releaseAll_started (s := s) (v := s.releaseStart (f + 64)) fun k _ => ⟨releaseStart_sameRegion _, releaseStart_goldenOf _⟩
  have hkept := (releaseAll_modeKept (releaseStart_kept (f + 64) hmode hruns)).mode
  have hfc := ((releaseAll_only (s.releaseStart (f + 64))).time id).2.1.trans (releaseStart_fc _)
  have honly : Only releaseMay s ((s.releaseStart (f + 64)).forAll sites State.releaseLoaded) :=
    ((Only.refl releaseMay s).releaseStart (f + 64) (.inr (.inl rfl)) trivial trivial).forAll fun _ _ hk hu =>
      hu.releaseLoaded (releaseMay_installs hk) hk
  exact .of_fin (startUpRelease_load hclocks hmode hacc) (LoadReleased.settle (.of_complete hmode hkept hfc hstarted honly) s)

/-- The release after a restore lap (R52). -/
structure LapReleased (s t : State) (f : Nat) : Prop where
  mode : ReleasedMode s t
  fc : t.fc = max s.fc f
  state : t.loadState = s.loadState
  load : t.ctl.load = s.ctl.load
  release : t.ctl.release = none
  inuse : ∀ k, k < 16 → t.inuse k = s.inuse k
  started : ∀ k ∈ sites, LapStarted s t k
  only : Only { releaseMay with host := False } s t

theorem LapReleased.settle (h : LapReleased s t f) (s0 : State) : LapReleased s (State.settle s0 t) f where
  mode := h.mode.settle s0
  fc := h.fc
  state := h.state
  load := h.load
  release := h.release
  inuse := h.inuse
  started k hk := ⟨(h.started k hk).held, (h.started k hk).cells, (h.started k hk).park⟩
  only := h.only.settle s0

/-- The end of the lap's release touches only the release that was due. -/
theorem LapReleased.of_end (hmode : ReleasedMode s t) (hfc : t.fc = max s.fc f) (hstate : t.loadState = s.loadState)
    (hload : t.ctl.load = s.ctl.load) (hinuse : ∀ k, k < 16 → t.inuse k = s.inuse k) (hstarted : ∀ k ∈ sites, LapStarted s t k)
    (honly : Only { releaseMay with host := False } s t) : LapReleased s (t.releaseEnd false) f where
  mode := ⟨hmode.mode, hmode.settled, hmode.park⟩
  fc := hfc
  state := hstate
  load := hload
  release := rfl
  inuse := hinuse
  started k hk := ⟨(hstarted k hk).held, (hstarted k hk).cells, (hstarted k hk).park⟩
  only := honly.setCtl trivial

theorem lapAll_inuse (hk : k < 16) : (v.forAll sites State.releaseLap).inuse k = v.inuse k :=
  State.forAll_keeps (P := fun u => u.inuse k = v.inuse k) rfl fun _ _ hj hu => (releaseLap_inuse hk (List.mem_range.mp hj)).trans hu

/-- What the releases of the sites after a lap may change. -/
def lapsMay : May := { reg := fun a => ∃ k ∈ sites, shownRegs k a, site := fun k => k ∈ sites, fab := fun k => k ∈ sites }

theorem lapAll_only (v : State) : Only lapsMay v (v.forAll sites State.releaseLap) :=
  (Only.refl _ v).forAll fun _ k hk hu => hu.releaseLap (fun _ h => ⟨k, hk, h⟩) hk hk

theorem shownRegs_le {a : Nat} (h : shownRegs k a) : regionRegs k a := by
  simp only [shownRegs, regionRegs] at *
  omega

theorem lapsMay_cfgStatus : ¬ lapsMay.reg Reg.cfgStatus := by
  rintro ⟨k, hk, hreg⟩
  exact absurd (regionRegs_range (List.mem_range.mp hk) (shownRegs_le hreg)) (by decide)

include hclocks hmode hruns in
theorem startUpRelease_lapped (hacc : s.ctl.load.accepted = none) (hrel : s.ctl.release = some f) :
    Answers .startUpRelease s (LapReleased s · f) := by
  have hexec := startUpRelease_lap hclocks hmode hacc hrel
  have hbegin := (Only.refl beginMay s).releaseStart f rfl trivial trivial
  have hall := lapAll_only (s.releaseStart f)
  have hstarted := lapAll_started (s := s) (v := s.releaseStart f) (fun k => hbegin.fab k id) fun k => hbegin.site k id
  have honly : Only { releaseMay with host := False } s ((s.releaseStart f).forAll sites State.releaseLap) :=
    ((Only.refl { releaseMay with host := False } s).releaseStart f (.inr (.inl rfl)) trivial trivial).forAll fun _ k hk hu =>
      hu.releaseLap (fun _ h => .inr (.inr ⟨k, hk, shownRegs_le h⟩)) hk hk
  have hmodes : ReleasedMode s ((s.releaseStart f).forAll sites State.releaseLap) :=
    .of_kept hmode (lapAll_modeKept (releaseStart_kept f hmode hruns)).mode fun k hk => (hstarted k hk).park
  refine .of_fin hexec (LapReleased.settle (.of_end hmodes ?_ ?_ ?_ (fun k hk => ?_) hstarted honly) s)
  · exact (hall.time id).2.1.trans (releaseStart_fc f)
  · exact (hall.fld_eq lapsMay_cfgStatus).trans (hbegin.fld_eq (by simp only [beginMay]; decide))
  · exact (congrArg CtxLayer.load (hall.ctl id)).trans (releaseStart_ctl f).1
  · exact (lapAll_inuse hk).trans (releaseStart_sameRegion f).inuse

end Release

end Sys2Proof.Machine
end

section
/-! The end of the restore lap after a warm reset (R52, R277, R319, R322). -/

namespace Sys2Proof.Machine

variable {m : May} {s t u v : State} {k : Nat}

/-! ### What the lap reads -/

/-- The lap has run. -/
def State.endLap (s : State) : State := { s with ctl := { s.ctl with restore := false } }

/-- The poisoned golden rows are read. -/
def State.lapRows (s : State) : State := s.poisonedGolden.foldl (fun s f => (s.goldenRead f false).1) s

/-- What the lap reads, and whether it finds a row beyond repair at frame `bad`. -/
def State.lapRead (s : State) : Option (Fin 524288) → State × Bool
  | some f => if s.goldenValid (f.val / 32768) then s.lapRows.goldenRead f true else (s.lapRows, false)
  | none => (s.lapRows, false)

/-- A vault of the golden copies cannot be reached. -/
def State.lapUnreached (s : State) : Bool := (List.range 16).any (fun j => s.vltState (240 + j) != 2)

/-- The lap leaves nothing valid. -/
def State.lapFails (s : State) (bad : Option (Fin 524288)) : Bool := (s.lapRead bad).2 || !s.poisonedGolden.isEmpty || s.lapUnreached

/-- The frames of region `k` as its golden copy has them, the others as they are. -/
def State.restoredFrames (s : State) (k : Nat) : List (Nat × BitVec 4096) :=
  (s.ctl.golden.filter (fun p : Nat × BitVec 4096 => p.1 / 32768 == k)).foldl (fun m p => Sparse.set (fun _ => 0) m p.1 p.2)
    (s.ctl.frames.filter (fun p : Nat × BitVec 4096 => p.1 / 32768 != k))

/-- The frames of region `k` are restored. -/
def State.restoreFrames (s : State) (k : Nat) : State := { s with ctl := { s.ctl with frames := s.restoredFrames k } }

/-- Region `k` is as its golden copy has it. -/
def State.restoreRegion (s : State) (k : Nat) : State :=
  ((s.restoreFrames k).setInuse k (s.goldenOf k).inuse.toNat).installRegion k (s.goldenOf k)

/-- Every region with a golden copy is restored, and its release is due. -/
def State.restoreAll (s : State) : State := s.forAll (sites.filter s.goldenValid) State.restoreRegion

/-- The release is due 64 fc on. -/
def State.dueRelease (s : State) : State := { s with ctl := { s.ctl with release := some (s.fc + 64) } }

/-- The lap leaves nothing valid, and step 6 of the start-up fails. -/
def State.failLap (s : State) : State := (s.setBit Reg.glbMode 5 false).startFail 6

/-- The lap has run, and may end. -/
def State.LapEnds (s : State) : Prop :=
  s.ctl.restore = true ∧ s.clocksRun = true ∧ s.cfgReaches = true ∧ (s.mode = modeLOAD ∨ s.mode = modeSAFE)

theorem restoreLapDone_exec (bad : Option (Fin 524288)) (hends : s.LapEnds) : exec (.restoreLapDone bad) s
    = fin s (if s.endLap.lapFails bad then (s.endLap.lapRead bad).1.failLap else (s.endLap.lapRead bad).1.restoreAll.dueRelease) := by
  obtain ⟨hrestore, hclocks, hreach, hmode⟩ := hends
  show execRestoreLapDone bad s = _
  unfold execRestoreLapDone
  rw [if_neg (by rcases hmode with hm | hm <;> simp [hrestore, hclocks, hreach, hm])]
  cases bad <;> rfl

/-! ### A lap that finds a row poisoned, or a vault that it cannot reach -/

theorem goldenRead_hit (f : Nat) : (s.goldenRead f true).2 = true := by
  unfold State.goldenRead
  dsimp only
  split
  · rfl
  · rfl
  · rfl

theorem Only.lapRows (hm : m.Dram) (h : Only m s t) : Only m s t.lapRows := by
  unfold State.lapRows
  exact h.forAll (l := t.poisonedGolden) (f := fun s f => (s.goldenRead f false).1) fun _ f _ hu => hu.goldenRead hm f false

theorem lapRead_some (f : Fin 524288) :
    s.lapRead (some f) = if s.goldenValid (f.val / 32768) then s.lapRows.goldenRead f true else (s.lapRows, false) := rfl

theorem Only.lapRead (bad : Option (Fin 524288)) (hm : m.Dram) (h : Only m s t) : Only m s (t.lapRead bad).1 := by
  cases bad with
  | none => exact h.lapRows hm
  | some f =>
    rw [lapRead_some]
    split
    · exact (h.lapRows hm).goldenRead hm f true
    · exact h.lapRows hm

theorem mem_poisonedGolden {f : Nat} (hvalid : s.goldenValid (f / 32768) = true)
    (hbad : (s.getVault (goldenRow f).1).goldenBad.contains (goldenRow f).2 = true) : 64 * (f / 64) + 4 * (f / 4 % 16) ∈ s.poisonedGolden := by
  have hrow : 64 * (f / 64) + 4 * (f / 4 % 16) = 64 * ((goldenRow f).2 - 4177920) + 4 * (f / 4 % 16) := by
    simp only [goldenRow]
    omega
  have hregion : (64 * (f / 64) + 4 * (f / 4 % 16)) / 32768 = f / 32768 := by omega
  unfold State.poisonedGolden
  refine List.mem_flatMap.mpr ⟨f / 4 % 16, List.mem_range.mpr (by omega), List.mem_filter.mpr ⟨List.mem_map.mpr ⟨(goldenRow f).2, ?_, hrow.symm⟩, ?_⟩⟩
  · exact List.contains_iff_mem.mp hbad
  · rw [hregion]
    exact hvalid

/-- What makes a lap fail: a row found beyond repair, one poisoned before, or a vault out of reach. -/
def State.LapBad (s : State) (bad : Option (Fin 524288)) : Prop :=
  (∃ f, bad = some f ∧ s.goldenValid (f.val / 32768) = true)
    ∨ (∃ f, f < 524288 ∧ s.goldenValid (f / 32768) = true ∧ (s.getVault (goldenRow f).1).goldenBad.contains (goldenRow f).2 = true)
    ∨ ¬ ∀ v, 240 ≤ v → v < 256 → s.vltState v = 2

theorem lapUnreached_iff : s.lapUnreached = true ↔ ¬ ∀ v, 240 ≤ v → v < 256 → s.vltState v = 2 := by
  unfold State.lapUnreached
  rw [List.any_eq_true]
  constructor
  · rintro ⟨j, hj, hne⟩ hall
    have hlt := List.mem_range.mp hj
    exact absurd (hall (240 + j) (by omega) (by omega)) (by simpa using hne)
  · intro hnot
    by_contra hnone
    refine hnot fun v hlo hhi => ?_
    by_contra hne
    refine hnone ⟨v - 240, List.mem_range.mpr (by omega), ?_⟩
    rw [Nat.add_sub_cancel' hlo]
    simpa using hne

theorem lapFails_of_bad {bad : Option (Fin 524288)} (h : s.LapBad bad) : s.lapFails bad = true := by
  unfold State.lapFails
  rw [Bool.or_eq_true, Bool.or_eq_true]
  rcases h with ⟨f, rfl, hvalid⟩ | ⟨f, -, hvalid, hbad⟩ | hunreached
  · refine .inl (.inl ?_)
    rw [State.lapRead, if_pos hvalid]
    exact goldenRead_hit _
  · have hmem := mem_poisonedGolden hvalid hbad
    refine .inl (.inr ?_)
    cases hp : s.poisonedGolden with
    | nil => rw [hp] at hmem; cases hmem
    | cons => rfl
  · exact .inr (lapUnreached_iff.mpr hunreached)

/-- The registers that a failed lap changes beside those of the vaults. -/
def lapFailMay : May := { reg := fun a => a = Reg.glbMode ∨ a = Reg.glbStartup, ctl := True }

/-- What a lap that fails leaves. -/
structure LapFailed (s t : State) : Prop where
  valid : t.cfgValid = false
  mode : t.mode = s.mode
  step : t.fld Reg.glbStartup 16 4 = 6
  restore : t.ctl.restore = false
  frames : t.ctl.frames = s.ctl.frames
  only : Only lapFailMay.dramToo s t

theorem LapFailed.settle (h : LapFailed s t) (s0 : State) : LapFailed s (State.settle s0 t) :=
  ⟨h.valid, h.mode, h.step, h.restore, h.frames, h.only.settle s0⟩

theorem Only.startFail (n : Nat) (h : Only m s t) (hr : m.reg Reg.glbStartup) : Only m s (t.startFail n) := by
  unfold State.startFail
  exact (h.setFld _ _ _ hr).setFld _ _ _ hr

theorem failLap_ctl (s : State) : s.failLap.ctl = s.ctl :=
  (((Only.refl { reg := fun a => a = Reg.glbMode ∨ a = Reg.glbStartup } s).setBit 5 false (.inl rfl)).startFail 6 (.inr rfl)).ctl id

theorem startFail_rd_of_ne {n a : Nat} (ha : a ≠ Reg.glbStartup) : (s.startFail n).rd a = s.rd a :=
  ((Only.refl { reg := fun a => a = Reg.glbStartup } s).startFail n rfl).reg a ha

theorem failLap_failed (s : State) (bad : Option (Fin 524288)) : LapFailed s (s.endLap.lapRead bad).1.failLap := by
  have hread : Only (May.dramToo {}) s.endLap (s.endLap.lapRead bad).1 := (Only.refl _ _).lapRead bad (May.dramToo_dram _)
  have honly : Only lapFailMay.dramToo s (s.endLap.lapRead bad).1 :=
    Only.lapRead bad (May.dramToo_dram _) ((Only.refl lapFailMay.dramToo s).setCtl trivial)
  generalize (s.endLap.lapRead bad).1 = v at hread honly
  have hctl : v.failLap.ctl = s.endLap.ctl := (failLap_ctl v).trans (hread.ctl id)
  refine ⟨?_, ?_, (startFail_fields (by decide)).1, congrArg CtxLayer.restore hctl, (congrArg CtxLayer.frames hctl :),
    Only.startFail 6 (honly.setBit 5 false (.inl (.inl rfl))) (.inl (.inr rfl))⟩
  · rw [State.cfgValid, State.bit, State.failLap, startFail_rd_of_ne (by decide)]
    exact State.setBit_bit v _ _ _ (by decide)
  · have hmode : v.mode = s.endLap.mode := hread.fld_eq (by simp only [May.dramToo, vaultRegs]; decide)
    rw [State.mode, State.fld, State.failLap, startFail_rd_of_ne (by decide)]
    exact (State.setFld_fld_other v _ _ _ _ _ _ _ (by decide) (by decide)).trans hmode

theorem restoreLapDone_fails {bad : Option (Fin 524288)} (hends : s.LapEnds) (hbad : s.LapBad bad) :
    Answers (.restoreLapDone bad) s (LapFailed s) := by
  have hexec := restoreLapDone_exec bad hends
  rw [if_pos (lapFails_of_bad (s := s.endLap) hbad)] at hexec
  exact .of_fin hexec ((failLap_failed s bad).settle s)

/-! ### A lap that restores (R52, R154, R319) -/

theorem lapRead_good {bad : Option (Fin 524288)} (hrows : s.poisonedGolden = []) (hbad : ∀ f, bad = some f → s.goldenValid (f.val / 32768) = false) :
    s.lapRead bad = (s, false) := by
  have hlap : s.lapRows = s := by rw [State.lapRows, hrows]; rfl
  cases bad with
  | none => exact congrArg (·, false) hlap
  | some f => rw [lapRead_some, hbad f rfl, if_neg Bool.false_ne_true, hlap]

theorem lapFails_good {bad : Option (Fin 524288)} (hrows : s.poisonedGolden = []) (hbad : ∀ f, bad = some f → s.goldenValid (f.val / 32768) = false)
    (hreached : ∀ v, 240 ≤ v → v < 256 → s.vltState v = 2) : s.lapFails bad = false := by
  have hunreached : s.lapUnreached = false := Bool.eq_false_iff.mpr fun h => lapUnreached_iff.mp h hreached
  rw [State.lapFails, lapRead_good hrows hbad, hrows, hunreached]
  rfl

/-- A list without a key twice, stored entry by entry, reads as the list itself where nothing was stored before. -/
theorem Sparse.get_foldl_set_of_nodup {α : Type} [DecidableEq α] (d : Nat → α) (l : List (Nat × α)) (hl : (l.map Prod.fst).Nodup)
    (m : List (Nat × α)) (j : Nat) (hm : Sparse.get d m j = d j) :
    Sparse.get d (l.foldl (fun m p => Sparse.set d m p.1 p.2) m) j = Sparse.get d l j := by
  induction l generalizing m with
  | nil => exact hm
  | cons p l ih =>
    obtain ⟨hp, hrest⟩ := List.nodup_cons.mp hl
    rw [List.foldl_cons, Sparse.get]
    by_cases hj : p.1 = j
    · rw [if_pos hj, Sparse.get_foldl_set_of_not_mem d l _ j fun q hq he => hp (hj ▸ he ▸ List.mem_map_of_mem hq), Sparse.get_set, if_pos hj.symm]
    · rw [if_neg hj]
      exact ih hrest _ ((Sparse.get_set _ _ _ _ _).trans ((if_neg (Ne.symm hj)).trans hm))

/-- The entries whose keys pass a test, read at a key. -/
theorem Sparse.get_filter_key {α : Type} (d : Nat → α) (q : Nat → Bool) (l : List (Nat × α)) (j : Nat) :
    Sparse.get d (l.filter (fun p => q p.1)) j = if q j then Sparse.get d l j else d j := by
  induction l with
  | nil => exact (ite_self _).symm
  | cons p l ih =>
    rw [List.filter_cons]
    by_cases hj : p.1 = j
    · by_cases hq : q j = true <;> simp [Sparse.get, hj, hq, ih]
    · by_cases hq : q p.1 = true <;> simp [Sparse.get, hj, hq, ih]

/-- The rest of what the configuration controller holds, as a restored region leaves it. -/
structure LapKeeps (s u : State) : Prop where
  golden : u.ctl.golden = s.ctl.golden
  goldenCfg : u.ctl.goldenCfg = s.ctl.goldenCfg
  load : u.ctl.load = s.ctl.load
  restore : u.ctl.restore = s.ctl.restore

theorem LapKeeps.trans (h : LapKeeps s t) (g : LapKeeps t u) : LapKeeps s u :=
  ⟨g.golden.trans h.golden, g.goldenCfg.trans h.goldenCfg, g.load.trans h.load, g.restore.trans h.restore⟩

theorem restoreRegion_ctl : (s.restoreRegion k).ctl = (s.restoreFrames k).ctl := by
  rw [State.restoreRegion, installRegion_ctl, State.setInuse, State.wr64, State.wr_ctl, State.wr_ctl]

theorem restoreRegion_keeps : LapKeeps s (s.restoreRegion k) := by
  constructor <;> rw [restoreRegion_ctl] <;> rfl

theorem restoreRegion_getFrame (f : Nat) : (s.restoreRegion k).getFrame f = Sparse.get (fun _ => 0) (s.restoredFrames k) f := by
  rw [State.getFrame, restoreRegion_ctl]
  rfl

theorem Only.restoreRegion (hm : m.Installs k) (h : Only m s t) : Only m s (t.restoreRegion k) :=
  ((h.setCtl (x := (t.restoreFrames k).ctl) hm.ctl).setInuse hm _).installRegion hm _

theorem restoreRegion_inuse (hk : k < 16) : (s.restoreRegion k).inuse k = (s.goldenOf k).inuse.toNat :=
  (installRegion_inuse _ hk).trans (setInuse_inuse_bitVec _)

theorem installRegion_getFab (c : RegionCfg) : (s.installRegion k c).getFab k = { s.getFab k with park := parkCodes c.park, init := c.init } := by
  rw [installRegion_eq]
  unfold State.countWclk
  rw [State.modSite_getFab, State.wr_getFab, State.installValues, State.modSite_getFab, State.modFab_getFab, if_pos rfl, State.setBit,
    State.setFld, State.wr_getFab]

theorem restoreRegion_getFab : (s.restoreRegion k).getFab k
    = { s.getFab k with park := parkCodes (s.goldenOf k).park, init := (s.goldenOf k).init } := by
  rw [State.restoreRegion, installRegion_getFab, State.setInuse, State.wr64, State.wr_getFab, State.wr_getFab]
  rfl

/-! #### The frames -/

theorem restoredFrames_other {f : Nat} (hf : f / 32768 ≠ k) : Sparse.get (fun _ => 0) (s.restoredFrames k) f = s.getFrame f := by
  have hnone : ∀ p ∈ s.ctl.golden.filter (fun p : Nat × BitVec 4096 => p.1 / 32768 == k), p.1 ≠ f := fun p hp he =>
    hf (he ▸ by simpa using (List.mem_filter.mp hp).2)
  rw [State.restoredFrames, Sparse.get_foldl_set_of_not_mem _ _ _ _ hnone, Sparse.get_filter_key _ (fun g => g / 32768 != k),
    if_pos (bne_iff_ne.mpr hf), State.getFrame]

theorem restoredFrames_own {f : Nat} (hnodup : (s.ctl.golden.map Prod.fst).Nodup) (hf : f / 32768 = k) :
    Sparse.get (fun _ => 0) (s.restoredFrames k) f = Sparse.get (fun _ => 0) s.ctl.golden f := by
  rw [State.restoredFrames, Sparse.get_foldl_set_of_nodup _ _ (hnodup.sublist (List.filter_sublist.map _)),
    Sparse.get_filter_key _ (fun g => g / 32768 == k), if_pos (beq_iff_eq.mpr hf)]
  rw [Sparse.get_filter_key _ (fun g => g / 32768 != k), if_neg (by simp [hf])]

/-- A region of the lap whose turn is still to come. -/
structure Unrestored (s u : State) (k : Nat) : Prop where
  keeps : LapKeeps s u
  fab : u.getFab k = s.getFab k

/-- Region `k` as the lap restores it. -/
structure Restored (s t : State) (k : Nat) : Prop where
  keeps : LapKeeps s t
  inuse : t.inuse k = (s.goldenOf k).inuse.toNat
  fab : t.getFab k = { s.getFab k with park := parkCodes (s.goldenOf k).park, init := (s.goldenOf k).init }
  frames : ∀ f, f / 32768 = k → t.getFrame f = Sparse.get (fun _ => 0) s.ctl.golden f

theorem LapKeeps.goldenOf (h : LapKeeps s u) (k : Nat) : u.goldenOf k = s.goldenOf k := by
  rw [State.goldenOf, h.goldenCfg, State.goldenOf]

theorem restoreRegion_restored (hk : k < 16) (hnodup : (s.ctl.golden.map Prod.fst).Nodup) (hu : Unrestored s u k) :
    Restored s (u.restoreRegion k) k where
  keeps := hu.keeps.trans restoreRegion_keeps
  inuse := by rw [restoreRegion_inuse hk, hu.keeps.goldenOf]
  fab := by rw [restoreRegion_getFab, hu.fab, hu.keeps.goldenOf]
  frames f hf := by rw [restoreRegion_getFrame, restoredFrames_own (by rw [hu.keeps.golden]; exact hnodup) hf, hu.keeps.golden]

theorem restoreRegion_other {j : Nat} (hj : j < 16) (hk : k < 16) (hjk : j ≠ k) : SameRegion s (s.restoreRegion j) k :=
  ((Only.refl _ s).restoreRegion (regionMay_installs j)).sameRegion hj hk hjk

theorem Restored.other {j : Nat} (hj : j < 16) (hk : k < 16) (hjk : j ≠ k) (hu : Restored s u k) : Restored s (u.restoreRegion j) k where
  keeps := hu.keeps.trans restoreRegion_keeps
  inuse := (restoreRegion_other hj hk hjk).inuse.trans hu.inuse
  fab := (restoreRegion_other hj hk hjk).fab.trans hu.fab
  frames f hf := by
    rw [restoreRegion_getFrame, restoredFrames_other (hf ▸ Ne.symm hjk)]
    exact hu.frames f hf

theorem lt_of_restored (hk : k ∈ sites.filter s.goldenValid) : k < 16 := List.mem_range.mp (List.mem_filter.mp hk).1

theorem LapKeeps.refl (s : State) : LapKeeps s s := ⟨rfl, rfl, rfl, rfl⟩

theorem restoreAll_keeps (s : State) : LapKeeps s s.restoreAll :=
  State.forAll_keeps (LapKeeps.refl s) fun _ _ _ hu => hu.trans restoreRegion_keeps

theorem restoreAll_restored (hnodup : (s.ctl.golden.map Prod.fst).Nodup) : ∀ k ∈ sites.filter s.goldenValid, Restored s s.restoreAll k := by
  refine State.forAll_once (P := fun k u => Restored s u k) (Q := fun k u => Unrestored s u k) (sites_nodup.filter _)
    (fun k _ => ⟨LapKeeps.refl s, rfl⟩) (fun u k hk hu => restoreRegion_restored (lt_of_restored hk) hnodup hu)
    (fun u j k hj hk hjk hu => ?_) fun u j k hj hk hjk hu => hu.other (lt_of_restored hj) (lt_of_restored hk) hjk
  exact ⟨hu.keeps.trans restoreRegion_keeps, (restoreRegion_other (lt_of_restored hj) (lt_of_restored hk) hjk).fab.trans hu.fab⟩

theorem restoreAll_getFrame_other {f : Nat} (hf : s.goldenValid (f / 32768) = false) : s.restoreAll.getFrame f = s.getFrame f := by
  refine State.forAll_keeps (P := fun u => u.getFrame f = s.getFrame f) rfl fun u k hk hu => ?_
  have hvalid := (List.mem_filter.mp hk).2
  have hne : f / 32768 ≠ k := fun he => absurd (he ▸ hf) (by simp [hvalid])
  exact ((restoreRegion_getFrame f).trans (restoredFrames_other hne)).trans hu

/-- What a lap that restores may change. -/
def lapRestoreMay : May :=
  { reg := fun a => ∃ k ∈ sites, regionRegs k a, site := fun k => k ∈ sites, fab := fun k => k ∈ sites, ctl := True }

theorem Only.restoreAll (h : Only lapRestoreMay s t) : Only lapRestoreMay s t.restoreAll :=
  h.forAll fun _ k hk hu => hu.restoreRegion
    ⟨fun _ ha => ⟨k, (List.mem_filter.mp hk).1, ha⟩, (List.mem_filter.mp hk).1, (List.mem_filter.mp hk).1, trivial⟩

/-- What a lap that restores leaves. -/
structure LapRestored (s t : State) : Prop where
  restore : t.ctl.restore = false
  release : t.ctl.release = some (s.fc + 64)
  load : t.ctl.load = s.ctl.load
  regions : ∀ k, k < 16 → s.goldenValid k = true → t.inuse k = (s.goldenOf k).inuse.toNat
    ∧ t.getFab k = { s.getFab k with park := parkCodes (s.goldenOf k).park, init := (s.goldenOf k).init }
    ∧ ∀ f, f / 32768 = k → t.getFrame f = Sparse.get (fun _ => 0) s.ctl.golden f
  others : ∀ f, s.goldenValid (f / 32768) = false → t.getFrame f = s.getFrame f
  only : Only lapRestoreMay s t

theorem LapRestored.settle (h : LapRestored s t) (s0 : State) : LapRestored s (State.settle s0 t) :=
  ⟨h.restore, h.release, h.load, h.regions, h.others, h.only.settle s0⟩

theorem LapRestored.of_due (hkeeps : LapKeeps s.endLap u) (hfc : u.fc = s.fc)
    (hregions : ∀ k, k < 16 → s.goldenValid k = true → Restored s.endLap u k)
    (hothers : ∀ f, s.goldenValid (f / 32768) = false → u.getFrame f = s.getFrame f) (honly : Only lapRestoreMay s u) :
    LapRestored s u.dueRelease where
  restore := hkeeps.restore
  release := congrArg (fun f => some (f + 64)) hfc
  load := hkeeps.load
  regions k hk hvalid := ⟨(hregions k hk hvalid).inuse, (hregions k hk hvalid).fab, (hregions k hk hvalid).frames⟩
  others := hothers
  only := honly.setCtl trivial

theorem restoreLapDone_restores {bad : Option (Fin 524288)} (hends : s.LapEnds) (hbad : ∀ f, bad = some f → s.goldenValid (f.val / 32768) = false)
    (hreached : ∀ v, 240 ≤ v → v < 256 → s.vltState v = 2) (hrows : s.poisonedGolden = []) (hnodup : (s.ctl.golden.map Prod.fst).Nodup) :
    Answers (.restoreLapDone bad) s (LapRestored s) := by
  have hexec := restoreLapDone_exec bad hends
  rw [lapFails_good (s := s.endLap) hrows hbad hreached, if_neg Bool.false_ne_true, lapRead_good (s := s.endLap) hrows hbad] at hexec
  have honly : Only lapRestoreMay s s.endLap.restoreAll := Only.restoreAll ((Only.refl lapRestoreMay s).setCtl trivial)
  refine .of_fin hexec (LapRestored.settle (.of_due (restoreAll_keeps _) (honly.time id).2.1 (fun k hk hvalid => ?_) (fun f hf => ?_) honly) s)
  · exact restoreAll_restored (s := s.endLap) hnodup k (List.mem_filter.mpr ⟨List.mem_range.mpr hk, hvalid⟩)
  · exact restoreAll_getFrame_other (s := s.endLap) hf

/-! ### The statement -/

/-- The words of the statement for an accepted body. -/
theorem BodyTaken.says {h : ImgHdr} (hb : BodyTaken s h t) :
    (h.full = true → t.cfgValid = true ∧ t.loadState = ldRelease ∧ t.ctl.load.accepted = some s.fc
        ∧ t.rd64 Reg.cfgBuildLo = h.build.toNat
        ∧ (∀ k ∈ h.regionList, t.inuse k = s.inuse k ∧ t.goldenValid k = true ∧ t.goldenOf k = s.ctl.load.cfgOf k))
      ∧ (h.full = false → h.staged = true → t.loadState = ldWrite
        ∧ (∀ k ∈ h.regionList, t.inuse k = 0 ∧ (t.getFab k).held = true ∧ t.regState k = regLoading))
      ∧ (h.full = false → h.staged = false → t.loadState = ldIdle ∧ t.fld Reg.cfgStatus 24 2 = 1
        ∧ (∀ k ∈ h.regionList, t.inuse k = (s.ctl.load.cfgOf k).inuse.toNat ∧ t.goldenValid k = true)
        ∧ (∀ k ∈ h.regionList, (t.getFab k).held = false ∧ (t.getSite k).reconf = false))
      ∧ (h.full = false → t.rd64 Reg.cfgBuildLo = s.rd64 Reg.cfgBuildLo)
      ∧ Only (loadMay h.regionList) s t := by
  refine ⟨hb.full, fun hf hs => ?_, fun hf hs => ?_, hb.build, hb.only⟩
  · obtain ⟨hstate, hheld⟩ := hb.staged hf hs
    exact ⟨hstate, fun k hk => ⟨(hheld k hk).inuse, (hheld k hk).held, (hheld k hk).state⟩⟩
  · obtain ⟨hended, hloaded⟩ := hb.streamed hf hs
    exact ⟨hended.state, hended.outcome, fun k hk => ⟨(hloaded k hk).inuse, (hloaded k hk).golden⟩,
      fun k hk => ⟨(hloaded k hk).held, (hloaded k hk).reconf⟩⟩

theorem Answers.imp {c : Instr} {P Q : State → Prop} (h : Answers c s P) (hpq : ∀ t, P t → Q t) : Answers c s Q :=
  Exists.imp (fun t ht => ⟨ht.1, hpq t ht.2⟩) h

theorem mem_sites (hk : k < 16) : k ∈ sites := List.mem_range.mpr hk

/-- Settles O31: each completion answers as its own lemma says, the acceptance of a body by `bodyAccepted_taken`, the releases by what the
turn of each region leaves of it, and the restore lap by whether it finds a row beyond repair or a vault out of reach. -/
theorem loadCompletes : Obligations.LoadCompletes := by
  unfold Obligations.LoadCompletes
  intro s h
  refine ⟨fun hh ⟨hstate, hdone, hbuf⟩ hcrc => ?_, fun hh ⟨hstate, hdone, hbuf⟩ hcrc hsig => ?_, fun hh ⟨hstate, hdone, hbuf⟩ hcrc hsig hvar => ?_,
    fun key hh hstate hkey => ?_, fun hh hstate hkey => ?_, fun hh hstate hreach hmore => ?_, fun hh hstate hreach hlast => ?_,
    fun f hacc hclocks hmode _ hruns => ?_, fun f hacc hrel hclocks hmode hruns => ?_, fun bad hends hbad => ?_,
    fun bad hends hbad hreached hrows hnodup => ?_⟩
  · exact rejected_answers hh (by decide) (bodyCheck_crc hh hstate hdone hbuf hcrc)
  · exact (BodyTaken.answers (bodyCheck_accepts hh hstate hdone hbuf hcrc hsig)).imp fun _ ht => ht.says
  · exact bodyCheck_verifies (bodyCheck_signed hh hstate hdone hbuf hcrc hsig hvar)
  · refine (signatureVerified_answers hh hstate hkey).imp fun t ht => ?_
    by_cases hvalid : Config.signatureValid key s.ctl.load.msg h.sig = true
    · rw [if_pos hvalid] at ht ⊢
      exact ht.says
    · rw [if_neg hvalid] at ht ⊢
      exact ht
  · exact rejected_answers hh (by decide) (signatureVerified_unknown hh hstate hkey)
  · refine (partialFrameWrite_next hh hstate hreach hmore).imp fun t ht => ?_
    obtain ⟨hw, honly⟩ := ht
    exact ⟨hw.written, hw.frame, hw.golden, hw.others, hw.checked, honly⟩
  · refine (partialFrameWrite_last hh hstate hreach hlast).imp fun t ht => ?_
    obtain ⟨⟨hended, hloaded⟩, hchecked, honly⟩ := ht
    exact ⟨hended.state, hended.outcome, fun k hk => ⟨(hloaded k hk).inuse, (hloaded k hk).golden⟩, hended.lease,
      fun k hk => ⟨(hloaded k hk).held, (hloaded k hk).reconf, (hloaded k hk).complete⟩, hchecked, honly⟩
  · refine (startUpRelease_loaded hclocks hmode hruns hacc).imp fun t ht => ?_
    refine ⟨⟨ht.mode.mode, ht.mode.settled, ht.mode.park⟩, ht.fc, ht.ended.state, ht.ended.outcome, fun k hk => ?_, ht.only⟩
    obtain ⟨hinuse, hfab, hreconf, -⟩ := ht.started k (mem_sites hk)
    exact ⟨by rw [hfab]; rfl, by rw [hfab]; rfl, hreconf, hinuse, fun c _ => by rw [hfab]; exact restart_cell _ c⟩
  · refine (startUpRelease_lapped hclocks hmode hruns hacc hrel).imp fun t ht => ?_
    exact ⟨⟨ht.mode.mode, ht.mode.settled, ht.mode.park⟩, ht.fc, ht.state, ht.load, ht.release,
      fun k hk => ⟨ht.inuse k hk, (ht.started k (mem_sites hk)).held, fun hiso c _ => (ht.started k (mem_sites hk)).cells hiso c⟩, ht.only⟩
  · refine (restoreLapDone_fails hends hbad).imp fun t ht => ?_
    exact ⟨ht.valid, ht.mode, ht.step, ht.restore, ht.frames, ht.only⟩
  · refine (restoreLapDone_restores hends hbad hreached hrows hnodup).imp fun t ht => ?_
    refine ⟨ht.restore, ht.release, ht.load, fun k hk hvalid => ?_, ht.others, ht.only⟩
    obtain ⟨hinuse, hfab, hframes⟩ := ht.regions k hk hvalid
    have hpark : (t.getFab k).park = parkCodes (s.goldenOf k).park := by rw [hfab]
    have hinit : (t.getFab k).init = (s.goldenOf k).init := by rw [hfab]
    exact ⟨hinuse, hpark, hinit, by rw [hfab], by rw [hfab], hframes⟩

end Sys2Proof.Machine
end

section
/-! Runs of cycles that an instruction issues (R65 to R69, R74): where the sequencer stands before the run, and what the run leaves. -/

namespace Sys2Proof.Machine

variable {m : May} {s t u : State} {k : Nat} {w : BitVec 64} {ecc : Ecc}

/-! ### Before the run -/

/-- What places the next cycle of a sequencer. -/
def Site.track (x : Site) : Nat × Nat × List Span × Option (Nat × Nat) := (x.cycle, x.fc0, x.spans, x.stopAt)

/-- In `u` sequencer `k` runs, and stands before the cycle that it stood before in `s`. -/
structure Poised (s u : State) (k : Nat) : Prop where
  state : u.seqState k = 3
  track : (u.getSite k).track = (s.getSite k).track
  fc : u.fc = s.fc

theorem Poised.cycle (h : Poised s u k) : (u.getSite k).cycle = (s.getSite k).cycle := congrArg (fun p => p.1) h.track
theorem Poised.fc0 (h : Poised s u k) : (u.getSite k).fc0 = (s.getSite k).fc0 := congrArg (fun p => p.2.1) h.track
theorem Poised.spans (h : Poised s u k) : (u.getSite k).spans = (s.getSite k).spans := congrArg (fun p => p.2.2.1) h.track
theorem Poised.stopAt (h : Poised s u k) : (u.getSite k).stopAt = (s.getSite k).stopAt := congrArg (fun p => p.2.2.2) h.track

theorem Poised.wr {a : Nat} (v : Word) (h : Poised s u k) (ha : a ≠ Reg.seqStatus k) : Poised s (u.wr a v) k where
  state := by rw [State.seqState, State.fld, State.wr_rd, if_neg ha.symm]; exact h.state
  track := h.track
  fc := h.fc

/-- A field of the status above the state is written. -/
theorem Poised.setStatus {lo len : Nat} (v : Nat) (h : Poised s u k) (hlo : 3 ≤ lo) (hlen : lo + len ≤ 32) :
    Poised s (u.setFld (Reg.seqStatus k) lo len v) k where
  state := (State.setFld_fld_other _ _ _ _ _ _ _ _ hlen (.inr (.inl hlo))).trans h.state
  track := h.track
  fc := h.fc

theorem Poised.modSite (f : Site → Site) (h : Poised s u k) (hf : ∀ x, (f x).track = x.track) : Poised s (u.modSite k f) k where
  state := h.state
  track := by rw [State.modSite_getSite, if_pos rfl, hf, h.track]
  fc := h.fc

theorem Poised.pushQ (a cap : Nat) (e : Word) (h : Poised s u k) : Poised s (u.pushQ a cap e) k := by
  unfold State.pushQ
  dsimp only
  split <;> exact ⟨h.state, h.track, h.fc⟩

theorem Poised.ite {p : Prop} [Decidable p] {v : State} (h : Poised s u k) (hv : Poised s v k) : Poised s (if p then v else u) k := by
  split
  · exact hv
  · exact h

theorem fetched_poised : Poised s (s.fetched k ecc) k where
  state := fetched_seqState
  track := by
    obtain ⟨l, hl⟩ := fetched_site (s := s) (k := k) (ecc := ecc)
    rw [hl]
    rfl
  fc := ((fetched_only s k ecc).time id).2.1

/-- A fetch leaves what the site holds but for the edges noted and the wait. -/
theorem fetched_field {β : Type} (g : Site → β) (hg : ∀ x l, g { x with exposeRegs := l, wait := .none } = g x) :
    g ((s.fetched k ecc).getSite k) = g (s.getSite k) := by
  obtain ⟨l, hl⟩ := fetched_site (s := s) (k := k) (ecc := ecc)
  rw [hl, hg]

theorem fetched_rd {a : Nat} (hst : a ≠ Reg.seqStatus k) (he : a ≠ Reg.seqImemEcc k) : (s.fetched k ecc).rd a = s.rd a :=
  (fetched_only s k ecc).reg a (not_or.mpr ⟨hst, he⟩)

theorem Poised.clrAcc (h : Poised s u k) (w : BitVec 64) : Poised s (u.clrAcc k w) k := by
  unfold State.clrAcc State.setClear State.showFacc
  exact h.ite ((h.modSite (fun x => { x with clearPt := (u.getSite k).cycle }) fun _ => rfl).setStatus (lo := 4) (len := 1) _ (by decide) (by decide))

theorem Poised.writeX (h : Poised s u k) (n : Nat) (v : Word) : Poised s (u.writeX k n v) k := by
  have hw : Poised s (u.wr (Reg.seqX k n) v) k := h.wr v (by simp only [Reg.seqX, Reg.seqStatus]; omega)
  unfold State.writeX
  dsimp only
  split
  · exact hw.modSite _ fun _ => rfl
  · exact hw

theorem Poised.writeFlags (h : Poised s u k) (f : Nat) (set clr : BitVec 16) : Poised s (u.writeFlags f set clr) k := by
  have hx : Poised s { u with xflags := (f, set, clr) :: u.xflags } k := ⟨h.state, h.track, h.fc⟩
  unfold State.writeFlags
  exact (hx.wr _ (by simp only [Reg.seqXflags, Reg.seqStatus]; omega)).wr _ (by simp only [Reg.seqXflagsClr, Reg.seqStatus]; omega)

theorem State.CanIssue.room {k : SiteIx} {op len : Nat} (h : s.CanIssue k w ecc op len) (hu : Poised s u k) :
    ∀ e n, (u.getSite k).stopAt = some (e, n) → (u.getSite k).cycle + len ≤ e := by
  rw [hu.stopAt, hu.cycle]
  exact fun e n hstop => (h.noStop e n hstop).1

/-! ### The run -/

/-- What a command may change that issues cycles. -/
structure May.Issues (m : May) (k : Nat) : Prop where
  reg : ∀ a, issueRegs k a → m.reg a
  site : m.site k
  time : m.time

theorem issueMay_issues (k : Nat) (extra : Nat → Prop) : (issueMay k extra).Issues k := ⟨fun _ h => .inl h, rfl, trivial⟩

theorem countRegs_issueRegs {a : Nat} (h : countRegs k a) : issueRegs k a := by
  rcases h with h | h | h | h | h
  · exact .inr (.inl h)
  · exact .inr (.inr (.inl h))
  · exact .inr (.inr (.inr (.inr (.inr (.inl h)))))
  · exact .inr (.inr (.inr (.inr (.inr (.inr (.inl h))))))
  · exact .inr (.inr (.inr (.inr (.inr (.inr (.inr h))))))

theorem May.Issues.pc (hm : m.Issues k) : m.reg (Reg.seqPc k) := hm.reg _ (.inl rfl)
theorem May.Issues.status (hm : m.Issues k) : m.reg (Reg.seqStatus k) := hm.reg _ (.inr (.inr (.inr (.inl rfl))))
theorem May.Issues.imemEcc (hm : m.Issues k) : m.reg (Reg.seqImemEcc k) := hm.reg _ (.inr (.inr (.inr (.inr (.inl rfl)))))

theorem Only.fetchedOf (h : Only m s t) (hm : m.Issues k) : Only m s (t.fetched k ecc) := h.fetched hm.status hm.imemEcc hm.site

theorem Only.issueOf (w : BitVec 64) (len : Nat) (window sv : Bool) (h : Only m s t) (hm : m.Issues k) :
    Only m s (t.issue k w len window sv) := h.issueCounts w len window sv hm.site hm.time fun a ha => hm.reg a (countRegs_issueRegs ha)

theorem issue_only (s : State) (k : Nat) (w : BitVec 64) (len : Nat) (window sv : Bool) : Only (countMay k) s (s.issue k w len window sv) :=
  (Only.refl _ s).issueCounts w len window sv rfl trivial fun _ h => h

section Issue
variable (w : BitVec 64) (len : Nat) (window sv : Bool)

theorem issue_seqState (hk : k < 16) : (s.issue k w len window sv).seqState k = s.seqState k :=
  (issue_only s k w len window sv).fld_eq (not_countRegs_seqStatus hk)

theorem issue_seqPc (hk : k < 16) : (s.issue k w len window sv).seqPc k = s.seqPc k :=
  (issue_only s k w len window sv).fld_eq (by
    simp only [countMay, countRegs, integRegs, Reg.seqCycleLo, Reg.seqCycleHi, Reg.seqX, Reg.capStatus, Reg.glbIntegLo, Reg.glbIntegHi,
      Reg.glbIntegCnt, Reg.glbIntegLog, Reg.seqPc]
    omega)

theorem recorded_rd_seqX15 (hk : k < 16) : (s.recorded k w len window sv).rd (Reg.seqX k 15)
    = s.rd (Reg.seqX k 15) + (if sv then BitVec.ofNat 32 len else 0) := by
  unfold State.recorded
  extract_lets sp s1 s2
  have hdiscard : Only (fillMay k) s (s.recordDiscard k sp) := (Only.refl _ s).recordDiscard sp rfl fun _ h => h
  have h1 : s1.rd (Reg.seqX k 15) = s.rd (Reg.seqX k 15) := (State.modSite_rd ..).trans (hdiscard.reg _ (by
    simp only [fillMay, integRegs, Reg.seqX, Reg.glbIntegLo, Reg.glbIntegHi, Reg.glbIntegCnt, Reg.glbIntegLog]
    omega))
  have hcap : Reg.seqX k 15 ≠ Reg.capStatus k := by simp only [Reg.seqX, Reg.capStatus]; omega
  rw [State.setFld_rd, if_neg hcap, State.setFld_rd, if_neg hcap]
  unfold s2
  split
  · rw [State.wr_rd, if_pos rfl, h1]
  · exact h1.trans (BitVec.add_zero _).symm

/-- Past the record of the run only what shows it changes: the counter and the integrity word. -/
theorem issue_rd_recorded {a : Nat} (ha : ¬ integRegs k a) (hlo : a ≠ Reg.seqCycleLo k) (hhi : a ≠ Reg.seqCycleHi k) :
    (s.issue k w len window sv).rd a = (s.recorded k w len window sv).rd a := by
  have hhi' : a ≠ Reg.seqCycleLo k + 4 := by simpa [Nat.add_right_comm] using hhi
  rw [issue_eq, (checkDue_only _ k).reg a ha, runTo_rd, State.showCycle, State.wr64_rd, if_neg hhi', if_neg hlo]

/-- X15 moves on by the vectors that the run consumes (R71). -/
theorem issue_rd_seqX15 (hk : k < 16) : (s.issue k w len window sv).rd (Reg.seqX k 15)
    = s.rd (Reg.seqX k 15) + (if sv then BitVec.ofNat 32 len else 0) := by
  rw [issue_rd_recorded, recorded_rd_seqX15 w len window sv hk]
  all_goals
    simp only [integRegs, Reg.seqX, Reg.seqCycleLo, Reg.seqCycleHi, Reg.glbIntegLo, Reg.glbIntegHi, Reg.glbIntegCnt, Reg.glbIntegLog]
    omega

/-- The status of the capture block shows the block and the mode that the run is captured under (R96). -/
theorem issue_rd_capStatus (hk : k < 16) : (s.issue k w len window sv).rd (Reg.capStatus k)
    = setFldOf (setFldOf (s.rd (Reg.capStatus k)) 20 8 (s.getSite k).capBlock.toNat) 18 2 (s.getSite k).capMode.toNat := by
  have hinteg : ¬ integRegs k (Reg.capStatus k) := by
    simp only [integRegs, Reg.capStatus, Reg.glbIntegLo, Reg.glbIntegHi, Reg.glbIntegCnt, Reg.glbIntegLog]
    omega
  rw [issue_rd_recorded w len window sv hinteg (by simp only [Reg.capStatus, Reg.seqCycleLo]; omega)
    (by simp only [Reg.capStatus, Reg.seqCycleHi]; omega)]
  unfold State.recorded
  extract_lets sp s1 s2
  have h2 : s2.rd (Reg.capStatus k) = s.rd (Reg.capStatus k) := by
    have h1 : s1.rd (Reg.capStatus k) = s.rd (Reg.capStatus k) := (State.modSite_rd ..).trans <|
      ((Only.refl (fillMay k) s).recordDiscard sp rfl fun _ h => h).reg _ hinteg
    unfold s2
    split
    · rw [State.wr_rd, if_neg (by simp only [Reg.capStatus, Reg.seqX]; omega), h1]
    · exact h1
  rw [State.setFld_rd, if_pos rfl, State.setFld_rd, if_pos rfl, h2]
  rfl

end Issue

/-- What follows a run may change beside the sequencer's record: its place and its state, and what shows the state of its site. -/
def settleRegs (k a : Nat) : Prop :=
  a = Reg.seqPc k ∨ a = Reg.seqStatus k ∨ a = Reg.glbSiteState ∨ a = Reg.fabPenStat ∨ a = Reg.glbMode

/-- A run has issued, and what follows it leaves the sequencer's record of it. -/
theorem issued_of_issue {k : SiteIx} {len pc state : Nat} {window sv : Bool} (hu : Poised s u k) (hpc : t.seqPc k = pc)
    (hstate : t.seqState k = state) (htrack : (t.getSite k).track = ((u.issue k w len window sv).getSite k).track)
    (honly : Only { reg := settleRegs k, site := fun j => j = k } (u.issue k w len window sv) t) : Issued s t k w len window sv pc state where
  pc := hpc
  state := hstate
  cycle := by
    have h : (t.getSite k).cycle = _ := congrArg (fun p => p.1) htrack
    exact h.trans ((issue_cycle w len window sv).trans (congrArg (· + len) hu.cycle))
  fields := by
    have h : (t.getSite k).spans = _ := congrArg (fun p => p.2.2.1) htrack
    refine ⟨u.spanOf k w len window sv, ?_, hu.cycle, rfl, rfl, rfl, rfl, rfl, rfl⟩
    exact h.trans ((issue_spans w len window sv).trans (congrArg _ hu.spans))
  counter := by
    have hne : ¬ settleRegs k (Reg.seqCycleLo k) ∧ ¬ settleRegs k (Reg.seqCycleLo k + 4) := by
      have := k.isLt
      simp only [settleRegs, Reg.seqPc, Reg.seqStatus, Reg.glbSiteState, Reg.fabPenStat, Reg.glbMode, Reg.seqCycleLo]
      omega
    rw [honly.rd64_eq hne.1 hne.2, issue_counter w len window sv k.isLt, hu.cycle]
  clock := by rw [(honly.time id).2.1, issue_fc, hu.fc, hu.fc0, hu.cycle]

/-- The run has issued, and the sequencer goes on at `pc`. -/
def State.ranTo (s : State) (k : Nat) (w : BitVec 64) (len : Nat) (window sv : Bool) (pc : Nat) : State :=
  (s.issue k w len window sv).setFld (Reg.seqPc k) 0 15 pc

section Ran
variable {len pc : Nat} {window sv : Bool}

theorem oneCycle_eq_ranTo (hroom : ∀ e n, (s.getSite k).stopAt = some (e, n) → (s.getSite k).cycle + 1 ≤ e) (hpc : pc < 0x8000) :
    s.oneCycle k w pc sv = s.ranTo k w 1 false sv pc := by
  rw [oneCycle_of_issued (issueUpTo_of_room hroom), goTo_of_lt hpc, State.ranTo]

theorem ranTo_getSite : (s.ranTo k w len window sv pc).getSite k = (s.issue k w len window sv).getSite k := State.setFld_getSite ..

/-- Beside the record of the cycles the sequencer's site is as before the run. -/
theorem ranTo_unfilled : ((s.ranTo k w len window sv pc).getSite k).unfilled = ((s.getSite k).run (s.spanOf k w len window sv) len).unfilled := by
  rw [ranTo_getSite, issue_unfilled]

/-- What neither the fills nor the record of cycles say of the site is as before the run. -/
theorem ranTo_field {β : Type} (g : Site → β) (hfill : ∀ x, g x.unfilled = g x) (hrun : ∀ x sp n, g (x.run sp n) = g x) :
    g ((s.ranTo k w len window sv pc).getSite k) = g (s.getSite k) := by
  rw [← hfill, ranTo_unfilled, hfill, hrun]

theorem ranTo_only (s : State) : Only { countMay k with reg := fun a => a = Reg.seqPc k ∨ countRegs k a } s (s.ranTo k w len window sv pc) :=
  ((Only.refl { countMay k with reg := fun a => a = Reg.seqPc k ∨ countRegs k a } s).issueCounts w len window sv rfl trivial
    fun _ h => .inr h).setFld 0 15 pc (.inl rfl)

theorem Only.ranTo (h : Only m s t) (hm : m.Issues k) : Only m s (t.ranTo k w len window sv pc) :=
  (h.issueOf w len window sv hm).setFld 0 15 pc hm.pc

theorem ranTo_issued {k : SiteIx} (hu : Poised s u k) (hpc : pc < 0x8000) : Issued s (u.ranTo k w len window sv pc) k w len window sv pc 3 := by
  refine issued_of_issue hu ?_ ?_ (congrArg Site.track ranTo_getSite) ((Only.refl _ _).setFld 0 15 pc (.inl rfl))
  · exact (State.setFld_fld _ _ _ _ _ (by decide)).trans (Nat.mod_eq_of_lt hpc)
  · refine (State.setFld_fld_other _ _ _ _ _ _ _ _ (by decide) (.inl ?_)).trans ((issue_seqState w len window sv k.isLt).trans hu.state)
    simp only [Reg.seqPc, Reg.seqStatus]
    omega

theorem ranTo_rd_seqX15 (hk : k < 16) : (s.ranTo k w len window sv pc).rd (Reg.seqX k 15)
    = s.rd (Reg.seqX k 15) + (if sv then BitVec.ofNat 32 len else 0) := by
  rw [State.ranTo, State.setFld_rd, if_neg (by simp only [Reg.seqX, Reg.seqPc]; omega), issue_rd_seqX15 w len window sv hk]

theorem ranTo_rd_capStatus (hk : k < 16) : (s.ranTo k w len window sv pc).rd (Reg.capStatus k)
    = setFldOf (setFldOf (s.rd (Reg.capStatus k)) 20 8 (s.getSite k).capBlock.toNat) 18 2 (s.getSite k).capMode.toNat := by
  rw [State.ranTo, State.setFld_rd, if_neg (by simp only [Reg.capStatus, Reg.seqPc]; omega), issue_rd_capStatus w len window sv hk]

/-- A run that consumes no stored vectors leaves the counters, the index registers, the switch words and the stack. -/
theorem ranTo_rd_window {a : Nat} (hk : k < 16) (hlo : Reg.seqLc k 0 ≤ a) (hhi : a ≤ Reg.seqStack k 15) :
    (s.ranTo k w len window false pc).rd a = s.rd a := by
  by_cases hx : a = Reg.seqX k 15
  · rw [hx, ranTo_rd_seqX15 hk]
    exact BitVec.add_zero _
  · refine (ranTo_only s).reg a ?_
    simp only [countRegs, integRegs, Reg.seqPc, Reg.seqCycleLo, Reg.seqCycleHi, Reg.seqX, Reg.capStatus, Reg.glbIntegLo, Reg.glbIntegHi,
      Reg.glbIntegCnt, Reg.glbIntegLog, Reg.seqLc, Reg.seqStack] at hx hlo hhi ⊢
    omega

end Ran

end Sys2Proof.Machine
end

section
/-! The instructions of a sequencer that issue one cycle and go on (R69, R72, R76, R78, R82, R83, R85, R92 to R96). -/

namespace Sys2Proof.Machine

variable {m : May} {s t u : State} {k : Nat} {w : BitVec 64} {ecc : Ecc}

/-! ### What an instruction decides on -/

theorem seqAux_lt (w : BitVec 64) : seqAux w < 256 := (w.extractLsb' 32 8).isLt
theorem seqImm_lt (w : BitVec 64) : seqImm w < 2 ^ 32 := (w.extractLsb' 0 32).isLt

/-- The operands of a legal instruction lie in the range of its opcode (R68, R69). -/
theorem operands_of_legal (h : seqLegal k w = true) : seqOperandsOk k (seqOp w) (seqAux w) (seqImm w) = true := by
  unfold seqLegal at h
  simp only [Bool.and_eq_true] at h
  exact h.2

theorem State.CanIssue.operands {k : SiteIx} {op len : Nat} (h : s.CanIssue k w ecc op len) :
    seqOperandsOk k op (seqAux w) (seqImm w) = true := h.op ▸ operands_of_legal h.legal

/-- A condition reads the site but for what the edges noted and the wait, and the registers of the conditions (R75). -/
theorem seqCond_congr {c : Nat} (hsite : ∃ l v, t.getSite k = { s.getSite k with exposeRegs := l, wait := v }) (hflags : t.xflags = s.xflags)
    (hmask : ∀ j, t.rdAct (Reg.seqCmask k j) = s.rdAct (Reg.seqCmask k j)) (hx : ∀ j, t.rd (Reg.seqX k j) = s.rd (Reg.seqX k j))
    (hbit : t.bit (Reg.seqStatus k) 5 = s.bit (Reg.seqStatus k) 5) : t.seqCond k w c = s.seqCond k w c := by
  obtain ⟨l, v, hsite⟩ := hsite
  unfold State.seqCond State.flagSeen State.cmask
  rw [hsite, hflags, hmask 0, hmask 1, hbit]
  simp only [hx]
  rfl

theorem fetched_flagSeen (f n : Nat) : (s.fetched k ecc).flagSeen f n = s.flagSeen f n := by
  rw [State.flagSeen, (fetched_only s k ecc).flags id, State.flagSeen]

theorem fetched_bit_seqStatus {i : Nat} (hi : 3 ≤ i) : (s.fetched k ecc).bit (Reg.seqStatus k) i = s.bit (Reg.seqStatus k) i := by
  have hu : ((s.noteEdges k (s.getSite k).cycle).setSeqState k 3).bit (Reg.seqStatus k) i = s.bit (Reg.seqStatus k) i := by
    have hn : (s.noteEdges k (s.getSite k).cycle).rd (Reg.seqStatus k) = s.rd (Reg.seqStatus k) :=
      ((Only.refl { site := fun j => j = k } s).noteEdges _ rfl).reg _ id
    rw [State.bit, State.setSeqState, State.setFld_rd, if_pos rfl, setFldOf_getLsbD _ _ _ _ _ (by decide), if_neg (by omega), hn, State.bit]
  unfold State.fetched
  dsimp only
  split
  · rw [State.bit, State.satAdd_rd, if_neg (by simp only [Reg.seqStatus, Reg.seqImemEcc]; omega)]
    exact hu
  · exact hu

theorem fetched_rd_seqX (j : Nat) : (s.fetched k ecc).rd (Reg.seqX k j) = s.rd (Reg.seqX k j) :=
  fetched_rd (by simp only [Reg.seqX, Reg.seqStatus]; omega) (by simp only [Reg.seqX, Reg.seqImemEcc]; omega)

theorem fetched_rd_seqLc (j : Nat) : (s.fetched k ecc).rd (Reg.seqLc k j) = s.rd (Reg.seqLc k j) :=
  fetched_rd (by simp only [Reg.seqLc, Reg.seqStatus]; omega) (by simp only [Reg.seqLc, Reg.seqImemEcc]; omega)

theorem fetched_rd_seqSw (j : Nat) : (s.fetched k ecc).rd (Reg.seqSw k j) = s.rd (Reg.seqSw k j) :=
  fetched_rd (by simp only [Reg.seqSw, Reg.seqStatus]; omega) (by simp only [Reg.seqSw, Reg.seqImemEcc]; omega)

theorem fetched_seqCond (c : Nat) : (s.fetched k ecc).seqCond k w c = s.seqCond k w c := by
  obtain ⟨l, hl⟩ := fetched_site (s := s) (k := k) (ecc := ecc)
  refine seqCond_congr ⟨l, _, hl⟩ ((fetched_only s k ecc).flags id) (fun j => fetched_rd ?_ ?_) fetched_rd_seqX (fetched_bit_seqStatus (by decide))
  · simp only [Reg.seqCmask, Reg.seqStatus]; omega
  · simp only [Reg.seqCmask, Reg.seqImemEcc]; omega

/-! ### Instructions that go on at the next address -/

/-- What an instruction that goes on at the next address does before its cycle (R69). -/
def State.entered (s : State) (k : Nat) (w : BitVec 64) : Nat → State
  | 0 => s.clrAcc k w
  | 2 => if seqImm w = 0 then s else s.setLc k (seqAux w) (seqImm w)
  | 3 => s.setLc k (seqAux w) 0
  | 12 => s.writeFlags ((s.getSite k).fc0 + (s.getSite k).cycle) (if (seqAux w).testBit 4 then bvBit 16 (seqAux w % 16) else 0)
      (if (seqAux w).testBit 4 then 0 else bvBit 16 (seqAux w % 16))
  | 14 => s.setLc k (seqAux w) (seqImm w)
  | 15 => s.writeX k (seqAux w) (BitVec.ofNat 32 (seqImm w))
  | 16 => s.writeX k (seqAux w) (s.rd (Reg.seqX k (seqAux w)) + BitVec.ofNat 32 (seqImm w))
  | 17 => s.wr (Reg.seqSw k (seqAux w % 2)) (s.swwValue k w)
  | 20 => s.modSite k (fun x => { x with exposeAt := x.exposeAt ++ [x.cycle] })
  | 21 =>
    if seqAux w = 1 then s.modSite k (fun x => { x with capMode := BitVec.ofNat 2 (seqImm w) })
    else s.modSite k (fun x => { x with capBlock := BitVec.ofNat 8 (seqImm w) })
  | 22 => (s.setBit (Reg.capStatus k) 16 true).modSite k (fun x => { x with flushAt := x.flushAt ++ [(s.getSite k).cycle] })
  | 23 => if s.seqCond k w (s.getSite k).cycle then s.pushQ (Reg.seqIrq k) 16 (BitVec.ofNat 32 (seqImm w % 256)) else s
  | _ => s

/-- Its cycle consumes a stored vector: only that of a VEC can (R71). -/
def consumes (w : BitVec 64) : Nat → Bool
  | 0 => (seqAux w).testBit 0
  | _ => false

/-- The instruction goes on at the next address behind its one cycle. -/
def State.FallsThrough (s : State) (k : Nat) (w : BitVec 64) (op : Nat) : Prop :=
  op ∈ [0, 2, 12, 14, 15, 16, 17, 20, 21, 22, 23] ∨ (op = 3 ∧ (s.rd (Reg.seqLc k (seqAux w))).toNat ≤ 1)
    ∨ (op ∈ [5, 6, 7, 9, 10] ∧ s.seqCond k w (s.getSite k).cycle = false)
    ∨ (op = 13 ∧ s.flagSeen (seqAux w % 16) ((s.getSite k).fc0 + (s.getSite k).cycle) = (seqAux w).testBit 4)

theorem Poised.setLc (h : Poised s u k) (n v : Nat) : Poised s (u.setLc k n v) k := h.wr _ (by simp only [Reg.seqLc, Reg.seqStatus]; omega)

theorem Poised.entered (h : Poised s u k) (op : Nat) : Poised s (u.entered k w op) k := by
  unfold State.entered
  split
  case h_1 => exact h.clrAcc w
  case h_2 => exact (h.setLc _ _).ite h
  case h_3 => exact h.setLc _ _
  case h_4 => exact h.writeFlags _ _ _
  case h_5 => exact h.setLc _ _
  case h_6 => exact h.writeX _ _
  case h_7 => exact h.writeX _ _
  case h_8 => exact h.wr _ (by simp only [Reg.seqSw, Reg.seqStatus]; omega)
  case h_9 => exact h.modSite _ fun _ => rfl
  case h_10 => refine Poised.ite ?_ ?_ <;> exact h.modSite _ fun _ => rfl
  case h_11 => exact (h.wr _ (by simp only [Reg.capStatus, Reg.seqStatus]; omega)).modSite _ fun _ => rfl
  case h_12 => exact h.ite (h.pushQ _ _ _)
  case h_13 => exact h

section Through
variable {k : SiteIx}

theorem exec_through_plain {op : Nat} (h : s.CanIssue k w ecc op 1) (hop : op ∈ [0, 2, 12, 14, 15, 16, 17, 20, 21, 22, 23]) :
    exec (seqInstr k w ecc op) s
      = fin s (((s.fetched k ecc).entered k w op).oneCycle k w (s.seqPc k + 1) (consumes w op)) := by
  have hpc : (s.fetched k ecc).seqPc k = s.seqPc k := fetched_seqPc
  simp only [List.mem_cons, List.not_mem_nil, or_false] at hop
  rcases hop with rfl | rfl | rfl | rfl | rfl | rfl | rfl | rfl | rfl | rfl | rfl
  case inr.inr.inr.inr.inr.inr.inr.inr.inl =>
    have hlegal := h.operands
    simp only [seqOperandsOk, Bool.or_eq_true, Bool.and_eq_true, beq_iff_eq, decide_eq_true_eq] at hlegal
    simp only [seqInstr, State.entered]
    by_cases haux : seqAux w = 1
    · rw [if_pos haux, if_pos haux]
      exact congrArg (fin s) ((if_neg (by omega)).trans (by rw [seqExec_of_canIssue h rfl, hpc]; rfl))
    · rw [if_neg haux, if_neg haux]
      exact congrArg (fin s) ((if_neg haux).trans (by rw [seqExec_of_canIssue h rfl, hpc]; rfl))
  all_goals
    refine congrArg (fin s) ?_
    rw [seqExec_of_canIssue h rfl, hpc]
    rfl

theorem exec_through_untaken {op : Nat} (h : s.CanIssue k w ecc op 1) (hop : op ∈ [5, 6, 7, 9, 10])
    (hcond : s.seqCond k w (s.getSite k).cycle = false) :
    exec (seqInstr k w ecc op) s = fin s ((s.fetched k ecc).oneCycle k w (s.seqPc k + 1)) := by
  have hpc : (s.fetched k ecc).seqPc k = s.seqPc k := fetched_seqPc
  have hcond' : (s.fetched k ecc).seqCond k w ((s.fetched k ecc).getSite k).cycle = false := by
    rw [fetched_seqCond, fetched_poised.cycle, hcond]
  simp only [List.mem_cons, List.not_mem_nil, or_false] at hop
  rcases hop with rfl | rfl | rfl | rfl | rfl
  all_goals
    refine congrArg (fin s) ?_
    rw [seqExec_of_canIssue h (by simp [hcond'])]
  case inl => rw [hcond', hpc]; rfl
  case inr.inl => rw [hcond', hpc]; rfl
  case inr.inr.inl => rw [hcond', hpc]; rfl
  case inr.inr.inr.inl => simp only [State.haltWith, hcond', hpc]; rfl
  case inr.inr.inr.inr => simp only [State.haltWith, hcond', hpc]; rfl

theorem exec_endl_last (h : s.CanIssue k w ecc 3 1) (hlc : (s.rd (Reg.seqLc k (seqAux w))).toNat ≤ 1) :
    exec (.endl k w ecc) s = fin s (((s.fetched k ecc).setLc k (seqAux w) 0).oneCycle k w (s.seqPc k + 1)) := by
  refine congrArg (fin s) ?_
  have hlc' : (s.fetched k ecc).lc k (seqAux w) ≤ 1 := (congrArg BitVec.toNat (fetched_rd_seqLc _)).trans_le hlc
  rw [seqExec_of_canIssue h rfl, fetched_seqPc]
  exact if_pos hlc'

theorem exec_endl_again (h : s.CanIssue k w ecc 3 1) (hlc : 1 < (s.rd (Reg.seqLc k (seqAux w))).toNat) : exec (.endl k w ecc) s
    = fin s (((s.fetched k ecc).setLc k (seqAux w) ((s.rd (Reg.seqLc k (seqAux w))).toNat - 1)).oneCycle k w (seqImm w)) := by
  refine congrArg (fin s) ?_
  have hlc' : (s.fetched k ecc).lc k (seqAux w) = (s.rd (Reg.seqLc k (seqAux w))).toNat := congrArg BitVec.toNat (fetched_rd_seqLc _)
  rw [seqExec_of_canIssue h rfl]
  exact (if_neg (by rw [hlc']; omega)).trans (by rw [hlc'])

theorem exec_waitf_seen (h : s.CanIssue k w ecc 13 1)
    (hseen : s.flagSeen (seqAux w % 16) ((s.getSite k).fc0 + (s.getSite k).cycle) = (seqAux w).testBit 4) :
    exec (.waitf k w ecc) s = fin s ((s.fetched k ecc).oneCycle k w (s.seqPc k + 1)) := by
  refine congrArg (fin s) ?_
  rw [seqExec_of_canIssue h rfl]
  dsimp only
  rw [fetched_flagSeen, fetched_poised.fc0, fetched_poised.cycle, if_pos (beq_iff_eq.mpr hseen), fetched_seqPc]

/-- An instruction that goes on at the next address enters what it says, and its cycle comes. -/
theorem exec_through {op : Nat} (h : s.CanIssue k w ecc op 1) (hf : s.FallsThrough k w op) : exec (seqInstr k w ecc op) s
    = fin s (((s.fetched k ecc).entered k w op).oneCycle k w (s.seqPc k + 1) (consumes w op)) := by
  rcases hf with hop | ⟨rfl, hlc⟩ | ⟨hop, hcond⟩ | ⟨rfl, hseen⟩
  · exact exec_through_plain h hop
  · exact exec_endl_last h hlc
  · rw [exec_through_untaken h hop hcond]
    simp only [List.mem_cons, List.not_mem_nil, or_false] at hop
    rcases hop with rfl | rfl | rfl | rfl | rfl <;> rfl
  · exact exec_waitf_seen h hseen

/-! ### Instructions of one cycle, as commands -/

/-- An instruction that issues its cycle and goes on at `pc`. -/
theorem Answers.ofRun {cmd : Instr} {len pc : Nat} {window sv : Bool} {P : State → Prop} (hexec : exec cmd s = fin s (u.ranTo k w len window sv pc))
    (hu : Poised s u k) (hpc : pc < 0x8000) (hm : m.Issues k) (honly : Only m s u)
    (hp : Issued s (State.settle s (u.ranTo k w len window sv pc)) k w len window sv pc 3 → Only m s (State.settle s (u.ranTo k w len window sv pc)) →
      P (State.settle s (u.ranTo k w len window sv pc))) : Answers cmd s P :=
  .of_fin hexec (hp (ranTo_issued hu hpc).settle (Only.settle s (honly.ranTo hm)))

theorem Answers.ofCycle {cmd : Instr} {op pc : Nat} {sv : Bool} {P : State → Prop} (h : s.CanIssue k w ecc op 1)
    (hexec : exec cmd s = fin s (u.oneCycle k w pc sv)) (hu : Poised s u k) (hpc : pc < 0x8000) (hm : m.Issues k) (honly : Only m s u)
    (hp : Issued s (State.settle s (u.ranTo k w 1 false sv pc)) k w 1 false sv pc 3 → Only m s (State.settle s (u.ranTo k w 1 false sv pc)) →
      P (State.settle s (u.ranTo k w 1 false sv pc))) : Answers cmd s P :=
  .ofRun (hexec.trans (congrArg (fin s) (oneCycle_eq_ranTo (h.room hu) hpc))) hu hpc hm honly hp

/-- An instruction that writes one register of its counters, index registers or switch words before its cycle. -/
theorem Answers.ofWrite {cmd : Instr} {op pc a : Nat} {v : Word} (h : s.CanIssue k w ecc op 1) (hexec : exec cmd s = fin s (u.oneCycle k w pc))
    (hu : Poised s u k) (hpc : pc < 0x8000) (hlo : Reg.seqLc k 0 ≤ a) (hhi : a ≤ Reg.seqStack k 15) (hv : u.rd a = v)
    (honly : Only (issueMay k (· = a)) s u) :
    Answers cmd s (fun t => Issued s t k w 1 false false pc 3 ∧ t.rd a = v ∧ Only (issueMay k (· = a)) s t) :=
  .ofCycle h hexec hu hpc (issueMay_issues _ _) honly fun hissued ho => 
    ⟨hissued, (State.settle_rd ..).trans ((ranTo_rd_window k.isLt hlo hhi).trans hv), ho⟩

theorem fetched_issueMay (extra : Nat → Prop) : Only (issueMay k extra) s (s.fetched k ecc) :=
  (Only.refl _ s).fetchedOf (issueMay_issues _ _)

end Through

end Sys2Proof.Machine
end

section
/-! The instructions that issue plain cycles and those that write counters, index registers and switch words (R69, R71, R72, R74, R78, R82, R92). -/

namespace Sys2Proof.Machine

variable {s t u : State} {k : SiteIx} {w : BitVec 64} {ecc : Ecc}

/-! ### VEC and RPT -/

theorem Only.clrAcc {m : May} {k : Nat} (h : Only m s t) (hs : m.site k) (hst : m.reg (Reg.seqStatus k)) (w : BitVec 64) :
    Only m s (t.clrAcc k w) :=
  h.ite ((h.modSite _ hs).setBit _ _ hst)

theorem clrAcc_clearPt {k : Nat} : ((s.clrAcc k w).getSite k).clearPt
    = if (seqAux w).testBit 1 then (s.getSite k).cycle else (s.getSite k).clearPt := by
  unfold State.clrAcc
  split
  · rw [State.setClear, State.showFacc, State.setBit_getSite, State.modSite_getSite, if_pos rfl]
  · rfl

theorem exec_rpt (h : s.CanIssue k w ecc 1 (seqImm w)) : exec (.rpt k w ecc) s
    = fin s (((((s.fetched k ecc).clrAcc k w).issue k w (seqImm w) false ((seqAux w).testBit 0))).goTo k (s.seqPc k + 1)) := by
  refine congrArg (fin s) ?_
  rw [seqExec_of_canIssue h rfl, fetched_seqPc]
  dsimp only
  rw [issueUpTo_of_room (h.room (fetched_poised.clrAcc w))]
  rfl

/-- The cycles of a VEC or an RPT have issued: X15 has moved with them, and the clear point to their first one where aux[1] says so. -/
theorem clrAcc_run_answers {cmd : Instr} {len pc : Nat} {sv : Bool}
    (hexec : exec cmd s = fin s (((s.fetched k ecc).clrAcc k w).ranTo k w len false sv pc)) (hpc : pc < 0x8000) :
    Answers cmd s (fun t => Issued s t k w len false sv pc 3
      ∧ t.rd (Reg.seqX k 15) = s.rd (Reg.seqX k 15) + (if sv then BitVec.ofNat 32 len else 0)
      ∧ (t.getSite k).clearPt = (if (seqAux w).testBit 1 then (s.getSite k).cycle else (s.getSite k).clearPt)
      ∧ Only (issueMay k) s t) := by
  have hclr := (Only.refl { site := fun j => j = k, reg := (· = Reg.seqStatus k) } (s.fetched k ecc)).clrAcc (k := k) rfl rfl w
  refine .ofRun hexec (fetched_poised.clrAcc w) hpc (issueMay_issues k _)
    ((fetched_issueMay _).clrAcc rfl (issueMay_issues k _).status w) fun hissued honly => ⟨hissued, ?_, ?_, honly⟩
  · rw [State.settle_rd, ranTo_rd_seqX15 k.isLt, hclr.reg _ (by simp only [Reg.seqX, Reg.seqStatus]; omega), fetched_rd_seqX]
  · rw [State.settle_getSite, ranTo_field Site.clearPt (fun _ => rfl) (fun _ _ _ => rfl), clrAcc_clearPt,
      fetched_field Site.clearPt (fun _ _ => rfl), fetched_poised.cycle]

theorem vec_answers (h : s.CanIssue k w ecc 0 1) (hmore : s.seqPc k + 1 < 0x8000) :
    Answers (.vec k w ecc) s (fun t => Issued s t k w 1 false ((seqAux w).testBit 0) (s.seqPc k + 1) 3
      ∧ t.rd (Reg.seqX k 15) = s.rd (Reg.seqX k 15) + (if (seqAux w).testBit 0 then BitVec.ofNat 32 1 else 0)
      ∧ (t.getSite k).clearPt = (if (seqAux w).testBit 1 then (s.getSite k).cycle else (s.getSite k).clearPt)
      ∧ Only (issueMay k) s t) :=
  clrAcc_run_answers ((exec_through h (.inl (by decide))).trans
    (congrArg (fin s) (oneCycle_eq_ranTo (h.room (fetched_poised.clrAcc w)) hmore))) hmore

theorem rpt_answers (h : s.CanIssue k w ecc 1 (seqImm w)) (hmore : s.seqPc k + 1 < 0x8000) :
    Answers (.rpt k w ecc) s (fun t => Issued s t k w (seqImm w) false ((seqAux w).testBit 0) (s.seqPc k + 1) 3
      ∧ t.rd (Reg.seqX k 15) = s.rd (Reg.seqX k 15) + (if (seqAux w).testBit 0 then BitVec.ofNat 32 (seqImm w) else 0)
      ∧ (t.getSite k).clearPt = (if (seqAux w).testBit 1 then (s.getSite k).cycle else (s.getSite k).clearPt)
      ∧ Only (issueMay k) s t) :=
  clrAcc_run_answers ((exec_rpt h).trans (congrArg (fin s) (goTo_of_lt hmore))) hmore

/-! ### Writes of the sequencer's own registers -/

/-- The registers that instructions write lie in the window. -/
theorem seqLc_window {k j : Nat} (hj : j < 8) : Reg.seqLc k 0 ≤ Reg.seqLc k j ∧ Reg.seqLc k j ≤ Reg.seqStack k 15 := by
  simp only [Reg.seqLc, Reg.seqStack]; omega
theorem seqX_window {k j : Nat} (hj : j < 16) : Reg.seqLc k 0 ≤ Reg.seqX k j ∧ Reg.seqX k j ≤ Reg.seqStack k 15 := by
  simp only [Reg.seqLc, Reg.seqX, Reg.seqStack]; omega
theorem seqSw_window {k j : Nat} (hj : j < 2) : Reg.seqLc k 0 ≤ Reg.seqSw k j ∧ Reg.seqSw k j ≤ Reg.seqStack k 15 := by
  simp only [Reg.seqLc, Reg.seqSw, Reg.seqStack]; omega

/-- An instruction that writes loop counter `j`. -/
theorem setLc_answers {cmd : Instr} {op pc j v : Nat} (h : s.CanIssue k w ecc op 1) (hj : j < 8)
    (hexec : exec cmd s = fin s (((s.fetched k ecc).setLc k j v).oneCycle k w pc)) (hpc : pc < 0x8000) :
    Answers cmd s (fun t => Issued s t k w 1 false false pc 3 ∧ t.rd (Reg.seqLc k j) = BitVec.ofNat 32 v
      ∧ Only (issueMay k (· = Reg.seqLc k j)) s t) :=
  .ofWrite h hexec (fetched_poised.setLc _ _) hpc (seqLc_window hj).1 (seqLc_window hj).2 ((State.wr_rd ..).trans (if_pos rfl))
    ((fetched_issueMay _).wr _ (.inr rfl))

theorem writeX_rd {k : Nat} (n : Nat) (v : Word) : (s.writeX k n v).rd (Reg.seqX k n) = v := by
  unfold State.writeX
  dsimp only
  split
  · rw [State.modSite_rd, State.wr_rd, if_pos rfl]
  · rw [State.wr_rd, if_pos rfl]

theorem Only.writeX {m : May} {k n : Nat} (v : Word) (h : Only m s t) (hs : m.site k) (hr : m.reg (Reg.seqX k n)) :
    Only m s (t.writeX k n v) := by
  unfold State.writeX
  dsimp only
  split
  · exact (h.wr v hr).modSite _ hs
  · exact h.wr v hr

/-- An instruction that writes index register `j`. -/
theorem writeX_answers {cmd : Instr} {op pc j : Nat} {v : Word} (h : s.CanIssue k w ecc op 1) (hj : j < 16)
    (hexec : exec cmd s = fin s (((s.fetched k ecc).writeX k j v).oneCycle k w pc)) (hpc : pc < 0x8000) :
    Answers cmd s (fun t => Issued s t k w 1 false false pc 3 ∧ t.rd (Reg.seqX k j) = v ∧ Only (issueMay k (· = Reg.seqX k j)) s t) :=
  .ofWrite h hexec (fetched_poised.writeX _ _) hpc (seqX_window hj).1 (seqX_window hj).2 (writeX_rd j v)
    ((fetched_issueMay _).writeX v rfl (.inr rfl))

theorem loop_answers (h : s.CanIssue k w ecc 2 1) (hmore : s.seqPc k + 1 < 0x8000) :
    Answers (.loop k w ecc) s (fun t => Issued s t k w 1 false false (s.seqPc k + 1) 3
      ∧ t.rd (Reg.seqLc k (seqAux w)) = (if BitVec.ofNat 32 (seqImm w) = 0 then s.rd (Reg.seqLc k (seqAux w)) else BitVec.ofNat 32 (seqImm w))
      ∧ Only (issueMay k (· = Reg.seqLc k (seqAux w))) s t) := by
  have hexec : exec (.loop k w ecc) s = _ := exec_through h (.inl (by decide))
  have haux : seqAux w < 8 := by simpa [seqOperandsOk] using h.operands
  have himm : BitVec.ofNat 32 (seqImm w) = 0 ↔ seqImm w = 0 := by
    have := seqImm_lt w
    rw [← BitVec.toNat_inj, BitVec.toNat_ofNat, Nat.mod_eq_of_lt this]
    rfl
  by_cases hzero : seqImm w = 0
  · rw [State.entered, if_pos hzero] at hexec
    rw [if_pos (himm.mpr hzero)]
    exact .ofWrite h hexec fetched_poised hmore (seqLc_window haux).1 (seqLc_window haux).2 (fetched_rd_seqLc _) (fetched_issueMay _)
  · rw [State.entered, if_neg hzero] at hexec
    rw [if_neg (mt himm.mp hzero)]
    exact setLc_answers h haux hexec hmore

theorem endl_answers (h : s.CanIssue k w ecc 3 1) (hmore : 1 < (s.rd (Reg.seqLc k (seqAux w))).toNat ∨ s.seqPc k + 1 < 0x8000) :
    Answers (.endl k w ecc) s (if (s.rd (Reg.seqLc k (seqAux w))).toNat ≤ 1
      then fun t => Issued s t k w 1 false false (s.seqPc k + 1) 3 ∧ t.rd (Reg.seqLc k (seqAux w)) = 0
        ∧ Only (issueMay k (· = Reg.seqLc k (seqAux w))) s t
      else fun t => Issued s t k w 1 false false (seqImm w) 3 ∧ t.rd (Reg.seqLc k (seqAux w)) = s.rd (Reg.seqLc k (seqAux w)) - 1
        ∧ Only (issueMay k (· = Reg.seqLc k (seqAux w))) s t) := by
  obtain ⟨haux, himm⟩ : seqAux w < 8 ∧ seqImm w < 0x8000 := by simpa [seqOperandsOk] using h.operands
  by_cases hlc : (s.rd (Reg.seqLc k (seqAux w))).toNat ≤ 1
  · rw [if_pos hlc]
    exact setLc_answers h haux (exec_endl_last h hlc) (hmore.resolve_left (Nat.not_lt.mpr hlc))
  · have hdown : BitVec.ofNat 32 ((s.rd (Reg.seqLc k (seqAux w))).toNat - 1) = s.rd (Reg.seqLc k (seqAux w)) - 1 := by bv_omega
    rw [if_neg hlc, ← hdown]
    exact setLc_answers h haux (exec_endl_again h (Nat.not_le.mp hlc)) himm

/-- The cycle of a SWW carries the new switch word (R92). -/
theorem sww_answers (h : s.CanIssue k w ecc 17 1) (hmore : s.seqPc k + 1 < 0x8000) :
    Answers (.sww k w ecc) s (fun t =>
      (Issued s t k w 1 false false (s.seqPc k + 1) 3 ∧ t.rd (Reg.seqSw k (seqAux w % 2)) = s.swwValue k w
        ∧ Only (issueMay k (· = Reg.seqSw k (seqAux w % 2))) s t)
      ∧ (t.getSite k).spans.head?.map (fun sp => if seqAux w % 2 = 0 then sp.sw0 else sp.sw1) = some (s.swwValue k w)) := by
  have hvalue : (s.fetched k ecc).swwValue k w = s.swwValue k w := by
    rw [State.swwValue, fetched_rd_seqX, fetched_rd_seqSw, State.swwValue]
  have hexec : exec (.sww k w ecc) s = fin s (((s.fetched k ecc).wr (Reg.seqSw k (seqAux w % 2)) (s.swwValue k w)).oneCycle k w (s.seqPc k + 1)) :=
    hvalue ▸ exec_through h (.inl (by decide))
  obtain ⟨u, hu⟩ : ∃ u, (s.fetched k ecc).wr (Reg.seqSw k (seqAux w % 2)) (s.swwValue k w) = u := ⟨_, rfl⟩
  have hpoised : Poised s u k := hu ▸ fetched_poised.wr _ (by simp only [Reg.seqSw, Reg.seqStatus]; omega)
  have hrd : u.rd (Reg.seqSw k (seqAux w % 2)) = s.swwValue k w := by rw [← hu, State.wr_rd, if_pos rfl]
  rw [hu] at hexec
  refine .ofCycle h hexec hpoised hmore (issueMay_issues k _) (hu ▸ (fetched_issueMay _).wr _ (.inr rfl)) fun hissued honly =>
    ⟨⟨hissued, ?_, honly⟩, ?_⟩
  · have hwin := seqSw_window (k := k) (Nat.mod_lt (seqAux w) (by decide : 0 < 2))
    rw [State.settle_rd, ranTo_rd_window k.isLt hwin.1 hwin.2, hrd]
  · have hspans : (((u.ranTo k w 1 false false (s.seqPc k + 1))).getSite k).spans = u.spanOf k w 1 false false :: (u.getSite k).spans := by
      rw [ranTo_getSite, issue_spans]
    rw [State.settle_getSite, hspans, List.head?_cons, Option.map_some]
    rcases Nat.mod_two_eq_zero_or_one (seqAux w) with hb | hb
    all_goals
      rw [hb] at hrd ⊢
      exact congrArg some hrd

/-- Settles O1: VEC and RPT by `clrAcc_run_answers`, each of the others by what it writes before its one cycle. -/
theorem seqData : Obligations.SeqData := by
  unfold Obligations.SeqData
  refine ⟨fun k w ecc s hmore => ⟨fun h => vec_answers h hmore, fun h => rpt_answers h hmore⟩, fun k w ecc s => ?_⟩
  refine ⟨fun h hmore => loop_answers h hmore, fun h hmore => endl_answers h hmore, fun h hmore => ?_, fun h hmore => ?_, fun h hmore => ?_,
    fun h hmore => sww_answers h hmore⟩
  · exact setLc_answers h (by simpa [seqOperandsOk] using h.operands) (exec_through h (.inl (by decide))) hmore
  · exact writeX_answers h (by simpa [seqOperandsOk] using h.operands) (exec_through h (.inl (by decide))) hmore
  · have hexec : exec (.addx k w ecc) s = _ := exec_through h (.inl (by decide))
    rw [State.entered, fetched_rd_seqX] at hexec
    exact writeX_answers h (by simpa [seqOperandsOk] using h.operands) hexec hmore

end Sys2Proof.Machine
end

section
/-! The instructions of a sequencer with an effect outside it (R85, R93 to R96): cross-sequencer flags, Exposures, the capture block and mode, flushes and
interrupts. -/

namespace Sys2Proof.Machine

variable {m : May} {s t u : State} {w : BitVec 64} {ecc : Ecc}

/-! ### Cross-sequencer flags (R85) -/

theorem bvBit_getLsbD (n i j : Nat) : (bvBit n i).getLsbD j = (decide (j < n) && decide (i = j)) := by
  rw [bvBit, BitVec.getLsbD_ofNat, Nat.testBit_two_pow]

/-- A write that does not name a flag leaves it. -/
theorem flagAt_cons_of_unnamed {l : List (Nat × BitVec 16 × BitVec 16)} {set clr : BitVec 16} {g : Nat} (n u : Nat) (hset : set.getLsbD g = false)
    (hclr : clr.getLsbD g = false) : flagAt ((n, set, clr) :: l) g u = flagAt l g u := by
  unfold flagAt
  rw [List.filter_cons_of_neg (by simp [hset, hclr])]

theorem foldl_max_le {l : List (Nat × BitVec 16 × BitVec 16)} {n b : Nat} (hb : b ≤ n) (h : ∀ e ∈ l, e.1 ≤ n) :
    l.foldl (fun m e => max m e.1) b ≤ n := by
  induction l generalizing b with
  | nil => exact hb
  | cons e l ih => exact ih (max_le hb (h e List.mem_cons_self)) fun e' he => h e' (List.mem_cons_of_mem _ he)

theorem le_foldl_max (l : List (Nat × BitVec 16 × BitVec 16)) (b : Nat) : b ≤ l.foldl (fun m e => max m e.1) b := by
  induction l generalizing b with
  | nil => exact le_rfl
  | cons e l ih => exact (le_max_left b e.1).trans (ih _)

/-- The latest write that names a flag decides it. -/
theorem flagAt_cons_of_latest {l : List (Nat × BitVec 16 × BitVec 16)} {set clr : BitVec 16} {f n u : Nat} (hl : ∀ e ∈ l, e.1 < n) (hn : n ≤ u)
    (hnamed : (set.getLsbD f || clr.getLsbD f) = true) : flagAt ((n, set, clr) :: l) f u = set.getLsbD f := by
  unfold flagAt
  rw [List.filter_cons_of_pos (by simpa [hn] using hnamed)]
  extract_lets es top
  have hes : ∀ e ∈ l.filter (fun e => decide (e.1 ≤ u) && (e.2.1.getLsbD f || e.2.2.getLsbD f)), e.1 < n := fun e he =>
    hl e (List.mem_of_mem_filter he)
  have htop : top = n := by
    refine le_antisymm (foldl_max_le (Nat.zero_le n) fun e he => ?_) ((le_max_right 0 n).trans (le_foldl_max _ _))
    rcases List.mem_cons.mp he with rfl | he
    · exact le_rfl
    · exact (hes e he).le
  have hrest : (l.filter (fun e => decide (e.1 ≤ u) && (e.2.1.getLsbD f || e.2.2.getLsbD f))).any (fun e => e.1 == top && e.2.1.getLsbD f) = false :=
    List.any_eq_false.mpr fun e he => by simp [htop, (hes e he).ne]
  rw [List.any_cons, hrest, htop, beq_self_eq_true, Bool.true_and, Bool.or_false]

theorem writeFlags_xflags (n : Nat) (set clr : BitVec 16) : (s.writeFlags n set clr).xflags = (n, set, clr) :: s.xflags := rfl

theorem Only.writeFlags (n : Nat) (set clr : BitVec 16) (h : Only m s t) (hf : m.flags) (h1 : m.reg Reg.seqXflags) (h2 : m.reg Reg.seqXflagsClr) :
    Only m s (t.writeFlags n set clr) := by
  have hx : Only m s { t with xflags := (n, set, clr) :: t.xflags } := { h with flags := fun hnot => absurd hf hnot }
  unfold State.writeFlags
  exact (hx.wr _ h1).wr _ h2

/-- A write of one flag is seen from 3 fc later on where no write as late stands before it, and the other flags are seen as before. -/
theorem flagSeen_of_write {n f : Nat} {v : Bool} (hf : f < 16)
    (ht : t.xflags = (n, if v then bvBit 16 f else 0, if v then 0 else bvBit 16 f) :: s.xflags) :
    ((∀ e ∈ s.xflags, e.1 < n) → ∀ u, n + 3 ≤ u → t.flagSeen f u = v) ∧ ∀ g u, g ≠ f → t.flagSeen g u = s.flagSeen g u := by
  have hbit (g : Nat) : (bvBit 16 f).getLsbD g = decide (f = g) := by
    rw [bvBit_getLsbD]
    by_cases hg : f = g <;> simp [hg]
    omega
  refine ⟨fun hlate u hu => ?_, fun g u hg => ?_⟩
  · rw [State.flagSeen, if_neg (by omega), ht, flagAt_cons_of_latest hlate (by omega)]
    all_goals cases v <;> simp [hbit]
  · rw [State.flagSeen, State.flagSeen, ht, flagAt_cons_of_unnamed]
    all_goals cases v <;> simp [hbit, hg.symm]

/-! ### The instructions -/

section Effects
variable {k : SiteIx}

theorem setf_answers (h : s.CanIssue k w ecc 12 1) (hmore : s.seqPc k + 1 < 0x8000) : Answers (.setf k w ecc) s (fun t =>
    Issued s t k w 1 false false (s.seqPc k + 1) 3
      ∧ t.xflags = ((s.getSite k).fc0 + (s.getSite k).cycle, if (seqAux w).testBit 4 then bvBit 16 (seqAux w % 16) else 0,
        if (seqAux w).testBit 4 then 0 else bvBit 16 (seqAux w % 16)) :: s.xflags
      ∧ Only { issueMay k (fun a => a = Reg.seqXflags ∨ a = Reg.seqXflagsClr) with flags := True } s t) := by
  have hexec : exec (.setf k w ecc) s = _ := exec_through h (.inl (by decide))
  have hissues : May.Issues { issueMay k (fun a => a = Reg.seqXflags ∨ a = Reg.seqXflagsClr) with flags := True } k :=
    ⟨fun _ h => .inl h, rfl, trivial⟩
  refine .ofCycle h hexec (fetched_poised.entered 12) hmore hissues
    (((Only.refl _ s).fetchedOf hissues).writeFlags _ _ _ trivial (.inr (.inl rfl)) (.inr (.inr rfl)))
    fun hissued honly => ⟨hissued, ?_, honly⟩
  rw [State.settle_xflags, (ranTo_only _).flags id, State.entered, writeFlags_xflags, (fetched_only s k ecc).flags id, fetched_poised.fc0,
    fetched_poised.cycle]

/-- An instruction that notes something in its site before its cycle. -/
theorem mark_answers {cmd : Instr} {op : Nat} {f : Site → Site} {P : State → Prop} (h : s.CanIssue k w ecc op 1) (hmore : s.seqPc k + 1 < 0x8000)
    (hexec : exec cmd s = fin s (((s.fetched k ecc).modSite k f).oneCycle k w (s.seqPc k + 1))) (hf : ∀ x, (f x).track = x.track)
    (hp : P (State.settle s (((s.fetched k ecc).modSite k f).ranTo k w 1 false false (s.seqPc k + 1)))) :
    Answers cmd s (fun t => Issued s t k w 1 false false (s.seqPc k + 1) 3 ∧ P t ∧ Only (issueMay k) s t) :=
  .ofCycle h hexec (fetched_poised.modSite f hf) hmore (issueMay_issues k _) ((fetched_issueMay _).modSite f rfl)
    fun hissued honly => ⟨hissued, hp, honly⟩

theorem modSite_ranTo_field {β : Type} {f : Site → Site} {pc : Nat} {sv : Bool} (g : Site → β) (hfill : ∀ x, g x.unfilled = g x)
    (hrun : ∀ x sp n, g (x.run sp n) = g x) :
    g ((State.settle s ((u.modSite k f).ranTo k w 1 false sv pc)).getSite k) = g (f (u.getSite k)) := by
  rw [State.settle_getSite, ranTo_field g hfill hrun, State.modSite_getSite, if_pos rfl]

theorem expose_answers (h : s.CanIssue k w ecc 20 1) (hmore : s.seqPc k + 1 < 0x8000) : Answers (.expose k w ecc) s (fun t =>
    Issued s t k w 1 false false (s.seqPc k + 1) 3 ∧ (t.getSite k).exposeAt = (s.getSite k).exposeAt ++ [(s.getSite k).cycle]
      ∧ Only (issueMay k) s t) := by
  refine mark_answers h hmore (exec_through h (.inl (by decide))) (fun _ => rfl) ?_
  rw [modSite_ranTo_field Site.exposeAt (fun _ => rfl) (fun _ _ _ => rfl), fetched_field Site.exposeAt (fun _ _ => rfl), fetched_poised.cycle]

/-- The status of the capture block shows the block and the mode of the site (R96). -/
theorem ranTo_capStatus {pc : Nat} {sv : Bool} : (u.ranTo k w 1 false sv pc).fld (Reg.capStatus k) 20 8 = (u.getSite k).capBlock.toNat
    ∧ (u.ranTo k w 1 false sv pc).fld (Reg.capStatus k) 18 2 = (u.getSite k).capMode.toNat := by
  rw [State.fld, State.fld, ranTo_rd_capStatus k.isLt]
  refine ⟨?_, ?_⟩
  · rw [fldOf_setFldOf_other _ _ _ _ _ _ (by decide) (.inr (by decide)), fldOf_setFldOf _ _ _ _ (by decide)]
    exact Nat.mod_eq_of_lt (u.getSite k).capBlock.isLt
  · rw [fldOf_setFldOf _ _ _ _ (by decide)]
    exact Nat.mod_eq_of_lt (u.getSite k).capMode.isLt

theorem capctlSelectBlock_answers (h : s.CanIssue k w ecc 21 1) (hmore : s.seqPc k + 1 < 0x8000) (haux : seqAux w = 0) :
    Answers (.capctlSelectBlock k w ecc) s (fun t => Issued s t k w 1 false false (s.seqPc k + 1) 3
      ∧ (t.getSite k).capBlock.toNat = seqImm w ∧ t.fld (Reg.capStatus k) 20 8 = seqImm w ∧ Only (issueMay k) s t) := by
  have himm : seqImm w < 256 := by simpa [seqOperandsOk, haux] using h.operands
  have hexec := exec_through h (.inl (by decide))
  rw [State.entered, if_neg (by omega), seqInstr, if_neg (by omega)] at hexec
  have hnum : (BitVec.ofNat 8 (seqImm w)).toNat = seqImm w := by rw [BitVec.toNat_ofNat, Nat.mod_eq_of_lt himm]
  refine .ofCycle h hexec (fetched_poised.modSite _ fun _ => rfl) hmore (issueMay_issues k _) ((fetched_issueMay _).modSite _ rfl)
    fun hissued honly => ⟨hissued, ?_, ?_, honly⟩
  · rw [modSite_ranTo_field Site.capBlock (fun _ => rfl) (fun _ _ _ => rfl), hnum]
  · rw [State.settle_fld, ranTo_capStatus.1, State.modSite_getSite, if_pos rfl, hnum]

theorem capctlSetMode_answers (h : s.CanIssue k w ecc 21 1) (hmore : s.seqPc k + 1 < 0x8000) (haux : seqAux w = 1) :
    Answers (.capctlSetMode k w ecc) s (fun t => Issued s t k w 1 false false (s.seqPc k + 1) 3
      ∧ (t.getSite k).capMode.toNat = seqImm w ∧ t.fld (Reg.capStatus k) 18 2 = seqImm w ∧ Only (issueMay k) s t) := by
  have himm : seqImm w < 3 := by simpa [seqOperandsOk, haux] using h.operands
  have hexec := exec_through h (.inl (by decide))
  rw [State.entered, if_pos haux, seqInstr, if_pos haux] at hexec
  have hnum : (BitVec.ofNat 2 (seqImm w)).toNat = seqImm w := by rw [BitVec.toNat_ofNat, Nat.mod_eq_of_lt (by omega)]
  refine .ofCycle h hexec (fetched_poised.modSite _ fun _ => rfl) hmore (issueMay_issues k _) ((fetched_issueMay _).modSite _ rfl)
    fun hissued honly => ⟨hissued, ?_, ?_, honly⟩
  · rw [modSite_ranTo_field Site.capMode (fun _ => rfl) (fun _ _ _ => rfl), hnum]
  · rw [State.settle_fld, ranTo_capStatus.2, State.modSite_getSite, if_pos rfl, hnum]

theorem seqFlush_answers (h : s.CanIssue k w ecc 22 1) (hmore : s.seqPc k + 1 < 0x8000) : Answers (.seqFlush k w ecc) s (fun t =>
    Issued s t k w 1 false false (s.seqPc k + 1) 3 ∧ (t.getSite k).flushAt = (s.getSite k).flushAt ++ [(s.getSite k).cycle]
      ∧ t.bit (Reg.capStatus k) 16 = true ∧ Only (issueMay k) s t) := by
  have hcap : (issueMay k).reg (Reg.capStatus k) := .inl (countRegs_issueRegs (.inr (.inr (.inr (.inl rfl)))))
  have hexec : exec (.seqFlush k w ecc) s = _ := exec_through h (.inl (by decide))
  have hpoised : Poised s _ k := (fetched_poised (ecc := ecc)).entered (w := w) 22
  rw [State.entered] at hexec hpoised
  refine .ofCycle h hexec hpoised hmore (issueMay_issues k _)
    (((fetched_issueMay _).setBit 16 true hcap).modSite _ rfl) fun hissued honly => ⟨hissued, ?_, ?_, honly⟩
  · rw [modSite_ranTo_field Site.flushAt (fun _ => rfl) (fun _ _ _ => rfl), State.setBit_getSite,
      fetched_field Site.flushAt (fun _ _ => rfl), fetched_poised.cycle]
  · rw [State.settle_bit, State.bit, ranTo_rd_capStatus k.isLt, setFldOf_getLsbD _ _ _ _ _ (by decide), if_neg (by decide),
      setFldOf_getLsbD _ _ _ _ _ (by decide), if_neg (by decide), State.modSite_rd]
    exact State.setBit_bit _ _ _ _ (by decide)

theorem pushQ_items {a cap : Nat} {e : Word} (h : (s.getQ a).items.length < cap) : ((s.pushQ a cap e).getQ a).items
    = (s.getQ a).items ++ [e ||| 0x80000000#32 ||| (if (s.getQ a).lost then 0x40000000#32 else 0)] := by
  unfold State.pushQ
  dsimp only
  rw [if_pos h, State.setQ_getQ, if_pos rfl]
  cases (s.getQ a).lost
  · simp
  · simp

theorem seqIrqInstr_answers (h : s.CanIssue k w ecc 23 1) (hmore : s.seqPc k + 1 < 0x8000) : Answers (.seqIrqInstr k w ecc) s (fun t =>
    Issued s t k w 1 false false (s.seqPc k + 1) 3
      ∧ (s.seqCond k w (s.getSite k).cycle = true → (s.getQ (Reg.seqIrq k)).items.length < 16 →
          (t.getQ (Reg.seqIrq k)).items = (s.getQ (Reg.seqIrq k)).items ++ [BitVec.ofNat 32 (seqImm w) ||| 0x80000000#32
            ||| (if (s.getQ (Reg.seqIrq k)).lost then 0x40000000#32 else 0)])
      ∧ (s.seqCond k w (s.getSite k).cycle = false → t.getQ (Reg.seqIrq k) = s.getQ (Reg.seqIrq k))
      ∧ Only { issueMay k with queue := fun a => a = Reg.seqIrq k } s t) := by
  have himm : seqImm w % 256 = seqImm w := by
    have := h.operands
    simp only [seqOperandsOk, Bool.and_eq_true, decide_eq_true_eq] at this
    exact Nat.mod_eq_of_lt this.2
  have hexec : exec (.seqIrqInstr k w ecc) s = _ := exec_through h (.inl (by decide))
  have hqueue : (s.fetched k ecc).getQ (Reg.seqIrq k) = s.getQ (Reg.seqIrq k) := (fetched_only s k ecc).queue _ id
  have hissues : May.Issues { issueMay k with queue := fun a => a = Reg.seqIrq k } k := ⟨fun _ h => .inl h, rfl, trivial⟩
  have hfetched : Only { issueMay k with queue := fun a => a = Reg.seqIrq k } s (s.fetched k ecc) := (Only.refl _ s).fetchedOf hissues
  rw [State.entered, himm, fetched_seqCond, fetched_poised.cycle] at hexec
  by_cases hcond : s.seqCond k w (s.getSite k).cycle = true
  · rw [if_pos hcond] at hexec
    refine .ofCycle h hexec (fetched_poised.pushQ _ _ _) hmore hissues (hfetched.pushQ _ _ rfl) fun hissued honly =>
      ⟨hissued, fun _ hroom => ?_, fun hno => absurd (hcond.symm.trans hno) (by decide), honly⟩
    rw [State.settle_getQ, (ranTo_only _).queue _ id, pushQ_items (hqueue ▸ hroom), hqueue]
  · rw [if_neg hcond] at hexec
    refine .ofCycle h hexec fetched_poised hmore hissues hfetched fun hissued honly =>
      ⟨hissued, fun hyes => absurd hyes hcond, fun _ => ?_, honly⟩
    rw [State.settle_getQ, (ranTo_only _).queue _ id, hqueue]

end Effects

/-- Settles O3: each instruction does what it enters before its cycle; the flags by what a write is seen as. -/
theorem seqEffects : Obligations.SeqEffects := by
  unfold Obligations.SeqEffects
  intro k w ecc s hmore
  refine ⟨fun h => (setf_answers h hmore).imp fun t ht => ?_, fun h => expose_answers h hmore, fun h => capctlSelectBlock_answers h hmore,
    fun h => capctlSetMode_answers h hmore, fun h => seqFlush_answers h hmore, fun h => seqIrqInstr_answers h hmore⟩
  obtain ⟨hissued, hflags, honly⟩ := ht
  have hseen := flagSeen_of_write (Nat.mod_lt _ (by decide)) hflags
  exact ⟨hissued, hflags, hseen.1, hseen.2, honly⟩

end Sys2Proof.Machine
end

section
/-! The refutation of how sequencers end: the reason of a planned stop is a number without a bound, and SEQ_STATUS holds its low four bits (R99, R101). -/

namespace Sys2Proof.Machine

/-- Sequencer 0 runs, its run of cycles is cut at cycle 0, and the stop planned there has the reason 16. -/
def reasonOutOfRange : State :=
  { pending := [.vec 0 0 .ok]
    regs := [(Reg.seqStatus 0, 3#32)]
    site := [(0, { stopAt := some (0, 0), stopBy := 16, after := .cut })] }

/-- The stop shows the reason 0. -/
theorem reasonOutOfRange_vec : ∃ t, exec (.vec 0 0 .ok) reasonOutOfRange = .next t ∧ t.fld (Reg.seqStatus 0) 16 4 = 0 :=
  ⟨_, rfl, by decide +kernel⟩

/-- Refutes O6: the stop planned in `reasonOutOfRange` shows the reason 0, not 16. -/
theorem not_seqEnds : ¬ Obligations.SeqEnds := by
  unfold Obligations.SeqEnds
  intro h
  obtain ⟨-, -, -, -, hplanned⟩ := h.2 0 0 .ok 0 reasonOutOfRange
  obtain ⟨t, ht, hstopped, -⟩ := hplanned 0 0 (by decide) (by decide) rfl le_rfl (.inl rfl)
  obtain ⟨t', ht', hreason⟩ := reasonOutOfRange_vec
  obtain rfl : t' = t := Host.Outcome.next.inj (ht'.symm.trans ht)
  exact absurd (hreason.symm.trans hstopped.reason) (by decide)

end Sys2Proof.Machine
end

section
/-! The instructions in which a sequencer waits (R84 to R89): what each issues first, and the wait it enters. -/

namespace Sys2Proof.Machine

variable {m : May} {s t u : State} {w : BitVec 64} {ecc : Ecc}

/-- Sequencer `k` enters a wait. -/
def State.waiting (s : State) (k : Nat) (v : Wait) : State := (s.setSeqState k 4).modSite k (fun x => { x with wait := v })

section Waiting
variable {k : SiteIx} {v : Wait} {len pc : Nat} {window sv : Bool}

theorem waiting_wait {k : Nat} : ((s.waiting k v).getSite k).wait = v := by rw [State.waiting, State.modSite_getSite, if_pos rfl]

theorem Only.waiting (h : Only m s t) (hm : m.Issues k) : Only m s (t.waiting k v) := (h.setFld _ _ _ hm.status).modSite _ hm.site

/-- A run has issued, and the sequencer waits in its instruction. -/
theorem issued_waiting (hu : Poised s u k) (hpc : t.seqPc k = pc) (htrack : (t.getSite k).track = ((u.issue k w len window sv).getSite k).track)
    (honly : Only { reg := settleRegs k, site := fun j => j = k } (u.issue k w len window sv) t) :
    Issued s (t.waiting k v) k w len window sv pc 4 := by
  refine issued_of_issue hu ?_ ?_ ?_ ((honly.setFld 0 3 4 (.inr (.inl rfl))).modSite _ rfl)
  · rw [State.seqPc, State.fld, State.waiting, State.modSite_rd, State.setSeqState, State.setFld_rd,
      if_neg (by simp only [Reg.seqPc, Reg.seqStatus]; omega)]
    exact hpc
  · exact (modSite_seqState _ _).trans (State.setSeqState_seqState _ _ _)
  · rw [State.waiting, State.modSite_getSite, if_pos rfl, State.setSeqState, State.setFld_getSite]
    exact htrack

theorem issue_waiting_issued (hu : Poised s u k) (hpc : u.seqPc k = pc) :
    Issued s ((u.issue k w len window sv).waiting k v) k w len window sv pc 4 :=
  issued_waiting hu ((issue_seqPc w len window sv k.isLt).trans hpc) rfl (.refl _ _)

theorem ranTo_waiting_issued (hu : Poised s u k) (hpc : pc < 0x8000) :
    Issued s ((u.ranTo k w len window sv pc).waiting k v) k w len window sv pc 4 :=
  issued_waiting hu ((State.setFld_fld _ _ _ _ _ (by decide)).trans (Nat.mod_eq_of_lt hpc)) (congrArg Site.track ranTo_getSite)
    ((Only.refl _ _).setFld 0 15 pc (.inl rfl))

theorem seqRuns_of_running {k : Nat} (h : s.seqState k = 3) : s.seqRuns k = true := by simp [State.seqRuns, h]

theorem issue_seqRuns (hu : Poised s u k) : (u.issue k w len window sv).seqRuns k = true :=
  seqRuns_of_running ((issue_seqState w len window sv k.isLt).trans hu.state)

theorem ranTo_seqRuns (hu : Poised s u k) (hpc : pc < 0x8000) : (u.ranTo k w len window sv pc).seqRuns k = true :=
  seqRuns_of_running (ranTo_issued hu hpc).state

/-! ### The instructions -/

theorem exec_matchLoop (h : s.CanIssue k w ecc 8 ((s.getSite k).hUse - 1)) : exec (.matchLoop k w ecc) s
    = fin s (((s.fetched k ecc).issue k w ((s.getSite k).hUse - 1)).waiting k (.matching w)) := by
  refine congrArg (fin s) ?_
  rw [seqExec_of_canIssue h rfl, fetched_field Site.hUse fun _ _ => rfl]
  dsimp only
  rw [issueUpTo_of_room (h.room fetched_poised)]
  exact if_pos (issue_seqRuns fetched_poised)

theorem exec_sync (h : s.CanIssue k w ecc 11 1) : exec (.sync k w ecc) s = fin s (((s.fetched k ecc).issue k w 1).waiting k
    (.sync (BitVec.ofNat 16 (seqImm w)) (BitVec.ofNat 4 (seqAux w)) (s.getSite k).cycle)) := by
  refine congrArg (fin s) ?_
  rw [seqExec_of_canIssue h rfl]
  dsimp only
  rw [issueUpTo_of_room (h.room fetched_poised), fetched_poised.cycle]
  rfl

theorem exec_waitf_unseen (h : s.CanIssue k w ecc 13 1)
    (hseen : s.flagSeen (seqAux w % 16) ((s.getSite k).fc0 + (s.getSite k).cycle) ≠ (seqAux w).testBit 4) :
    exec (.waitf k w ecc) s = fin s (((s.fetched k ecc).issue k w 1).waiting k
      (.waitf (BitVec.ofNat 4 (seqAux w % 16)) ((seqAux w).testBit 4) (s.getSite k).cycle)) := by
  refine congrArg (fin s) ?_
  rw [seqExec_of_canIssue h rfl]
  dsimp only
  rw [fetched_flagSeen, fetched_poised.fc0, fetched_poised.cycle, if_neg (mt beq_iff_eq.mp hseen), issueUpTo_of_room (h.room fetched_poised)]
  rfl

theorem exec_calwin (h : s.CanIssue k w ecc 18 (seqImm w)) (hmore : s.seqPc k + 1 < 0x8000) : exec (.calwin k w ecc) s
    = fin s (((s.fetched k ecc).ranTo k w (seqImm w) true false (s.seqPc k + 1)).waiting k (.calwin (s.getSite k).cycle (seqImm w))) := by
  refine congrArg (fin s) ?_
  rw [seqExec_of_canIssue h rfl, fetched_seqPc]
  dsimp only
  rw [issueUpTo_of_room (h.room fetched_poised), fetched_poised.cycle]
  dsimp only
  rw [if_neg Bool.false_ne_true, goTo_of_lt hmore]
  exact if_pos (ranTo_seqRuns fetched_poised hmore)

/-- What a BISTWIN notes at its start: the edge that saves the region's state, and the slices that it leaves room for (R89). -/
def State.bistStarted (s : State) (k : Nat) (w : BitVec 64) : State :=
  s.modSite k (fun x => { x with
    restorePending := true, bistEdge := x.fc0 + (s.getSite k).cycle + 3, slicesLeft := (seqImm w - 1024) / 102400 })

theorem bistStarted_poised : Poised s ((s.fetched k ecc).bistStarted k w) k := fetched_poised.modSite _ fun _ => rfl

/-- What a BISTWIN leaves: its cycles have issued, the sequencer waits, and the region is isolated. -/
def State.bistEntered (s : State) (k : Nat) (w : BitVec 64) (ecc : Ecc) : State :=
  (((s.fetched k ecc).bistStarted k w).ranTo k w (seqImm w) true false (s.seqPc k + 1)).waiting k (.bistwin (s.getSite k).cycle (seqImm w))

theorem exec_bistwin (h : s.CanIssue k w ecc 19 (seqImm w)) (hmore : s.seqPc k + 1 < 0x8000) :
    exec (.bistwin k w ecc) s = fin s ((s.bistEntered k w ecc).followSite k) := by
  refine congrArg (fin s) ?_
  rw [seqExec_of_canIssue h rfl, fetched_seqPc]
  dsimp only
  have hroom := issueUpTo_of_room (w := w) (len := seqImm w) (window := true) (sv := false) 
    (h.room (bistStarted_poised (s := s) (ecc := ecc) (w := w)))
  rw [State.bistStarted] at hroom
  rw [hroom]
  dsimp only
  rw [if_neg Bool.false_ne_true, goTo_of_lt hmore, fetched_poised.cycle]
  have hruns : (((s.fetched k ecc).bistStarted k w).ranTo k w (seqImm w) true false (s.seqPc k + 1)).seqRuns k = true :=
    ranTo_seqRuns bistStarted_poised hmore
  rw [State.bistStarted, fetched_poised.cycle] at hruns
  rw [State.bistEntered, State.bistStarted, fetched_poised.cycle]
  exact congrArg (fun v : State => v.followSite k) (if_pos hruns)

/-- The site that a BISTWIN leaves. -/
theorem bistEntered_site : ((s.bistEntered k w ecc).getSite k).restorePending = true
    ∧ ((s.bistEntered k w ecc).getSite k).bistEdge = (s.getSite k).fc0 + (s.getSite k).cycle + 3
    ∧ ((s.bistEntered k w ecc).getSite k).slicesLeft = (seqImm w - 1024) / 102400
    ∧ ((s.bistEntered k w ecc).getSite k).wait = .bistwin (s.getSite k).cycle (seqImm w) := by
  have hstart {β : Type} (g : Site → β) (hg : ∀ x v, g { x with wait := v } = g x) (hfill : ∀ x, g x.unfilled = g x)
      (hrun : ∀ x sp n, g (x.run sp n) = g x) :
      g ((s.bistEntered k w ecc).getSite k) = g (((s.fetched k ecc).bistStarted k w).getSite k) := by
    rw [State.bistEntered, State.waiting, State.modSite_getSite, if_pos rfl, hg, State.setSeqState, State.setFld_getSite,
      ranTo_field g hfill hrun]
  refine ⟨?_, ?_, ?_, waiting_wait⟩
  · rw [hstart Site.restorePending (fun _ _ => rfl) (fun _ => rfl) (fun _ _ _ => rfl), State.bistStarted, State.modSite_getSite, if_pos rfl]
  · rw [hstart Site.bistEdge (fun _ _ => rfl) (fun _ => rfl) (fun _ _ _ => rfl), State.bistStarted, State.modSite_getSite, if_pos rfl]
    dsimp only
    rw [fetched_poised.fc0, fetched_poised.cycle]
  · rw [hstart Site.slicesLeft (fun _ _ => rfl) (fun _ => rfl) (fun _ _ _ => rfl), State.bistStarted, State.modSite_getSite, if_pos rfl]

/-- The registers that show the state of a site (R33, R34, R156). -/
def followMay : May := { reg := fun a => a = Reg.glbSiteState ∨ a = Reg.fabPenStat ∨ a = Reg.glbMode }

theorem followSite_only (s : State) (k : Nat) : Only followMay s (s.followSite k) :=
  (Only.refl _ s).followSite k (.inl rfl) (.inr (.inl rfl)) (.inr (.inr rfl))

/-- Showing the state of a site leaves what has issued. -/
theorem Issued.follow {state : Nat} (h : Issued s t k w len window sv pc state) (hm : Only followMay t u) :
    Issued s u k w len window sv pc state := by
  have hk := k.isLt
  have hne {a : Nat} (hlo : 0xC00000 ≤ a) (hhi : a < 0x1400000) : ¬ followMay.reg a := by
    simp only [followMay, Reg.glbSiteState, Reg.fabPenStat, Reg.glbMode]
    omega
  have hsite := hm.site k id
  refine ⟨(hm.fld_eq (hne ?_ ?_)).trans h.pc, (hm.fld_eq (hne ?_ ?_)).trans h.state, hsite ▸ h.cycle, hsite ▸ h.fields,
    (hm.rd64_eq (hne ?_ ?_) (hne ?_ ?_)).trans h.counter, (hm.time id).2.1.trans h.clock⟩
  all_goals
    simp only [Reg.seqPc, Reg.seqStatus, Reg.seqCycleLo]
    omega

theorem bistwin_answers (h : s.CanIssue k w ecc 19 (seqImm w)) (hmore : s.seqPc k + 1 < 0x8000) : Answers (.bistwin k w ecc) s (fun t =>
    Issued s t k w (seqImm w) true false (s.seqPc k + 1) 4 ∧ (t.getSite k).restorePending = true
      ∧ (t.getSite k).wait = .bistwin (s.getSite k).cycle (seqImm w) ∧ (t.getSite k).slicesLeft = (seqImm w - 1024) / 102400
      ∧ (∀ f, (s.getSite k).fc0 + (s.getSite k).cycle + 3 ≤ f → t.penIsoAt k f = true)
      ∧ Only (issueMay k (fun a => a = Reg.glbSiteState ∨ a = Reg.fabPenStat ∨ a = Reg.glbMode)) s t) := by
  obtain ⟨hpending, hedge, hslices, hwait⟩ := bistEntered_site (s := s) (k := k) (w := w) (ecc := ecc)
  have hm := issueMay_issues k (fun a => a = Reg.glbSiteState ∨ a = Reg.fabPenStat ∨ a = Reg.glbMode)
  have hsite : (State.settle s ((s.bistEntered k w ecc).followSite k)).getSite k = (s.bistEntered k w ecc).getSite k :=
    (State.settle_getSite ..).trans ((followSite_only _ _).site k id)
  have hissued : Issued s (s.bistEntered k w ecc) k w (seqImm w) true false (s.seqPc k + 1) 4 := ranTo_waiting_issued bistStarted_poised hmore
  have honly : Only (issueMay k (fun a => a = Reg.glbSiteState ∨ a = Reg.fabPenStat ∨ a = Reg.glbMode)) s (s.bistEntered k w ecc) :=
    (((fetched_issueMay _).modSite _ rfl).ranTo hm).waiting hm
  refine .of_fin (exec_bistwin h hmore) ⟨(hissued.follow (followSite_only _ _)).settle, ?_, ?_, ?_, fun f hf => ?_,
    Only.settle s (honly.followSite k (.inr (.inl rfl)) (.inr (.inr (.inl rfl))) (.inr (.inr (.inr rfl))))⟩
  · rw [hsite, hpending]
  · rw [hsite, hwait]
  · rw [hsite, hslices]
  · rw [State.penIsoAt, hsite, hpending, hedge, Bool.true_and, decide_eq_true hf, Bool.or_true]

end Waiting

/-- An instruction that issues its cycles and waits. -/
theorem Answers.ofWait {k : SiteIx} {cmd : Instr} {v : Wait} {len pc : Nat} {window sv : Bool} (hexec : exec cmd s = fin s (t.waiting k v))
    (hissued : Issued s (t.waiting k v) k w len window sv pc 4) (honly : Only (issueMay k) s t) :
    Answers cmd s (fun t => Issued s t k w len window sv pc 4 ∧ (t.getSite k).wait = v ∧ Only (issueMay k) s t) :=
  .of_fin hexec ⟨hissued.settle, (congrArg Site.wait (State.settle_getSite ..)).trans waiting_wait,
    Only.settle s (honly.waiting (issueMay_issues k _))⟩

/-- Settles O4: each instruction issues its cycles, then enters its wait. -/
theorem seqWaits : Obligations.SeqWaits := by
  unfold Obligations.SeqWaits
  intro k w ecc s
  have hm := issueMay_issues k fun _ => False
  have hfetched := fetched_issueMay (s := s) (k := k) (ecc := ecc) fun _ => False
  refine ⟨fun h => ?_, fun h => ?_, fun h hseen => ?_, fun h hseen hmore => ?_, fun h hmore => ?_, fun h hmore => bistwin_answers h hmore⟩
  · exact .ofWait (exec_matchLoop h) (issue_waiting_issued fetched_poised fetched_seqPc) (hfetched.issueOf _ _ _ _ hm)
  · exact .ofWait (exec_sync h) (issue_waiting_issued fetched_poised fetched_seqPc) (hfetched.issueOf _ _ _ _ hm)
  · exact .ofWait (exec_waitf_unseen h hseen) (issue_waiting_issued fetched_poised fetched_seqPc) (hfetched.issueOf _ _ _ _ hm)
  · refine .ofCycle h (exec_waitf_seen h hseen) fetched_poised hmore hm hfetched fun hissued honly => ⟨hissued, ?_, honly⟩
    obtain ⟨l, hl⟩ := fetched_site (s := s) (k := k) (ecc := ecc)
    rw [State.settle_getSite, ranTo_field Site.wait (fun _ => rfl) (fun _ _ _ => rfl), hl]
  · exact .ofWait (exec_calwin h hmore) (ranTo_waiting_issued fetched_poised hmore) (hfetched.ranTo hm)

end Sys2Proof.Machine
end

section
/-! Stops and faults of a sequencer that runs (R68, R99 to R103): what they change, and what they leave of its cycles. -/

namespace Sys2Proof.Machine

variable {m : May} {s t u : State} {k : Nat} {w : BitVec 64} {ecc : Ecc} {reason code pc cyc : Nat}

/-- What a command may change that stops a sequencer which runs. -/
structure May.Ends (m : May) (k : Nat) : Prop where
  reg : ∀ a, stopRegs k a → m.reg a
  site : m.site k
  bist : m.bist k
  fab : m.fab k

theorem stopMay_ends (k : Nat) (extra : Nat → Prop) : (stopMay k extra).Ends k := ⟨fun _ h => .inl h, rfl, rfl, rfl⟩

theorem stopMay_issues (k : Nat) (extra : Nat → Prop) : (stopMay k extra).Issues k := ⟨fun _ h => .inl (.inl h), rfl, trivial⟩

/-- The registers of a stop, and the integrity event of its reason where R100 gives one. -/
def State.stopNoted (s : State) (k reason cyc : Nat) : State :=
  let s := (s.wr64 (Reg.seqStopCycLo k) (cyc % 2 ^ 48)).setFld (Reg.seqStatus k) 16 4 reason
  match stopClass reason with
  | some c => s.integ k c cyc 0
  | none => s

/-- What a stop leaves of the sequencer's site. -/
def Site.halted (x : Site) (park : BitVec 8) : Site :=
  { x with wait := .none, stopAt := none, stopBy := 3, after := .go, parkReason := park, slicesLeft := 0 }

/-- A stop of a sequencer that runs takes back no event of an earlier one. -/
theorem seqStop_of_runs (h : s.seqRuns k = true) : s.seqStop k reason cyc
    = (((((s.stopNoted k reason cyc).abortSlice k).modSite k (fun x => x.halted (s.stopPark k reason))).setSeqState k 5).followSite k) := by
  have hstate : ¬ (s.seqState k == 5) = true := by
    simp only [State.seqRuns, Bool.or_eq_true, beq_iff_eq] at h
    simp only [beq_iff_eq]
    omega
  unfold State.seqStop
  extract_lets park s1
  have h1 : s1 = s := by
    unfold s1
    split
    · exact if_neg hstate
    · rfl
  clear_value s1
  subst h1
  rfl

theorem Only.stopNoted (h : Only m s t) (hm : m.Ends k) : Only m s (t.stopNoted k reason cyc) := by
  have h1 : Only m s ((t.wr64 (Reg.seqStopCycLo k) (cyc % 2 ^ 48)).setFld (Reg.seqStatus k) 16 4 reason) :=
    (h.wr64 _ (hm.reg _ (.inr (.inl rfl))) (hm.reg _ (.inr (.inr (.inl (Nat.add_right_comm ..)))))).setFld _ _ _
      (hm.reg _ (.inl (.inr (.inr (.inr (.inl rfl))))))
  unfold State.stopNoted
  dsimp only
  split
  · exact h1.integ _ _ _ _ hm.site fun a ha => hm.reg a (.inl (countRegs_issueRegs (.inr (.inr (.inr (.inr ha))))))
  · exact h1

theorem Only.seqStopOfRuns (h : Only m s t) (hm : m.Ends k) (hruns : t.seqRuns k = true) : Only m s (t.seqStop k reason cyc) := by
  rw [seqStop_of_runs hruns]
  have hstatus : m.reg (Reg.seqStatus k) := hm.reg _ (.inl (.inr (.inr (.inr (.inl rfl)))))
  have h1 : Only m s ((t.stopNoted k reason cyc).abortSlice k) := (h.stopNoted hm).abortSlice hm.bist hm.fab
  exact ((h1.modSite _ hm.site).setFld 0 3 5 hstatus).followSite k (hm.reg _ (.inr (.inr (.inr (.inl rfl)))))
    (hm.reg _ (.inr (.inr (.inr (.inr (.inl rfl)))))) (hm.reg _ (.inr (.inr (.inr (.inr (.inr rfl))))))

theorem stopNoted_unfilled : ((s.stopNoted k reason cyc).getSite k).unfilled = (s.getSite k).unfilled := by
  unfold State.stopNoted
  dsimp only
  split
  · exact (integ_unfilled ..).trans rfl
  · rfl

theorem wr_seqRuns (h : s.seqRuns k = true) (a : Nat) (v : Word) (ha : Reg.seqStatus k ≠ a) : (s.wr a v).seqRuns k = true := by
  rw [State.seqRuns, State.seqState, State.fld, State.wr_rd, if_neg ha]
  exact h

/-- A stop leaves the number of cycles issued. -/
theorem seqStop_cycle (h : s.seqRuns k = true) : ((s.seqStop k reason cyc).getSite k).cycle = (s.getSite k).cycle := by
  have hfollow (v : State) : (v.followSite k).getSite k = v.getSite k := (followSite_only v k).site k id
  rw [seqStop_of_runs h, hfollow, State.setSeqState, State.setFld_getSite, State.modSite_getSite, if_pos rfl,
    State.abortSlice, State.modFab_getSite, State.modBist_getSite]
  exact cycle_of_unfilled (x := (s.stopNoted k reason cyc).getSite k) stopNoted_unfilled

/-- Past 0x7FFF the illegal instruction faults, once the cycles before it are over (R68). -/
theorem stopNow_past (hruns : s.seqRuns k = true) (hcome : (s.getSite k).cycle ≤ s.nowCyc k) (hpast : (s.getSite k).after = .past) :
    s.stopNow k = s.seqFaultAt k 0x02 0x8000 (s.lastCycle k) := by
  rw [State.stopNow]
  simp only [hruns, Nat.not_lt.mpr hcome, hpast, Bool.not_true, decide_false, Bool.or_false, Bool.false_eq_true, if_false, if_true]

/-- The illegal instruction past 0x7FFF has faulted. -/
theorem stopNow_past_faulted (hk : k < 16) (hruns : s.seqRuns k = true) (hcome : (s.getSite k).cycle ≤ s.nowCyc k)
    (hpast : (s.getSite k).after = .past) : Faulted (s.stopNow k) k 0x02 0 ((s.getSite k).cycle + 2 ^ 48 - 1)
      ∧ ((s.stopNow k).getSite k).cycle = (s.getSite k).cycle ∧ (s.stopNow k).fc = s.fc := by
  refine ⟨?_, ?_, stopNow_fc hk⟩
  · have h := seqFaultAt_faulted (s := s) (code := 0x02) (pc := 0x8000) (cyc := s.lastCycle k) hk
    rw [stopNow_past hruns hcome hpast]
    exact ⟨h.fault, h.stop.state, h.stop.reason, h.stop.cyc.trans (Nat.mod_mod _ _), h.stop.wait, h.stop.plan⟩
  · rw [stopNow_past hruns hcome hpast, State.seqFaultAt, seqStop_cycle (wr_seqRuns hruns _ _ ?_), State.wr_getSite]
    simp only [Reg.seqStatus, Reg.seqFault]
    omega

end Sys2Proof.Machine
end

section
/-! Branches, calls and returns of a sequencer, and execution that falls through past 0x7FFF (R68, R69, R76, R83). -/

namespace Sys2Proof.Machine

variable {m : May} {s t u : State} {w : BitVec 64} {ecc : Ecc}

section Branches
variable {k : SiteIx}

/-! ### Branches that are taken or fall through -/

/-- The target of a branch or a call is an address (R69). -/
theorem State.CanIssue.target {op len : Nat} (h : s.CanIssue k w ecc op len) (hop : op ∈ [4, 5, 6]) : seqImm w < 0x8000 := by
  have hok := h.operands
  simp only [List.mem_cons, List.not_mem_nil, or_false] at hop
  rcases hop with rfl | rfl | rfl
  all_goals
    simp only [seqOperandsOk, Bool.and_eq_true, decide_eq_true_eq] at hok
    exact hok.2

/-- An instruction that issues its cycle and changes nothing else. -/
theorem Answers.ofBranch {cmd : Instr} {op pc : Nat} (h : s.CanIssue k w ecc op 1)
    (hexec : exec cmd s = fin s ((s.fetched k ecc).oneCycle k w pc)) (hpc : pc < 0x8000) :
    Answers cmd s (fun t => Issued s t k w 1 false false pc 3 ∧ Only (issueMay k) s t) :=
  .ofCycle h hexec fetched_poised hpc (issueMay_issues k _) (fetched_issueMay _) fun hissued honly => ⟨hissued, honly⟩

theorem fetched_seqCond_now : (s.fetched k ecc).seqCond k w ((s.fetched k ecc).getSite k).cycle = s.seqCond k w (s.getSite k).cycle := by
  rw [fetched_seqCond, fetched_poised.cycle]

theorem jmp_answers (h : s.CanIssue k w ecc 4 1) :
    Answers (.jmp k w ecc) s (fun t => Issued s t k w 1 false false (seqImm w) 3 ∧ Only (issueMay k) s t) := by
  have himm := h.target (.head _)
  refine .ofBranch h (congrArg (fin s) ?_) himm
  rw [seqExec_of_canIssue h rfl]

theorem jcc_answers (h : s.CanIssue k w ecc 5 1) (hmore : s.seqCond k w (s.getSite k).cycle = true ∨ s.seqPc k + 1 < 0x8000) :
    Answers (.jcc k w ecc) s (fun t =>
      Issued s t k w 1 false false (if s.seqCond k w (s.getSite k).cycle then seqImm w else s.seqPc k + 1) 3 ∧ Only (issueMay k) s t) := by
  have himm := h.target (.tail _ (.head _))
  refine .ofBranch h (congrArg (fin s) ?_) ?_
  · rw [seqExec_of_canIssue h rfl, fetched_seqCond_now, fetched_seqPc]
  · split
    · exact himm
    · exact hmore.resolve_left ‹_›

/-! ### Calls and returns (R83) -/

/-- An instruction that has a fault of its own does not issue: the sequencer stops with it. -/
theorem seqExec_of_fault {op len code : Nat} {body : State → State} {fault : State → Option (State × Nat)} (h : s.CanIssue k w ecc op len)
    (hf : fault (s.fetched k ecc) = some (s.fetched k ecc, code)) :
    s.seqExec k w ecc op body fault = (s.fetched k ecc).seqFaultNow k code := by
  have hff := fetchFault_of_canIssue h
  unfold State.seqExec
  rw [if_neg (by simp [h.ready, h.word, h.op]), if_neg (not_not.mpr h.go)]
  extract_lets s1 s2 x s3
  have hs3 : s3 = s.fetched k ecc := rfl
  rw [hs3, hff, hf]
  rfl

theorem fetched_seqRuns : (s.fetched k ecc).seqRuns k = true := seqRuns_of_running fetched_seqState

/-- The sequencer has stopped with the fault of an instruction that did not issue. -/
theorem seqFaultNow_answers {cmd : Instr} {code : Nat} (hexec : exec cmd s = fin s ((s.fetched k ecc).seqFaultNow k code)) (hcode : code < 256) :
    Answers cmd s (fun t => t.fld (Reg.seqFault k) 0 8 = code ∧ t.fld (Reg.seqStatus k) 16 4 = 7 ∧ (t.getSite k).cycle = (s.getSite k).cycle) := by
  have h := seqFaultAt_faulted (s := s.fetched k ecc) (code := code) (pc := (s.fetched k ecc).seqPc k) (cyc := (s.fetched k ecc).lastCycle k) k.isLt
  refine .of_fin hexec ⟨?_, h.stop.reason, ?_⟩
  · have hpc : code + (s.fetched k ecc).seqPc k % 2 ^ 15 * 2 ^ 8 < 2 ^ 32 := by omega
    rw [State.settle_fld, State.fld, State.seqFaultNow, h.fault, fldOf, BitVec.toNat_ofNat, Nat.mod_eq_of_lt hpc]
    omega
  · rw [State.settle_getSite, State.seqFaultNow, State.seqFaultAt, seqStop_cycle (wr_seqRuns fetched_seqRuns _ _ ?_), State.wr_getSite,
      fetched_poised.cycle]
    simp only [Reg.seqStatus, Reg.seqFault]
    omega

theorem fetched_fld {a lo len : Nat} (hst : a ≠ Reg.seqStatus k) (he : a ≠ Reg.seqImemEcc k) :
    (s.fetched k ecc).fld a lo len = s.fld a lo len := by
  rw [State.fld, fetched_rd hst he, State.fld]

theorem fetched_seqSp : (s.fetched k ecc).fld (Reg.seqSp k) 0 5 = s.fld (Reg.seqSp k) 0 5 :=
  fetched_fld (by simp only [Reg.seqSp, Reg.seqStatus]; omega) (by simp only [Reg.seqSp, Reg.seqImemEcc]; omega)

theorem Poised.setSp (h : Poised s u k) (n : Nat) : Poised s (u.setFld (Reg.seqSp k) 0 5 n) k :=
  h.wr _ (by simp only [Reg.seqSp, Reg.seqStatus]; omega)

theorem ranTo_rd_seqSp {pc : Nat} : (u.ranTo k w 1 false false pc).rd (Reg.seqSp k) = u.rd (Reg.seqSp k) :=
  ranTo_rd_window k.isLt (by simp only [Reg.seqLc, Reg.seqSp]; omega) (by simp only [Reg.seqSp, Reg.seqStack]; omega)

theorem ranTo_rd_seqStack {pc j : Nat} (hj : j < 16) : (u.ranTo k w 1 false false pc).rd (Reg.seqStack k j) = u.rd (Reg.seqStack k j) :=
  ranTo_rd_window k.isLt (by simp only [Reg.seqLc, Reg.seqStack]; omega) (by simp only [Reg.seqStack]; omega)

theorem call_taken (h : s.CanIssue k w ecc 6 1) (hcond : s.seqCond k w (s.getSite k).cycle = true) (hsp : s.fld (Reg.seqSp k) 0 5 < 16) :
    Answers (.call k w ecc) s (fun t => Issued s t k w 1 false false (seqImm w) 3 ∧ t.fld (Reg.seqSp k) 0 5 = s.fld (Reg.seqSp k) 0 5 + 1
      ∧ t.rd (Reg.seqStack k (s.fld (Reg.seqSp k) 0 5)) = BitVec.ofNat 32 ((s.seqPc k + 1) % 2 ^ 15)
      ∧ Only (issueMay k (fun a => a = Reg.seqSp k ∨ a = Reg.seqStack k (s.fld (Reg.seqSp k) 0 5))) s t) := by
  have himm := h.target (.tail _ (.tail _ (.head _)))
  obtain ⟨sp, hspv⟩ : ∃ sp, s.fld (Reg.seqSp k) 0 5 = sp := ⟨_, rfl⟩
  have hspf : (s.fetched k ecc).fld (Reg.seqSp k) 0 5 = sp := fetched_seqSp.trans hspv
  rw [hspv] at hsp ⊢
  have hne : Reg.seqStack k sp ≠ Reg.seqSp k := by simp only [Reg.seqStack, Reg.seqSp]; omega
  have hexec : exec (.call k w ecc) s = fin s ((((s.fetched k ecc).wr (Reg.seqStack k sp)
      (BitVec.ofNat 32 ((s.seqPc k + 1) % 2 ^ 15))).setFld (Reg.seqSp k) 0 5 (sp + 1)).oneCycle k w (seqImm w)) := by
    refine congrArg (fin s) ?_
    rw [seqExec_of_canIssue h (if_neg (by rw [hspf]; omega)), fetched_seqCond_now, if_pos hcond, fetched_seqPc, hspf]
  refine .ofCycle h hexec ((fetched_poised.wr _ (by simp only [Reg.seqStack, Reg.seqStatus]; omega)).setSp _) himm (issueMay_issues k _)
    (((fetched_issueMay _).wr _ (.inr (.inr rfl))).setFld _ _ _ (.inr (.inl rfl))) fun hissued honly => ⟨hissued, ?_, ?_, honly⟩
  · rw [State.settle_fld, State.fld, ranTo_rd_seqSp]
    exact (State.setFld_fld _ _ _ _ _ (by decide)).trans (Nat.mod_eq_of_lt (by omega))
  · rw [State.settle_rd, ranTo_rd_seqStack hsp, State.setFld_rd, if_neg hne, State.wr_rd, if_pos rfl]

theorem call_full (h : s.CanIssue k w ecc 6 1) (hcond : s.seqCond k w (s.getSite k).cycle = true) (hsp : ¬ s.fld (Reg.seqSp k) 0 5 < 16) :
    Answers (.call k w ecc) s (fun t => t.fld (Reg.seqFault k) 0 8 = 0x04 ∧ t.fld (Reg.seqStatus k) 16 4 = 7
      ∧ (t.getSite k).cycle = (s.getSite k).cycle) := by
  refine seqFaultNow_answers (ecc := ecc) (congrArg (fin s) (seqExec_of_fault h (if_pos ?_))) (by decide)
  rw [fetched_seqCond_now, fetched_seqSp]
  exact ⟨hcond, Nat.not_lt.mp hsp⟩

theorem ret_taken (h : s.CanIssue k w ecc 7 1) (hcond : s.seqCond k w (s.getSite k).cycle = true) (hsp : 0 < s.fld (Reg.seqSp k) 0 5) :
    Answers (.ret k w ecc) s (fun t => Issued s t k w 1 false false (s.fld (Reg.seqStack k (s.fld (Reg.seqSp k) 0 5 - 1)) 0 15) 3
      ∧ t.fld (Reg.seqSp k) 0 5 = s.fld (Reg.seqSp k) 0 5 - 1 ∧ Only (issueMay k (· = Reg.seqSp k)) s t) := by
  obtain ⟨sp, hspv⟩ : ∃ sp, s.fld (Reg.seqSp k) 0 5 = sp := ⟨_, rfl⟩
  have hspf : (s.fetched k ecc).fld (Reg.seqSp k) 0 5 = sp := fetched_seqSp.trans hspv
  have hlt : sp < 32 := hspv ▸ Nat.mod_lt _ (by decide)
  rw [hspv] at hsp ⊢
  have hstack : (s.fetched k ecc).fld (Reg.seqStack k (sp - 1)) 0 15 = s.fld (Reg.seqStack k (sp - 1)) 0 15 :=
    fetched_fld (by simp only [Reg.seqStack, Reg.seqStatus]; omega) (by simp only [Reg.seqStack, Reg.seqImemEcc]; omega)
  have hexec : exec (.ret k w ecc) s
      = fin s (((s.fetched k ecc).setFld (Reg.seqSp k) 0 5 (sp - 1)).oneCycle k w (s.fld (Reg.seqStack k (sp - 1)) 0 15)) := by
    refine congrArg (fin s) ?_
    rw [seqExec_of_canIssue h (if_neg (by rw [hspf]; omega)), fetched_seqCond_now, if_pos hcond, hspf]
    dsimp only
    rw [hstack]
  refine .ofCycle h hexec (fetched_poised.setSp _) (Nat.mod_lt _ (by decide)) (issueMay_issues k (· = Reg.seqSp k))
    ((fetched_issueMay _).setFld _ _ _ (.inr rfl)) fun hissued honly => ⟨hissued, ?_, honly⟩
  rw [State.settle_fld, State.fld, ranTo_rd_seqSp]
  exact (State.setFld_fld _ _ _ _ _ (by decide)).trans (Nat.mod_eq_of_lt (by omega))

theorem ret_empty (h : s.CanIssue k w ecc 7 1) (hcond : s.seqCond k w (s.getSite k).cycle = true) (hsp : ¬ 0 < s.fld (Reg.seqSp k) 0 5) :
    Answers (.ret k w ecc) s (fun t => t.fld (Reg.seqFault k) 0 8 = 0x05 ∧ t.fld (Reg.seqStatus k) 16 4 = 7
      ∧ (t.getSite k).cycle = (s.getSite k).cycle) := by
  refine seqFaultNow_answers (ecc := ecc) (congrArg (fin s) (seqExec_of_fault h (if_pos ?_))) (by decide)
  rw [fetched_seqCond_now, fetched_seqSp]
  exact ⟨hcond, by omega⟩

/-- A branch that is not taken falls through. -/
theorem untaken_answers {op : Nat} (h : s.CanIssue k w ecc op 1) (hop : op ∈ [5, 6, 7, 9, 10])
    (hmore : s.seqCond k w (s.getSite k).cycle = true ∨ s.seqPc k + 1 < 0x8000) (hcond : ¬ s.seqCond k w (s.getSite k).cycle = true) :
    Answers (seqInstr k w ecc op) s (fun t => Issued s t k w 1 false false (s.seqPc k + 1) 3 ∧ Only (issueMay k) s t) :=
  .ofBranch h (exec_through_untaken h hop (Bool.eq_false_iff.mpr hcond)) (hmore.resolve_left hcond)

/-! ### Falling through past 0x7FFF (R68) -/

/-- A run has issued, and behind it execution has fallen through past 0x7FFF. -/
def State.ranPast (s : State) (k : Nat) (w : BitVec 64) (len : Nat) (window sv : Bool) : State :=
  (s.ranTo k w len window sv 0x8000).modSite k (fun x => { x with after := .past })

section Past
variable {len : Nat} {window sv : Bool}

theorem goTo_of_not_lt {pc : Nat} (hpc : ¬ pc < 0x8000) :
    u.goTo k pc = ((u.setFld (Reg.seqPc k) 0 15 pc).modSite k (fun x => { x with after := .past })).stopNow k := if_neg hpc

theorem goTo_past (hpc : s.seqPc k = 0x7FFF) : (u.issue k w len window sv).goTo k (s.seqPc k + 1) = (u.ranPast k w len window sv).stopNow k := by
  rw [goTo_of_not_lt (by omega), hpc, State.ranPast, State.ranTo]

theorem ranPast_field {β : Type} (g : Site → β) (hafter : ∀ x, g { x with after := .past } = g x) (hfill : ∀ x, g x.unfilled = g x) :
    g ((u.ranPast k w len window sv).getSite k) = g ((u.getSite k).run (u.spanOf k w len window sv) len) := by
  rw [State.ranPast, State.modSite_getSite, if_pos rfl, hafter, ← hfill, ranTo_unfilled, hfill]

theorem ranPast_cycle (hu : Poised s u k) : ((u.ranPast k w len window sv).getSite k).cycle = (s.getSite k).cycle + len :=
  (ranPast_field Site.cycle (fun _ => rfl) (fun _ => rfl)).trans (congrArg (· + len) hu.cycle)

theorem ranPast_fc0 (hu : Poised s u k) : ((u.ranPast k w len window sv).getSite k).fc0 = (s.getSite k).fc0 :=
  (ranPast_field Site.fc0 (fun _ => rfl) (fun _ => rfl)).trans hu.fc0

theorem ranPast_after : ((u.ranPast k w len window sv).getSite k).after = .past := by
  rw [State.ranPast, State.modSite_getSite, if_pos rfl]

theorem ranPast_seqState (hu : Poised s u k) : (u.ranPast k w len window sv).seqState k = 3 := by
  refine (modSite_seqState _ _).trans ((State.setFld_fld_other _ _ _ _ _ _ _ _ (by decide) (.inl ?_)).trans
    ((issue_seqState w len window sv k.isLt).trans hu.state))
  simp only [Reg.seqPc, Reg.seqStatus]
  omega

theorem ranPast_fc (hu : Poised s u k) : (u.ranPast k w len window sv).fc = max s.fc ((s.getSite k).fc0 + (s.getSite k).cycle + 1) := by
  rw [State.ranPast, State.modSite_fc, State.ranTo, State.setFld, State.wr_fc, issue_fc, hu.fc, hu.fc0, hu.cycle]

theorem ranPast_nowCyc (hu : Poised s u k) : (u.ranPast k w len window sv).nowCyc k
    = max s.fc ((s.getSite k).fc0 + (s.getSite k).cycle + 1) - (s.getSite k).fc0 := by
  rw [State.nowCyc, ranPast_fc hu, ranPast_fc0 hu]

/-- The illegal instruction behind a run that is over has faulted, and SEQ_FAULT shows PC 0 (log entry 68). -/
theorem ranPast_fell (hu : Poised s u k)
    (hover : (s.getSite k).cycle + len ≤ max s.fc ((s.getSite k).fc0 + (s.getSite k).cycle + 1) - (s.getSite k).fc0) :
    Faulted ((u.ranPast k w len window sv).stopNow k) k 0x02 0 ((s.getSite k).cycle + len + 2 ^ 48 - 1)
      ∧ (((u.ranPast k w len window sv).stopNow k).getSite k).cycle = (s.getSite k).cycle + len
      ∧ ((u.ranPast k w len window sv).stopNow k).fc = max s.fc ((s.getSite k).fc0 + (s.getSite k).cycle + 1) := by
  have h := stopNow_past_faulted k.isLt (seqRuns_of_running (ranPast_seqState (w := w) (len := len) (window := window) (sv := sv) hu))
    (by rw [ranPast_cycle hu, ranPast_nowCyc hu]; exact hover) ranPast_after
  rwa [ranPast_cycle hu, ranPast_fc hu] at h

/-- A run that is not yet over keeps the illegal instruction waiting. -/
theorem ranPast_runs_on (hu : Poised s u k)
    (hover : ¬ (s.getSite k).cycle + len ≤ max s.fc ((s.getSite k).fc0 + (s.getSite k).cycle + 1) - (s.getSite k).fc0) :
    (u.ranPast k w len window sv).stopNow k = u.ranPast k w len window sv := by
  refine if_pos ?_
  rw [ranPast_cycle hu, ranPast_nowCyc hu, decide_eq_true (Nat.not_le.mp hover), Bool.or_true]

theorem Faulted.settle {code pc cyc : Nat} (h : Faulted t k code pc cyc) : Faulted (State.settle s t) k code pc cyc :=
  ⟨h.fault, h.stop.state, h.stop.reason, h.stop.cyc, h.stop.wait, h.stop.plan⟩

end Past

theorem through_past_answers {op : Nat} (h : s.CanIssue k w ecc op 1) (hpc : s.seqPc k = 0x7FFF) (hf : s.FallsThrough k w op) :
    Answers (seqInstr k w ecc op) s (fun t => Faulted t k 0x02 0 ((s.getSite k).cycle + 1 + 2 ^ 48 - 1)
      ∧ (t.getSite k).cycle = (s.getSite k).cycle + 1 ∧ t.fc = max s.fc ((s.getSite k).fc0 + (s.getSite k).cycle + 1)) := by
  have hu : Poised s ((s.fetched k ecc).entered k w op) k := fetched_poised.entered op
  obtain ⟨hfault, hcycle, hfc⟩ := ranPast_fell (w := w) (len := 1) (window := false) (sv := consumes w op) hu (by omega)
  refine .of_fin ((exec_through h hf).trans (congrArg (fin s) ?_)) ⟨hfault.settle, hcycle, hfc⟩
  rw [oneCycle_of_issued (issueUpTo_of_room (h.room hu)), goTo_past hpc]

theorem rpt_past_answers (h : s.CanIssue k w ecc 1 (seqImm w)) (hpc : s.seqPc k = 0x7FFF) : Answers (.rpt k w ecc) s (fun t =>
    if (s.getSite k).cycle + seqImm w ≤ max s.fc ((s.getSite k).fc0 + (s.getSite k).cycle + 1) - (s.getSite k).fc0
    then Faulted t k 0x02 0 ((s.getSite k).cycle + seqImm w + 2 ^ 48 - 1) ∧ (t.getSite k).cycle = (s.getSite k).cycle + seqImm w
      ∧ t.fc = max s.fc ((s.getSite k).fc0 + (s.getSite k).cycle + 1)
    else (t.getSite k).after = .past ∧ t.seqState k = 3 ∧ (t.getSite k).cycle = (s.getSite k).cycle + seqImm w
      ∧ t.fc = max s.fc ((s.getSite k).fc0 + (s.getSite k).cycle + 1) ∧ Only (issueMay k) s t) := by
  have hu : Poised s ((s.fetched k ecc).clrAcc k w) k := fetched_poised.clrAcc w
  have hm := issueMay_issues k fun _ => False
  have hexec := (exec_rpt h).trans (congrArg (fin s) (goTo_past hpc))
  by_cases hover : (s.getSite k).cycle + seqImm w ≤ max s.fc ((s.getSite k).fc0 + (s.getSite k).cycle + 1) - (s.getSite k).fc0
  · obtain ⟨hfault, hcycle, hfc⟩ := ranPast_fell (w := w) (window := false) (sv := (seqAux w).testBit 0) hu hover
    simp only [if_pos hover]
    exact .of_fin hexec ⟨hfault.settle, hcycle, hfc⟩
  · rw [ranPast_runs_on hu hover] at hexec
    simp only [if_neg hover]
    exact .of_fin hexec ⟨(congrArg Site.after (State.settle_getSite ..)).trans ranPast_after, (State.settle_seqState ..).trans (ranPast_seqState hu),
      (congrArg Site.cycle (State.settle_getSite ..)).trans (ranPast_cycle hu), (State.settle_fc ..).trans (ranPast_fc hu),
      Only.settle s ((((fetched_issueMay _).clrAcc rfl hm.status w).ranTo hm).modSite _ rfl)⟩

/-! ### Behind a run that is cut or past 0x7FFF nothing is fetched -/

/-- Every instruction is a fetch of its opcode, a reserved opcode as the illegal case of VEC. -/
theorem exec_seqInstr (k : SiteIx) (w : BitVec 64) (ecc : Ecc) (s : State) : ∃ op body fault,
    exec (seqInstr k w ecc (seqOp w)) s = fin s (s.seqExec k w ecc op body fault) ∧ (seqOp w = op ∨ op = 0 ∧ 0x18 < seqOp w) := by
  obtain ⟨op, hop⟩ : ∃ op, seqOp w = op := ⟨_, rfl⟩
  rw [hop]
  unfold seqInstr
  split
  case h_21 =>
    split
    next haux => exact ⟨21, _, _, congrArg (fin s) (if_neg (by omega)), .inl rfl⟩
    next haux => exact ⟨21, _, _, congrArg (fin s) (if_neg haux), .inl rfl⟩
  case h_25 =>
    refine ⟨0, _, _, rfl, ?_⟩
    by_contra hno
    have hle : op ≤ 0x18 := by omega
    interval_cases op <;> simp_all
  all_goals exact ⟨_, _, _, rfl, .inl rfl⟩

theorem exec_seqInstr_unfetched (hready : s.seqReady k = true) (hword : s.imemWord k = w) (hafter : (s.getSite k).after ≠ .go) :
    exec (seqInstr k w ecc (seqOp w)) s = fin s ((s.runTo ((s.getSite k).fc0 + (s.getSite k).cycle)).stopNow k) := by
  obtain ⟨op, body, fault, hexec, hop⟩ := exec_seqInstr k w ecc s
  rw [hexec, State.seqExec, if_neg, if_pos hafter]
  rcases hop with rfl | ⟨rfl, hlt⟩
  · simp [hready, hword]
  · simp [hready, hword, hlt]

theorem seqRuns_of_ready (h : s.seqReady k = true) : s.seqRuns k = true := by
  simp only [State.seqReady, Bool.or_eq_true, Bool.and_eq_true] at h
  rw [State.seqRuns, Bool.or_eq_true]
  exact h.imp_right And.left

theorem unfetched_past_answers (hready : s.seqReady k = true) (hafter : (s.getSite k).after = .past) (hword : s.imemWord k = w) :
    Answers (seqInstr k w ecc (seqOp w)) s (fun t => Faulted t k 0x02 0 ((s.getSite k).cycle + 2 ^ 48 - 1)
      ∧ (t.getSite k).cycle = (s.getSite k).cycle ∧ t.fc = max s.fc ((s.getSite k).fc0 + (s.getSite k).cycle)
      ∧ Only (stopMay k (· = Reg.seqFault k)) s t) := by
  obtain ⟨u, hu⟩ : ∃ u, s.runTo ((s.getSite k).fc0 + (s.getSite k).cycle) = u := ⟨_, rfl⟩
  have hsite : u.getSite k = s.getSite k := hu ▸ runTo_getSite ..
  have hfc : u.fc = max s.fc ((s.getSite k).fc0 + (s.getSite k).cycle) := hu ▸ runTo_fc _
  have hruns : u.seqRuns k = true := by
    rw [← hu, State.seqRuns, State.seqState, State.fld, runTo_rd]
    exact seqRuns_of_ready hready
  have hcome : (u.getSite k).cycle ≤ u.nowCyc k := by rw [State.nowCyc, hsite, hfc]; omega
  have hpast : (u.getSite k).after = .past := by rw [hsite, hafter]
  have hexec := exec_seqInstr_unfetched (ecc := ecc) hready hword (by rw [hafter]; decide)
  obtain ⟨hfault, hcycle, hclock⟩ := stopNow_past_faulted k.isLt hruns hcome hpast
  have honly : Only (stopMay k (· = Reg.seqFault k)) s (u.stopNow k) := by
    have hwr : Only (stopMay k (· = Reg.seqFault k)) s u := hu ▸ (Only.refl _ s).runTo _ trivial
    rw [stopNow_past hruns hcome hpast]
    refine (hwr.wr _ (.inr rfl)).seqStopOfRuns (stopMay_ends _ _) (wr_seqRuns hruns _ _ ?_)
    simp only [Reg.seqStatus, Reg.seqFault]
    omega
  rw [hu] at hexec
  rw [hsite] at hfault hcycle
  exact .of_fin hexec ⟨hfault.settle, hcycle, hclock.trans hfc, Only.settle s honly⟩

end Branches

/-- Settles O2: a branch by whether its condition holds, a call and a return by whether the stack has room, and the rest by what comes behind the
last word. -/
theorem seqBranches : Obligations.SeqBranches := by
  unfold Obligations.SeqBranches
  refine ⟨fun k w ecc s => ⟨jmp_answers, jcc_answers, fun h hmore => ?_, fun h hmore => ?_⟩,
    fun k w ecc s => ⟨through_past_answers, rpt_past_answers, unfetched_past_answers⟩⟩
  · by_cases hcond : s.seqCond k w (s.getSite k).cycle = true
    · by_cases hsp : s.fld (Reg.seqSp k) 0 5 < 16
      · exact (call_taken h hcond hsp).imp fun t ht => by rwa [if_pos ⟨hcond, hsp⟩]
      · exact (call_full h hcond hsp).imp fun t ht => by rwa [if_neg fun hp => hsp hp.2, if_pos hcond]
    · exact (untaken_answers h (by decide) hmore hcond).imp fun t ht => by rwa [if_neg fun hp => hcond hp.1, if_neg hcond]
  · by_cases hcond : s.seqCond k w (s.getSite k).cycle = true
    · by_cases hsp : 0 < s.fld (Reg.seqSp k) 0 5
      · exact (ret_taken h hcond hsp).imp fun t ht => by rwa [if_pos ⟨hcond, hsp⟩]
      · exact (ret_empty h hcond hsp).imp fun t ht => by rwa [if_neg fun hp => hsp hp.2, if_pos hcond]
    · exact (untaken_answers h (by decide) hmore hcond).imp fun t ht => by rwa [if_neg fun hp => hcond hp.1, if_neg hcond]

end Sys2Proof.Machine
end

section
/-! How the waits of a sequencer end (R84 to R87, R89). -/

namespace Sys2Proof.Machine

variable {m : May} {s t u : State} {w : BitVec 64} {k upto : Nat}

/-! ### The waiting cycles -/

/-- The sequencer has issued the waiting cycles before fc `upto`, which has come. -/
def State.waited (s : State) (k upto : Nat) : State :=
  (if upto - ((s.getSite k).fc0 + (s.getSite k).cycle) = 0 then s
    else s.issue k (s.imemWord k) (upto - ((s.getSite k).fc0 + (s.getSite k).cycle))).runTo upto

theorem waitTo_of_noStop (h : (s.getSite k).stopAt = none) : s.waitTo k upto = (s.waited k upto, false) := by
  have hissue (len : Nat) : s.issueUpTo k (s.imemWord k) len = (s.issue k (s.imemWord k) len, false) :=
    issueUpTo_of_room fun e n he => by rw [h] at he; cases he
  unfold State.waitTo State.waited
  dsimp only
  split
  next hnone => simp only [Bool.false_eq_true, if_false]
  next hsome => simp only [hissue, Bool.false_eq_true, if_false]

theorem Only.waited (h : Only m s t) (hsite : m.site k) (htime : m.time) (hreg : ∀ a, countRegs k a → m.reg a) :
    Only m s (t.waited k upto) := by
  unfold State.waited
  split
  · exact h.runTo _ htime
  · exact (h.issueCounts _ _ _ _ hsite htime hreg).runTo _ htime

theorem waited_only : Only (countMay k) s (s.waited k upto) := (Only.refl _ s).waited rfl trivial fun _ h => h

/-- The waiting cycles take every fc before `upto` that the sequencer has not yet come to. -/
theorem waited_cycle : ((s.waited k upto).getSite k).cycle = (s.getSite k).cycle + (upto - ((s.getSite k).fc0 + (s.getSite k).cycle)) := by
  rw [State.waited, runTo_getSite]
  split
  · omega
  · exact issue_cycle _ _ _ _

theorem waited_fc0 : ((s.waited k upto).getSite k).fc0 = (s.getSite k).fc0 := by
  rw [State.waited, runTo_getSite]
  split
  · rfl
  · exact (fc0_of_unfilled (issue_unfilled _ _ _ _) :)

theorem waited_fc : (s.waited k upto).fc = max s.fc upto := by
  rw [State.waited, runTo_fc]
  split
  · rfl
  · rw [issue_fc]
    omega

theorem waited_seqState (hk : k < 16) : (s.waited k upto).seqState k = s.seqState k := waited_only.fld_eq (not_countRegs_seqStatus hk)

/-! ### A wait that completes -/

/-- The wait is over, and the sequencer stands before its next instruction, in fc `upto`. -/
def State.resumed (s : State) (k upto : Nat) : State :=
  (((((s.waited k upto).noteEdges k (((s.waited k upto).getSite k).cycle - 1)).setSeqState k 3).modSite k
    (fun x => { x with wait := .none })).setFld (Reg.seqPc k) 0 15 (s.seqPc k + 1))

theorem endWait_of_noStop (h : (s.getSite k).stopAt = none) (hpc : s.seqPc k + 1 < 0x8000) : s.endWait k upto = s.resumed k upto := by
  rw [State.endWait, waitTo_of_noStop h]
  dsimp only
  rw [if_neg Bool.false_ne_true, goTo_of_lt hpc, State.resumed]

theorem Only.resumed (h : Only m s t) (hm : m.Issues k) : Only m s (t.resumed k upto) :=
  ((((h.waited hm.site hm.time fun a ha => hm.reg a (countRegs_issueRegs ha)).noteEdges _ hm.site).setFld _ _ _ hm.status).modSite _
    hm.site).setFld _ _ _ hm.pc

theorem resumed_site : ∃ l, (s.resumed k upto).getSite k = { (s.waited k upto).getSite k with exposeRegs := l, wait := .none } := by
  obtain ⟨l, hl⟩ := noteEdges_site (s := s.waited k upto) (k := k) (((s.waited k upto).getSite k).cycle - 1)
  refine ⟨l, ?_⟩
  rw [State.resumed, State.setFld_getSite, State.modSite_getSite, if_pos rfl, State.setSeqState, State.setFld_getSite, hl]

/-- Sequencer `k`, which waited in `s`, stands before its next instruction in fc `upto`. -/
structure Resumed (s t : State) (k upto : Nat) : Prop where
  state : t.seqState k = 3
  wait : (t.getSite k).wait = .none
  pc : t.seqPc k = s.seqPc k + 1
  place : (t.getSite k).fc0 + (t.getSite k).cycle = max ((s.getSite k).fc0 + (s.getSite k).cycle) upto

theorem resumed_resumed (hpc : s.seqPc k + 1 < 0x8000) : Resumed s (s.resumed k upto) k upto := by
  obtain ⟨l, hl⟩ := resumed_site (s := s) (k := k) (upto := upto)
  refine ⟨?_, by rw [hl], ?_, ?_⟩
  · refine (State.setFld_fld_other _ _ _ _ _ _ _ _ (by decide) (.inl ?_)).trans
      ((modSite_seqState _ _).trans (State.setSeqState_seqState _ _ _))
    simp only [Reg.seqPc, Reg.seqStatus]
    omega
  · exact (State.setFld_fld _ _ _ _ _ (by decide)).trans (Nat.mod_eq_of_lt hpc)
  · rw [hl]
    dsimp only
    rw [waited_fc0, waited_cycle]
    omega

theorem noteEdges_fc (c : Nat) : (s.noteEdges k c).fc = s.fc :=
  (((Only.refl { site := fun j => j = k } s).noteEdges c rfl).time id).2.1

theorem resumed_fc : (s.resumed k upto).fc = max s.fc upto := by
  rw [State.resumed, State.setFld, State.wr_fc, State.modSite_fc, State.setSeqState, State.setFld, State.wr_fc, noteEdges_fc, waited_fc]

theorem Resumed.settle {v : State} (h : Resumed s t k upto) : Resumed s (State.settle v t) k upto where
  state := (State.settle_seqState ..).trans h.state
  wait := (congrArg Site.wait (State.settle_getSite ..)).trans h.wait
  pc := (State.settle_fld ..).trans h.pc
  place := by rw [State.settle_getSite]; exact h.place

theorem waitfComplete_answers {k : SiteIx} {f : BitVec 4} {v : Bool} {since e : Nat} (hstate : s.seqState k = 4)
    (hwait : (s.getSite k).wait = .waitf f v since) (hflag : s.flagFc f.toNat ((s.getSite k).fc0 + since) v = some e)
    (hlimit : s.waitLimit k = 0 ∨ e + 1 - ((s.getSite k).fc0 + since) ≤ s.waitLimit k) (hstop : (s.getSite k).stopAt = none)
    (hpc : s.seqPc k + 1 < 0x8000) :
    Answers (.waitfComplete k) s (fun t => Resumed s t k (e + 1) ∧ t.fc = max s.fc (e + 1) ∧ Only (issueMay k) s t) := by
  have hend : s.waitfEnd k f v since = some e := by
    simp only [State.waitfEnd, hflag, Option.filter_some, State.inLimit, Bool.or_eq_true, beq_iff_eq, decide_eq_true_eq, hlimit, if_true]
  have hexec : exec (.waitfComplete k) s = fin s (s.resumed k (e + 1)) := by
    refine congrArg (fin s) ?_
    simp only [hstate, hwait, hend, endWait_of_noStop hstop hpc]
  exact .of_fin hexec ⟨(resumed_resumed hpc).settle, (State.settle_fc ..).trans resumed_fc,
    Only.settle s ((Only.refl _ s).resumed (issueMay_issues k _))⟩

/-! ### A barrier (R86) -/

/-- In `u` sequencer `k` still stands where it stands in `s`. -/
structure Unmoved (s u : State) (k : Nat) : Prop where
  site : u.getSite k = s.getSite k
  pc : u.seqPc k = s.seqPc k

theorem Unmoved.resumed (h : Unmoved s u k) (hu : Resumed u t k upto) : Resumed s t k upto :=
  ⟨hu.state, hu.wait, h.pc ▸ hu.pc, h.site ▸ hu.place⟩

theorem not_issueRegs_other {j : Nat} (hj : j < 16) (hk : k < 16) (hne : j ≠ k) :
    ¬ (issueMay j).reg (Reg.seqPc k) ∧ ¬ (issueMay j).reg (Reg.seqStatus k) := by
  simp only [issueMay, issueRegs, integRegs, Reg.seqPc, Reg.seqCycleLo, Reg.seqCycleHi, Reg.seqStatus, Reg.seqImemEcc, Reg.seqX, Reg.capStatus,
    Reg.glbIntegLo, Reg.glbIntegHi, Reg.glbIntegCnt, Reg.glbIntegLog, or_false]
  omega

theorem resumed_only : Only (issueMay k) s (s.resumed k upto) := (Only.refl _ s).resumed (issueMay_issues k _)

theorem Unmoved.of_other {j : Nat} (h : Unmoved s u k) (hj : j < 16) (hk : k < 16) (hne : j ≠ k) : Unmoved s (u.resumed j upto) k where
  site := (resumed_only.site k (Ne.symm hne)).trans h.site
  pc := (resumed_only.fld_eq (not_issueRegs_other hj hk hne).1).trans h.pc

theorem Resumed.of_other {j n : Nat} (h : Resumed s u k upto) (hj : j < 16) (hk : k < 16) (hne : j ≠ k) : Resumed s (u.resumed j n) k upto where
  state := (resumed_only.fld_eq (not_issueRegs_other hj hk hne).2).trans h.state
  wait := (congrArg Site.wait (resumed_only.site k (Ne.symm hne))).trans h.wait
  pc := (resumed_only.fld_eq (not_issueRegs_other hj hk hne).1).trans h.pc
  place := by rw [resumed_only.site k (Ne.symm hne)]; exact h.place

/-- The members resume one after another, each from where it stood. -/
theorem forAll_eq_resumed {f : State → Nat → State} {l : List Nat} (hnodup : l.Nodup) (hsmall : ∀ k ∈ l, k < 16) (hu : ∀ k ∈ l, Unmoved s u k)
    (hf : ∀ v, ∀ k ∈ l, Unmoved s v k → f v k = v.resumed k upto) : u.forAll l f = u.forAll l (fun v k => v.resumed k upto) := by
  induction l generalizing u with
  | nil => rfl
  | cons j l ih =>
    obtain ⟨hj, hl⟩ := List.nodup_cons.mp hnodup
    rw [forAll_cons, forAll_cons, hf u j (.head _) (hu j (.head _))]
    refine ih hl (fun k hk => hsmall k (.tail _ hk)) (fun k hk => ?_) fun v k hk => hf v k (.tail _ hk)
    exact (hu k (.tail _ hk)).of_other (hsmall j (.head _)) (hsmall k (.tail _ hk)) fun he => hj (he ▸ hk)

theorem forAll_resumed_fc {l : List Nat} (hl : l ≠ []) : (s.forAll l (fun v k => v.resumed k upto)).fc = max s.fc upto := by
  induction l generalizing s with
  | nil => exact absurd rfl hl
  | cons j l ih =>
    rw [forAll_cons]
    by_cases hrest : l = []
    · rw [hrest]
      exact resumed_fc
    · rw [ih hrest, resumed_fc, max_assoc, max_self]

theorem members_nodup (mask : BitVec 16) : (members mask).Nodup := (List.nodup_range).filter _

theorem members_lt {mask : BitVec 16} (hk : k ∈ members mask) : k < 16 := List.mem_range.mp (List.mem_filter.mp hk).1

/-- The fc in which the last of the members issued its SYNC. -/
def State.lastSync (s : State) (mask : BitVec 16) (id : BitVec 4) : Nat := ((members mask).filterMap (s.syncSince mask id)).foldl max 0

section Barrier
variable {mask : BitVec 16} {id : BitVec 4}

/-- A member waits in the barrier, with no stop planned, and its limit does not come before the barrier's end. -/
structure State.InBarrier (s : State) (mask : BitVec 16) (id : BitVec 4) (k since : Nat) : Prop where
  noStop : (s.getSite k).stopAt = none
  more : s.seqPc k + 1 < 0x8000
  waits : s.syncSince mask id k = some since
  limit : s.waitLimit k = 0 ∨ s.lastSync mask id + 6 - since ≤ s.waitLimit k

theorem State.InBarrier.inLimit {since : Nat} (h : s.InBarrier mask id k since) : s.inLimit k since (s.lastSync mask id + 6) = true := by
  simpa only [State.inLimit, Bool.or_eq_true, beq_iff_eq, decide_eq_true_eq] using h.limit

theorem State.InBarrier.waitsIn {since : Nat} (h : s.InBarrier mask id k since) : s.waitsIn k since (s.lastSync mask id) = true := by
  have hlimit := h.limit
  simp only [State.waitsIn, State.inLimit, h.noStop, Option.all_none, Bool.and_true, Bool.or_eq_true, beq_iff_eq, decide_eq_true_eq]
  omega

theorem barrier_of_members (hsome : members mask ≠ []) (hin : ∀ j ∈ members mask, ∃ since, s.InBarrier mask id j since) :
    s.barrier mask id = some (s.lastSync mask id) := by
  have hlast : (((members mask).map (fun k => (k, s.syncSince mask id k))).filterMap (fun p => p.2)).foldl max 0 = s.lastSync mask id := by
    rw [List.filterMap_map]
    rfl
  unfold State.barrier
  dsimp only
  rw [hlast, if_neg, if_pos]
  · refine List.all_eq_true.mpr fun p hp => ?_
    obtain ⟨j, hj, rfl⟩ := List.mem_map.mp hp
    obtain ⟨since, h⟩ := hin j hj
    dsimp only
    rw [h.waits]
    exact h.waitsIn
  · simp only [Bool.or_eq_true, List.isEmpty_iff, List.map_eq_nil_iff, List.any_eq_true, not_or, hsome, not_false_eq_true, true_and]
    rintro ⟨p, hp, hnone⟩
    obtain ⟨j, hj, rfl⟩ := List.mem_map.mp hp
    obtain ⟨since, h⟩ := hin j hj
    rw [h.waits] at hnone
    cases hnone

theorem exec_syncRelease (hsome : members mask ≠ []) (hin : ∀ j ∈ members mask, ∃ since, s.InBarrier mask id j since) :
    exec (.syncRelease mask id) s = fin s (s.forAll (members mask) (fun v k => v.resumed k (s.lastSync mask id + 6))) := by
  refine congrArg (fin s) ?_
  rw [barrier_of_members hsome hin]
  refine forAll_eq_resumed (s := s) (members_nodup mask) (fun k hk => members_lt hk) (fun k _ => ⟨rfl, rfl⟩) fun v k hk hv => ?_
  obtain ⟨since, h⟩ := hin k hk
  have hstop : (v.getSite k).stopAt = none := by rw [hv.site, h.noStop]
  dsimp only
  rw [h.waits, Option.getD_some, if_pos h.inLimit, endWait_of_noStop hstop (by rw [hv.pc]; exact h.more)]

theorem syncRelease_answers (hsome : members mask ≠ []) (hin : ∀ j ∈ members mask, ∃ since, s.InBarrier mask id j since) :
    Answers (.syncRelease mask id) s (fun t => (∀ j ∈ members mask, Resumed s t j (s.lastSync mask id + 6)) ∧ t.fc = max s.fc (s.lastSync mask id + 6)
      ∧ Only { reg := fun a => ∃ j ∈ members mask, issueRegs j a, site := fun j => j ∈ members mask, time := True } s t) := by
  have hall : ∀ j ∈ members mask, Resumed s (s.forAll (members mask) (fun v k => v.resumed k (s.lastSync mask id + 6))) j (s.lastSync mask id + 6) :=
    State.forAll_once (Q := fun k u => Unmoved s u k) (P := fun k u => Resumed s u k (s.lastSync mask id + 6)) (members_nodup mask)
      (fun k _ => ⟨rfl, rfl⟩)
      (fun u k hk hu => by
        obtain ⟨since, h⟩ := hin k hk
        exact hu.resumed (resumed_resumed (by rw [hu.pc]; exact h.more)))
      (fun u j k hj hk hne hu => hu.of_other (members_lt hj) (members_lt hk) hne)
      (fun u j k hj hk hne hu => hu.of_other (members_lt hj) (members_lt hk) hne)
  refine .of_fin (exec_syncRelease hsome hin) ⟨fun j hj => (hall j hj).settle, (State.settle_fc ..).trans (forAll_resumed_fc hsome),
    Only.settle s (Only.forAll (.refl _ s) fun u k hk hu => hu.resumed ⟨fun a ha => ⟨k, hk, ha⟩, hk, trivial⟩)⟩

end Barrier

/-! ### The decision of a MATCH (R84) -/

/-- The last fc of a MATCH is over: the edges to come have noted its registers, and the sequencer runs on. -/
def State.decided (s : State) (k : Nat) : State :=
  (((s.noteEdges k ((s.getSite k).cycle - 1)).setSeqState k 3).modSite k (fun x => { x with wait := .none })).runTo
    (((s.noteEdges k ((s.getSite k).cycle - 1)).getSite k).fc0 + (s.getSite k).cycle)

theorem decided_site : ∃ l, (s.decided k).getSite k = { s.getSite k with exposeRegs := l, wait := .none } := by
  obtain ⟨l, hl⟩ := noteEdges_site (s := s) (k := k) ((s.getSite k).cycle - 1)
  refine ⟨l, ?_⟩
  rw [State.decided, runTo_getSite, State.modSite_getSite, if_pos rfl, State.setSeqState, State.setFld_getSite, hl]

theorem decided_fc : (s.decided k).fc = max s.fc ((s.getSite k).fc0 + (s.getSite k).cycle) := by
  obtain ⟨l, hl⟩ := noteEdges_site (s := s) (k := k) ((s.getSite k).cycle - 1)
  rw [State.decided, runTo_fc, State.modSite_fc, State.setSeqState, State.setFld, State.wr_fc, noteEdges_fc, hl]

theorem decided_seqState : (s.decided k).seqState k = 3 := by
  rw [State.decided, State.seqState, State.fld, runTo_rd]
  exact (modSite_seqState _ _).trans (State.setSeqState_seqState _ _ _)

theorem noteEdges_rd (c a : Nat) : (s.noteEdges k c).rd a = s.rd a :=
  ((Only.refl { site := fun j => j = k } s).noteEdges c rfl).reg _ id

theorem decided_rd {a : Nat} (ha : a ≠ Reg.seqStatus k) : (s.decided k).rd a = s.rd a := by
  rw [State.decided, runTo_rd, State.modSite_rd, State.setSeqState, State.setFld_rd, if_neg ha, noteEdges_rd]

theorem decided_bit {i : Nat} (hi : 3 ≤ i) : (s.decided k).bit (Reg.seqStatus k) i = s.bit (Reg.seqStatus k) i := by
  rw [State.bit, State.decided, runTo_rd, State.modSite_rd]
  refine (setFld_bit_other _ _ _ _ _ _ (by decide) (.inr (.inr hi))).trans ?_
  rw [State.bit, noteEdges_rd, State.bit]

theorem Only.decided (h : Only m s t) (hstatus : m.reg (Reg.seqStatus k)) (hsite : m.site k) (htime : m.time) : Only m s (t.decided k) :=
  (((h.noteEdges _ hsite).setFld _ _ _ hstatus).modSite _ hsite).runTo _ htime

/-- The condition of a MATCH reads none of what the edges note. -/
theorem noteEdges_seqCond (c n : Nat) : (s.noteEdges k c).seqCond k w n = s.seqCond k w n := by
  obtain ⟨l, hl⟩ := noteEdges_site (s := s) (k := k) c
  have honly : Only { site := fun j => j = k } s (s.noteEdges k c) := (Only.refl _ s).noteEdges c rfl
  exact seqCond_congr ⟨l, _, hl⟩ (honly.flags id) (fun _ => noteEdges_rd ..) (fun _ => noteEdges_rd ..)
    (congrArg (fun v : Word => v.getLsbD 5) (noteEdges_rd ..))

/-- The clear point moves to cycle `c`, and the sequencer goes on at `pc`. -/
def State.clearedTo (s : State) (k c pc : Nat) : State := (s.setClear k c).setFld (Reg.seqPc k) 0 15 pc

section Decision
variable {c pc : Nat}

theorem clearedTo_site : (s.clearedTo k c pc).getSite k = { s.getSite k with clearPt := c } := by
  rw [State.clearedTo, State.setFld_getSite, State.setClear, State.showFacc, State.setBit_getSite, State.modSite_getSite, if_pos rfl]

theorem clearedTo_rd {a : Nat} (hpc : a ≠ Reg.seqPc k) (hstatus : a ≠ Reg.seqStatus k) : (s.clearedTo k c pc).rd a = s.rd a := by
  rw [State.clearedTo, State.setFld_rd, if_neg hpc, State.setClear, State.showFacc, State.setBit_rd, if_neg hstatus, State.modSite_rd]

theorem seqStatus_ne_seqPc : Reg.seqStatus k ≠ Reg.seqPc k := by simp only [Reg.seqStatus, Reg.seqPc]; omega

theorem clearedTo_bit : (s.clearedTo k c pc).bit (Reg.seqStatus k) 5 = s.bit (Reg.seqStatus k) 5 := by
  rw [State.clearedTo, setFld_bit_other _ _ _ _ _ _ (by decide) (.inl seqStatus_ne_seqPc), State.setClear, State.showFacc,
    State.setBit_bit_other (h := by decide) (hd := .inr (by decide)), State.bit, State.modSite_rd, State.bit]

theorem clearedTo_seqState : (s.clearedTo k c pc).seqState k = s.seqState k :=
  (State.setFld_fld_other _ _ _ _ _ _ _ _ (by decide) (.inl seqStatus_ne_seqPc)).trans
    ((State.setFld_fld_other _ _ _ _ _ _ _ _ (by decide) (.inr (.inl (by decide)))).trans (modSite_seqState _ _))

theorem clearedTo_seqPc (hpc : pc < 0x8000) : (s.clearedTo k c pc).seqPc k = pc :=
  (State.setFld_fld _ _ _ _ _ (by decide)).trans (Nat.mod_eq_of_lt hpc)

theorem Only.clearedTo (h : Only m s t) (hpc : m.reg (Reg.seqPc k)) (hstatus : m.reg (Reg.seqStatus k)) (hsite : m.site k) :
    Only m s (t.clearedTo k c pc) := ((h.modSite _ hsite).setBit _ _ hstatus).setFld _ _ _ hpc

/-- What every decision of a MATCH leaves. -/
structure MatchOver (s t : State) (k : Nat) : Prop where
  state : t.seqState k = 3
  wait : (t.getSite k).wait = .none
  clearPt : (t.getSite k).clearPt = (s.getSite k).cycle
  cycle : (t.getSite k).cycle = (s.getSite k).cycle
  clock : t.fc = max s.fc ((s.getSite k).fc0 + (s.getSite k).cycle)

/-- What a decision may write before the clear point moves: the MX flag, and the loop counter of the MATCH. -/
def matchMay (k lc : Nat) : May :=
  { reg := fun a => a = Reg.seqPc k ∨ a = Reg.seqStatus k ∨ a = lc, site := fun j => j = k, time := True }

/-- The sequencer has decided: of its registers the MX flag and the loop counter may have been written. -/
structure Deciding (s u : State) (k lc : Nat) : Prop where
  state : u.seqState k = 3
  site : u.getSite k = (s.decided k).getSite k
  clock : u.fc = (s.decided k).fc
  only : Only (matchMay k lc) s u

variable {lc : Nat}

theorem decided_deciding : Deciding s (s.decided k) k lc :=
  ⟨decided_seqState, rfl, rfl, (Only.refl _ s).decided (.inr (.inl rfl)) rfl trivial⟩

theorem Deciding.setLc {n v : Nat} (h : Deciding s u k (Reg.seqLc k n)) : Deciding s (u.setLc k n v) k (Reg.seqLc k n) where
  state := by
    rw [State.seqState, State.fld, State.setLc, State.wr_rd, if_neg (by simp only [Reg.seqStatus, Reg.seqLc]; omega)]
    exact h.state
  site := (State.wr_getSite ..).trans h.site
  clock := h.clock
  only := h.only.wr _ (.inr (.inr rfl))

theorem Deciding.setMx (b : Bool) (h : Deciding s u k lc) : Deciding s (u.setBit (Reg.seqStatus k) 5 b) k lc where
  state := (State.setFld_fld_other _ _ _ _ _ _ _ _ (by decide) (.inr (.inl (by decide)))).trans h.state
  site := (State.setBit_getSite ..).trans h.site
  clock := h.clock
  only := h.only.setBit _ _ (.inr (.inl rfl))

theorem clearedTo_fc : (s.clearedTo k c pc).fc = s.fc := rfl

theorem Deciding.matchOver (h : Deciding s u k lc) : MatchOver s (State.settle s (u.clearedTo k (s.getSite k).cycle pc)) k := by
  obtain ⟨l, hl⟩ := decided_site (s := s) (k := k)
  have hsite : (State.settle s (u.clearedTo k (s.getSite k).cycle pc)).getSite k
      = { s.getSite k with exposeRegs := l, wait := .none, clearPt := (s.getSite k).cycle } := by
    rw [State.settle_getSite, clearedTo_site, h.site, hl]
  refine ⟨(State.settle_seqState ..).trans (clearedTo_seqState.trans h.state), ?_, ?_, ?_, ?_⟩
  · rw [hsite]
  · rw [hsite]
  · rw [hsite]
  · rw [State.settle_fc, clearedTo_fc, h.clock, decided_fc]

theorem Deciding.clearedTo_only (h : Deciding s u k lc) : Only (matchMay k lc) s (State.settle s (u.clearedTo k c pc)) :=
  Only.settle s (h.only.clearedTo (.inl rfl) (.inr (.inl rfl)) rfl)

/-! The three decisions, as the model takes them. -/

section Outcomes
variable {k : SiteIx}

theorem exec_matchDecision (hstate : s.seqState k = 4) (hwait : (s.getSite k).wait = .matching w) (hafter : (s.getSite k).after ≠ .cut) :
    exec (.matchDecision k) s = fin s (
      if s.seqCond k w ((s.getSite k).cycle - 1) then
        (((s.decided k).setBit (Reg.seqStatus k) 5 false).setClear k (s.getSite k).cycle).goTo k (s.seqPc k + 1)
      else if 1 < (s.rd (Reg.seqLc k (seqAux w % 8))).toNat then
        (((s.decided k).setLc k (seqAux w % 8) ((s.rd (Reg.seqLc k (seqAux w % 8))).toNat - 1)).setClear k (s.getSite k).cycle).goTo k (seqImm w)
      else ((((s.decided k).setLc k (seqAux w % 8) 0).setBit (Reg.seqStatus k) 5 true).setClear k (s.getSite k).cycle).goTo k (s.seqPc k + 1)) := by
  have hpc : (s.noteEdges k ((s.getSite k).cycle - 1)).seqPc k = s.seqPc k := by
    rw [State.seqPc, State.fld, noteEdges_rd, State.seqPc, State.fld]
  have hlc (n : Nat) : (s.noteEdges k ((s.getSite k).cycle - 1)).lc k n = s.lc k n := congrArg BitVec.toNat (noteEdges_rd ..)
  refine congrArg (fin s) ?_
  simp only [hstate, hwait]
  rw [if_neg hafter, noteEdges_seqCond, hpc, hlc]
  rfl

theorem matchDecision_answers (hstate : s.seqState k = 4) (hwait : (s.getSite k).wait = .matching w) (hafter : (s.getSite k).after ≠ .cut)
    (hlegal : seqLegal k w = true) (hop : seqOp w = 8) (hmore : s.seqPc k + 1 < 0x8000) : Answers (.matchDecision k) s (fun t =>
      MatchOver s t k ∧ (if s.seqCond k w ((s.getSite k).cycle - 1) then
          t.seqPc k = s.seqPc k + 1 ∧ t.bit (Reg.seqStatus k) 5 = false ∧ t.rd (Reg.seqLc k (seqAux w % 8)) = s.rd (Reg.seqLc k (seqAux w % 8))
        else if 1 < (s.rd (Reg.seqLc k (seqAux w % 8))).toNat then
          t.seqPc k = seqImm w ∧ t.bit (Reg.seqStatus k) 5 = s.bit (Reg.seqStatus k) 5
            ∧ t.rd (Reg.seqLc k (seqAux w % 8)) = s.rd (Reg.seqLc k (seqAux w % 8)) - 1
        else t.seqPc k = s.seqPc k + 1 ∧ t.bit (Reg.seqStatus k) 5 = true ∧ t.rd (Reg.seqLc k (seqAux w % 8)) = 0)
      ∧ Only (matchMay k (Reg.seqLc k (seqAux w % 8))) s t) := by
  have himm : seqImm w < 0x8000 := by
    have hok := operands_of_legal hlegal
    simp only [hop, seqOperandsOk, Bool.and_eq_true, decide_eq_true_eq] at hok
    omega
  have hst : Reg.seqLc k (seqAux w % 8) ≠ Reg.seqStatus k := by simp only [Reg.seqLc, Reg.seqStatus]; omega
  have hpcne : Reg.seqLc k (seqAux w % 8) ≠ Reg.seqPc k := by simp only [Reg.seqLc, Reg.seqPc]; omega
  have hd : Deciding s (s.decided k) k (Reg.seqLc k (seqAux w % 8)) := decided_deciding
  have hexec := exec_matchDecision hstate hwait hafter
  by_cases hcond : s.seqCond k w ((s.getSite k).cycle - 1) = true
  · have hu := hd.setMx false
    rw [if_pos hcond, goTo_of_lt hmore] at hexec
    refine .of_fin hexec ⟨hu.matchOver, ?_, hu.clearedTo_only⟩
    rw [if_pos hcond]
    refine ⟨(State.settle_fld ..).trans (clearedTo_seqPc hmore), ?_, ?_⟩
    · exact (State.settle_bit ..).trans (clearedTo_bit.trans (State.setBit_bit _ _ _ _ (by decide)))
    · exact (State.settle_rd ..).trans ((clearedTo_rd hpcne hst).trans ((State.setBit_rd ..).trans ((if_neg hst).trans (decided_rd hst))))
  by_cases hlc : 1 < (s.rd (Reg.seqLc k (seqAux w % 8))).toNat
  · have hu := hd.setLc (v := (s.rd (Reg.seqLc k (seqAux w % 8))).toNat - 1)
    rw [if_neg hcond, if_pos hlc, goTo_of_lt himm] at hexec
    refine .of_fin hexec ⟨hu.matchOver, ?_, hu.clearedTo_only⟩
    rw [if_neg hcond, if_pos hlc]
    refine ⟨(State.settle_fld ..).trans (clearedTo_seqPc himm), ?_, ?_⟩
    · refine (State.settle_bit ..).trans (clearedTo_bit.trans ?_)
      rw [State.bit, State.setLc, State.wr_rd, if_neg hst.symm]
      exact decided_bit (by decide)
    · refine (State.settle_rd ..).trans ((clearedTo_rd hpcne hst).trans ?_)
      rw [State.setLc, State.wr_rd, if_pos rfl]
      bv_omega
  · have hu := (hd.setLc (v := 0)).setMx true
    rw [if_neg hcond, if_neg hlc, goTo_of_lt hmore] at hexec
    refine .of_fin hexec ⟨hu.matchOver, ?_, hu.clearedTo_only⟩
    rw [if_neg hcond, if_neg hlc]
    refine ⟨(State.settle_fld ..).trans (clearedTo_seqPc hmore), ?_, ?_⟩
    · exact (State.settle_bit ..).trans (clearedTo_bit.trans (State.setBit_bit _ _ _ _ (by decide)))
    · refine (State.settle_rd ..).trans ((clearedTo_rd hpcne hst).trans ((State.setBit_rd ..).trans ((if_neg hst).trans ?_)))
      rw [State.setLc, State.wr_rd, if_pos rfl]
      rfl

end Outcomes

end Decision

/-! ### The limit of a wait (R87) -/

theorem exec_waitTimeout {k : SiteIx} {since : Nat} (hstate : s.seqState k = 4) (hlimit : s.waitLimit k ≠ 0)
    (hwait : (∃ f v, (s.getSite k).wait = .waitf f v since
        ∧ ∀ e, s.flagFc f.toNat ((s.getSite k).fc0 + since) v = some e → s.waitLimit k < e + 1 - ((s.getSite k).fc0 + since))
      ∨ ∃ m i, (s.getSite k).wait = .sync m i since ∧ ∀ u, s.barrier m i = some u → s.waitLimit k < u + 6 - ((s.getSite k).fc0 + since)) :
    exec (.waitTimeout k) s = fin s (s.timeOut k ((s.getSite k).fc0 + since)) := by
  have hlate {n : Nat} (h : s.waitLimit k < n - ((s.getSite k).fc0 + since)) : s.inLimit k ((s.getSite k).fc0 + since) n = false := by
    simp only [State.inLimit, Bool.or_eq_false_iff, beq_eq_false_iff_ne, decide_eq_false_iff_not]
    omega
  refine congrArg (fin s) ?_
  dsimp only
  rw [if_neg hlimit]
  rcases hwait with ⟨f, v, hwait, hflag⟩ | ⟨m, i, hwait, hbarrier⟩
  · simp only [hstate, hwait]
    refine if_neg ?_
    simp only [State.waitfEnd, Option.isSome_iff_ne_none, ne_eq, not_not, Option.filter_eq_none_iff]
    exact fun e he => by rw [hlate (hflag e he)]; decide
  · simp only [hstate, hwait]
    refine if_neg ?_
    simp only [Option.any_eq_true, not_exists, not_and]
    exact fun u hu => by rw [hlate (hbarrier u hu)]; decide

/-- The definition is unfolded as a constant, before it meets its arguments: applied, the kernel would count the limit's factor of 2^20 out in
unary. -/
theorem timeOut_of_waitTo {since : Nat} {stopped : Bool} (h : s.waitTo k (since + s.waitLimit k) = (t, stopped)) :
    s.timeOut k since = if stopped then t else t.seqStop k 8 (t.lastCycle k) := by
  obtain ⟨f, hf⟩ : ∃ f, f = @State.timeOut := ⟨_, rfl⟩
  rw [← hf]
  delta State.timeOut at hf
  rw [hf]
  beta_reduce
  rw [h]

theorem waitTimeout_answers {k : SiteIx} {since : Nat} (hexec : exec (.waitTimeout k) s = fin s (s.timeOut k ((s.getSite k).fc0 + since)))
    (hstate : s.seqState k = 4) (hlimit : s.waitLimit k ≠ 0) (hstop : (s.getSite k).stopAt = none) : Answers (.waitTimeout k) s (fun t =>
      (t.getSite k).cycle = max (s.getSite k).cycle (since + s.waitLimit k) ∧ Stopped t k 8 ((t.getSite k).cycle - 1) ∧ Only (stopMay k) s t) := by
  obtain ⟨u, hu⟩ : ∃ u, s.waited k ((s.getSite k).fc0 + since + s.waitLimit k) = u := ⟨_, rfl⟩
  have hcycle : (u.getSite k).cycle = max (s.getSite k).cycle (since + s.waitLimit k) := by rw [← hu, waited_cycle]; omega
  have hruns : u.seqRuns k = true := by rw [State.seqRuns, ← hu, waited_seqState k.isLt, hstate]; rfl
  have honly : Only (stopMay k) s u := hu ▸ (Only.refl _ s).waited rfl trivial fun a ha => .inl (.inl (countRegs_issueRegs ha))
  have htime : s.timeOut k ((s.getSite k).fc0 + since) = u.seqStop k 8 (u.lastCycle k) := by
    rw [timeOut_of_waitTo (waitTo_of_noStop hstop), if_neg Bool.false_ne_true, hu]
  have hend : ((State.settle s (u.seqStop k 8 (u.lastCycle k))).getSite k).cycle = max (s.getSite k).cycle (since + s.waitLimit k) := by
    rw [State.settle_getSite, seqStop_cycle hruns, hcycle]
  have hlast : u.lastCycle k % 2 ^ 48 = (max (s.getSite k).cycle (since + s.waitLimit k) - 1) % 2 ^ 48 := by
    rw [State.lastCycle, hcycle]
    omega
  have hs : Stopped (u.seqStop k 8 (u.lastCycle k)) k 8 (u.lastCycle k) := seqStop_stopped k.isLt (by decide)
  rw [htime] at hexec
  refine .of_fin hexec ⟨hend, ?_, Only.settle s (honly.seqStopOfRuns (stopMay_ends k _) hruns)⟩
  rw [hend]
  exact ⟨hs.state, hs.reason, hs.cyc.trans hlast, hs.wait, hs.plan⟩

/-! ### The end of a BISTWIN (R89) -/

theorem bistwinRestore_answers {k : SiteIx} (hpending : (s.getSite k).restorePending = true) (hover : s.slicesOver k = true) :
    Answers (.bistwinRestore k) s (fun t => (t.getSite k).restorePending = false ∧ t.seqState k = s.seqState k
      ∧ (∀ f, t.penIsoAt k f = t.isoHeld k f)
      ∧ Only { reg := fun a => a = Reg.glbSiteState ∨ a = Reg.fabPenStat ∨ a = Reg.glbMode, site := fun j => j = k.val } s t) := by
  have hexec : exec (.bistwinRestore k) s = fin s ((s.modSite k (fun x => { x with restorePending := false })).followSite k) :=
    congrArg (fin s) (if_pos (by rw [hpending, hover]; rfl))
  have honly : Only { reg := fun a => a = Reg.glbSiteState ∨ a = Reg.fabPenStat ∨ a = Reg.glbMode, site := fun j => j = k.val } s
      (State.settle s ((s.modSite k (fun x => { x with restorePending := false })).followSite k)) :=
    Only.settle s (((Only.refl _ s).modSite _ rfl).followSite k (.inl rfl) (.inr (.inl rfl)) (.inr (.inr rfl)))
  have hrestored : ((State.settle s ((s.modSite k (fun x => { x with restorePending := false })).followSite k)).getSite k).restorePending
      = false := by
    rw [State.settle_getSite, (followSite_only _ _).site k id, State.modSite_getSite, if_pos rfl]
  refine .of_fin hexec ⟨hrestored, honly.fld_eq ?_, fun f => ?_, honly⟩
  · simp only [Reg.glbSiteState, Reg.fabPenStat, Reg.glbMode, Reg.seqStatus]
    omega
  · rw [State.penIsoAt, hrestored, Bool.false_and, Bool.or_false]

/-- Settles O5: each wait ends on the state alone, by what it waits for. -/
theorem seqWaitEnds : Obligations.SeqWaitEnds := by
  unfold Obligations.SeqWaitEnds
  refine fun k s => ⟨fun w hstate hwait hafter hlegal hop hmore => ?_, fun mask id hsome hin => ?_,
    fun f v since e hstate hwait hflag hlimit hstop hpc => ?_, fun since hstate hlimit hstop hwait => ?_, bistwinRestore_answers⟩
  · refine (matchDecision_answers hstate hwait hafter hlegal hop hmore).imp fun t ⟨h, hout, honly⟩ => ?_
    exact ⟨h.state, h.wait, h.clearPt, h.cycle, h.clock, hout, honly⟩
  · have hmembers : ∀ j ∈ members mask, ∃ since, s.InBarrier mask id j since := fun j hj => by
      obtain ⟨hstop, hpc, since, hsince, hlimit⟩ := hin j hj
      exact ⟨since, hstop, hpc, hsince, hlimit⟩
    refine (syncRelease_answers hsome hmembers).imp fun t ⟨hall, hfc, honly⟩ => ⟨fun j hj => ?_, hfc, honly⟩
    exact ⟨(hall j hj).state, (hall j hj).wait, (hall j hj).pc, (hall j hj).place⟩
  · refine (waitfComplete_answers hstate hwait hflag hlimit hstop hpc).imp fun t ⟨h, hfc, honly⟩ => ?_
    exact ⟨h.state, h.wait, h.pc, h.place, hfc, honly⟩
  · exact waitTimeout_answers (exec_waitTimeout hstate hlimit hwait) hstate hlimit hstop

end Sys2Proof.Machine
end

section
/-! The edge that ends a cycle of the fabric, and the read of the next context (R115, R151, R154, R160, R163). -/

namespace Sys2Proof.Machine

variable {m : May} {s t u : State} {k : Nat}

/-! ### What landing reads, bus monitors and integrity events leave -/

/-- A region without its row windows and without what its bus monitors keep. -/
def Fabric.core (f : Fabric) : Fabric := { f with win := [], winReads := [], trips := [], busOff := [] }

theorem Only.foldlMem {α : Type} {l : List α} {f : State → α → State} (h : Only m s t) (hf : ∀ u p, p ∈ l → Only m s u → Only m s (f u p)) :
    Only m s (l.foldl f t) := by
  induction l generalizing t with
  | nil => exact h
  | cons p l ih => exact ih (hf t p (.head _) h) fun u q hq => hf u q (.tail _ hq)

theorem Only.fabInteg (cls cyc detail : Nat) (h : Only m s t) (hs : m.site k) (hr : ∀ a, integRegs k a → m.reg a) :
    Only m s (t.fabInteg k cls cyc detail) := by
  unfold State.fabInteg
  split
  · exact h.integ _ _ _ _ hs hr
  · exact h

/-- What the integrity word of site `j` records leaves the cycles of every sequencer. -/
theorem fabInteg_unfilled (j cls cyc detail : Nat) : ((s.fabInteg j cls cyc detail).getSite k).unfilled = (s.getSite k).unfilled := by
  unfold State.fabInteg
  split
  · by_cases hj : k = j
    · rw [hj]
      exact integ_unfilled ..
    · exact congrArg Site.unfilled (((Only.refl { reg := integRegs j, site := fun i => i = j } s).integ _ _ _ _ rfl fun _ h => h).site k hj)
  · rfl

/-- What the events of a landing read of site `j` may change. -/
def landMay (j : Nat) : May := { reg := fun a => a = Reg.fabRwStat ∨ integRegs j a, site := fun i => i = j }

/-- A command may change what the events of a landing read of site `j` change. -/
structure May.Lands (m : May) (j : Nat) : Prop where
  rwStat : m.reg Reg.fabRwStat
  site : m.site j
  integ : ∀ a, integRegs j a → m.reg a

theorem landMay_lands (j : Nat) : (landMay j).Lands j := ⟨.inl rfl, rfl, fun _ h => .inr h⟩

theorem Only.landEvent {r : WinRead} (h : Only m s t) (hm : m.Lands (r.vault / 16)) : Only m s (t.landEvent r) := by
  unfold State.landEvent State.winRefused
  dsimp only
  split
  · exact (h.setBit _ _ hm.rwStat).fabInteg _ _ _ hm.site hm.integ
  · split
    · exact (h.setBit _ _ hm.rwStat).fabInteg _ _ _ hm.site hm.integ
    · exact h

theorem landEvent_getFab (r : WinRead) (j : Nat) : (s.landEvent r).getFab j = s.getFab j :=
  ((Only.refl _ s).landEvent (landMay_lands _)).fab j id

theorem landEvent_unfilled (r : WinRead) : ((s.landEvent r).getSite k).unfilled = (s.getSite k).unfilled := by
  have hset (i : Nat) : ((s.setBit Reg.fabRwStat i true).getSite k).unfilled = (s.getSite k).unfilled :=
    congrArg Site.unfilled (State.setBit_getSite ..)
  unfold State.landEvent State.winRefused
  dsimp only
  split
  · exact (fabInteg_unfilled ..).trans (hset _)
  · split
    · exact (fabInteg_unfilled ..).trans (hset _)
    · rfl

theorem Only.landDue (n : Nat) (h : Only m s t) (hf : m.fab k) (hr : ∀ r ∈ (t.getFab k).winReads, m.Lands (r.vault / 16)) :
    Only m s (t.landDue k n) := by
  unfold State.landDue
  dsimp only
  split
  · exact h
  · exact (h.modFab _ hf).foldlMem fun u r hmem hu => hu.landEvent (hr r (List.mem_filter.mp hmem).1)

theorem foldl_landEvent_getFab (l : List WinRead) (j : Nat) : (l.foldl State.landEvent s).getFab j = s.getFab j := by
  induction l generalizing s with
  | nil => rfl
  | cons r l ih => exact ih.trans (landEvent_getFab r j)

theorem foldl_landEvent_unfilled (l : List WinRead) : ((l.foldl State.landEvent s).getSite k).unfilled = (s.getSite k).unfilled := by
  induction l generalizing s with
  | nil => rfl
  | cons r l ih => exact ih.trans (landEvent_unfilled r)

theorem landDue_core (n : Nat) : ((s.landDue k n).getFab k).core = (s.getFab k).core := by
  unfold State.landDue
  dsimp only
  split
  · rfl
  · rw [foldl_landEvent_getFab, State.modFab_getFab, if_pos rfl]
    rfl

theorem landDue_winReads (n : Nat) : ∀ r ∈ ((s.landDue k n).getFab k).winReads, r ∈ (s.getFab k).winReads := by
  unfold State.landDue
  dsimp only
  split
  · exact fun _ h => h
  · rw [foldl_landEvent_getFab, State.modFab_getFab, if_pos rfl]
    exact fun _ h => (List.mem_filter.mp h).1

theorem landDue_unfilled (n : Nat) : ((s.landDue k n).getSite k).unfilled = (s.getSite k).unfilled := by
  unfold State.landDue
  dsimp only
  split
  · rfl
  · rw [foldl_landEvent_unfilled]
    rfl

theorem Only.insertQ {a : Nat} (cap fc ord : Nat) (e : Word) (h : Only m s t) (ha : m.queue a) : Only m s (t.insertQ a cap fc ord e) := by
  unfold State.insertQ
  dsimp only
  split
  · exact h.setQ _ ha
  · exact (h.setQ _ ha).ite (h.setQ _ ha)

/-- A command may change what a trip of a bus of region `k` reports. -/
structure May.Monitors (m : May) (k : Nat) : Prop where
  stat : m.reg Reg.fabZbusStat
  events : m.reg Reg.safEvtCnt
  log : m.queue Reg.fabZbusLog
  eventLog : m.queue Reg.safEvtLog
  site : m.site k
  integ : ∀ a, integRegs k a → m.reg a

/-- What a trip of a bus of region `k` reports. -/
def tripMay (k : Nat) : May :=
  { reg := fun a => a = Reg.fabZbusStat ∨ a = Reg.safEvtCnt ∨ integRegs k a
    queue := fun q => q = Reg.fabZbusLog ∨ q = Reg.safEvtLog, site := fun j => j = k }

theorem tripMay_monitors (k : Nat) : (tripMay k).Monitors k := ⟨.inl rfl, .inr (.inl rfl), .inl rfl, .inr rfl, rfl, fun _ h => .inr (.inr h)⟩

/-- The log entry, the SAF event and the integrity event of a trip. -/
theorem Only.tripReport {fc ord src detail cls cyc what : Nat} {e : Word} (h : Only m s t) (hm : m.Monitors k) :
    Only m s ((((t.insertQ Reg.fabZbusLog 16 fc ord e).setBit Reg.fabZbusStat k true).safEvent src detail).fabInteg k cls cyc what) :=
  (((h.insertQ _ _ _ _ hm.log).setBit _ _ hm.stat).safEvent _ _ hm.eventLog hm.events).fabInteg _ _ _ hm.site hm.integ

theorem Only.busTrip (bus n ctx cyc : Nat) (frames : List Nat) (h : Only m s t) (hm : m.Monitors k) (hf : m.fab k) :
    Only m s (t.busTrip k bus n ctx cyc frames) := ((h.tripReport hm).modFab _ hf).setBit _ _ hm.stat

theorem busTrip_core (bus n ctx cyc : Nat) (frames : List Nat) : ((s.busTrip k bus n ctx cyc frames).getFab k).core = (s.getFab k).core := by
  unfold State.busTrip
  extract_lets f perm e s1 s2 s3 s4
  have h3 : Only (tripMay k) s s3 := (Only.refl _ s).tripReport (tripMay_monitors k)
  have h4 : (s4.getFab k).core = (s.getFab k).core := by
    rw [State.modFab_getFab, if_pos rfl, ← h3.fab k id]
    rfl
  rw [State.showBusOff, State.setBit, State.setFld, State.wr_getFab, h4]

theorem Only.busMonitor (strays : List StrayDrive) (h : Only m s t) (hm : m.Monitors k) (hf : m.fab k) :
    Only m s (t.busMonitor k strays) := h.foldl fun _ _ hu => hu.busTrip _ _ _ _ _ hm hf

theorem foldl_core {α : Type} {f : State → α → State} (hf : ∀ u p, ((f u p).getFab k).core = (u.getFab k).core) (l : List α) :
    ((l.foldl f s).getFab k).core = (s.getFab k).core := by
  induction l generalizing s with
  | nil => rfl
  | cons p l ih => exact ih.trans (hf s p)

theorem busMonitor_core (strays : List StrayDrive) : ((s.busMonitor k strays).getFab k).core = (s.getFab k).core :=
  foldl_core (fun _ _ => busTrip_core ..) _

theorem Only.sampleIfc (h : Only m s t) (hs : m.site k) : Only m s (t.sampleIfc k) := by
  unfold State.sampleIfc
  dsimp only
  split
  · split
    · exact h.modSite _ hs
    · exact h
  · exact h

theorem sampleIfc_getFab (j : Nat) : (s.sampleIfc k).getFab j = s.getFab j :=
  ((Only.refl { site := fun i => i = k } s).sampleIfc rfl).fab j id

/-! ### The edge that ends a cycle -/

theorem get_foldl_next {f : Fabric} {c : Nat} (l : List (Nat × CellNext)) (hl : (l.map Prod.fst).Nodup) (cells : List (Nat × Cell)) :
    Sparse.get (fun _ => {}) (l.foldl (fun m p => Sparse.set (fun _ => {}) m p.1 p.2.cell) cells) c
      = ({ f with next := l, cells := cells } : Fabric).after c := by
  induction l generalizing cells with
  | nil => rfl
  | cons p l ih =>
    obtain ⟨hp, hrest⟩ := List.nodup_cons.mp hl
    rw [List.foldl_cons, ih hrest]
    by_cases hc : p.1 = c
    · have hnone : l.find? (fun q => q.1 == c) = none :=
        List.find?_eq_none.mpr fun q hq he => hp (hc ▸ beq_iff_eq.mp he ▸ List.mem_map_of_mem hq)
      simp only [Fabric.after, hnone, List.find?_cons, hc, beq_self_eq_true, Fabric.cell, Sparse.get_set, if_pos]
    · simp only [Fabric.after, List.find?_cons, beq_eq_false_iff_ne.mpr hc, Fabric.cell, Sparse.get_set, if_neg (Ne.symm hc)]

theorem wireSettle_of_no_edge (h : (s.wireClocked k).find? (s.wireEdge k) = none) (n : Nat) : State.wireSettle n s k = s := by
  cases n with
  | zero => rfl
  | succ n => rw [State.wireSettle, h]

/-- The cycle in effect has ended in region `k`, if one was. -/
structure CycleEnded (s t : State) (k : Nat) : Prop where
  cell : ∀ d, (t.getFab k).cell d = if (s.getFab k).live then (s.getFab k).after d else (s.getFab k).cell d
  live : (t.getFab k).live = false
  next : (s.getFab k).live = true → (t.getFab k).next = []
  site : (t.getSite k).unfilled = (s.getSite k).unfilled

theorem CycleEnded.landDue (h : CycleEnded s t k) (n : Nat) : CycleEnded s (t.landDue k n) k where
  cell d := (congrArg (fun f : Fabric => f.cell d) (landDue_core n) :).trans (h.cell d)
  live := (congrArg Fabric.live (landDue_core n) :).trans h.live
  next hl := (congrArg Fabric.next (landDue_core n) :).trans (h.next hl)
  site := (landDue_unfilled n).trans h.site

theorem setFab_ended {g : Fabric} (hcell : ∀ d, g.cell d = if (s.getFab k).live then (s.getFab k).after d else (s.getFab k).cell d)
    (hlive : g.live = false) (hnext : g.next = []) : CycleEnded s (s.setFab k g) k := by
  have hget : (s.setFab k g).getFab k = g := (State.setFab_getFab ..).trans (if_pos rfl)
  exact ⟨fun d => by rw [hget]; exact hcell d, by rw [hget]; exact hlive, fun _ => by rw [hget]; exact hnext, rfl⟩

theorem fabEdge_ended (hlive : (s.getFab k).live = true) (hnext : ((s.getFab k).next.map Prod.fst).Nodup)
    (hwire : (s.wireClocked k).find? (s.wireEdge k) = none) : CycleEnded s (s.fabEdge k) k := by
  unfold State.fabEdge
  rw [wireSettle_of_no_edge hwire]
  refine CycleEnded.landDue (setFab_ended (fun d => ?_) ?_ ?_) _
  · rw [if_pos hlive]
    exact get_foldl_next (f := s.getFab k) _ hnext _
  · rfl
  · rfl

theorem Only.fabEdge (h : Only m s t) (hwire : (t.wireClocked k).find? (t.wireEdge k) = none) (hf : m.fab k)
    (hr : ∀ r ∈ (t.getFab k).winReads, m.Lands (r.vault / 16)) : Only m s (t.fabEdge k) := by
  unfold State.fabEdge
  rw [wireSettle_of_no_edge hwire]
  dsimp only
  refine (h.setFab _ hf).landDue _ hf ?_
  rw [State.setFab_getFab, if_pos rfl]
  exact hr

theorem fabEdge_winReads (hwire : (s.wireClocked k).find? (s.wireEdge k) = none) :
    ∀ r ∈ ((s.fabEdge k).getFab k).winReads, r ∈ (s.getFab k).winReads := by
  unfold State.fabEdge
  rw [wireSettle_of_no_edge hwire]
  dsimp only
  intro r hr
  have h := landDue_winReads _ r hr
  rwa [State.setFab_getFab, if_pos rfl] at h

end Sys2Proof.Machine
end

section
/-! The context of the next cycle comes into effect (R89, R115, R163). -/

namespace Sys2Proof.Machine

variable {m : May} {s t : State} {k u n : Nat} {sp : Span}

/-- The cycle in effect has ended, and the reads due by then have landed. -/
def State.ended (s : State) (k u : Nat) : State := (if (s.getFab k).live then s.fabEdge k else s).landDue k (u - 1)

/-- A cycle of the sequencer is in effect. -/
def Fabric.runs (f : Fabric) (u n : Nat) (sp : Span) : Fabric :=
  { f with
    live := true, ctx := sp.ctx, now := u, cyc := some n, sampled := !sp.discarded && !sp.window
    sw0 := sp.sw0, sw1 := sp.sw1, num := BitVec.ofNat 32 n, dead := [], next := [] }

/-- Context 0 is in effect, as the sequencer issued no cycle. -/
def Fabric.idles (f : Fabric) (u : Nat) (sw0 sw1 num : Word) : Fabric :=
  { f with live := true, ctx := 0, now := u, cyc := none, sampled := false, sw0 := sw0, sw1 := sw1, num := num, dead := [], next := [] }

/-- A BISTWIN holds the region: no context is in effect. -/
def Fabric.saved (f : Fabric) (u : Nat) (cyc : Option Nat) : Fabric :=
  { f with now := u, cyc := cyc, parked := true, parkFrom := if f.parked then f.parkFrom else u + 3 }

/-- A context without an error is in effect, its buses are counted, and the tile takes its outputs. -/
def State.inContext (s : State) (k : Nat) (g : Fabric → Fabric) : State :=
  (((s.modFab k g).modFab k (fun f => { f with dead := [] })).busMonitor k []).sampleIfc k

/-! ### What the sequencer issued -/

theorem cycleAt_of_unfilled (h : (t.getSite k).unfilled = (s.getSite k).unfilled) : t.cycleAt k u = s.cycleAt k u := by
  unfold State.cycleAt Site.spanAt
  dsimp only
  rw [fc0_of_unfilled h, cycle_of_unfilled h, spans_of_unfilled h]

theorem inBist_of_unfilled (h : (t.getSite k).unfilled = (s.getSite k).unfilled) : t.inBist k u = s.inBist k u := by
  have hpending : (t.getSite k).restorePending = (s.getSite k).restorePending := (congrArg Site.restorePending h :)
  have hedge : (t.getSite k).bistEdge = (s.getSite k).bistEdge := (congrArg Site.bistEdge h :)
  unfold State.inBist
  dsimp only
  rw [hpending, hedge, cycleAt_of_unfilled h]

/-! ### The three cases -/

section Ended
variable (hnext : ((s.getFab k).next.map Prod.fst).Nodup) (hwire : (s.wireClocked k).find? (s.wireEdge k) = none)
include hnext hwire

theorem ended_ended : CycleEnded s (s.ended k u) k := by
  unfold State.ended
  split
  next hlive => exact (fabEdge_ended hlive hnext hwire).landDue _
  next hlive => exact CycleEnded.landDue ⟨fun d => (if_neg hlive).symm, Bool.eq_false_iff.mpr hlive, fun h => absurd h hlive, rfl⟩ _

theorem contextRead_of_bist (hbist : s.inBist k u = true) :
    s.contextRead k u [] [] [] = (s.ended k u).modFab k (fun f => f.saved u ((s.cycleAt k u).map Prod.fst)) := by
  have hsite := (ended_ended (u := u) hnext hwire).site
  rw [← cycleAt_of_unfilled hsite]
  exact if_pos ((inBist_of_unfilled hsite).trans hbist)

theorem contextRead_of_cycle (hbist : s.inBist k u = false) (hcycle : s.cycleAt k u = some (n, sp)) :
    s.contextRead k u [] [] [] = (s.ended k u).inContext k (fun f => f.runs u n sp) := by
  have hsite := (ended_ended (u := u) hnext hwire).site
  have hnot : ¬ (s.ended k u).inBist k u = true := by rw [inBist_of_unfilled hsite, hbist]; decide
  have hat : (s.ended k u).cycleAt k u = some (n, sp) := (cycleAt_of_unfilled hsite).trans hcycle
  rw [State.ended] at hnot hat
  rw [State.contextRead]
  dsimp only
  rw [if_neg hnot, hat]
  rfl

theorem contextRead_of_idle (hbist : s.inBist k u = false) (hcycle : s.cycleAt k u = none) :
    ∃ sw0 sw1, s.contextRead k u [] [] [] = (s.ended k u).inContext k (fun f => f.idles u sw0 sw1 (s.getSite k).lastIssued) := by
  have hsite := (ended_ended (u := u) hnext hwire).site
  have hnot : ¬ (s.ended k u).inBist k u = true := by rw [inBist_of_unfilled hsite, hbist]; decide
  have hat : (s.ended k u).cycleAt k u = none := (cycleAt_of_unfilled hsite).trans hcycle
  have hlast : ((s.ended k u).getSite k).lastIssued = (s.getSite k).lastIssued := (congrArg Site.lastIssued hsite :)
  refine ⟨(s.ended k u).rd (Reg.seqSw k 0), (s.ended k u).rd (Reg.seqSw k 1), ?_⟩
  rw [← hlast]
  rw [State.ended] at hnot hat
  rw [State.contextRead]
  dsimp only
  rw [if_neg hnot, hat]
  rfl

end Ended

theorem inContext_core (g : Fabric → Fabric) (hdead : ∀ f, (g f).dead = []) :
    ((s.inContext k g).getFab k).core = (g (s.getFab k)).core := by
  have hg : ({ g (s.getFab k) with dead := [] } : Fabric) = g (s.getFab k) := by
    rw [← hdead (s.getFab k)]
  rw [State.inContext, sampleIfc_getFab, busMonitor_core, State.modFab_getFab, if_pos rfl, State.modFab_getFab, if_pos rfl, hg]

theorem Only.inContext (g : Fabric → Fabric) (h : Only m s t) (hm : m.Monitors k) (hf : m.fab k) : Only m s (t.inContext k g) :=
  (((h.modFab g hf).modFab _ hf).busMonitor _ hm hf).sampleIfc hm.site

theorem Only.ended (hf : m.fab k) (hwire : (s.wireClocked k).find? (s.wireEdge k) = none)
    (hr : ∀ r ∈ (s.getFab k).winReads, m.Lands (r.vault / 16)) : Only m s (s.ended k u) := by
  unfold State.ended
  split
  · exact ((Only.refl m s).fabEdge hwire hf hr).landDue _ hf fun r hmem => hr r (fabEdge_winReads hwire r hmem)
  · exact (Only.refl m s).landDue _ hf hr

/-- What a read of a context without errors leaves, of the cycle that ended and of the one that begins (R115). -/
structure ContextIn (s t : State) (k u : Nat) : Prop where
  now : (t.getFab k).now = u
  cell : ∀ d, (t.getFab k).cell d = if (s.getFab k).live then (s.getFab k).after d else (s.getFab k).cell d
  next : (s.getFab k).live = true → (t.getFab k).next = []
  bist : s.inBist k u = true → (t.getFab k).live = false ∧ (t.getFab k).cyc = (s.cycleAt k u).map Prod.fst
  cycle : ∀ n sp, s.cycleAt k u = some (n, sp) → s.inBist k u = false → (t.getFab k).live = true ∧ (t.getFab k).ctx = sp.ctx
    ∧ (t.getFab k).cyc = some n ∧ (t.getFab k).num = BitVec.ofNat 32 n ∧ (t.getFab k).sw0 = sp.sw0 ∧ (t.getFab k).sw1 = sp.sw1
  idle : s.cycleAt k u = none → s.inBist k u = false → (t.getFab k).live = true ∧ (t.getFab k).ctx = 0 ∧ (t.getFab k).cyc = none
    ∧ (t.getFab k).num = (s.getSite k).lastIssued

theorem contextRead_in (hnext : ((s.getFab k).next.map Prod.fst).Nodup) (hwire : (s.wireClocked k).find? (s.wireEdge k) = none) :
    ContextIn s (s.contextRead k u [] [] []) k u := by
  have he : CycleEnded s (s.ended k u) k := ended_ended hnext hwire
  rcases hbist : s.inBist k u with _ | _
  · rcases hcycle : s.cycleAt k u with _ | ⟨n, sp⟩
    · obtain ⟨sw0, sw1, hread⟩ := contextRead_of_idle hnext hwire hbist hcycle
      rw [hread]
      have hcore := inContext_core (s := s.ended k u) (k := k) (fun f => f.idles u sw0 sw1 (s.getSite k).lastIssued) fun _ => rfl
      constructor
      case now => exact (congrArg Fabric.now hcore :)
      case cell => exact fun d => (congrArg (fun f : Fabric => f.cell d) hcore :).trans (he.cell d)
      case next => exact fun _ => (congrArg Fabric.next hcore :)
      case bist => exact fun h => by rw [hbist] at h; cases h
      case cycle => exact fun n sp h => by rw [hcycle] at h; cases h
      case idle =>
        exact fun _ _ => ⟨(congrArg Fabric.live hcore :), (congrArg Fabric.ctx hcore :), (congrArg Fabric.cyc hcore :),
          (congrArg Fabric.num hcore :)⟩
    · rw [contextRead_of_cycle hnext hwire hbist hcycle]
      have hcore := inContext_core (s := s.ended k u) (k := k) (fun f => f.runs u n sp) fun _ => rfl
      constructor
      case now => exact (congrArg Fabric.now hcore :)
      case cell => exact fun d => (congrArg (fun f : Fabric => f.cell d) hcore :).trans (he.cell d)
      case next => exact fun _ => (congrArg Fabric.next hcore :)
      case bist => exact fun h => by rw [hbist] at h; cases h
      case cycle =>
        intro n' sp' h _
        rw [hcycle] at h
        cases h
        exact ⟨(congrArg Fabric.live hcore :), (congrArg Fabric.ctx hcore :), (congrArg Fabric.cyc hcore :), (congrArg Fabric.num hcore :),
          (congrArg Fabric.sw0 hcore :), (congrArg Fabric.sw1 hcore :)⟩
      case idle => exact fun h => by rw [hcycle] at h; cases h
  · rw [contextRead_of_bist hnext hwire hbist]
    have hget : ((s.ended k u).modFab k (fun f => f.saved u ((s.cycleAt k u).map Prod.fst))).getFab k
        = ((s.ended k u).getFab k).saved u ((s.cycleAt k u).map Prod.fst) := (State.modFab_getFab ..).trans (if_pos rfl)
    constructor
    case now => rw [hget]; rfl
    case cell => rw [hget]; exact he.cell
    case next => rw [hget]; exact he.next
    case bist => rw [hget]; exact fun _ => ⟨he.live, rfl⟩
    case cycle => exact fun _ _ _ h => by rw [hbist] at h; cases h
    case idle => exact fun _ h => by rw [hbist] at h; cases h

theorem Only.contextRead (hm : m.Monitors k) (hf : m.fab k) (hnext : ((s.getFab k).next.map Prod.fst).Nodup)
    (hwire : (s.wireClocked k).find? (s.wireEdge k) = none) (hr : ∀ r ∈ (s.getFab k).winReads, m.Lands (r.vault / 16)) :
    Only m s (s.contextRead k u [] [] []) := by
  have he : Only m s (s.ended k u) := .ended hf hwire hr
  rcases hbist : s.inBist k u with _ | _
  · rcases hcycle : s.cycleAt k u with _ | ⟨n, sp⟩
    · obtain ⟨sw0, sw1, hread⟩ := contextRead_of_idle hnext hwire hbist hcycle
      rw [hread]
      exact he.inContext _ hm hf
    · rw [contextRead_of_cycle hnext hwire hbist hcycle]
      exact he.inContext _ hm hf
  · rw [contextRead_of_bist hnext hwire hbist]
    exact he.modFab _ hf

end Sys2Proof.Machine
end

section
/-! Clocking wires, residue injection, the reload of a Z-bus, and the events of the fabric together (R89, R115, R136, R142, R154, R163). -/

namespace Sys2Proof.Machine

variable {m : May} {s t : State} {k : Nat}

/-! ### Edges on a clocking wire (R136) -/

theorem wireEdge_of_other {c : Nat} (h : ctxWclk (s.effWord k c) = false ∨ s.wireLevel k c = ctxWedge (s.effWord k c)) : s.wireEdge k c = false := by
  unfold State.wireEdge
  dsimp only
  split
  · rcases h with h | h
    · rw [h]
      rfl
    · rw [h, bne_self_eq_false, Bool.and_false]
  · rfl

theorem wireLoad_cell (c d : Nat) : ((s.wireLoad k c).getFab k).cell d
    = if d = c then ((s.getFab k).cell c).put 16 (Config.freeWord s.free) else (s.getFab k).cell d := by
  unfold State.wireLoad
  rw [sampleIfc_getFab, State.setFab_getFab, if_pos rfl]
  exact Sparse.get_set ..

theorem Only.wireLoad (c : Nat) (h : Only m s t) (hs : m.site k) (hf : m.fab k) (hfree : m.free) : Only m s (t.wireLoad k c) :=
  ((h.tickFree hfree).setFab _ hf).sampleIfc hs

theorem wireClockEdge_answers {k : SiteIx} {plane : Bool} {x y : BitVec 6} (hlive : (s.getFab k).live = true) (hruns : s.fabRuns k = true)
    (hedge : s.wireEdge k (cellAt plane x y) = true) : Answers (.wireClockEdge k plane x y) s (fun t =>
      ((t.getFab k).cell (cellAt plane x y)).o0 = Config.freeWord s.free
        ∧ ((t.getFab k).cell (cellAt plane x y)).w = ((s.getFab k).cell (cellAt plane x y)).w
        ∧ ((t.getFab k).cell (cellAt plane x y)).o1 = ((s.getFab k).cell (cellAt plane x y)).o1
        ∧ (∀ d, d ≠ cellAt plane x y → (t.getFab k).cell d = (s.getFab k).cell d)
        ∧ Only { site := fun j => j = k, fab := fun j => j = k, free := True } s t) := by
  have hexec : exec (.wireClockEdge k plane x y) s = fin s (s.wireLoad k (cellAt plane x y)) :=
    congrArg (fin s) (if_pos (by rw [hruns, hlive]; exact hedge))
  have hcell (d : Nat) := (congrArg (fun f : Fabric => f.cell d) (State.settle_getFab s (s.wireLoad k (cellAt plane x y)) k)).trans
    (wireLoad_cell (s := s) (k := k) (cellAt plane x y) d)
  have hmine := (hcell (cellAt plane x y)).trans (if_pos rfl)
  refine .of_fin hexec ⟨?_, ?_, ?_, fun d hd => (hcell d).trans (if_neg hd), Only.settle s ((Only.refl _ s).wireLoad _ rfl rfl trivial)⟩
  · exact (congrArg Cell.o0 hmine).trans rfl
  · exact (congrArg Cell.w hmine).trans rfl
  · exact (congrArg Cell.o1 hmine).trans rfl

theorem wireClockEdge_other {k : SiteIx} {plane : Bool} {x y : BitVec 6} (h : ctxWclk (s.effWord k (cellAt plane x y)) = false
      ∨ s.wireLevel k (cellAt plane x y) = ctxWedge (s.effWord k (cellAt plane x y))) :
    Answers (.wireClockEdge k plane x y) s (fun t => Only {} s t) := by
  have hnot : (s.fabRuns k && (s.getFab k).live && s.wireEdge k (cellAt plane x y)) = false := by rw [wireEdge_of_other h, Bool.and_false]
  exact .of_fin (congrArg (fin s) (if_neg (by rw [cellAt] at hnot; rw [hnot]; decide))) (Only.settle s (.refl _ s))

/-! ### Residue injection (R142) -/

/-- The word of a write of FAB_RES_INJECT that names a cell by its physical column. -/
def injectWord (k : SiteIx) (plane : Bool) (col : BitVec 7) (row : BitVec 6) : Nat :=
  k * 2 ^ 19 + (if plane then 2 ^ 18 else 0) + col.toNat * 2 ^ 11 + row.toNat * 2 ^ 5

section Inject
variable {req : Requester} {k : SiteIx} {plane : Bool} {col : BitVec 7} {row : BitVec 6}

theorem injectWord_lt : injectWord k plane col row < 2 ^ 23 := by
  have := k.isLt
  have := col.isLt
  have := row.isLt
  unfold injectWord
  split <;> omega

theorem injectWord_column : injectWord k plane col row / 2 ^ 11 % 2 ^ 7 = col.toNat := by
  have := col.isLt
  have := row.isLt
  unfold injectWord
  split <;> omega

theorem injectWord_low : injectWord k plane col row % 2 ^ 5 = 0 := by
  unfold injectWord
  split <;> omega

/-- The address fields of the word pass its write. -/
theorem inject_fields {n : Nat} (hn : n < 2 ^ 23) (hlow : n % 2 ^ 5 = 0) :
    BitVec.ofNat 32 (2 ^ 30 + n) &&& 0x007FFFE0#32 = BitVec.ofNat 32 n := by
  have hmask (i : Nat) : Nat.testBit 0x007FFFE0 i = (decide (5 ≤ i) && decide (i < 23)) := by
    rw [show 0x007FFFE0 = (2 ^ 18 - 1) <<< 5 from rfl, Nat.testBit_shiftLeft, Nat.testBit_two_pow_sub_one]
    grind
  refine BitVec.eq_of_getLsbD_eq fun i hi => ?_
  simp only [BitVec.getLsbD_and, BitVec.getLsbD_ofNat, hi, decide_true, Bool.true_and, hmask]
  by_cases hhigh : i < 23
  · rw [Nat.testBit_two_pow_add_gt (by omega)]
    by_cases hlo : 5 ≤ i
    · simp [hhigh, hlo]
    · have hbit := Nat.testBit_mod_two_pow n 5 i
      rw [hlow, Nat.zero_testBit, decide_eq_true (by omega : i < 5), Bool.true_and] at hbit
      rw [← hbit, Bool.false_and]
  · rw [Nat.testBit_lt_two_pow (hn.trans_le (Nat.pow_le_pow_right (by decide) (Nat.not_lt.mp hhigh)))]
    simp [hhigh]

theorem setPending {n : Nat} (hn : n < 2 ^ 31) : setFldOf (BitVec.ofNat 32 n) 31 1 1 = BitVec.ofNat 32 (n + 2 ^ 31) := by
  refine BitVec.eq_of_getLsbD_eq fun i hi => ?_
  rw [setFldOf_getLsbD _ _ _ _ _ (by decide), Nat.add_comm n]
  simp only [BitVec.getLsbD_ofNat, hi, decide_true, Bool.true_and]
  split
  next h =>
    rw [show i = 31 by omega, Nat.testBit_two_pow_add_eq, Nat.testBit_lt_two_pow hn]
    rfl
  next h => rw [Nat.testBit_two_pow_add_gt (Nat.lt_of_not_le fun h31 => h ⟨h31, trivial⟩)]

/-- The word that the command writes: go, and the address fields. -/
def injectGo (k : SiteIx) (plane : Bool) (col : BitVec 7) (row : BitVec 6) : Word := BitVec.ofNat 32 (2 ^ 30 + injectWord k plane col row)

theorem injectGo_go : (injectGo k plane col row).getLsbD 30 = true := by
  rw [injectGo, BitVec.getLsbD_ofNat, Nat.testBit_two_pow_add_eq, Nat.testBit_lt_two_pow (injectWord_lt.trans (by decide))]
  rfl

theorem injectGo_column : fldOf (injectGo k plane col row) 11 7 = col.toNat := by
  have hlt : injectWord k plane col row < 2 ^ 23 := injectWord_lt
  have hcol : injectWord k plane col row / 2 ^ 11 % 2 ^ 7 = col.toNat := injectWord_column
  rw [fldOf, injectGo, BitVec.toNat_ofNat, ← hcol]
  omega

theorem exec_residueInject (hreach : s.reaches req = true) : exec (.residueInject req k plane col row) s
    = fin s ((s.txn req.toNat).resInject req (injectGo k plane col row) (decide (0 < s.keyLeft req.toNat))) := by
  refine congrArg (fin s) ((State.onKeyed_of_reaches _ hreach).trans ?_)
  rw [injectGo, injectWord, ← Nat.add_assoc, ← Nat.add_assoc, ← Nat.add_assoc]

/-- No injection is pending: the write stores its address fields, and arms the injection where the column exists. -/
theorem resInject_of_idle (hidle : s.bit Reg.fabResInject 31 = false) : s.resInject req (injectGo k plane col row) true
    = if col.toNat ≤ 64 then (s.wr Reg.fabResInject (BitVec.ofNat 32 (injectWord k plane col row))).setBit Reg.fabResInject 31 true
      else s.wr Reg.fabResInject (BitVec.ofNat 32 (injectWord k plane col row)) := by
  have hold : s.rd Reg.fabResInject &&& 0x80000000#32 = 0#32 := by
    rw [show (0x80000000#32 : BitVec 32) = BitVec.twoPow 32 31 from rfl, BitVec.and_twoPow]
    exact if_neg (Bool.eq_false_iff.mp hidle)
  have hword : (s.rd Reg.fabResInject &&& 0x80000000#32) ||| (injectGo k plane col row &&& 0x007FFFE0#32)
      = BitVec.ofNat 32 (injectWord k plane col row) := by
    rw [hold, injectGo, inject_fields injectWord_lt injectWord_low, BitVec.zero_or]
  unfold State.resInject
  simp only [Bool.not_true, Bool.false_eq_true, if_false, hidle, Bool.false_and, hword, injectGo_go, injectGo_column, Bool.true_and,
    decide_eq_true_eq]

theorem residueInject_armed (hreach : s.reaches req = true) (hkey : decide (0 < s.keyLeft req.toNat) = true)
    (hidle : s.bit Reg.fabResInject 31 = false) : Answers (.residueInject req k plane col row) s (fun t =>
      t.rd Reg.fabResInject = BitVec.ofNat 32 (injectWord k plane col row + (if col.toNat ≤ 64 then 2 ^ 31 else 0))
        ∧ Only { reg := fun r => r = Reg.fabResInject, key := fun r => r = req.toNat } s t) := by
  have hexec := exec_residueInject (k := k) (plane := plane) (col := col) (row := row) hreach
  have htxn : Only { reg := fun r => r = Reg.fabResInject, key := fun r => r = req.toNat } s (s.txn req.toNat) := (Only.refl _ s).txn rfl
  rw [hkey, resInject_of_idle (s := s.txn req.toNat) hidle] at hexec
  by_cases hcol : col.toNat ≤ 64
  · rw [if_pos hcol] at hexec
    refine .of_fin hexec ⟨?_, Only.settle s ((htxn.wr _ rfl).setBit _ _ rfl)⟩
    rw [State.settle_rd, State.setBit_rd, if_pos rfl, State.wr_rd, if_pos rfl, if_pos hcol]
    exact setPending (injectWord_lt.trans (by decide))
  · rw [if_neg hcol] at hexec
    refine .of_fin hexec ⟨?_, Only.settle s (htxn.wr _ rfl)⟩
    rw [State.settle_rd, State.wr_rd, if_pos rfl, if_neg hcol, Nat.add_zero]

/-- One injection at a time: the write of another is without effect. -/
theorem residueInject_pending (hreach : s.reaches req = true) (hkey : decide (0 < s.keyLeft req.toNat) = true)
    (hbusy : s.bit Reg.fabResInject 31 = true) :
    Answers (.residueInject req k plane col row) s (fun t => Only { key := fun r => r = req.toNat } s t) := by
  have hsame : (s.txn req.toNat).resInject req (injectGo k plane col row) true = s.txn req.toNat := by
    have hbit : (s.txn req.toNat).bit Reg.fabResInject 31 = true := hbusy
    unfold State.resInject
    simp only [Bool.not_true, Bool.false_eq_true, if_false, hbit, injectGo_go, Bool.and_self, if_true]
  refine .of_fin ((exec_residueInject hreach).trans ?_) (Only.settle s ((Only.refl _ s).txn rfl))
  rw [hkey, hsame]

theorem residueInject_refused (hreach : s.reaches req = true) (hkey : decide (0 < s.keyLeft req.toNat) = false) :
    Answers (.residueInject req k plane col row) s (fun t => t.bit Reg.glbKeyErr 31 = true
      ∧ Only { reg := fun r => r = Reg.glbKeyErr ∨ r = Reg.glbKeyCnt, key := fun r => r = req.toNat } s t) := by
  have hrefuse : (s.txn req.toNat).resInject req (injectGo k plane col row) false = (s.txn req.toNat).keyRefused req.toNat Reg.fabResInject := rfl
  refine .of_fin ((exec_residueInject hreach).trans ?_) ⟨?_, Only.settle s (((Only.refl _ s).txn rfl).keyRefused (req := req.toNat)
    (a := Reg.fabResInject) (.inl rfl) (.inr rfl))⟩
  · rw [hkey, hrefuse]
  · exact (State.settle_bit ..).trans (State.keyRefused_bit ..)

end Inject

/-! ### The reload of a Z-bus (R154) -/

/-- Every row of the golden copy can be read, and finds its frame. -/
structure State.GoldenReads (s : State) : Prop where
  tile : s.tileEnabled 15 = true
  up : ∀ v, 240 ≤ v → v < 256 → s.vltState v = 2 ∧ (s.getVault v).goldenBad = []

theorem State.GoldenReads.read (h : s.GoldenReads) (f : Nat) : s.goldenRead f false = (s, false) := by
  obtain ⟨hstate, hbad⟩ := h.up (goldenRow f).1 (by simp only [goldenRow]; omega) (by simp only [goldenRow]; omega)
  have htile : s.tileEnabled ((goldenRow f).1 / 16) = true := by
    rw [show (goldenRow f).1 / 16 = 15 by simp only [goldenRow]; omega]
    exact h.tile
  have hrow : s.rowRefused (goldenRow f).1 (goldenRow f).2 = some 7 ∨ s.rowRefused (goldenRow f).1 (goldenRow f).2 = none := by
    unfold State.rowRefused
    rw [hstate, htile]
    simp only [Bool.not_true]
    split <;> simp_all
  unfold State.goldenRead
  dsimp only
  rw [hbad]
  rcases hrow with hrow | hrow
  · rw [hrow]
    rfl
  · rw [hrow]
    rfl

theorem State.GoldenReads.fromGolden (h : s.GoldenReads) {f : Nat} (hvalid : s.goldenValid (f / 32768) = true) :
    s.fromGolden f false = (s.putFrame f (Sparse.get (fun _ => 0) s.ctl.golden f), true) := by
  rw [State.fromGolden, if_pos hvalid, h.read]

/-- The reload of the frames of a bus, and whether all of them were rewritten. -/
def State.reloadFrames (s : State) (poison : Bool) (l : List Nat) (ok : Bool) : State × Bool :=
  l.foldl (fun (p : State × Bool) f =>
    let (t, ok) := p.1.fromGolden f poison
    if ok then (t, p.2) else (t.reloadFailed f false, false)) (s, ok)

/-- The frames have been rewritten from the golden copy. -/
def State.rewritten (s : State) (l : List Nat) : State := l.foldl (fun s f => s.putFrame f (Sparse.get (fun _ => 0) s.ctl.golden f)) s

theorem reloadFrames_good {l : List Nat} (h : s.GoldenReads) (hvalid : ∀ f ∈ l, s.goldenValid (f / 32768) = true) :
    s.reloadFrames false l true = (s.rewritten l, true) := by
  unfold State.reloadFrames State.rewritten
  induction l generalizing s with
  | nil => rfl
  | cons f l ih =>
    rw [List.foldl_cons, List.foldl_cons]
    dsimp only
    rw [h.fromGolden (hvalid f (.head _))]
    exact ih (s := s.putFrame f _) ⟨h.tile, h.up⟩ fun g hg => hvalid g (.tail _ hg)

theorem rewritten_golden (l : List Nat) : (s.rewritten l).ctl.golden = s.ctl.golden := by
  unfold State.rewritten
  induction l generalizing s with
  | nil => rfl
  | cons f l ih => exact (ih (s := s.putFrame f _)).trans rfl

theorem rewritten_getFrame (l : List Nat) (g : Nat) :
    (s.rewritten l).getFrame g = if g ∈ l then Sparse.get (fun _ => 0) s.ctl.golden g else s.getFrame g := by
  unfold State.rewritten
  induction l generalizing s with
  | nil => rfl
  | cons f l ih =>
    have hput : (s.putFrame f (Sparse.get (fun _ => 0) s.ctl.golden f)).getFrame g
        = if g = f then Sparse.get (fun _ => 0) s.ctl.golden f else s.getFrame g := Sparse.get_set ..
    rw [List.foldl_cons, ih, hput]
    by_cases hg : g ∈ l
    · rw [if_pos hg, if_pos (.tail _ hg)]
      rfl
    · by_cases hf : g = f
      · rw [if_neg hg, if_pos hf, if_pos (hf ▸ .head _), hf]
      · rw [if_neg hg, if_neg hf, if_neg fun h => (List.mem_cons.mp h).elim hf hg]

theorem Only.rewritten (l : List Nat) (h : Only m s t) (hc : m.ctl) : Only m s (t.rewritten l) := h.foldl fun _ _ hu => hu.setCtl hc

theorem rewritten_getFab (l : List Nat) (j : Nat) : (s.rewritten l).getFab j = s.getFab j := ((Only.refl { ctl := True } s).rewritten l trivial).fab j id

/-- What a reload may report that finds no golden copy. -/
def failMay : May := { reg := fun r => r = Reg.safEvtCnt, queue := fun q => q = Reg.safEvtLog }

/-- Without a golden copy no frame is rewritten. -/
theorem reloadFrames_lost {l : List Nat} {poison ok : Bool} (h : Only failMay s t) (hvalid : ∀ f ∈ l, s.goldenValid (f / 32768) = false) :
    ∃ u, Only failMay s u ∧ t.reloadFrames poison l ok = (u, ok && l.isEmpty) := by
  unfold State.reloadFrames
  induction l generalizing t ok with
  | nil => exact ⟨t, h, by simp⟩
  | cons f l ih =>
    have hlost : t.goldenValid (f / 32768) = false := by
      have hreg : t.rd (Reg.cfgRegion (f / 32768)) = s.rd (Reg.cfgRegion (f / 32768)) :=
        h.reg _ (by simp only [failMay, Reg.cfgRegion, Reg.safEvtCnt]; omega)
      rw [State.goldenValid, State.bit, hreg]
      exact hvalid f (.head _)
    have hcopy : t.fromGolden f poison = (t, false) := if_neg (by rw [hlost]; decide)
    rw [List.foldl_cons]
    dsimp only
    rw [hcopy]
    obtain ⟨u, hu, heq⟩ := ih (t := t.reloadFailed f false) (ok := false) (h.safEvent _ _ rfl rfl) fun g hg => hvalid g (.tail _ hg)
    exact ⟨u, hu, heq.trans (by simp)⟩

section Reload
variable {k : SiteIx} {block : BitVec 8} {bus : BitVec 2} {poison : Bool} {o : BusOff}

theorem exec_zbusReloadDone (hiso : s.bit Reg.nocIsoStat 5 = false)
    (hoff : (s.getFab k).busOff.find? (fun o => o.bus == 4 * block.toNat + bus.toNat && !o.permanent) = some o) :
    exec (.zbusReloadDone k block bus poison) s = fin s (if (s.reloadFrames poison o.frames true).2 then
        ((s.reloadFrames poison o.frames true).1.modFab k (fun f => { f with busOff := f.busOff.filter (fun q => q != o) })).showBusOff k
      else (s.reloadFrames poison o.frames true).1) := by
  refine congrArg (fin s) ?_
  simp only [hiso, Bool.not_false, Bool.and_true, hoff]
  rfl

theorem zbusReloadDone_resumes (hiso : s.bit Reg.nocIsoStat 5 = false)
    (hoff : (s.getFab k).busOff.find? (fun o => o.bus == 4 * block.toNat + bus.toNat && !o.permanent) = some o)
    (hregion : ∀ g ∈ o.frames, g / 32768 = k.val) (hvalid : s.goldenValid k = true) (hreads : s.GoldenReads) :
    Answers (.zbusReloadDone k block bus false) s (fun t => (t.getFab k).busOff = (s.getFab k).busOff.filter (fun q => q != o)
      ∧ (∀ g ∈ o.frames, t.getFrame g = Sparse.get (fun _ => 0) s.ctl.golden g)
      ∧ Only { reg := fun r => r = Reg.fabZbusStat, fab := fun j => j = k, ctl := True } s t) := by
  have hgood := reloadFrames_good hreads fun f hf => (congrArg s.goldenValid (hregion f hf)).trans hvalid
  have hexec := exec_zbusReloadDone (poison := false) hiso hoff
  rw [hgood, if_pos rfl] at hexec
  refine .of_fin hexec ⟨?_, fun g hg => ?_, Only.settle s ((((Only.refl _ s).rewritten _ trivial).modFab _ rfl).setBit _ _ rfl)⟩
  · rw [State.settle_getFab, State.showBusOff, State.setBit, State.setFld, State.wr_getFab, State.modFab_getFab, if_pos rfl, rewritten_getFab]
  · have hframe := (rewritten_getFrame (s := s) o.frames g).trans (if_pos hg)
    rw [State.getFrame] at hframe ⊢
    rw [State.settle_ctl, State.showBusOff, State.setBit, State.setFld, State.wr_ctl, State.modFab_ctl, hframe]

theorem zbusReloadDone_lost (hiso : s.bit Reg.nocIsoStat 5 = false)
    (hoff : (s.getFab k).busOff.find? (fun o => o.bus == 4 * block.toNat + bus.toNat && !o.permanent) = some o)
    (hregion : ∀ g ∈ o.frames, g / 32768 = k.val) (hsome : o.frames ≠ []) (hlost : s.goldenValid k = false) :
    Answers (.zbusReloadDone k block bus poison) s (fun t => Only failMay s t) := by
  obtain ⟨u, hu, heq⟩ := reloadFrames_lost (poison := poison) (ok := true) (Only.refl failMay s)
    fun f hf => (congrArg s.goldenValid (hregion f hf)).trans hlost
  have hexec := exec_zbusReloadDone (poison := poison) hiso hoff
  rw [heq, List.isEmpty_eq_false_iff.mpr hsome, if_neg (by simp)] at hexec
  exact .of_fin hexec (Only.settle s hu)

end Reload

/-- What the read of a context may change: what its buses and the reads that land report, and the region itself. -/
def contextMay (k : Nat) (reads : List WinRead) : May :=
  { reg := fun r => r = Reg.fabZbusStat ∨ r = Reg.safEvtCnt ∨ r = Reg.fabRwStat ∨ ∃ j, (j = k ∨ ∃ p ∈ reads, j = p.vault / 16) ∧ integRegs j r
    queue := fun q => q = Reg.fabZbusLog ∨ q = Reg.safEvtLog
    site := fun j => j = k ∨ ∃ p ∈ reads, j = p.vault / 16, fab := fun j => j = k }

theorem contextMay_monitors (k : Nat) (reads : List WinRead) : (contextMay k reads).Monitors k :=
  ⟨.inl rfl, .inr (.inl rfl), .inl rfl, .inr rfl, .inl rfl, fun _ h => .inr (.inr (.inr ⟨k, .inl rfl, h⟩))⟩

theorem contextMay_lands {k : Nat} {reads : List WinRead} {r : WinRead} (hr : r ∈ reads) : (contextMay k reads).Lands (r.vault / 16) :=
  ⟨.inr (.inr (.inl rfl)), .inr ⟨r, hr, rfl⟩, fun _ h => .inr (.inr (.inr ⟨_, .inr ⟨r, hr, rfl⟩, h⟩))⟩

theorem contextRead_answers {k : SiteIx} {u : Nat} (hruns : s.fabRuns k = true) (hdue : (s.getFab k).live = false ∨ (s.getFab k).now < u)
    (hnext : ((s.getFab k).next.map Prod.fst).Nodup) (hwire : (s.wireClocked k).find? (s.wireEdge k) = none) :
    Answers (.contextRead k u [] [] []) s (fun t => ContextIn s t k u ∧ Only (contextMay k (s.getFab k).winReads) s t) := by
  have hguard : (s.fabRuns k && (!(s.getFab k).live || decide ((s.getFab k).now < u))) = true := by
    simpa [hruns] using hdue
  have hin := contextRead_in (u := u) hnext hwire
  refine .of_fin (congrArg (fin s) (if_pos hguard)) ⟨⟨hin.now, hin.cell, hin.next, hin.bist, hin.cycle, hin.idle⟩, Only.settle s ?_⟩
  exact .contextRead (contextMay_monitors ..) rfl hnext hwire fun r hr => contextMay_lands hr

/-- Settles O26: each event of the fabric by what it reads of the region's state. -/
theorem fabricEvents : Obligations.FabricEvents := by
  unfold Obligations.FabricEvents
  intro req k plane poison x y row col u block bus s
  refine ⟨fun hruns hdue hnext hwire => ?_, wireClockEdge_answers, wireClockEdge_other, residueInject_armed, residueInject_pending,
    residueInject_refused, fun o hiso hoff hregion => ⟨fun hpoison hvalid htile hup => ?_, fun hsome hlost => ?_⟩⟩
  · refine (contextRead_answers hruns hdue hnext hwire).imp fun t ⟨h, honly⟩ => ?_
    exact ⟨h.now, h.cell, h.next, h.bist, h.cycle, h.idle, honly⟩
  · exact hpoison ▸ zbusReloadDone_resumes hiso hoff hregion hvalid ⟨htile, hup⟩
  · exact zbusReloadDone_lost hiso hoff hregion hsome hlost

end Sys2Proof.Machine
end
